-- ==== Sys2Proof/Word.lean ====
section
/-! DEFINITION. Word types of the HKD60 model: what the manual treats as bits is a `BitVec`, what it
counts or indexes is a `Nat` or a `Fin`. -/

namespace Sys2Proof

/-- One byte. -/
abbrev Byte := BitVec 8

/-- A 32-bit register word (R12: bit 0 is the least significant bit). -/
abbrev W32 := BitVec 32

/-- A 64-bit register word. -/
abbrev W64 := BitVec 64

/-- The 2,048 data bits of one configuration frame (R239). -/
abbrev Frame := BitVec 2048

/-- A logical grain position L00–L59 (R14). -/
abbrev Pos := Fin 60

/-- A physical grain number 0–63 (R14). -/
abbrev Phys := Fin 64

/-- A memory channel M0–M15. -/
abbrev Chan := Fin 16

/-- A floor number 0–63 (R265). -/
abbrev Floor := Fin 64

/-- A register-visible lane number 8n + i of lane i of Ln (R430). -/
abbrev Lane := Fin 480

/-- A timer channel (R418). -/
abbrev Timer := Fin 1024

/-- A window number (R422). -/
abbrev Window := Fin 64

/-- A cask number (R459). -/
abbrev Cask := Fin 1024

/-- An event source number (R466, R467). -/
abbrev EvSrc := Fin 1152

/-- A protected-region number (R357). -/
abbrev Region := Fin 64

/-- A key ID (R366). -/
abbrev KeyId := Fin 64

end Sys2Proof
end

