-- ==== Sys2Proof/Syntax.lean ====
section
/-! DEFINITION. The commands of the HKD60: one constructor per row of opcode_table.json, with the
operands the step takes from outside (what a pin shows, what a reader returns, what software writes). -/

namespace Sys2Proof

/-- The three monitored reference inputs (R145). -/
inductive RefIn where
  | refclk | refclk2 | trimref
  deriving DecidableEq, Repr

/-- A die-link port of a grain; the codes are 0 N, 1 E, 2 S, 3 W (R38, R240). -/
inductive GPort where
  | n | e | s | w
  deriving DecidableEq, Repr

/-- Port number: 0 N, 1 E, 2 S, 3 W. -/
def GPort.num : GPort → Nat
  | .n => 0 | .e => 1 | .s => 2 | .w => 3

/-- A die that answers discovery (R216). -/
inductive Die where
  | grain (p : Phys) | store (k : Fin 2) | guest (k : Fin 2)
  deriving DecidableEq, Repr

/-- What a die's discovery answer carries (R216). -/
structure Answer where
  serial : W64
  type   : BitVec 4
  grade  : BitVec 2
  /-- buffer size and count minus 1 that the receiver of a guest or store port advertises at link start (R317) -/
  buf    : BitVec 2
  cnt    : BitVec 4
  deriving DecidableEq, Repr

/-- What the SPD of a DIMM says, as far as R332 reads it. -/
structure Spd where
  /-- every line of R332 that is not one of the fields below is met -/
  otherwiseSupported : Bool
  x8      : Bool
  ranks2  : Bool
  /-- 0 = 16, 1 = 24, 2 = 32 Gbit -/
  density : Fin 3
  /-- 0 = 4800, 1 = 5600, 2 = 6400 MT/s -/
  rate    : Fin 3
  deriving DecidableEq, Repr

/-- The agent of a register access or packet: its node and its device (R300, R306). -/
structure Agent where
  node : BitVec 7
  dev  : BitVec 8
  deriving DecidableEq, Repr

/-- A register access at a BAR0 offset (R504–R513). A read leaves `data` unused. -/
structure Access where
  offset : BitVec 26
  /-- bytes accessed -/
  len    : Nat
  write  : Bool
  /-- a WRM or WRMP (R511) -/
  masked : Bool
  posted : Bool
  data   : W64
  src    : Agent
  tag    : BitVec 12
  deriving DecidableEq, Repr

/-- A gated access is one to a BAR0 unit or to BAR4 (R167). -/
inductive GateTarget where
  | bar0 (a : Access)
  | bar4 (offset : BitVec 41) (write : Bool) (tag : BitVec 12)
  deriving DecidableEq, Repr

/-- Virtual networks (R306). -/
inductive Vn where
  | req | rsp | coh | evt
  deriving DecidableEq, Repr

/-- Packet opcodes of the REQ, RSP and EVT networks (R307). -/
inductive Opc where
  | rd | wr | wrp | wrm | wrmp | resv | rdata | wcmp | grant | evt
  | other (code : BitVec 4)
  deriving DecidableEq, Repr

/-- A packet: the header fields of R306, and its data as bytes from ADDR on (for WRM and WRMP the 64
bytes of the line). -/
structure Packet where
  dnode  : BitVec 7
  dep    : BitVec 3
  ddev   : BitVec 8
  snode  : BitVec 7
  sep    : BitVec 3
  sdev   : BitVec 8
  vn     : Vn
  opc    : Opc
  tag    : BitVec 12
  age    : BitVec 16
  addr   : BitVec 48
  lenm1  : BitVec 12
  phint  : BitVec 2
  status : BitVec 4
  segno  : BitVec 2
  split  : Bool
  wmask  : BitVec 64
  data   : List Byte
  deriving DecidableEq, Repr

/-- Payload of an event message packet (R470). -/
structure EvtMsg where
  ekind   : BitVec 2
  evnum   : BitVec 11
  agent   : BitVec 7
  tbit    : BitVec 5
  payload : W64
  deriving DecidableEq, Repr

/-- An isolatable target (R321): a port or endpoint of a grain router, or a target of a Tun router. -/
inductive Target where
  | port (p : Phys) (d : GPort)
  | dnp (p : Phys) (k : Fin 2)
  | home (p : Phys)
  /-- nodes G0, G1, S0, S1 -/
  | ext (k : Fin 4)
  /-- Tun ports W (TN2) and E (TN3) -/
  | link (k : Fin 2)
  /-- the egress port of a wort link (R455) -/
  | wort (k : Fin 120)
  deriving DecidableEq, Repr

/-- A tile of a logical position (R33). -/
structure Tile where
  pos : Pos
  col : Fin 192
  row : Fin 128
  deriving DecidableEq, Repr

/-- What the wires arriving at a tile carry (R69–R78), with the tile's own settled outputs O and TCO and
the carry-out of cell 15 of the tile to the south (R58). Index of a single is 16d + s, of a quad 8d + q,
of a dozen 4d + z. -/
structure Arrivals where
  sng      : BitVec 64
  quadNear : BitVec 32
  quadFar  : BitVec 32
  dozMid   : BitVec 16
  dozFar   : BitVec 16
  h        : BitVec 16
  v        : BitVec 16
  o        : BitVec 16
  tco      : Bool
  prevCo   : Bool
  deriving DecidableEq, Repr

/-- A span segment of one track (R77): `line` is the tile row of a horizontal or the tile column of a
vertical track. -/
structure Span where
  vert  : Bool
  line  : Fin 192
  seg   : Fin 12
  track : Fin 16
  deriving DecidableEq, Repr

/-- A RAM72 or DEEP2M block of a grain (R240 numbering). -/
inductive Block where
  | ram72 (k : Fin 288)
  | deep2m (k : Fin 8)
  deriving DecidableEq, Repr

/-- How an access meets the other port's latest access (R103). -/
inductive Coll where
  | none
  /-- the two ports are on one clock, same edge -/
  | oneClock
  /-- different clocks, edges within tCOLL -/
  | twoClocks
  deriving DecidableEq, Repr

/-- Input pins of a block port at an active edge (R95). -/
structure BPins where
  portB : Bool
  addr  : BitVec 18
  di    : BitVec 72
  be    : BitVec 8
  en    : Bool
  oce   : Bool
  rsto  : Bool
  coll  : Coll
  deriving DecidableEq, Repr

/-- Input pins of a slice at an active edge, less the OPC field of OP (R118, R121). -/
structure SPins where
  split : BitVec 2
  sat   : Bool
  ysrc  : Bool
  agadv : Bool
  neg   : Bool
  rnd   : Bool
  asrc  : Bool
  a     : BitVec 24
  ax    : BitVec 8
  b     : BitVec 24
  bx    : BitVec 8
  ce    : Bool
  deriving DecidableEq, Repr

/-- A slice of a position: index SLICE24 column × 64 + anchor row / 2 (R240). -/
structure SliceRef where
  pos : Pos
  idx : Fin 512
  deriving DecidableEq, Repr

/-- A stored word an upset may hit (R104, R128). -/
inductive StoredWord where
  | ram72 (k : Fin 288) (row : Fin 1024)
  | deep2m (k : Fin 8) (word : Fin 32768)
  | coeff (slice : Fin 512) (word : Fin 1024)
  deriving DecidableEq, Repr

/-- Who scheduled a pitch (R290). -/
inductive PitchRef where
  /-- software entry 0–15 -/
  | sw (k : Fin 16)
  /-- the Kiln's entry -/
  | kiln
  /-- Ndoec firmware's entry -/
  | fw
  /-- CAPSEL instance -/
  | capsel (k : Fin 4)
  /-- a timer channel with DEST = 3 -/
  | timer (c : Timer)
  deriving DecidableEq, Repr

/-- The selection a pitch carries (R294). -/
structure Selection where
  floors : BitVec 64
  base   : Bool
  pos    : BitVec 60
  deriving DecidableEq, Repr

/-- The request of a remap (R224). -/
inductive RemapReq where
  /-- a write of DIE_REMAPCTL -/
  | host (w : W32)
  /-- a die-link fault between these two positions -/
  | linkFault (a b : Pos)
  deriving DecidableEq, Repr

/-- What Ndoec firmware finds of a remap's paths (R222, R223, R197). -/
structure PathFacts where
  /-- a path of at most 9 hops with enough transit lanes exists for every logical link -/
  pathOk : Bool
  /-- every rigid crossing keeps both copies -/
  pairOk : Bool
  deriving DecidableEq, Repr

/-- An incoming link direction: port d of the receiving grain p, or an incoming port of the Tun, numbered as DIE_TLNKSTAT
numbers them (0 W, 1 E, 2 G0, 3 S0, 4 G1, 5 S1). -/
inductive LinkDir where
  | grain (p : Phys) (d : GPort)
  | tun (k : Fin 6)
  deriving DecidableEq, Repr

/-- One link direction of a crossing's PATH: the receiving position, its incoming port, and the RIDX or CHAN assigned on it
(R171, R177). -/
structure Hop where
  pos  : Pos
  port : GPort
  idx  : Fin 1024
  deriving DecidableEq, Repr

/-- An elastic crossing as Pento compiled it (R177): its source and the link directions of its PATH, the destination's last. -/
structure XeRef where
  src  : Pos
  hops : List Hop
  deriving DecidableEq, Repr

/-- A rigid crossing as Pento compiled it (R171): its source and the link directions of its PATH, the destination's last. -/
structure XrRef where
  src  : Pos
  hops : List Hop
  deriving DecidableEq, Repr

/-- A design NoC port. -/
structure DnpRef where
  pos : Pos
  k   : Fin 2
  deriving DecidableEq, Repr

/-- The initiator request signals of a DNP, all beats of one request (R327). -/
structure DnpReq where
  ddev  : BitVec 8
  addr  : BitVec 48
  lenm1 : BitVec 12
  opc   : BitVec 4
  tag   : BitVec 8
  phint : BitVec 2
  wmask : BitVec 64
  data  : List Byte
  deriving DecidableEq, Repr

/-- The target response signals of a DNP, all beats of one response (R327). -/
structure DnpRsp where
  id     : BitVec 8
  status : BitVec 4
  data   : List Byte
  deriving DecidableEq, Repr

/-- A host access through a BAR (R384). -/
inductive HostBar where
  | bar0 | bar2 | bar4
  deriving DecidableEq, Repr

/-- CXL.mem write kinds. -/
structure MemWrite where
  hpa  : BitVec 52
  mask : BitVec 64
  data : List Byte
  tag  : BitVec 16
  deriving DecidableEq, Repr

/-- Host snoops of the coherent cache (R394). -/
inductive Snoop where
  | snpData | snpInv | snpCur
  deriving DecidableEq, Repr

/-- The host's answer to a request of COH (R390, R394): data and poison, or GO. -/
structure HostAns where
  hpa    : BitVec 52
  go     : Bool
  poison : Bool
  data   : List Byte
  deriving DecidableEq, Repr

/-- A line operation of the protection engines at node 70 (R371). `walkOrInit` is not among them. -/
structure PLine where
  pkt    : Packet
  /-- which line of the request, counted from 0 -/
  k      : Fin 65
  /-- metadata lines and tree nodes dropped from the cache before the operation (R365) -/
  evict  : List (BitVec 48)
  /-- the metadata or tree read came back POISON from its home slice (R373) -/
  mdecc  : Bool
  /-- the data line came back POISON from its home slice (R373) -/
  dataUe : Bool
  deriving DecidableEq, Repr

/-- A decoded DRAM read (R336, R349): which symbols of the codeword were wrong, by device and count, as
the decoder meets them. -/
structure ReadErr where
  /-- (device number, wrong symbols in it); empty for a clean codeword -/
  devs : List (Fin 20 × Fin 17)
  deriving DecidableEq, Repr

/-- The kinds of DRAM command a subchannel may issue (R350). -/
inductive DramCmd where
  | activate (bank : Fin 32) (rank : Bool) (row : BitVec 17)
  /-- `phint` is the hint of the request served (R352), `sameRow` that the bank queue holds another request for the row -/
  | column (bank : Fin 32) (rank : Bool) (isWrite : Bool) (phint : BitVec 2) (sameRow : Bool)
  | precharge (bank : Fin 32) (rank : Bool)
  deriving DecidableEq, Repr

/-- A lane capture (R446): transmit or receive, of a frame number on wort lanes. -/
structure LaneSym where
  lane    : Lane
  tx      : Bool
  sym     : Byte
  isK     : Bool
  frameNo : BitVec 32
  /-- device time of the symbol's reference instant, in 2^-16 ns (R413) -/
  time    : Nat
  /-- at least 16 symbol times after the previous capture of the direction (R414) -/
  spaced  : Bool
  deriving DecidableEq, Repr

/-- One wort cell as received (R449). -/
structure WCell where
  type   : BitVec 3
  vn     : BitVec 2
  seq    : BitVec 8
  ackseq : BitVec 8
  nak    : Bool
  crv    : Bool
  crvn   : BitVec 2
  crcnt  : BitVec 4
  crcOk  : Bool
  flit   : BitVec 512
  deriving DecidableEq, Repr

/-- What the wort discovery finds of one device (R451). -/
structure WDevice where
  serial : W64
  isRoot : Bool
  hops   : Nat
  /-- the number it already holds -/
  held   : Option (BitVec 8)
  deriving DecidableEq, Repr

/-- The far end of a wort link as discovery finds it (R451): a place in the list of devices, a position and a quad. -/
structure WPeer where
  dev  : Nat
  pos  : BitVec 6
  half : Bool
  deriving DecidableEq, Repr

/-- A PWR domain index d (R473). -/
abbrev Domain := Fin 297

/-- Why a domain wakes (R482). -/
inductive WakeCause where
  | request | packet | delivery
  deriving DecidableEq, Repr

/-- The supply rails as far as behaviour names them. -/
inductive Rail where
  | core | link | tun | aux | vcco (pos : Pos) | xcvr | vddq (m : Chan) | store | guest (g : Fin 2)
  deriving DecidableEq, Repr

/-- The commands: one constructor per row of the opcode table, in its order. -/
inductive Instr where
  -- registers and features
  | registerWrite (a : Access)
  | gatedAccess (t : GateTarget)
  | unmappedAccess (a : Access)
  | featureAcknowledge (i : Fin 4) (w : W32)
  | featureLock
  -- reset and clocks
  | perstNAssert
  | perstNDeassert (bootsel : BitVec 2) (cfgpull : Bool)
  | measurementWindowEnd (r : RefIn) (edges : Nat) (continuous : Bool)
  | referenceLossInterval (r : RefIn)
  | rootLock (fwA fwB : Bool)
  | switchComplete
  | rootRelock
  | refselWrite (w : W32)
  | upllReferenceLoss (pos : Pos) (u : Fin 4)
  | upllRelock (pos : Pos) (u : Fin 4)
  | upllUnlock (pos : Pos) (u : Fin 4)
  | trimWindowEnd (m : W32)
  | trimSourceLost
  | troexpWrite (w : W32)
  | troctlWrite (w : W32)
  | grainTroTrimmed (p : Phys)
  | fmStart (w : W32)
  | fmMeasurementDone (count : Nat)
  | fmGateTimeout (count : Nat)
  | clkenWrite (w : W32)
  | unitGated (b : Fin 17)
  | unitUngated (b : Fin 17)
  -- discovery and loading
  | clockAdopted (l : LinkDir)
  | linkTrainingDone (l : LinkDir) (bad : List (Fin 104))
  | discoveryToken (d : Die) (port : GPort)
  | discoveryAnswer (d : Die) (a : Answer)
  | discoveryComplete (adjacencyOk : Bool) (dimms : List (Option Spd))
  | headerCheck
  | trailerCheck
  | frameRecord (pos : Pos) (readError : Bool) (readBack : Option Frame)
  | grainNoProgress (pos : Pos)
  | finalChecks
  | grainClearDone
  | reload (w : W32)
  | heldReloadStart
  | slotProgramStart (w : W32)
  | slotProgramDone (writeFailed memError : Bool)
  | attestationRequest (w : W32)
  | attestationReport
  -- pitches, capture, Sparge
  | pitchSchedule (w : W32)
  | pitchSend (r : PitchRef)
  | releasePitch
  | floorStartPitch
  | floorReleasePitch
  | capturePitch (r : PitchRef)
  | freezePitch (r : PitchRef)
  | thawPitch (r : PitchRef)
  | switchoverPitch
  | abortPitch
  | designPitch (r : PitchRef)
  | captureComplete
  | capselRequest (k : Fin 4) (sel : Selection) (lead : Nat)
  | spargePassStart (pos : Pos)
  | frameCheck (pos : Pos)
  | frameRewrite (pos : Pos) (faddr : W32) (sourceOk : Bool) (readBack : Option Frame)
  | findingPop (w : W32)
  | configUpset (pos : Pos) (faddr : W32) (flips : Frame)
  | spanGateEvent (pos : Pos) (sp : Span)
  | accessReadJob (w : W32)
  | accessWriteJob (w : W32)
  | accessRestoreJob (w : W32)
  | accessFrame (memError : Bool)
  -- floors
  | partialLoadStart (w : W32)
  | partialHeaderCheck
  | floorClearDone
  | partialRecord (pos : Pos) (readError : Bool) (readBack : Option Frame)
  | partialFinalChecks
  | floorBaseRewriteDone (ok : Bool)
  -- repair and die links
  | remapRequest (r : RemapReq) (f : PathFacts)
  | sparePrepared (linkFault : Bool)
  | remapWriteDone (ok : Bool) (oldReadable : Bool)
  | remapFinish
  | holdWrite (w : W64) (lowHalf highHalf : Bool)
  | holdRelease (pos : Pos)
  | grainClockLoss (p : Phys)
  | clockRegained (l : LinkDir)
  | orphan (p : Phys)
  | orphanTimeout (p : Phys)
  | clockLaneLoss (l : LinkDir) (noc : Bool)
  | missingClockDetect (l : LinkDir)
  | marginWindowEnd (l : LinkDir) (lane : Fin 104) (count : Nat)
  | spareCopyRequest (l : LinkDir)
  | spareQualified (l : LinkDir)
  | spareCompareTimeout (l : LinkDir) (spareHadMargin : Bool)
  | laneDeath (l : LinkDir) (lane : Fin 104)
  | deadLaneMoved (l : LinkDir) (lane : Fin 104)
  | foldChange (l : LinkDir)
  | nocFlitReplay (l : LinkDir)
  -- crossings
  | groupCrcFailure (l : LinkDir) (group : Fin 8) (seq : BitVec 7)
  | xePush (x : XeRef) (word : BitVec 512)
  | xePop (x : XeRef)
  | creditReturn (x : XeRef) (n : BitVec 6)
  | wordLanded (x : XeRef)
  | xeResync (x : XeRef)
  -- fabric
  | asyncSetReset (t : Tile) (line : Fin 2)
  | blockRead (pos : Pos) (b : Block) (pins : BPins)
  | blockWrite (pos : Pos) (b : Block) (pins : BPins)
  | outputReset (pos : Pos) (b : Block) (portB : Bool)
  | nop (r : SliceRef) (p : SPins)
  | mul (r : SliceRef) (p : SPins)
  | mac (r : SliceRef) (p : SPins)
  | macc (r : SliceRef) (p : SPins)
  | lda (r : SliceRef) (p : SPins)
  | cwr (r : SliceRef) (p : SPins)
  | agset (r : SliceRef) (p : SPins)
  | acs (r : SliceRef) (p : SPins)
  | minmax (r : SliceRef) (p : SPins)
  | illegalOperation (r : SliceRef) (opc : BitVec 4) (p : SPins)
  | sliceReset (r : SliceRef)
  -- packets
  | rd (p : Packet)
  | wr (p : Packet)
  | wrp (p : Packet)
  | wrm (p : Packet)
  | wrmp (p : Packet)
  | resv (p : Packet)
  | rdata (p : Packet)
  | wcmp (p : Packet)
  | grant (p : Packet)
  | evt (p : Packet) (m : EvtMsg)
  | routeSwitch (w : W32) (src : Agent)
  | routeSwitchDone
  | drainTimeout
  | targetTimeout (t : Target)
  | declareDead (t : Target) (src : Agent)
  | clearIsolation (t : Target) (src : Agent)
  | wakeTimeout (pos : Pos) (home : Bool)
  | dnpRequest (d : DnpRef) (r : DnpReq)
  | dnpResponse (d : DnpRef) (r : DnpRsp)
  | dnpResponseTimeout (d : DnpRef) (id : BitVec 8)
  | barAccess (b : HostBar) (offset : BitVec 41) (write : Bool) (len : Nat) (data : List Byte) (tag : BitVec 10)
  -- device memory
  | trainingStepDone (m : Chan)
  | trainingAttemptFail (m : Chan)
  | trainingTimeout (m : Chan)
  | retrain (m : Chan) (w : W32)
  | retrainPulseEnd (m : Chan)
  | refresh (m : Chan)
  | dramCommandIssue (m : Chan) (sub : Fin 2) (c : DramCmd)
  | dramReadData (m : Chan) (err : ReadErr)
  | writeDrain (m : Chan) (rmwUncorrectable : Bool)
  | pageTimeout (m : Chan) (bank : Fin 32) (rank : Bool)
  | spdTemperatureRead (m : Chan) (reading : Option (BitVec 12))
  -- inline memory protection
  | keyAlloc (k : KeyId)
  | keyRetire (k : KeyId)
  | keyRetireDone (k : KeyId)
  | regionEnable (r : Region) (w : W32)
  | regionInitDone (r : Region)
  | regionDisable (r : Region) (w : W32)
  | protectedLineOperation (l : PLine)
  | walkStart (r : Region) (w : W64)
  | walkStep (r : Region) (evict : List (BitVec 48)) (mdecc : Bool)
  -- host attach and coherence
  | memrd (hpa : BitVec 52) (tag : BitVec 16)
  | memwr (m : MemWrite)
  | biasFlipToHostDone (page : BitVec 29)
  | biasCommand (w : W64)
  | biasQuery (w : W64)
  | biasFlipToDeviceDone (page : BitVec 29)
  | hostSnoop (k : Snoop) (hpa : BitVec 52)
  | hostResponse (a : HostAns)
  | hostTimeout (hpa : BitVec 52)
  | linkUp (speed : Fin 5) (width : BitVec 4) (cxl : Bool) (cacheEn memEn msixEn : Bool)
  /-- `way` is the interleave way that the host gives this device -/
  | hdmCommit (k : Fin 2) (base size skip : BitVec 52) (ways granule way : Nat)
  -- device time, timestamps and triggers
  | incWrite (w : W32)
  | stepgo (w : W32)
  | triggerInputEdge (k : Fin 16) (falling : Bool) (time : Nat) (spaced : Bool)
  | ppsInEdge (falling : Bool) (time : Nat)
  | tsreq (pos : Pos)
  | laneSymbolCapture (x : LaneSym)
  | ringEnable (w : W32)
  | capturePathFail (code : BitVec 11)
  | windowEnable (k : Window) (w : W32)
  | occurrenceEnd (k : Window)
  | timerArm (c : Timer) (w : W32)
  | timerDisarm (c : Timer) (w : W32)
  | timerFire (c : Timer)
  | timedLineSend (c : Timer)
  | triggerPulseEnd (k : Fin 16)
  -- transceivers and wort links
  | qpllWrite (l : Lane) (w : W32)
  | signalDetected (l : Lane)
  | commaFound (l : Lane)
  | validSymbolRun (l : Lane)
  | invalidSymbol (l : Lane) (disparity : Bool)
  /-- `signal` and `cdr`: what the detectors show afterwards -/
  | laneDown (l : Lane) (signal cdr : Bool)
  /-- `sent`: beats of the FIFO that the lane has sent since its last beat -/
  | txBeat (l : Lane) (data : BitVec 64) (k : BitVec 8) (sent : Nat)
  /-- `taken`: RXCLK edges since the last beat, each of which takes one -/
  | rxBeat (l : Lane) (data : BitVec 64) (k bv err : BitVec 8) (taken : Nat)
  | bondAligned (l : Lane) (within : Bool)
  | lanePowerRequest (l : Lane) (w : W32)
  | standbyTimeout (l : Lane)
  | sleepTimeout (l : Lane)
  | laneExitDone (l : Lane)
  | checkerLock (l : Lane)
  | checkerLost (l : Lane) (errs bits : Nat)
  | checkerClear (l : Lane) (w : W32)
  | injectGo (l : Lane) (w : W32)
  | wortLinkEnable (k : Fin 120)
  | wortLinkDisable (k : Fin 120)
  | wortFrame (k : Fin 120) (lane : Fin 4) (frameNo : BitVec 32) (skipAdjust : Bool)
  | cell (k : Fin 120) (c : WCell)
  | linkCell (k : Fin 120) (farUp : BitVec 4) (nextSet : BitVec 4)
  /-- `self` is this device's place in `devs`; `routes` by device number, `peers` by link -/
  | wortDiscovery (devs : List WDevice) (self : Nat) (routes : List (Option (BitVec 6 × Bool))) (peers : List (Option WPeer))
  | wortLinkDownTimeout (k : Fin 120)
  -- casks, taps, events
  | go (c : Cask) (endB : Bool) (src : Agent)
  | take (c : Cask) (endB : Bool) (src : Agent)
  | messageWrite (c : Cask) (i : Fin 16) (w : W32) (src : Agent)
  | push (c : Cask) (endB : Bool) (w : W32) (src : Agent)
  | pop (c : Cask) (endB : Bool) (src : Agent) (tag : BitVec 12)
  | caskCfgWrite (c : Cask) (w : W32) (src : Agent)
  | caskEndWrite (c : Cask) (endB : Bool) (w : W32) (src : Agent)
  | eventRaise (e : EvSrc) (payload : W64)
  | eventDelivery (e : EvSrc)
  | msixSend (v : BitVec 11)
  | tapClear (a : Fin 92) (bits : W32) (tapclrPin : Bool)
  | tapMaskWrite (a : Fin 92) (w : W32)
  | evtake (pos : Pos)
  -- power
  | powerRequest (d : Domain) (w : W32) (src : Agent)
  | deferredRequestApply (d : Domain)
  | autoDoze (d : Domain)
  | autoRetain (d : Domain)
  | wake (d : Domain) (c : WakeCause)
  | transitionComplete (d : Domain)
  | offWakeRewriteDone (pos : Pos)
  | clampRelease (pos : Pos)
  -- JTAG and pins
  | samplePreload (cells : List Bool)
  | fuseprog (row : Byte) (data : W64)
  | keyram (key : BitVec 256)
  | slotprog (length : W64) (bytes : List Byte)
  | vccoChange (pos : Pos) (present : Bool) (level : BitVec 2)
  | railOutOfRange (r : Rail)
  -- edges, ticks and late rows of the table
  | activeClockEdge (t : Tile) (line : Fin 2) (a : Arrivals) (recoveryViolated : Bool)
  | asyncSetResetRelease (t : Tile) (line : Fin 2) (a : Arrivals) (removalViolated : Bool)
  | crossingClockEdge (ds : List (XrRef × Bool))
  | upllLock (pos : Pos) (u : Fin 4)
  | clockLaneReturn (l : LinkDir) (noc : Bool)
  | qpllLock (l : Lane)
  | qpllLossOfLock (l : Lane)
  | railInOperatingConditions (r : Rail)
  | retiredTIdReuse (d : DnpRef) (id : BitVec 8)
  | storedBitFlip (pos : Pos) (w : StoredWord) (flips : BitVec 72)
  -- commands without operands
  | flush
  | flushDone
  | linkDown
  | correctionBoundary
  | holdover
  | replicaCheck
  | ringWrite
  | ppsOutPulse
  | ppsOutPulseEnd
  | residencyClear
  | extest
  | idcode
  | highz
  | clamp
  | status
  | bypass
  | jtagOperationDone
  | timeClockTick
  deriving DecidableEq, Repr

end Sys2Proof
end

