-- ==== Sys2Proof/Decode.lean ====
section
/-! DEFINITION. Decoding of command words: the block has no instruction decoder, and the opcode table gives its rows no bits. -/

namespace Sys2Proof

/-- The command that a word spells by the bits of the opcode table: no row of the table gives bits, so no word spells one. -/
def decodeTableWord (_nbits _w : Nat) : Option Instr := none

end Sys2Proof
end

