-- ==== Sys2Proof/Config.lean ====
section
/-! DEFINITION. What the model leaves open: constants without a body, so that no proof can lean on a value of theirs. The free
values stand for results the manual leaves undefined or unstated; the cryptographic primitives stand for the standards the
manual names and does not restate. -/

namespace Sys2Proof

/-- The n-th free value: what stands where the manual gives a result no value. `State.freeCtr` supplies n. -/
opaque Config.freeNat : Nat → Nat

/-- The 8 check bits the SECDED code computes for 64 data bits (R104); the manual does not give the code. -/
opaque Config.secdedCheck : Nat → Nat

/-- The 8-bit syndrome of a set of wrong stored bits (R104). -/
opaque Config.secdedSynd : Nat → Nat

/-- SHA-256 of a byte string (FIPS 180-4, named by R242, R261, R363). -/
opaque Config.sha256 : List Byte → BitVec 256

/-- ECDSA P-256 signature of a SHA-256 digest under the part's attestation key (R261), for the part with this public key. -/
opaque Config.ecdsaSign : BitVec 512 → BitVec 256 → BitVec 512

/-- An ECDSA P-256 signature (r then s) of a SHA-256 digest is valid under a public key (X then Y) (FIPS 186-4, R245). -/
opaque Config.ecdsaVerify : List Byte → BitVec 256 → List Byte → Bool

/-- AES-256-CMAC of a byte string under a 256-bit key (R244, R245). -/
opaque Config.cmac256 : BitVec 256 → List Byte → BitVec 128

/-- AES-256 in counter mode (NIST SP 800-38A): n bytes of keystream for a 32-byte key from a 16-byte counter block (R243). -/
opaque Config.aesCtr : List Byte → List Byte → Nat → List Byte

end Sys2Proof
end

