-- ==== Sys2Proof/Machine/RegMap.lean ====
section
/-! DEFINITION. The register map of the HKD60: every register of the chapters with its unit, offset, strides and width (R13,
R504, R507), and every field with its bits, type and reset value (R11). Written from the chapters' register tables. -/

namespace Sys2Proof.Machine

/-- The BAR0 units, in the order of their gating bits in TUN_CLKEN (R504). -/
inductive Unit0 where
  | tun | clk | pwr | noc | tmu | cask | evr | kiln | die | spg | cap | coh | cxl | memp | ddr | xcvr | grain
  deriving DecidableEq, Repr

/-- The gating bit of a unit, which is what TUN_GATEHIT.UNIT records (R504). -/
def Unit0.bit : Unit0 → Nat
  | .tun => 0 | .clk => 1 | .pwr => 2 | .noc => 3 | .tmu => 4 | .cask => 5 | .evr => 6 | .kiln => 7 | .die => 8
  | .spg => 9 | .cap => 10 | .coh => 11 | .cxl => 12 | .memp => 13 | .ddr => 14 | .xcvr => 15 | .grain => 16

/-- First BAR0 offset of a unit (R504). -/
def Unit0.base : Unit0 → Nat
  | .tun => 0x00000000
  | .clk => 0x00100000
  | .pwr => 0x00200000
  | .noc => 0x00300000
  | .tmu => 0x00400000
  | .cask => 0x00500000
  | .evr => 0x00600000
  | .kiln => 0x00700000
  | .die => 0x00800000
  | .spg => 0x00900000
  | .cap => 0x00A00000
  | .coh => 0x00B00000
  | .cxl => 0x00C00000
  | .memp => 0x00D00000
  | .ddr => 0x01000000
  | .xcvr => 0x02000000
  | .grain => 0x03000000

/-- Size of a unit's range (R504). -/
def Unit0.size : Unit0 → Nat
  | .xcvr => 0x200000 | .grain => 0x400000
  | .tun | .clk | .pwr | .noc | .tmu | .cask | .evr | .kiln | .die | .spg | .cap | .coh | .cxl | .memp | .ddr => 0x100000

/-- All units (R504). -/
def Unit0.all : List Unit0 :=
  [.tun, .clk, .pwr, .noc, .tmu, .cask, .evr, .kiln, .die, .spg, .cap, .coh, .cxl, .memp, .ddr, .xcvr, .grain]

/-- The unit whose range holds a BAR0 offset; none where no unit lies (R505). -/
def Unit0.ofOffset (o : Nat) : Option Unit0 :=
  Unit0.all.find? fun u => decide (u.base ≤ o ∧ o < u.base + u.size)

/-- Register field types (R11). RSVD fields are the bits no field names: they read 0 and drop writes (R506). -/
inductive FType where
  | rw | ro | w1c | w1s | wo
  deriving DecidableEq, Repr

/-- The registers. Arrays are one name with instance indices. -/
inductive RegName where
  /-- TUN_ID - TUN + 0x0000, 32 bits (21_register_spaces.md) -/
  | tunId
  /-- TUN_SERIAL - TUN + 0x0008, 64 bits (21_register_spaces.md) -/
  | tunSerial
  /-- TUN_FEAT0 - TUN + 0x0020, 32 bits (15_host_attach_and_coherence.md) -/
  | tunFeat0
  /-- TUN_FEAT1-3 (15_host_attach_and_coherence.md) -/
  | tunFeat
  /-- TUN_FEATACK0-TUN_FEATACK3 - TUN + 0x0030 + 4 × i, 32 bits (15_host_attach_and_coherence.md) -/
  | tunFeatack
  /-- TUN_FEATLOCK - TUN + 0x0040, 32 bits (15_host_attach_and_coherence.md) -/
  | tunFeatlock
  /-- TUN_CLKEN - TUN + 0x0100, 32 bits (06_clocking.md) -/
  | tunClken
  /-- TUN_CLKSTAT - TUN + 0x0104, 32 bits (06_clocking.md) -/
  | tunClkstat
  /-- TUN_GATEHIT - TUN + 0x0108, 32 bits (06_clocking.md) -/
  | tunGatehit
  /-- TUN_GATEADDR - TUN + 0x010C, 32 bits (06_clocking.md) -/
  | tunGateaddr
  /-- TUN_GATEADDR4 - TUN + 0x0110, 64 bits (06_clocking.md) -/
  | tunGateaddr4
  /-- CLK_ROOTCFG - CLK + 0x0000, 32 bits (06_clocking.md) -/
  | clkRootcfg
  /-- CLK_ROOTSTAT - CLK + 0x0008, 32 bits (06_clocking.md) -/
  | clkRootstat
  /-- CLK_TROCTL - CLK + 0x0020, 32 bits (06_clocking.md) -/
  | clkTroctl
  /-- CLK_TROEXP - CLK + 0x0024, 32 bits (06_clocking.md) -/
  | clkTroexp
  /-- CLK_TROTRIM - CLK + 0x0028, 32 bits (06_clocking.md) -/
  | clkTrotrim
  /-- CLK_TROCNT - CLK + 0x002C, 32 bits (06_clocking.md) -/
  | clkTrocnt
  /-- CLK_FMCTL - CLK + 0x0040, 32 bits (06_clocking.md) -/
  | clkFmctl
  /-- CLK_FMCNT - CLK + 0x0048, 32 bits (06_clocking.md) -/
  | clkFmcnt
  /-- PWR_CTL - PWR + 0x0000, 32 bits (19_power_management.md) -/
  | pwrCtl
  /-- PWR_DCTLd - PWR + 0x1000 + 0x10 × d, 32 bits (19_power_management.md) -/
  | pwrDctl
  /-- PWR_DSTATd - PWR + 0x1008 + 0x10 × d, 32 bits (19_power_management.md) -/
  | pwrDstat
  /-- PWR_RESd_s - PWR + 0x8_0000 + 0x20 × d + 8 × s, 64 bits (19_power_management.md) -/
  | pwrRes
  /-- NOC_CTL - NOC + 0x0000, 32 bits (12_packet_network.md) -/
  | nocCtl
  /-- NOC_RTCTL - NOC + 0x0010, 32 bits (12_packet_network.md) -/
  | nocRtctl
  /-- NOC_ISOSUM - NOC + 0x0020, 64 bits (12_packet_network.md) -/
  | nocIsosum
  /-- NOC_TISO - NOC + 0x0028, 32 bits (12_packet_network.md) -/
  | nocTiso
  /-- NOC_TABS - NOC + 0x0030, 32 bits (12_packet_network.md) -/
  | nocTabs
  /-- NOC_RBCFG0-NOC_RBCFG3 - NOC + 0x0100 + 0x10 × k, 32 bits (12_packet_network.md) -/
  | nocRbcfg
  /-- NOC_RBSTAT0-NOC_RBSTAT3 - NOC + 0x0108 + 0x10 × k, 32 bits (12_packet_network.md) -/
  | nocRbstat
  /-- NOC_GFWCTL0-NOC_GFWCTL1 - NOC + 0x0200 + 0x100 × g, 32 bits (12_packet_network.md) -/
  | nocGfwctl
  /-- NOC_GFWWINg.w - NOC + 0x0210 + 0x100 × g + 0x10 × w, 128 bits, w = 0-7 (12_packet_network.md) -/
  | nocGfwwinl
  /-- NOC_GFWWINg.w - NOC + 0x0210 + 0x100 × g + 0x10 × w, 128 bits, w = 0-7 (12_packet_network.md) -/
  | nocGfwwinh
  /-- NOC_GFWVIOLg - NOC + 0x0290 + 0x100 × g, 64 bits (12_packet_network.md) -/
  | nocGfwviol
  /-- NOC_TRTABAr.i, NOC_TRTABBr.i - NOC + 0x1000 + 0x100 × r + 8 × i, and + 0x40, 64 bits (12_packet_network.md) -/
  | nocTrtaba
  /-- NOC_TRTABAr.i, NOC_TRTABBr.i - NOC + 0x1000 + 0x100 × r + 8 × i, and + 0x40, 64 bits (12_packet_network.md) -/
  | nocTrtabb
  /-- Time-valued registers (16_time_and_triggers.md) -/
  | tmuTimelo
  /-- Time-valued registers (16_time_and_triggers.md) -/
  | tmuTimehi
  /-- TMU_INC - TMU + 0x0018, 32 bits (16_time_and_triggers.md) -/
  | tmuInc
  /-- Time-valued registers (16_time_and_triggers.md) -/
  | tmuSteplo
  /-- Time-valued registers (16_time_and_triggers.md) -/
  | tmuStephi
  /-- TMU_CORR - TMU + 0x0030, 32 bits (16_time_and_triggers.md) -/
  | tmuCorr
  /-- TMU_HOLDOVER - TMU + 0x0038, 32 bits (16_time_and_triggers.md) -/
  | tmuHoldover
  /-- TMU_PPSCTL - TMU + 0x0040, 32 bits (16_time_and_triggers.md) -/
  | tmuPpsctl
  /-- TMU_TRIGCFG0-TMU_TRIGCFG15 - TMU + 0x0100 + 4 × k, 32 bits (16_time_and_triggers.md) -/
  | tmuTrigcfg
  /-- TMU_TSBASE - TMU + 0x0200, 64 bits (16_time_and_triggers.md) -/
  | tmuTsbase
  /-- TMU_TSCFG - TMU + 0x0208, 32 bits (16_time_and_triggers.md) -/
  | tmuTscfg
  /-- TMU_TSWR, TMU_TSRD - TMU + 0x0210, TMU + 0x0214, 32 bits (16_time_and_triggers.md) -/
  | tmuTswr
  /-- TMU_TSWR, TMU_TSRD - TMU + 0x0210, TMU + 0x0214, 32 bits (16_time_and_triggers.md) -/
  | tmuTsrd
  /-- TMU_TSSTAT - TMU + 0x0218, 32 bits (16_time_and_triggers.md) -/
  | tmuTsstat
  /-- TMU_LTSEN0-TMU_LTSEN14, TMU_DTSEN - TMU + 0x0300 + 8 × i, TMU + 0x0380, 64 bits (16_time_and_triggers.md) -/
  | tmuLtsen
  /-- TMU_LTSEN0-TMU_LTSEN14, TMU_DTSEN - TMU + 0x0300 + 8 × i, TMU + 0x0380, 64 bits (16_time_and_triggers.md) -/
  | tmuDtsen
  /-- TMU_TMREVT0-TMU_TMREVT31 - TMU + 0x0400 + 4 × i, 32 bits; TMU_WINEVT - TMU + 0x0480, 64 bits (16_time_and_triggers.md) -/
  | tmuTmrevt
  /-- TMU_TMREVT0-TMU_TMREVT31 - TMU + 0x0400 + 4 × i, 32 bits; TMU_WINEVT - TMU + 0x0480, 64 bits (16_time_and_triggers.md) -/
  | tmuWinevt
  /-- TMR_CTLc - TMU + 0x1_0000 + 0x20 × c, 32 bits (16_time_and_triggers.md) -/
  | tmrCtl
  /-- Time-valued registers (16_time_and_triggers.md) -/
  | tmrStartlo
  /-- Time-valued registers (16_time_and_triggers.md) -/
  | tmrStarthi
  /-- TMR_PERIODc - TMU + 0x1_0000 + 0x20 × c + 0x18, 64 bits (16_time_and_triggers.md) -/
  | tmrPeriod
  /-- WIN_CTLw, WIN_STATw - TMU + 0x2_0000 + 0x40 × w, + 0x04, 32 bits (16_time_and_triggers.md) -/
  | winCtl
  /-- WIN_CTLw, WIN_STATw - TMU + 0x2_0000 + 0x40 × w, + 0x04, 32 bits (16_time_and_triggers.md) -/
  | winStat
  /-- Time-valued registers (16_time_and_triggers.md) -/
  | winStartlo
  /-- Time-valued registers (16_time_and_triggers.md) -/
  | winStarthi
  /-- Time-valued registers (16_time_and_triggers.md) -/
  | winEndlo
  /-- Time-valued registers (16_time_and_triggers.md) -/
  | winEndhi
  /-- WIN_PERIODw - TMU + 0x2_0000 + 0x40 × w + 0x28, 64 bits (16_time_and_triggers.md) -/
  | winPeriod
  /-- Time-valued registers (16_time_and_triggers.md) -/
  | winFirstlo
  /-- Time-valued registers (16_time_and_triggers.md) -/
  | winFirsthi
  /-- CASK_CFG - +0x000, 32 bits (18_casks_taps_events.md) -/
  | caskCfg
  /-- CASK_ENDA, CASK_ENDB - +0x008, +0x010, 32 bits (18_casks_taps_events.md) -/
  | caskEnda
  /-- CASK_ENDA, CASK_ENDB - +0x008, +0x010, 32 bits (18_casks_taps_events.md) -/
  | caskEndb
  /-- CASK_STAT - +0x020, 32 bits (18_casks_taps_events.md) -/
  | caskStat
  /-- CASK_MSG0-CASK_MSG15 - +0x100 + 4 × i, 32 bits (18_casks_taps_events.md) -/
  | caskMsg
  /-- CASK_XCTL, CASK_XPUSH, CASK_XPOP - +0x200 or +0x300, then + 0x00, + 0x08, + 0x10, 32 bits (18_casks_taps_events.md) -/
  | caskXctl
  /-- CASK_XCTL, CASK_XPUSH, CASK_XPOP - +0x200 or +0x300, then + 0x00, + 0x08, + 0x10, 32 bits (18_casks_taps_events.md) -/
  | caskXpush
  /-- CASK_XCTL, CASK_XPUSH, CASK_XPOP - +0x200 or +0x300, then + 0x00, + 0x08, + 0x10, 32 bits (18_casks_taps_events.md) -/
  | caskXpop
  /-- EVR_ROUTE0-EVR_ROUTE1151 - EVR + 8 × s, 64 bits (18_casks_taps_events.md) -/
  | evrRoute
  /-- EVR_PAY0-EVR_PAY1151 - EVR + 0x4000 + 8 × s, 64 bits (18_casks_taps_events.md) -/
  | evrPay
  /-- TAP_PENDa, TAP_MASKa, TAP_CFGa - EVR + 0x8000 + 0x10 × a, + 0x04, + 0x08, 32 bits (18_casks_taps_events.md) -/
  | tapPend
  /-- TAP_PENDa, TAP_MASKa, TAP_CFGa - EVR + 0x8000 + 0x10 × a, + 0x04, + 0x08, 32 bits (18_casks_taps_events.md) -/
  | tapMask
  /-- TAP_PENDa, TAP_MASKa, TAP_CFGa - EVR + 0x8000 + 0x10 × a, + 0x04, + 0x08, 32 bits (18_casks_taps_events.md) -/
  | tapCfg
  /-- KILN_CTL - KILN + 0x0000, 32 bits (09_configuration_loading.md) -/
  | kilnCtl
  /-- KILN_STAT - KILN + 0x0008, 32 bits (09_configuration_loading.md) -/
  | kilnStat
  /-- KILN_FRAMES - KILN + 0x0010, 32 bits (09_configuration_loading.md) -/
  | kilnFrames
  /-- KILN_IMGVER - KILN + 0x0018, 64 bits (09_configuration_loading.md) -/
  | kilnImgver
  /-- KILN_BASEDIG0-KILN_BASEDIG7 - KILN + 0x0020 + 4 × i, 32 bits (09_configuration_loading.md) -/
  | kilnBasedig
  /-- KILN_LOGPTR - KILN + 0x0080, 32 bits (09_configuration_loading.md) -/
  | kilnLogptr
  /-- KILN_LOADLOG0-KILN_LOADLOG15 - KILN + 0x0100 + 8 × i, 64 bits (09_configuration_loading.md) -/
  | kilnLoadlog
  /-- KILN_PROGCTL - KILN + 0x0200, 32 bits (09_configuration_loading.md) -/
  | kilnProgctl
  /-- KILN_PROGLEN - KILN + 0x0204, 32 bits (09_configuration_loading.md) -/
  | kilnProglen
  /-- KILN_PROGSRC - KILN + 0x0208, 64 bits (09_configuration_loading.md) -/
  | kilnProgsrc
  /-- KILN_ATTCTL - KILN + 0x0300, 32 bits (09_configuration_loading.md) -/
  | kilnAttctl
  /-- KILN_ATTADDR - KILN + 0x0308, 64 bits (09_configuration_loading.md) -/
  | kilnAttaddr
  /-- KILN_ATTNONCE0-7 and KILN_ATTPUB0-15 - KILN + 0x0320 + 4 × i and KILN + 0x0340 + 4 × i, 32 bits (09_configuration_loading.md) -/
  | kilnAttnonce
  /-- KILN_ATTNONCE0-7 and KILN_ATTPUB0-15 - KILN + 0x0320 + 4 × i and KILN + 0x0340 + 4 × i, 32 bits (09_configuration_loading.md) -/
  | kilnAttpub
  /-- KILN_PLDCTL - KILN + 0x0400, 32 bits (10_floors.md) -/
  | kilnPldctl
  /-- KILN_PLDSRC - KILN + 0x0408, 64 bits (10_floors.md) -/
  | kilnPldsrc
  /-- KILN_PLDLEN - KILN + 0x0410, 32 bits (10_floors.md) -/
  | kilnPldlen
  /-- KILN_PLDTIME - KILN + 0x0418, 64 bits (10_floors.md) -/
  | kilnPldtime
  /-- KILN_PLDSTAT - KILN + 0x0420, 32 bits (10_floors.md) -/
  | kilnPldstat
  /-- KILN_FLRSTAT0-KILN_FLRSTAT63 - KILN + 0x0500 + 4 × f, 32 bits (10_floors.md) -/
  | kilnFlrstat
  /-- KILN_SHELF - KILN + 0x0600, 32 bits (10_floors.md) -/
  | kilnShelf
  /-- DIE_CTL - DIE + 0x0000, 32 bits (08_die_links_and_repair.md) -/
  | dieCtl
  /-- DIE_DISCSTAT - DIE + 0x0008, 32 bits (08_die_links_and_repair.md) -/
  | dieDiscstat
  /-- DIE_LTHR - DIE + 0x0010, 32 bits (08_die_links_and_repair.md) -/
  | dieLthr
  /-- GRN_LNKSTAT0-GRN_LNKSTAT3 - GRAIN + 0x2600 + 8 × p, 64 bits (08_die_links_and_repair.md) -/
  | dieTlnkstat
  /-- DIE_SERIAL0-DIE_SERIAL63 - DIE + 0x1000 + 16 × p, 64 bits (08_die_links_and_repair.md) -/
  | dieSerial
  /-- DIE_IDINFO0-DIE_IDINFO63 - DIE + 0x1008 + 16 × p, 32 bits (08_die_links_and_repair.md) -/
  | dieIdinfo
  /-- DIE_SERIAL0-DIE_SERIAL63 - DIE + 0x1000 + 16 × p, 64 bits (08_die_links_and_repair.md) -/
  | dieXserial
  /-- DIE_IDINFO0-DIE_IDINFO63 - DIE + 0x1008 + 16 × p, 32 bits (08_die_links_and_repair.md) -/
  | dieXidinfo
  /-- DIE_MAP0-DIE_MAP59 - DIE + 0x2000 + 4 × n, 32 bits (08_die_links_and_repair.md) -/
  | dieMap
  /-- DIE_REMAPCTL - DIE + 0x2800, 32 bits (08_die_links_and_repair.md) -/
  | dieRemapctl
  /-- DIE_REMAPSTAT - DIE + 0x2808, 32 bits (08_die_links_and_repair.md) -/
  | dieRemapstat
  /-- DIE_GRST - DIE + 0x3000, 64 bits (08_die_links_and_repair.md) -/
  | dieGrst
  /-- DIE_FAULT - DIE + 0x3100, 64 bits (08_die_links_and_repair.md) -/
  | dieFault
  /-- DIE_CLKLOSS - DIE + 0x3110, 32 bits (08_die_links_and_repair.md) -/
  | dieClkloss
  /-- SPG_CTL - SPG + 0x0000, 32 bits (11_integrity_and_capture.md) -/
  | spgCtl
  /-- SPG_FINDSTAT - SPG + 0x0008, 32 bits (11_integrity_and_capture.md) -/
  | spgFindstat
  /-- SPG_FINDADDR - SPG + 0x0010, 64 bits (11_integrity_and_capture.md) -/
  | spgFindaddr
  /-- SPG_FINDINFO - SPG + 0x0018, 64 bits (11_integrity_and_capture.md) -/
  | spgFindinfo
  /-- SPG_FINDPOP - SPG + 0x0020, 32 bits (11_integrity_and_capture.md) -/
  | spgFindpop
  /-- CAP_PITCHCTL - CAP + 0x0000, 32 bits (11_integrity_and_capture.md) -/
  | capPitchctl
  /-- CAP_PITCHTIME - CAP + 0x0008, 64 bits (11_integrity_and_capture.md) -/
  | capPitchtime
  /-- CAP_PITCHFLR - CAP + 0x0010, 64 bits (11_integrity_and_capture.md) -/
  | capPitchflr
  /-- CAP_PITCHPOS - CAP + 0x0018, 64 bits (11_integrity_and_capture.md) -/
  | capPitchpos
  /-- CAP_STAT - CAP + 0x0020, 32 bits (11_integrity_and_capture.md) -/
  | capStat
  /-- CAP_CAPSKIP, CAP_CAPSKIPPOS - CAP + 0x0028, CAP + 0x0030, 64 bits (11_integrity_and_capture.md) -/
  | capCapskip
  /-- CAP_CAPSKIP, CAP_CAPSKIPPOS - CAP + 0x0028, CAP + 0x0030, 64 bits (11_integrity_and_capture.md) -/
  | capCapskippos
  /-- CAP_ACCCTL - CAP + 0x0100, 32 bits (11_integrity_and_capture.md) -/
  | capAccctl
  /-- CAP_ACCIDX - CAP + 0x0104, 32 bits (11_integrity_and_capture.md) -/
  | capAccidx
  /-- CAP_ACCADDR - CAP + 0x0108, 64 bits (11_integrity_and_capture.md) -/
  | capAccaddr
  /-- CAP_ACCSTAT - CAP + 0x0110, 32 bits (11_integrity_and_capture.md) -/
  | capAccstat
  /-- COH_CTL - COH + 0x0000, 32 bits (15_host_attach_and_coherence.md) -/
  | cohCtl
  /-- COH_STAT - COH + 0x0008, 64 bits (15_host_attach_and_coherence.md) -/
  | cohStat
  /-- COH_BIASBASE - COH + 0x0018, 64 bits (15_host_attach_and_coherence.md) -/
  | cohBiasbase
  /-- COH_BIASCMD - COH + 0x0020, 64 bits (15_host_attach_and_coherence.md) -/
  | cohBiascmd
  /-- COH_BIASSTAT - COH + 0x0028, 32 bits (15_host_attach_and_coherence.md) -/
  | cohBiasstat
  /-- COH_HWIN - COH + 0x0030, 64 bits (15_host_attach_and_coherence.md) -/
  | cohHwin
  /-- COH_HERR - COH + 0x0040, 64 bits (15_host_attach_and_coherence.md) -/
  | cohHerr
  /-- CXL_LNKSTAT - CXL + 0x2_0000, 32 bits (15_host_attach_and_coherence.md) -/
  | cxlLnkstat
  /-- MEMP_ALARMCTL - MEMP + 0x0000, 32 bits (14_inline_memory_protection.md) -/
  | mempAlarmctl
  /-- MEMP_ALARMSTAT - MEMP + 0x0008, 32 bits (14_inline_memory_protection.md) -/
  | mempAlarmstat
  /-- MEMP_ALARMREC - MEMP + 0x0010, 64 bits (14_inline_memory_protection.md) -/
  | mempAlarmrec
  /-- MEMP_KEYCTL - MEMP + 0x0100, 32 bits (14_inline_memory_protection.md) -/
  | mempKeyctl
  /-- MEMP_KEYSTAT - MEMP + 0x0108, 32 bits (14_inline_memory_protection.md) -/
  | mempKeystat
  /-- MEMP_KEYSTATE0-MEMP_KEYSTATE1 - MEMP + 0x0110 + 8 × k, 64 bits (14_inline_memory_protection.md) -/
  | mempKeystate
  /-- MEMP_RGNBASEr - MEMP + 0x1000 + 0x40 × r, 64 bits (14_inline_memory_protection.md) -/
  | mempRgnbase
  /-- MEMP_RGNCFGr - MEMP + 0x1008 + 0x40 × r, 32 bits (14_inline_memory_protection.md) -/
  | mempRgncfg
  /-- MEMP_RGNSTATr - MEMP + 0x1010 + 0x40 × r, 32 bits (14_inline_memory_protection.md) -/
  | mempRgnstat
  /-- MEMP_RGNWALKr - MEMP + 0x1018 + 0x40 × r, 64 bits (14_inline_memory_protection.md) -/
  | mempRgnwalk
  /-- DDR_CFG - DDR + 0x0000, 32 bits (13_ddr5_memory.md) -/
  | ddrCfg
  /-- DDR_CTL - DDR + 0x0008, 32 bits (13_ddr5_memory.md) -/
  | ddrCtl
  /-- DDR_STAT - DDR + 0x0010, 64 bits (13_ddr5_memory.md) -/
  | ddrStat
  /-- DDR_SCHED - DDR + 0x0018, 32 bits (13_ddr5_memory.md) -/
  | ddrSched
  /-- DDR_RDP - DDR + 0x0020, 32 bits (13_ddr5_memory.md) -/
  | ddrRdp
  /-- DDR_HAZ - DDR + 0x0030, 64 bits (13_ddr5_memory.md) -/
  | ddrHaz
  /-- DDR_ECCSTAT - DDR + 0x0100, 32 bits (13_ddr5_memory.md) -/
  | ddrEccstat
  /-- DDR_ECCADDR - DDR + 0x0108, 64 bits (13_ddr5_memory.md) -/
  | ddrEccaddr
  /-- DDR_ECCINFO - DDR + 0x0110, 32 bits (13_ddr5_memory.md) -/
  | ddrEccinfo
  /-- DDR_DEVFAIL - DDR + 0x0118, 32 bits (13_ddr5_memory.md) -/
  | ddrDevfail
  /-- DDR_THERM - DDR + 0x0200, 32 bits (13_ddr5_memory.md) -/
  | ddrTherm
  /-- DDR_IMAP0 - DDR + 0xF000, 32 bits; DDR_IMAP1 - DDR + 0xF008, 64 bits (13_ddr5_memory.md) -/
  | ddrImap0
  /-- DDR_IMAP0 - DDR + 0xF000, 32 bits; DDR_IMAP1 - DDR + 0xF008, 64 bits (13_ddr5_memory.md) -/
  | ddrImap1
  /-- XCVR_LCFG - lane + 0x000, 32 bits (17_transceivers_and_wort_links.md) -/
  | xcvrLcfg
  /-- XCVR_QPLL - lane + 0x008, 32 bits, lanes :0 and :4 only (17_transceivers_and_wort_links.md) -/
  | xcvrQpll
  /-- XCVR_LSTAT - lane + 0x010, 32 bits (17_transceivers_and_wort_links.md) -/
  | xcvrLstat
  /-- XCVR_LERR - lane + 0x018, 64 bits (17_transceivers_and_wort_links.md) -/
  | xcvrLerr
  /-- XCVR_LPM - lane + 0x020, 32 bits (17_transceivers_and_wort_links.md) -/
  | xcvrLpm
  /-- XCVR_TSCFG - lane + 0x028, 32 bits (17_transceivers_and_wort_links.md) -/
  | xcvrTscfg
  /-- XCVR_PGEN, XCVR_PCHK - lane + 0x100, + 0x108, 32 bits (17_transceivers_and_wort_links.md) -/
  | xcvrPgen
  /-- XCVR_PGEN, XCVR_PCHK - lane + 0x100, + 0x108, 32 bits (17_transceivers_and_wort_links.md) -/
  | xcvrPchk
  /-- XCVR_PERRCNT, XCVR_PBITCNT - lane + 0x110, + 0x118, 64 bits (17_transceivers_and_wort_links.md) -/
  | xcvrPerrcnt
  /-- XCVR_PERRCNT, XCVR_PBITCNT - lane + 0x110, + 0x118, 64 bits (17_transceivers_and_wort_links.md) -/
  | xcvrPbitcnt
  /-- XCVR_PUSER0-2 - lane + 0x120 + 4 × i, 32 bits (17_transceivers_and_wort_links.md) -/
  | xcvrPuser
  /-- XCVR_INJ - lane + 0x140, 32 bits (17_transceivers_and_wort_links.md) -/
  | xcvrInj
  /-- WORT_CTL - XCVR + 0x8_0000, 32 bits (17_transceivers_and_wort_links.md) -/
  | wortCtl
  /-- WORT_STAT - XCVR + 0x8_0008, 32 bits (17_transceivers_and_wort_links.md) -/
  | wortStat
  /-- WORT_LINKk - XCVR + 0x8_0100 + 8 × k, 64 bits, k = 2n + h (17_transceivers_and_wort_links.md) -/
  | wortLink
  /-- WORT_RT0-WORT_RT255 - XCVR + 0x8_1000 + 4 × d, 32 bits (17_transceivers_and_wort_links.md) -/
  | wortRt
  /-- GRN_SPANSTAT - GRAIN + 0x2100, 32 bits (03_routing.md) -/
  | grnSpanstat
  /-- GRN_SPANADDR - GRAIN + 0x2108, 64 bits (03_routing.md) -/
  | grnSpanaddr
  /-- GRN_SPANTRK - GRAIN + 0x2110, 32 bits (03_routing.md) -/
  | grnSpantrk
  /-- GRN_MEMECC - GRAIN + 0x2200, 32 bits (04_embedded_memory.md) -/
  | grnMemecc
  /-- GRN_MEMEADDR - GRAIN + 0x2208, 64 bits (04_embedded_memory.md) -/
  | grnMemeaddr
  /-- GRN_MEMEINFO - GRAIN + 0x2210, 32 bits (04_embedded_memory.md) -/
  | grnMemeinfo
  /-- GRN_SLCSTAT - GRAIN + 0x2300, 32 bits (05_signal_processing_slices.md) -/
  | grnSlcstat
  /-- GRN_SLCADDR - GRAIN + 0x2308, 64 bits (05_signal_processing_slices.md) -/
  | grnSlcaddr
  /-- GRN_SLCCADDR - GRAIN + 0x2310, 64 bits (05_signal_processing_slices.md) -/
  | grnSlccaddr
  /-- GRN_SLCINFO - GRAIN + 0x2318, 32 bits (05_signal_processing_slices.md) -/
  | grnSlcinfo
  /-- GRN_PLLCFG0-GRN_PLLCFG3 - GRAIN + 0x2400 + 8 × p, 64 bits (06_clocking.md) -/
  | grnPllcfg
  /-- GRN_PLLSTAT - GRAIN + 0x2420, 32 bits (06_clocking.md) -/
  | grnPllstat
  /-- GRN_XSTAT - GRAIN + 0x2500, 32 bits (07_die_crossings.md) -/
  | grnXstat
  /-- GRN_XEREPLAY - GRAIN + 0x2508, 64 bits (07_die_crossings.md) -/
  | grnXereplay
  /-- GRN_XPAIR - GRAIN + 0x2510, 32 bits (07_die_crossings.md) -/
  | grnXpair
  /-- GRN_LNKSTAT0-GRN_LNKSTAT3 - GRAIN + 0x2600 + 8 × p, 64 bits (08_die_links_and_repair.md) -/
  | grnLnkstat
  /-- GRN_SPGSTAT - GRAIN + 0x2700, 32 bits (11_integrity_and_capture.md) -/
  | grnSpgstat
  /-- GRN_SPGPASS - GRAIN + 0x2708, 32 bits (11_integrity_and_capture.md) -/
  | grnSpgpass
  /-- GRN_SHDSRC - GRAIN + 0x2710, 32 bits (11_integrity_and_capture.md) -/
  | grnShdsrc
  /-- GRN_RTABA0-7, GRN_RTABB0-7 - GRAIN + 0x2800 + 8 × i, GRAIN + 0x2840 + 8 × i, 64 bits (12_packet_network.md) -/
  | grnRtaba
  /-- GRN_RTABA0-7, GRN_RTABB0-7 - GRAIN + 0x2800 + 8 × i, GRAIN + 0x2840 + 8 × i, 64 bits (12_packet_network.md) -/
  | grnRtabb
  /-- GRN_NOCISO - GRAIN + 0x2880, 32 bits (12_packet_network.md) -/
  | grnNociso
  /-- GRN_NOCABS - GRAIN + 0x2888, 64 bits (12_packet_network.md) -/
  | grnNocabs
  /-- GRN_NOCINJ - GRAIN + 0x2890, 32 bits (12_packet_network.md) -/
  | grnNocinj
  /-- GRN_NOCWAKE - GRAIN + 0x2898, 32 bits (12_packet_network.md) -/
  | grnNocwake
  /-- GRN_EVSTAT - GRAIN + 0x2900, 32 bits (18_casks_taps_events.md) -/
  | grnEvstat
  /-- GRN_IOSTAT - GRAIN + 0x2A00, 32 bits (20_pins_and_package.md) -/
  | grnIostat
  /-- GRN_LANECNT - GRAIN + 0x3000 + 0x100 × p + 2 × i, 16 bits (08_die_links_and_repair.md) -/
  | grnLanecnt
  deriving DecidableEq, Repr

/-- Where a register lies: unit, offset, width in bits, and stride and count of its two instance indices (R13, R507). -/
structure RegInfo where
  unit  : Unit0
  off   : Nat
  width : Nat
  s1 : Nat
  n1 : Nat
  s2 : Nat
  n2 : Nat
  deriving DecidableEq, Repr

/-- The place of every register. -/
def RegName.info : RegName → RegInfo
  | .tunId => ⟨.tun, 0x0, 32, 0x0, 1, 0x0, 1⟩
  | .tunSerial => ⟨.tun, 0x8, 64, 0x0, 1, 0x0, 1⟩
  | .tunFeat0 => ⟨.tun, 0x20, 32, 0x0, 1, 0x0, 1⟩
  | .tunFeat => ⟨.tun, 0x24, 32, 0x4, 3, 0x0, 1⟩
  | .tunFeatack => ⟨.tun, 0x30, 32, 0x4, 4, 0x0, 1⟩
  | .tunFeatlock => ⟨.tun, 0x40, 32, 0x0, 1, 0x0, 1⟩
  | .tunClken => ⟨.tun, 0x100, 32, 0x0, 1, 0x0, 1⟩
  | .tunClkstat => ⟨.tun, 0x104, 32, 0x0, 1, 0x0, 1⟩
  | .tunGatehit => ⟨.tun, 0x108, 32, 0x0, 1, 0x0, 1⟩
  | .tunGateaddr => ⟨.tun, 0x10C, 32, 0x0, 1, 0x0, 1⟩
  | .tunGateaddr4 => ⟨.tun, 0x110, 64, 0x0, 1, 0x0, 1⟩
  | .clkRootcfg => ⟨.clk, 0x0, 32, 0x0, 1, 0x0, 1⟩
  | .clkRootstat => ⟨.clk, 0x8, 32, 0x0, 1, 0x0, 1⟩
  | .clkTroctl => ⟨.clk, 0x20, 32, 0x0, 1, 0x0, 1⟩
  | .clkTroexp => ⟨.clk, 0x24, 32, 0x0, 1, 0x0, 1⟩
  | .clkTrotrim => ⟨.clk, 0x28, 32, 0x0, 1, 0x0, 1⟩
  | .clkTrocnt => ⟨.clk, 0x2C, 32, 0x0, 1, 0x0, 1⟩
  | .clkFmctl => ⟨.clk, 0x40, 32, 0x0, 1, 0x0, 1⟩
  | .clkFmcnt => ⟨.clk, 0x48, 32, 0x0, 1, 0x0, 1⟩
  | .pwrCtl => ⟨.pwr, 0x0, 32, 0x0, 1, 0x0, 1⟩
  | .pwrDctl => ⟨.pwr, 0x1000, 32, 0x10, 297, 0x0, 1⟩
  | .pwrDstat => ⟨.pwr, 0x1008, 32, 0x10, 297, 0x0, 1⟩
  | .pwrRes => ⟨.pwr, 0x80000, 64, 0x20, 297, 0x8, 4⟩
  | .nocCtl => ⟨.noc, 0x0, 32, 0x0, 1, 0x0, 1⟩
  | .nocRtctl => ⟨.noc, 0x10, 32, 0x0, 1, 0x0, 1⟩
  | .nocIsosum => ⟨.noc, 0x20, 64, 0x0, 1, 0x0, 1⟩
  | .nocTiso => ⟨.noc, 0x28, 32, 0x0, 1, 0x0, 1⟩
  | .nocTabs => ⟨.noc, 0x30, 32, 0x0, 1, 0x0, 1⟩
  | .nocRbcfg => ⟨.noc, 0x100, 32, 0x10, 4, 0x0, 1⟩
  | .nocRbstat => ⟨.noc, 0x108, 32, 0x10, 4, 0x0, 1⟩
  | .nocGfwctl => ⟨.noc, 0x200, 32, 0x100, 2, 0x0, 1⟩
  | .nocGfwwinl => ⟨.noc, 0x210, 64, 0x100, 2, 0x10, 8⟩
  | .nocGfwwinh => ⟨.noc, 0x218, 64, 0x100, 2, 0x10, 8⟩
  | .nocGfwviol => ⟨.noc, 0x290, 64, 0x100, 2, 0x0, 1⟩
  | .nocTrtaba => ⟨.noc, 0x1000, 64, 0x100, 6, 0x8, 8⟩
  | .nocTrtabb => ⟨.noc, 0x1040, 64, 0x100, 6, 0x8, 8⟩
  | .tmuTimelo => ⟨.tmu, 0x8, 64, 0x0, 1, 0x0, 1⟩
  | .tmuTimehi => ⟨.tmu, 0x10, 32, 0x0, 1, 0x0, 1⟩
  | .tmuInc => ⟨.tmu, 0x18, 32, 0x0, 1, 0x0, 1⟩
  | .tmuSteplo => ⟨.tmu, 0x20, 64, 0x0, 1, 0x0, 1⟩
  | .tmuStephi => ⟨.tmu, 0x28, 32, 0x0, 1, 0x0, 1⟩
  | .tmuCorr => ⟨.tmu, 0x30, 32, 0x0, 1, 0x0, 1⟩
  | .tmuHoldover => ⟨.tmu, 0x38, 32, 0x0, 1, 0x0, 1⟩
  | .tmuPpsctl => ⟨.tmu, 0x40, 32, 0x0, 1, 0x0, 1⟩
  | .tmuTrigcfg => ⟨.tmu, 0x100, 32, 0x4, 16, 0x0, 1⟩
  | .tmuTsbase => ⟨.tmu, 0x200, 64, 0x0, 1, 0x0, 1⟩
  | .tmuTscfg => ⟨.tmu, 0x208, 32, 0x0, 1, 0x0, 1⟩
  | .tmuTswr => ⟨.tmu, 0x210, 32, 0x0, 1, 0x0, 1⟩
  | .tmuTsrd => ⟨.tmu, 0x214, 32, 0x0, 1, 0x0, 1⟩
  | .tmuTsstat => ⟨.tmu, 0x218, 32, 0x0, 1, 0x0, 1⟩
  | .tmuLtsen => ⟨.tmu, 0x300, 64, 0x8, 15, 0x0, 1⟩
  | .tmuDtsen => ⟨.tmu, 0x380, 64, 0x0, 1, 0x0, 1⟩
  | .tmuTmrevt => ⟨.tmu, 0x400, 32, 0x4, 32, 0x0, 1⟩
  | .tmuWinevt => ⟨.tmu, 0x480, 64, 0x0, 1, 0x0, 1⟩
  | .tmrCtl => ⟨.tmu, 0x10000, 32, 0x20, 1024, 0x0, 1⟩
  | .tmrStartlo => ⟨.tmu, 0x10008, 64, 0x20, 1024, 0x0, 1⟩
  | .tmrStarthi => ⟨.tmu, 0x10010, 32, 0x20, 1024, 0x0, 1⟩
  | .tmrPeriod => ⟨.tmu, 0x10018, 64, 0x20, 1024, 0x0, 1⟩
  | .winCtl => ⟨.tmu, 0x20000, 32, 0x40, 64, 0x0, 1⟩
  | .winStat => ⟨.tmu, 0x20004, 32, 0x40, 64, 0x0, 1⟩
  | .winStartlo => ⟨.tmu, 0x20008, 64, 0x40, 64, 0x0, 1⟩
  | .winStarthi => ⟨.tmu, 0x20010, 32, 0x40, 64, 0x0, 1⟩
  | .winEndlo => ⟨.tmu, 0x20018, 64, 0x40, 64, 0x0, 1⟩
  | .winEndhi => ⟨.tmu, 0x20020, 32, 0x40, 64, 0x0, 1⟩
  | .winPeriod => ⟨.tmu, 0x20028, 64, 0x40, 64, 0x0, 1⟩
  | .winFirstlo => ⟨.tmu, 0x20030, 64, 0x40, 64, 0x0, 1⟩
  | .winFirsthi => ⟨.tmu, 0x20038, 32, 0x40, 64, 0x0, 1⟩
  | .caskCfg => ⟨.cask, 0x0, 32, 0x400, 1024, 0x0, 1⟩
  | .caskEnda => ⟨.cask, 0x8, 32, 0x400, 1024, 0x0, 1⟩
  | .caskEndb => ⟨.cask, 0x10, 32, 0x400, 1024, 0x0, 1⟩
  | .caskStat => ⟨.cask, 0x20, 32, 0x400, 1024, 0x0, 1⟩
  | .caskMsg => ⟨.cask, 0x100, 32, 0x400, 1024, 0x4, 16⟩
  | .caskXctl => ⟨.cask, 0x200, 32, 0x400, 1024, 0x100, 2⟩
  | .caskXpush => ⟨.cask, 0x208, 32, 0x400, 1024, 0x100, 2⟩
  | .caskXpop => ⟨.cask, 0x210, 32, 0x400, 1024, 0x100, 2⟩
  | .evrRoute => ⟨.evr, 0x0, 64, 0x8, 1152, 0x0, 1⟩
  | .evrPay => ⟨.evr, 0x4000, 64, 0x8, 1152, 0x0, 1⟩
  | .tapPend => ⟨.evr, 0x8000, 32, 0x10, 92, 0x0, 1⟩
  | .tapMask => ⟨.evr, 0x8004, 32, 0x10, 92, 0x0, 1⟩
  | .tapCfg => ⟨.evr, 0x8008, 32, 0x10, 16, 0x0, 1⟩
  | .kilnCtl => ⟨.kiln, 0x0, 32, 0x0, 1, 0x0, 1⟩
  | .kilnStat => ⟨.kiln, 0x8, 32, 0x0, 1, 0x0, 1⟩
  | .kilnFrames => ⟨.kiln, 0x10, 32, 0x0, 1, 0x0, 1⟩
  | .kilnImgver => ⟨.kiln, 0x18, 64, 0x0, 1, 0x0, 1⟩
  | .kilnBasedig => ⟨.kiln, 0x20, 32, 0x4, 8, 0x0, 1⟩
  | .kilnLogptr => ⟨.kiln, 0x80, 32, 0x0, 1, 0x0, 1⟩
  | .kilnLoadlog => ⟨.kiln, 0x100, 64, 0x8, 16, 0x0, 1⟩
  | .kilnProgctl => ⟨.kiln, 0x200, 32, 0x0, 1, 0x0, 1⟩
  | .kilnProglen => ⟨.kiln, 0x204, 32, 0x0, 1, 0x0, 1⟩
  | .kilnProgsrc => ⟨.kiln, 0x208, 64, 0x0, 1, 0x0, 1⟩
  | .kilnAttctl => ⟨.kiln, 0x300, 32, 0x0, 1, 0x0, 1⟩
  | .kilnAttaddr => ⟨.kiln, 0x308, 64, 0x0, 1, 0x0, 1⟩
  | .kilnAttnonce => ⟨.kiln, 0x320, 32, 0x4, 8, 0x0, 1⟩
  | .kilnAttpub => ⟨.kiln, 0x340, 32, 0x4, 16, 0x0, 1⟩
  | .kilnPldctl => ⟨.kiln, 0x400, 32, 0x0, 1, 0x0, 1⟩
  | .kilnPldsrc => ⟨.kiln, 0x408, 64, 0x0, 1, 0x0, 1⟩
  | .kilnPldlen => ⟨.kiln, 0x410, 32, 0x0, 1, 0x0, 1⟩
  | .kilnPldtime => ⟨.kiln, 0x418, 64, 0x0, 1, 0x0, 1⟩
  | .kilnPldstat => ⟨.kiln, 0x420, 32, 0x0, 1, 0x0, 1⟩
  | .kilnFlrstat => ⟨.kiln, 0x500, 32, 0x4, 64, 0x0, 1⟩
  | .kilnShelf => ⟨.kiln, 0x600, 32, 0x0, 1, 0x0, 1⟩
  | .dieCtl => ⟨.die, 0x0, 32, 0x0, 1, 0x0, 1⟩
  | .dieDiscstat => ⟨.die, 0x8, 32, 0x0, 1, 0x0, 1⟩
  | .dieLthr => ⟨.die, 0x10, 32, 0x0, 1, 0x0, 1⟩
  | .dieTlnkstat => ⟨.die, 0x100, 64, 0x8, 6, 0x0, 1⟩
  | .dieSerial => ⟨.die, 0x1000, 64, 0x10, 64, 0x0, 1⟩
  | .dieIdinfo => ⟨.die, 0x1008, 32, 0x10, 64, 0x0, 1⟩
  | .dieXserial => ⟨.die, 0x1400, 64, 0x10, 4, 0x0, 1⟩
  | .dieXidinfo => ⟨.die, 0x1408, 32, 0x10, 4, 0x0, 1⟩
  | .dieMap => ⟨.die, 0x2000, 32, 0x4, 60, 0x0, 1⟩
  | .dieRemapctl => ⟨.die, 0x2800, 32, 0x0, 1, 0x0, 1⟩
  | .dieRemapstat => ⟨.die, 0x2808, 32, 0x0, 1, 0x0, 1⟩
  | .dieGrst => ⟨.die, 0x3000, 64, 0x0, 1, 0x0, 1⟩
  | .dieFault => ⟨.die, 0x3100, 64, 0x0, 1, 0x0, 1⟩
  | .dieClkloss => ⟨.die, 0x3110, 32, 0x0, 1, 0x0, 1⟩
  | .spgCtl => ⟨.spg, 0x0, 32, 0x0, 1, 0x0, 1⟩
  | .spgFindstat => ⟨.spg, 0x8, 32, 0x0, 1, 0x0, 1⟩
  | .spgFindaddr => ⟨.spg, 0x10, 64, 0x0, 1, 0x0, 1⟩
  | .spgFindinfo => ⟨.spg, 0x18, 64, 0x0, 1, 0x0, 1⟩
  | .spgFindpop => ⟨.spg, 0x20, 32, 0x0, 1, 0x0, 1⟩
  | .capPitchctl => ⟨.cap, 0x0, 32, 0x0, 1, 0x0, 1⟩
  | .capPitchtime => ⟨.cap, 0x8, 64, 0x0, 1, 0x0, 1⟩
  | .capPitchflr => ⟨.cap, 0x10, 64, 0x0, 1, 0x0, 1⟩
  | .capPitchpos => ⟨.cap, 0x18, 64, 0x0, 1, 0x0, 1⟩
  | .capStat => ⟨.cap, 0x20, 32, 0x0, 1, 0x0, 1⟩
  | .capCapskip => ⟨.cap, 0x28, 64, 0x0, 1, 0x0, 1⟩
  | .capCapskippos => ⟨.cap, 0x30, 64, 0x0, 1, 0x0, 1⟩
  | .capAccctl => ⟨.cap, 0x100, 32, 0x0, 1, 0x0, 1⟩
  | .capAccidx => ⟨.cap, 0x104, 32, 0x0, 1, 0x0, 1⟩
  | .capAccaddr => ⟨.cap, 0x108, 64, 0x0, 1, 0x0, 1⟩
  | .capAccstat => ⟨.cap, 0x110, 32, 0x0, 1, 0x0, 1⟩
  | .cohCtl => ⟨.coh, 0x0, 32, 0x0, 1, 0x0, 1⟩
  | .cohStat => ⟨.coh, 0x8, 64, 0x0, 1, 0x0, 1⟩
  | .cohBiasbase => ⟨.coh, 0x18, 64, 0x0, 1, 0x0, 1⟩
  | .cohBiascmd => ⟨.coh, 0x20, 64, 0x0, 1, 0x0, 1⟩
  | .cohBiasstat => ⟨.coh, 0x28, 32, 0x0, 1, 0x0, 1⟩
  | .cohHwin => ⟨.coh, 0x30, 64, 0x0, 1, 0x0, 1⟩
  | .cohHerr => ⟨.coh, 0x40, 64, 0x0, 1, 0x0, 1⟩
  | .cxlLnkstat => ⟨.cxl, 0x20000, 32, 0x0, 1, 0x0, 1⟩
  | .mempAlarmctl => ⟨.memp, 0x0, 32, 0x0, 1, 0x0, 1⟩
  | .mempAlarmstat => ⟨.memp, 0x8, 32, 0x0, 1, 0x0, 1⟩
  | .mempAlarmrec => ⟨.memp, 0x10, 64, 0x0, 1, 0x0, 1⟩
  | .mempKeyctl => ⟨.memp, 0x100, 32, 0x0, 1, 0x0, 1⟩
  | .mempKeystat => ⟨.memp, 0x108, 32, 0x0, 1, 0x0, 1⟩
  | .mempKeystate => ⟨.memp, 0x110, 64, 0x8, 2, 0x0, 1⟩
  | .mempRgnbase => ⟨.memp, 0x1000, 64, 0x40, 64, 0x0, 1⟩
  | .mempRgncfg => ⟨.memp, 0x1008, 32, 0x40, 64, 0x0, 1⟩
  | .mempRgnstat => ⟨.memp, 0x1010, 32, 0x40, 64, 0x0, 1⟩
  | .mempRgnwalk => ⟨.memp, 0x1018, 64, 0x40, 64, 0x0, 1⟩
  | .ddrCfg => ⟨.ddr, 0x0, 32, 0x10000, 16, 0x0, 1⟩
  | .ddrCtl => ⟨.ddr, 0x8, 32, 0x10000, 16, 0x0, 1⟩
  | .ddrStat => ⟨.ddr, 0x10, 64, 0x10000, 16, 0x0, 1⟩
  | .ddrSched => ⟨.ddr, 0x18, 32, 0x10000, 16, 0x0, 1⟩
  | .ddrRdp => ⟨.ddr, 0x20, 32, 0x10000, 16, 0x0, 1⟩
  | .ddrHaz => ⟨.ddr, 0x30, 64, 0x10000, 16, 0x0, 1⟩
  | .ddrEccstat => ⟨.ddr, 0x100, 32, 0x10000, 16, 0x0, 1⟩
  | .ddrEccaddr => ⟨.ddr, 0x108, 64, 0x10000, 16, 0x0, 1⟩
  | .ddrEccinfo => ⟨.ddr, 0x110, 32, 0x10000, 16, 0x0, 1⟩
  | .ddrDevfail => ⟨.ddr, 0x118, 32, 0x10000, 16, 0x0, 1⟩
  | .ddrTherm => ⟨.ddr, 0x200, 32, 0x10000, 16, 0x0, 1⟩
  | .ddrImap0 => ⟨.ddr, 0xF000, 32, 0x10000, 16, 0x0, 1⟩
  | .ddrImap1 => ⟨.ddr, 0xF008, 64, 0x10000, 16, 0x0, 1⟩
  | .xcvrLcfg => ⟨.xcvr, 0x0, 32, 0x1000, 480, 0x0, 1⟩
  | .xcvrQpll => ⟨.xcvr, 0x8, 32, 0x1000, 480, 0x0, 1⟩
  | .xcvrLstat => ⟨.xcvr, 0x10, 32, 0x1000, 480, 0x0, 1⟩
  | .xcvrLerr => ⟨.xcvr, 0x18, 64, 0x1000, 480, 0x0, 1⟩
  | .xcvrLpm => ⟨.xcvr, 0x20, 32, 0x1000, 480, 0x0, 1⟩
  | .xcvrTscfg => ⟨.xcvr, 0x28, 32, 0x1000, 480, 0x0, 1⟩
  | .xcvrPgen => ⟨.xcvr, 0x100, 32, 0x1000, 480, 0x0, 1⟩
  | .xcvrPchk => ⟨.xcvr, 0x108, 32, 0x1000, 480, 0x0, 1⟩
  | .xcvrPerrcnt => ⟨.xcvr, 0x110, 64, 0x1000, 480, 0x0, 1⟩
  | .xcvrPbitcnt => ⟨.xcvr, 0x118, 64, 0x1000, 480, 0x0, 1⟩
  | .xcvrPuser => ⟨.xcvr, 0x120, 32, 0x1000, 480, 0x4, 3⟩
  | .xcvrInj => ⟨.xcvr, 0x140, 32, 0x1000, 480, 0x0, 1⟩
  | .wortCtl => ⟨.xcvr, 0x80000, 32, 0x0, 1, 0x0, 1⟩
  | .wortStat => ⟨.xcvr, 0x80008, 32, 0x0, 1, 0x0, 1⟩
  | .wortLink => ⟨.xcvr, 0x80100, 64, 0x8, 120, 0x0, 1⟩
  | .wortRt => ⟨.xcvr, 0x81000, 32, 0x4, 256, 0x0, 1⟩
  | .grnSpanstat => ⟨.grain, 0x2100, 32, 0x10000, 64, 0x0, 1⟩
  | .grnSpanaddr => ⟨.grain, 0x2108, 64, 0x10000, 64, 0x0, 1⟩
  | .grnSpantrk => ⟨.grain, 0x2110, 32, 0x10000, 64, 0x0, 1⟩
  | .grnMemecc => ⟨.grain, 0x2200, 32, 0x10000, 64, 0x0, 1⟩
  | .grnMemeaddr => ⟨.grain, 0x2208, 64, 0x10000, 64, 0x0, 1⟩
  | .grnMemeinfo => ⟨.grain, 0x2210, 32, 0x10000, 64, 0x0, 1⟩
  | .grnSlcstat => ⟨.grain, 0x2300, 32, 0x10000, 64, 0x0, 1⟩
  | .grnSlcaddr => ⟨.grain, 0x2308, 64, 0x10000, 64, 0x0, 1⟩
  | .grnSlccaddr => ⟨.grain, 0x2310, 64, 0x10000, 64, 0x0, 1⟩
  | .grnSlcinfo => ⟨.grain, 0x2318, 32, 0x10000, 64, 0x0, 1⟩
  | .grnPllcfg => ⟨.grain, 0x2400, 64, 0x10000, 64, 0x8, 4⟩
  | .grnPllstat => ⟨.grain, 0x2420, 32, 0x10000, 64, 0x0, 1⟩
  | .grnXstat => ⟨.grain, 0x2500, 32, 0x10000, 64, 0x0, 1⟩
  | .grnXereplay => ⟨.grain, 0x2508, 64, 0x10000, 64, 0x0, 1⟩
  | .grnXpair => ⟨.grain, 0x2510, 32, 0x10000, 64, 0x0, 1⟩
  | .grnLnkstat => ⟨.grain, 0x2600, 64, 0x10000, 64, 0x8, 4⟩
  | .grnSpgstat => ⟨.grain, 0x2700, 32, 0x10000, 64, 0x0, 1⟩
  | .grnSpgpass => ⟨.grain, 0x2708, 32, 0x10000, 64, 0x0, 1⟩
  | .grnShdsrc => ⟨.grain, 0x2710, 32, 0x10000, 64, 0x0, 1⟩
  | .grnRtaba => ⟨.grain, 0x2800, 64, 0x10000, 64, 0x8, 8⟩
  | .grnRtabb => ⟨.grain, 0x2840, 64, 0x10000, 64, 0x8, 8⟩
  | .grnNociso => ⟨.grain, 0x2880, 32, 0x10000, 64, 0x0, 1⟩
  | .grnNocabs => ⟨.grain, 0x2888, 64, 0x10000, 64, 0x0, 1⟩
  | .grnNocinj => ⟨.grain, 0x2890, 32, 0x10000, 64, 0x0, 1⟩
  | .grnNocwake => ⟨.grain, 0x2898, 32, 0x10000, 64, 0x0, 1⟩
  | .grnEvstat => ⟨.grain, 0x2900, 32, 0x10000, 64, 0x0, 1⟩
  | .grnIostat => ⟨.grain, 0x2A00, 32, 0x10000, 64, 0x0, 1⟩
  | .grnLanecnt => ⟨.grain, 0x3000, 16, 0x10000, 64, 0x2, 512⟩

/-- The BAR0 offset of instance (i, j) of a register (R13). -/
def RegName.offset (r : RegName) (i j : Nat) : Nat :=
  r.info.unit.base + r.info.off + r.info.s1 * i + r.info.s2 * j

/-- The register fields; reserved bits have none. -/
inductive Fld where
  | tunIdFAMILY
  | tunIdPART
  | tunIdGRADE
  | tunIdTEMP
  | tunIdSTEP
  | tunSerialSERIAL
  | tunFeat0MEMP
  | tunFeat0CXLCM
  | tunFeat0GUEST
  | tunFeat0BAR4
  | tunFeatZERO
  | tunFeatackACK
  | tunFeatlockLOCK
  | tunClkenEN
  | tunClkstatCLOCKED
  | tunGatehitCOUNT
  | tunGatehitUNIT
  | tunGatehitSEEN
  | tunGateaddrOFFSET
  | tunGateaddrSRC
  | tunGateaddr4OFFSET
  | clkRootcfgREFSEL
  | clkRootcfgAUTOSW
  | clkRootstatLOCK
  | clkRootstatCOAST
  | clkRootstatREF0OK
  | clkRootstatREF1OK
  | clkRootstatTRIMOK
  | clkRootstatCOASTSEEN
  | clkRootstatREFSWSEEN
  | clkTroctlENABLE
  | clkTroctlTSRC
  | clkTroctlWINLOG
  | clkTroctlLPOS
  | clkTroctlLANE
  | clkTroctlSRCLOST
  | clkTroexpE
  | clkTrotrimTRIM
  | clkTrotrimLOCKED
  | clkTrocntM
  | clkFmctlMSRC
  | clkFmctlGSRC
  | clkFmctlGLOG
  | clkFmctlGATEERR
  | clkFmctlSTART
  | clkFmctlBUSY
  | clkFmctlOVF
  | clkFmctlDONE
  | clkFmcntCOUNT
  | pwrCtlRESCLR
  | pwrDctlREQ
  | pwrDctlAUTO
  | pwrDctlWAKE_ON_OFF
  | pwrDctlAUTORET
  | pwrDctlIDLE
  | pwrDctlRETIDLE
  | pwrDstatSTATE
  | pwrDstatBUSY
  | pwrDstatISO
  | pwrDstatLASTWAKE
  | pwrDstatREFUSED
  | pwrDstatERRCODE
  | pwrDstatSEEN
  | pwrResUS
  | nocCtlTMO
  | nocCtlDRSPTMO
  | nocRtctlSWITCH
  | nocRtctlACTIVE
  | nocRtctlDRAINING
  | nocRtctlFORCED
  | nocRtctlDONE
  | nocRtctlDRAINMAX
  | nocIsosumPOS
  | nocTisoEXT
  | nocTisoLINK
  | nocTisoCLREXT
  | nocTisoCLRLINK
  | nocTisoSEEN
  | nocTabsABSORBED
  | nocRbcfgRXBUF
  | nocRbcfgTXBUF
  | nocRbcfgTXCNT
  | nocRbstatSPLITCNT
  | nocRbstatSEGDONE
  | nocRbstatFAILSEEN
  | nocGfwctlCLASS
  | nocGfwctlRATE
  | nocGfwwinlRD
  | nocGfwwinlWR
  | nocGfwwinlBASE
  | nocGfwwinhLIMIT
  | nocGfwviolADDR
  | nocGfwviolOPC
  | nocGfwviolVN
  | nocGfwviolCAUSE
  | nocGfwviolSEEN
  | nocTrtabaPORTS
  | nocTrtabbPORTS
  | tmuTimeloFRAC
  | tmuTimeloNS
  | tmuTimeloSECLO
  | tmuTimehiSECHI
  | tmuIncINC
  | tmuSteploFRAC
  | tmuSteploNS
  | tmuSteploSECLO
  | tmuStephiSECHI
  | tmuCorrSTEPGO
  | tmuCorrINCPEND
  | tmuCorrSTEPPEND
  | tmuCorrSTEPERR
  | tmuCorrINCERR
  | tmuCorrAPPLIED
  | tmuHoldoverINTERVAL
  | tmuHoldoverACTIVE
  | tmuHoldoverSEEN
  | tmuPpsctlEN
  | tmuPpsctlPOL
  | tmuPpsctlWIDTH
  | tmuPpsctlINEN
  | tmuPpsctlINEDGE
  | tmuTrigcfgMODE
  | tmuTrigcfgEDGE
  | tmuTrigcfgIDLE
  | tmuTrigcfgWIDTH
  | tmuTsbaseBASE
  | tmuTscfgEN
  | tmuTscfgPITCHTS
  | tmuTscfgLOG2N
  | tmuTscfgWM
  | tmuTswrWR
  | tmuTsrdRD
  | tmuTsstatLOST
  | tmuTsstatPATHFAIL
  | tmuTsstatWMSEEN
  | tmuTsstatOVF
  | tmuLtsenEN
  | tmuDtsenEN
  | tmuTmrevtFIRED
  | tmuWinevtHIT
  | tmrCtlEN
  | tmrCtlDEST
  | tmrCtlSEL
  | tmrCtlEVT
  | tmrCtlARMED
  | tmrCtlMISS
  | tmrCtlERR
  | tmrCtlERRCODE
  | tmrCtlCOUNT
  | tmrStartloFRAC
  | tmrStartloNS
  | tmrStartloSECLO
  | tmrStarthiSECHI
  | tmrPeriodPERIOD
  | winCtlEN
  | winCtlSRC
  | winCtlGATE
  | winCtlEVT
  | winCtlERR
  | winStatINCNT
  | winStatOCC
  | winStatHIT
  | winStartloFRAC
  | winStartloNS
  | winStartloSECLO
  | winStarthiSECHI
  | winEndloFRAC
  | winEndloNS
  | winEndloSECLO
  | winEndhiSECHI
  | winPeriodPERIOD
  | winFirstloFRAC
  | winFirstloNS
  | winFirstloSECLO
  | winFirsthiSECHI
  | caskCfgMODE
  | caskCfgNREG
  | caskEndaACLS
  | caskEndaAID
  | caskEndaTAGENT
  | caskEndaTBIT
  | caskEndaTEN
  | caskEndaTREM
  | caskEndaTDEV
  | caskEndbACLS
  | caskEndbAID
  | caskEndbTAGENT
  | caskEndbTBIT
  | caskEndbTEN
  | caskEndbTREM
  | caskEndbTDEV
  | caskStatGO
  | caskStatFROM
  | caskStatCOLLIDE
  | caskStatACCERR
  | caskStatEMPTYRD
  | caskStatQAB
  | caskStatQBA
  | caskStatDROPS
  | caskMsgDATA
  | caskXctlGO
  | caskXctlTAKE
  | caskXpushWORD
  | caskXpopWORD
  | evrRouteMSIEN
  | evrRouteVEC
  | evrRouteDESEN
  | evrRouteDPOS
  | evrRouteTAPEN
  | evrRouteTAGENT
  | evrRouteTBIT
  | evrRoutePEND
  | evrRouteCNT
  | evrRouteSEEN
  | evrPayPAYLOAD
  | tapPendPEND
  | tapMaskMASK
  | tapCfgVEC
  | kilnCtlRELOAD
  | kilnCtlRSLOT
  | kilnStatSTATE
  | kilnStatSLOT
  | kilnStatRLDIGN
  | kilnStatATTEMPT
  | kilnStatBOOTSEL
  | kilnStatCFGPULL
  | kilnStatKEYSEL
  | kilnStatRELMS
  | kilnFramesCOUNT
  | kilnImgverVERSION
  | kilnBasedigDIG
  | kilnLogptrNEXT
  | kilnLoadlogCODE
  | kilnLoadlogSLOT
  | kilnLoadlogLPOS
  | kilnLoadlogFRAME
  | kilnLoadlogTIMEMS
  | kilnLoadlogATTEMPT
  | kilnLoadlogVALID
  | kilnProgctlSLOT
  | kilnProgctlSTART
  | kilnProgctlBUSY
  | kilnProgctlDONE
  | kilnProgctlERR
  | kilnProgctlERRCODE
  | kilnProglenLEN
  | kilnProgsrcZERO
  | kilnProgsrcADDR
  | kilnAttctlSTART
  | kilnAttctlBUSY
  | kilnAttctlDONE
  | kilnAttctlERR
  | kilnAttaddrADDR
  | kilnAttnonceNONCE
  | kilnAttpubPUB
  | kilnPldctlSTART
  | kilnPldctlTIMED
  | kilnPldsrcZERO
  | kilnPldsrcADDR
  | kilnPldlenLEN
  | kilnPldtimeNS
  | kilnPldtimeSEC
  | kilnPldstatSTATE
  | kilnPldstatFLOOR
  | kilnPldstatCODE
  | kilnPldstatLATE
  | kilnPldstatIGN
  | kilnPldstatFAIL
  | kilnPldstatDONE
  | kilnFlrstatSTATE
  | kilnFlrstatLOADS
  | kilnShelfFREE
  | dieCtlAUTOREP
  | dieCtlREMAPPOL
  | dieDiscstatDONE
  | dieDiscstatPANELBAD
  | dieDiscstatIDMIS
  | dieDiscstatLINKMIS
  | dieDiscstatMAPINVAL
  | dieDiscstatAUTOREPD
  | dieDiscstatANSWERS
  | dieLthrRETIRE
  | dieLthrWLOG
  | dieTlnkstatSPUSEDA
  | dieTlnkstatSPUSEDB
  | dieTlnkstatSURVA
  | dieTlnkstatSURVB
  | dieTlnkstatNSPUSED
  | dieTlnkstatNSURV
  | dieTlnkstatSTATE
  | dieTlnkstatCKB
  | dieTlnkstatCLKUP
  | dieTlnkstatFOLDA
  | dieTlnkstatFOLDB
  | dieTlnkstatLASTRET
  | dieTlnkstatRETSEEN
  | dieSerialSERIAL
  | dieIdinfoTYPE
  | dieIdinfoGRADE
  | dieIdinfoRXMASK
  | dieIdinfoUPPORT
  | dieIdinfoDEPTH
  | dieIdinfoPRESENT
  | dieIdinfoDISPLACED
  | dieIdinfoLPOS
  | dieXserialSERIAL
  | dieXidinfoTYPE
  | dieXidinfoGRADE
  | dieXidinfoRXMASK
  | dieXidinfoUPPORT
  | dieXidinfoDEPTH
  | dieXidinfoPRESENT
  | dieXidinfoDISPLACED
  | dieXidinfoLPOS
  | dieMapPHYS
  | dieRemapctlLPOS
  | dieRemapctlSPARE
  | dieRemapctlSTART
  | dieRemapstatSTATE
  | dieRemapstatREASON
  | dieRemapstatLPOS
  | dieRemapstatSPARE
  | dieRemapstatNOSTATE
  | dieRemapstatSEEN
  | dieGrstHOLD
  | dieFaultPHYS
  | dieFaultPORT
  | dieFaultKIND
  | dieFaultLPOS
  | dieFaultSURV
  | dieFaultSUB
  | dieFaultCOUNT
  | dieFaultSEEN
  | dieClklossPHYS
  | dieClklossLPOS
  | dieClklossPORTS
  | dieClklossCLKBACK
  | dieClklossSEEN
  | spgCtlINTERVAL
  | spgCtlBURST
  | spgFindstatCOUNT
  | spgFindstatOVFCNT
  | spgFindstatOVF
  | spgFindaddrADDR
  | spgFindinfoFADDR
  | spgFindinfoCLASS
  | spgFindinfoNBITS
  | spgFindinfoBIT
  | spgFindinfoINFLOOR
  | spgFindinfoFLOOR
  | spgFindinfoPHYS
  | spgFindpopPOP
  | capPitchctlKIND
  | capPitchctlDESIGN
  | capPitchctlSTART
  | capPitchtimeNS
  | capPitchtimeSEC
  | capPitchflrFLOORMASK
  | capPitchposPOSMASK
  | capPitchposBASE
  | capStatPEND
  | capStatFULL
  | capStatLATE
  | capStatBADKIND
  | capStatCAPDONE
  | capStatCAPSEQ
  | capCapskipFLOORS
  | capCapskipposPOS
  | capAccctlOP
  | capAccctlLPOS
  | capAccctlFTYPE
  | capAccctlSTART
  | capAccidxFIRST
  | capAccidxCOUNT
  | capAccaddrZERO
  | capAccaddrADDR
  | capAccstatBUSY
  | capAccstatDONE
  | capAccstatERR
  | capAccstatERRCODE
  | capAccstatTORN
  | capAccstatFRAMES
  | cohCtlNOALLOC
  | cohCtlFLUSH
  | cohCtlFLUSHBUSY
  | cohCtlFLUSHDONE
  | cohCtlHTMO
  | cohStatFLIPDH
  | cohStatFLIPHD
  | cohStatFEVICT
  | cohStatLOSTDIRTY
  | cohStatBIASLOST
  | cohStatLINKLOST
  | cohBiasbaseADDR
  | cohBiascmdPAGE
  | cohBiascmdTARGET
  | cohBiascmdSTART
  | cohBiascmdQUERY
  | cohBiascmdCOUNTM1
  | cohBiasstatBUSY
  | cohBiasstatDONE
  | cohBiasstatERR
  | cohBiasstatERRCODE
  | cohBiasstatCUR
  | cohHwinEN
  | cohHwinBASE
  | cohHerrADDR
  | cohHerrCAUSE
  | cohHerrCOUNT
  | cohHerrSEEN
  | cxlLnkstatUP
  | cxlLnkstatMODE
  | cxlLnkstatSPEED
  | cxlLnkstatWIDTH
  | cxlLnkstatCACHEEN
  | cxlLnkstatMEMEN
  | cxlLnkstatCHGSEEN
  | mempAlarmctlPINEN
  | mempAlarmctlZEROIZE
  | mempAlarmstatSEEN
  | mempAlarmstatCOUNT
  | mempAlarmrecADDR
  | mempAlarmrecREGION
  | mempAlarmrecCAUSE
  | mempAlarmrecSNODE
  | mempKeyctlKEYID
  | mempKeyctlCMD
  | mempKeystatBUSY
  | mempKeystatERR
  | mempKeystateST
  | mempRgnbaseBASE
  | mempRgncfgENABLE
  | mempRgncfgMODE
  | mempRgncfgKEYID
  | mempRgncfgLOG2S
  | mempRgncfgAUTOREKEY
  | mempRgncfgACC
  | mempRgnstatSTATE
  | mempRgnstatREKEYDUE
  | mempRgnstatREKEYBLK
  | mempRgnstatERR
  | mempRgnstatWALKS
  | mempRgnwalkWP
  | mempRgnwalkNEWKEY
  | mempRgnwalkSTART
  | mempRgnwalkJUMPS
  | ddrCfgSPEED
  | ddrCfgPAIR
  | ddrCfgRANKS2
  | ddrCfgDENS
  | ddrCfgCGIB
  | ddrCfgINMAP
  | ddrCfgSLOT
  | ddrCtlWBUF
  | ddrCtlMAXSPD
  | ddrCtlWBACK
  | ddrCtlRETRAIN
  | ddrStatSTATE
  | ddrStatRTIGN
  | ddrStatINFL
  | ddrStatWBOCC
  | ddrStatTRSTEP
  | ddrStatSEEN
  | ddrStatDROPS
  | ddrSchedPGTMO
  | ddrSchedSTARVE
  | ddrRdpK
  | ddrRdpNRCNT
  | ddrHazFWD
  | ddrHazPWAIT
  | ddrEccstatCECNT
  | ddrEccstatUECNT
  | ddrEccstatUSEEN
  | ddrEccstatCSEEN
  | ddrEccaddrADDR
  | ddrEccaddrRANK
  | ddrEccaddrSUB
  | ddrEccinfoDEV
  | ddrEccinfoNSYM
  | ddrEccinfoUE
  | ddrEccinfoWRFAIL
  | ddrEccinfoMULTI
  | ddrEccinfoERASE
  | ddrDevfailVALID
  | ddrDevfailRANK
  | ddrDevfailDEV
  | ddrDevfailDEVTHR
  | ddrThermTEMP
  | ddrThermHOT
  | ddrThermSBERR
  | ddrThermHOTSEEN
  | ddrImap0K
  | ddrImap0VALID
  | ddrImap0CGIB
  | ddrImap1CH
  | xcvrLcfgMODE
  | xcvrLcfgDIV
  | xcvrLcfgWIDTH
  | xcvrLcfgRAW
  | xcvrLcfgTXPOL
  | xcvrLcfgRXPOL
  | xcvrLcfgDROPIDLE
  | xcvrLcfgBOND
  | xcvrQpllN
  | xcvrQpllF
  | xcvrQpllEN
  | xcvrQpllLOCK
  | xcvrQpllUNLOCKSEEN
  | xcvrLstatRXST
  | xcvrLstatSIGDET
  | xcvrLstatCDRLOCK
  | xcvrLstatPSTATE
  | xcvrLstatUPSEEN
  | xcvrLstatDOWNSEEN
  | xcvrLstatRXOVF
  | xcvrLstatERRSEEN
  | xcvrLstatBONDERR
  | xcvrLerrCODEERR
  | xcvrLerrDISPERR
  | xcvrLpmREQ
  | xcvrLpmAUTO
  | xcvrLpmSBYUS
  | xcvrLpmSLPMS
  | xcvrTscfgSOFSYM
  | xcvrTscfgSOFK
  | xcvrTscfgTSDEC
  | xcvrPgenPAT
  | xcvrPchkPAT
  | xcvrPchkLOCK
  | xcvrPchkLOSTSEEN
  | xcvrPchkCLR
  | xcvrPerrcntERR
  | xcvrPbitcntKBITS
  | xcvrPuserPAT
  | xcvrInjKIND
  | xcvrInjBURST
  | xcvrInjEXP
  | xcvrInjGO
  | xcvrInjBUSY
  | wortCtlROOT
  | wortCtlAUTODISC
  | wortCtlDISC
  | wortStatDEVNUM
  | wortStatDONE
  | wortStatISROOT
  | wortStatRBMODE
  | wortStatEXCESS
  | wortStatNDEVM1
  | wortStatSEEN
  | wortLinkEN
  | wortLinkSTATE
  | wortLinkLANES
  | wortLinkPEERDEV
  | wortLinkPEERPOS
  | wortLinkPEERHALF
  | wortLinkERR
  | wortLinkREPLAYS
  | wortLinkSEEN
  | wortRtPOS
  | wortRtHALF
  | wortRtVALID
  | grnSpanstatCOUNT
  | grnSpanstatACTIVE
  | grnSpanstatSEEN
  | grnSpanaddrADDR
  | grnSpantrkTRACK
  | grnSpantrkVERT
  | grnSpantrkSEG
  | grnSpantrkENMASK
  | grnMemeccSBECNT
  | grnMemeccDBECNT
  | grnMemeccDSEEN
  | grnMemeccSSEEN
  | grnMemeaddrADDR
  | grnMemeinfoWORD
  | grnMemeinfoPORT
  | grnMemeinfoDBE
  | grnMemeinfoSYND
  | grnSlcstatILLCNT
  | grnSlcstatCSBECNT
  | grnSlcstatCDBECNT
  | grnSlcstatILLSEEN
  | grnSlcstatCSEEN
  | grnSlcaddrADDR
  | grnSlccaddrADDR
  | grnSlcinfoOPW
  | grnSlcinfoCWORD
  | grnSlcinfoCDBE
  | grnPllcfgREFSRC
  | grnPllcfgDM1
  | grnPllcfgMM1
  | grnPllcfgEN
  | grnPllcfgOUT
  | grnPllstatLOCK
  | grnPllstatCOASTNOW
  | grnPllstatCOASTSEEN
  | grnPllstatUNLOCKSEEN
  | grnPllstatTROOK
  | grnXstatINREST
  | grnXstatCLKMISS
  | grnXstatREPLAYSEEN
  | grnXstatPAIRLOSTSEEN
  | grnXstatCREDFROZEN
  | grnXereplayCNTN
  | grnXereplayCNTE
  | grnXereplayCNTS
  | grnXereplayCNTW
  | grnXpairRIDX
  | grnXpairPORT
  | grnLnkstatSPUSEDA
  | grnLnkstatSPUSEDB
  | grnLnkstatSURVA
  | grnLnkstatSURVB
  | grnLnkstatNSPUSED
  | grnLnkstatNSURV
  | grnLnkstatSTATE
  | grnLnkstatCKB
  | grnLnkstatCLKUP
  | grnLnkstatFOLDA
  | grnLnkstatFOLDB
  | grnLnkstatLASTRET
  | grnLnkstatRETSEEN
  | grnSpgstatCORRCNT
  | grnSpgstatREWCNT
  | grnSpgstatFAILCNT
  | grnSpgstatFAILSEEN
  | grnSpgstatSEEN
  | grnSpgpassFRAME
  | grnSpgpassPAUSED
  | grnSpgpassPASSES
  | grnShdsrcSEQ
  | grnShdsrcSRC
  | grnShdsrcFROZEN
  | grnRtabaPORTS
  | grnRtabbPORTS
  | grnNocisoISO
  | grnNocisoRESTH
  | grnNocisoCLR
  | grnNocisoDECL
  | grnNocisoSEEN
  | grnNocabsABSORBED
  | grnNocabsDISCARD
  | grnNocinjCAP0
  | grnNocinjCAP1
  | grnNocwakeWAKES
  | grnNocwakeHELD
  | grnNocwakeSEEN
  | grnEvstatDROPS
  | grnEvstatSEEN
  | grnIostatVDECL
  | grnIostatDECLVALID
  | grnIostatVSENSE
  | grnIostatVPRES
  | grnIostatMISSEEN
  | grnLanecntCOUNT
  deriving DecidableEq, Repr

/-- Where a field's reset value comes from (the Reset columns): a number, or the fuses, options, home site or domain that the
column names. -/
inductive ResetFrom where
  | val (n : Nat)
  | grade | temp | step | serial | optS | optX | optG | noX | clken | domain | attPub | home
  deriving DecidableEq, Repr

/-- Where a field lies in its register, its type, its reset value, and the fields that writing 1 to it also clears (the
Meaning columns). -/
structure FldInfo where
  reg    : RegName
  lo     : Nat
  len    : Nat
  type   : FType
  reset  : ResetFrom
  clears : List Fld
  deriving DecidableEq, Repr

/-- The place, type and reset value of every field. -/
def Fld.info : Fld → FldInfo
  | .tunIdFAMILY => ⟨.tunId, 0, 8, .ro, .val 0xA5, []⟩
  | .tunIdPART => ⟨.tunId, 8, 8, .ro, .val 0x60, []⟩
  | .tunIdGRADE => ⟨.tunId, 16, 2, .ro, .grade, []⟩
  | .tunIdTEMP => ⟨.tunId, 18, 1, .ro, .temp, []⟩
  | .tunIdSTEP => ⟨.tunId, 24, 4, .ro, .step, []⟩
  | .tunSerialSERIAL => ⟨.tunSerial, 0, 64, .ro, .serial, []⟩
  | .tunFeat0MEMP => ⟨.tunFeat0, 0, 1, .ro, .optS, []⟩
  | .tunFeat0CXLCM => ⟨.tunFeat0, 1, 1, .ro, .optX, []⟩
  | .tunFeat0GUEST => ⟨.tunFeat0, 2, 1, .ro, .optG, []⟩
  | .tunFeat0BAR4 => ⟨.tunFeat0, 3, 1, .ro, .noX, []⟩
  | .tunFeatZERO => ⟨.tunFeat, 0, 32, .ro, .val 0x0, []⟩
  | .tunFeatackACK => ⟨.tunFeatack, 0, 32, .rw, .val 0x0, []⟩
  | .tunFeatlockLOCK => ⟨.tunFeatlock, 0, 1, .w1s, .val 0x0, []⟩
  | .tunClkenEN => ⟨.tunClken, 0, 17, .ro, .clken, []⟩
  | .tunClkstatCLOCKED => ⟨.tunClkstat, 0, 17, .ro, .clken, []⟩
  | .tunGatehitCOUNT => ⟨.tunGatehit, 0, 24, .ro, .val 0x0, []⟩
  | .tunGatehitUNIT => ⟨.tunGatehit, 24, 5, .ro, .val 0x0, []⟩
  | .tunGatehitSEEN => ⟨.tunGatehit, 31, 1, .w1c, .val 0x0, [.tunGatehitCOUNT]⟩
  | .tunGateaddrOFFSET => ⟨.tunGateaddr, 0, 26, .ro, .val 0x0, []⟩
  | .tunGateaddrSRC => ⟨.tunGateaddr, 28, 4, .ro, .val 0x0, []⟩
  | .tunGateaddr4OFFSET => ⟨.tunGateaddr4, 0, 41, .ro, .val 0x0, []⟩
  | .clkRootcfgREFSEL => ⟨.clkRootcfg, 0, 1, .rw, .val 0x0, []⟩
  | .clkRootcfgAUTOSW => ⟨.clkRootcfg, 1, 1, .rw, .val 0x1, []⟩
  | .clkRootstatLOCK => ⟨.clkRootstat, 0, 1, .ro, .val 0x0, []⟩
  | .clkRootstatCOAST => ⟨.clkRootstat, 1, 1, .ro, .val 0x0, []⟩
  | .clkRootstatREF0OK => ⟨.clkRootstat, 2, 1, .ro, .val 0x0, []⟩
  | .clkRootstatREF1OK => ⟨.clkRootstat, 3, 1, .ro, .val 0x0, []⟩
  | .clkRootstatTRIMOK => ⟨.clkRootstat, 4, 1, .ro, .val 0x0, []⟩
  | .clkRootstatCOASTSEEN => ⟨.clkRootstat, 16, 1, .w1c, .val 0x0, []⟩
  | .clkRootstatREFSWSEEN => ⟨.clkRootstat, 17, 1, .w1c, .val 0x0, []⟩
  | .clkTroctlENABLE => ⟨.clkTroctl, 0, 1, .rw, .val 0x0, []⟩
  | .clkTroctlTSRC => ⟨.clkTroctl, 1, 2, .rw, .val 0x0, []⟩
  | .clkTroctlWINLOG => ⟨.clkTroctl, 3, 5, .rw, .val 0x6, []⟩
  | .clkTroctlLPOS => ⟨.clkTroctl, 8, 6, .rw, .val 0x0, []⟩
  | .clkTroctlLANE => ⟨.clkTroctl, 14, 3, .rw, .val 0x0, []⟩
  | .clkTroctlSRCLOST => ⟨.clkTroctl, 31, 1, .w1c, .val 0x0, []⟩
  | .clkTroexpE => ⟨.clkTroexp, 0, 32, .rw, .val 0x10000, []⟩
  | .clkTrotrimTRIM => ⟨.clkTrotrim, 0, 10, .rw, .val 0x0, []⟩
  | .clkTrotrimLOCKED => ⟨.clkTrotrim, 31, 1, .ro, .val 0x0, []⟩
  | .clkTrocntM => ⟨.clkTrocnt, 0, 32, .ro, .val 0x0, []⟩
  | .clkFmctlMSRC => ⟨.clkFmctl, 0, 4, .rw, .val 0x0, []⟩
  | .clkFmctlGSRC => ⟨.clkFmctl, 4, 4, .rw, .val 0x0, []⟩
  | .clkFmctlGLOG => ⟨.clkFmctl, 8, 5, .rw, .val 0x0, []⟩
  | .clkFmctlGATEERR => ⟨.clkFmctl, 13, 1, .w1c, .val 0x0, []⟩
  | .clkFmctlSTART => ⟨.clkFmctl, 28, 1, .wo, .val 0x0, []⟩
  | .clkFmctlBUSY => ⟨.clkFmctl, 29, 1, .ro, .val 0x0, []⟩
  | .clkFmctlOVF => ⟨.clkFmctl, 30, 1, .ro, .val 0x0, []⟩
  | .clkFmctlDONE => ⟨.clkFmctl, 31, 1, .w1c, .val 0x0, []⟩
  | .clkFmcntCOUNT => ⟨.clkFmcnt, 0, 32, .ro, .val 0x0, []⟩
  | .pwrCtlRESCLR => ⟨.pwrCtl, 0, 1, .wo, .val 0x0, []⟩
  | .pwrDctlREQ => ⟨.pwrDctl, 0, 2, .rw, .domain, []⟩
  | .pwrDctlAUTO => ⟨.pwrDctl, 2, 1, .rw, .val 0x0, []⟩
  | .pwrDctlWAKE_ON_OFF => ⟨.pwrDctl, 3, 1, .rw, .val 0x0, []⟩
  | .pwrDctlAUTORET => ⟨.pwrDctl, 4, 1, .rw, .val 0x0, []⟩
  | .pwrDctlIDLE => ⟨.pwrDctl, 6, 14, .rw, .val 0x64, []⟩
  | .pwrDctlRETIDLE => ⟨.pwrDctl, 20, 12, .rw, .val 0x64, []⟩
  | .pwrDstatSTATE => ⟨.pwrDstat, 0, 2, .ro, .domain, []⟩
  | .pwrDstatBUSY => ⟨.pwrDstat, 2, 1, .ro, .val 0x0, []⟩
  | .pwrDstatISO => ⟨.pwrDstat, 3, 1, .ro, .val 0x0, []⟩
  | .pwrDstatLASTWAKE => ⟨.pwrDstat, 8, 3, .ro, .val 0x0, []⟩
  | .pwrDstatREFUSED => ⟨.pwrDstat, 16, 1, .w1c, .val 0x0, []⟩
  | .pwrDstatERRCODE => ⟨.pwrDstat, 17, 3, .ro, .val 0x0, []⟩
  | .pwrDstatSEEN => ⟨.pwrDstat, 31, 1, .w1c, .val 0x0, []⟩
  | .pwrResUS => ⟨.pwrRes, 0, 64, .ro, .val 0x0, []⟩
  | .nocCtlTMO => ⟨.nocCtl, 0, 12, .rw, .val 0x8, []⟩
  | .nocCtlDRSPTMO => ⟨.nocCtl, 16, 12, .rw, .val 0x3E8, []⟩
  | .nocRtctlSWITCH => ⟨.nocRtctl, 0, 1, .wo, .val 0x0, []⟩
  | .nocRtctlACTIVE => ⟨.nocRtctl, 1, 1, .ro, .val 0x0, []⟩
  | .nocRtctlDRAINING => ⟨.nocRtctl, 2, 1, .ro, .val 0x0, []⟩
  | .nocRtctlFORCED => ⟨.nocRtctl, 3, 1, .w1c, .val 0x0, []⟩
  | .nocRtctlDONE => ⟨.nocRtctl, 4, 1, .w1c, .val 0x0, []⟩
  | .nocRtctlDRAINMAX => ⟨.nocRtctl, 8, 8, .rw, .val 0xC8, []⟩
  | .nocIsosumPOS => ⟨.nocIsosum, 0, 60, .ro, .val 0x0, []⟩
  | .nocTisoEXT => ⟨.nocTiso, 0, 4, .ro, .val 0x0, []⟩
  | .nocTisoLINK => ⟨.nocTiso, 4, 2, .ro, .val 0x0, []⟩
  | .nocTisoCLREXT => ⟨.nocTiso, 16, 4, .wo, .val 0x0, []⟩
  | .nocTisoCLRLINK => ⟨.nocTiso, 20, 2, .wo, .val 0x0, []⟩
  | .nocTisoSEEN => ⟨.nocTiso, 31, 1, .w1c, .val 0x0, [.nocTabsABSORBED]⟩
  | .nocTabsABSORBED => ⟨.nocTabs, 0, 32, .ro, .val 0x0, []⟩
  | .nocRbcfgRXBUF => ⟨.nocRbcfg, 0, 2, .rw, .val 0x2, []⟩
  | .nocRbcfgTXBUF => ⟨.nocRbcfg, 2, 2, .ro, .val 0x0, []⟩
  | .nocRbcfgTXCNT => ⟨.nocRbcfg, 4, 4, .ro, .val 0x0, []⟩
  | .nocRbstatSPLITCNT => ⟨.nocRbstat, 0, 16, .ro, .val 0x0, []⟩
  | .nocRbstatSEGDONE => ⟨.nocRbstat, 16, 3, .ro, .val 0x0, []⟩
  | .nocRbstatFAILSEEN => ⟨.nocRbstat, 31, 1, .w1c, .val 0x0, [.nocRbstatSPLITCNT]⟩
  | .nocGfwctlCLASS => ⟨.nocGfwctl, 0, 4, .rw, .val 0x0, []⟩
  | .nocGfwctlRATE => ⟨.nocGfwctl, 4, 11, .rw, .val 0x0, []⟩
  | .nocGfwwinlRD => ⟨.nocGfwwinl, 0, 1, .rw, .val 0x0, []⟩
  | .nocGfwwinlWR => ⟨.nocGfwwinl, 1, 1, .rw, .val 0x0, []⟩
  | .nocGfwwinlBASE => ⟨.nocGfwwinl, 12, 36, .rw, .val 0x0, []⟩
  | .nocGfwwinhLIMIT => ⟨.nocGfwwinh, 12, 36, .rw, .val 0x0, []⟩
  | .nocGfwviolADDR => ⟨.nocGfwviol, 0, 48, .ro, .val 0x0, []⟩
  | .nocGfwviolOPC => ⟨.nocGfwviol, 48, 4, .ro, .val 0x0, []⟩
  | .nocGfwviolVN => ⟨.nocGfwviol, 52, 2, .ro, .val 0x0, []⟩
  | .nocGfwviolCAUSE => ⟨.nocGfwviol, 54, 2, .ro, .val 0x0, []⟩
  | .nocGfwviolSEEN => ⟨.nocGfwviol, 63, 1, .w1c, .val 0x0, []⟩
  | .nocTrtabaPORTS => ⟨.nocTrtaba, 0, 64, .ro, .val 0xFFFFFFFFFFFFFFFF, []⟩
  | .nocTrtabbPORTS => ⟨.nocTrtabb, 0, 64, .ro, .val 0xFFFFFFFFFFFFFFFF, []⟩
  | .tmuTimeloFRAC => ⟨.tmuTimelo, 0, 16, .ro, .val 0x0, []⟩
  | .tmuTimeloNS => ⟨.tmuTimelo, 16, 30, .ro, .val 0x0, []⟩
  | .tmuTimeloSECLO => ⟨.tmuTimelo, 48, 16, .ro, .val 0x0, []⟩
  | .tmuTimehiSECHI => ⟨.tmuTimehi, 0, 32, .ro, .val 0x0, []⟩
  | .tmuIncINC => ⟨.tmuInc, 0, 32, .rw, .val 0x10000, []⟩
  | .tmuSteploFRAC => ⟨.tmuSteplo, 0, 16, .rw, .val 0x0, []⟩
  | .tmuSteploNS => ⟨.tmuSteplo, 16, 30, .rw, .val 0x0, []⟩
  | .tmuSteploSECLO => ⟨.tmuSteplo, 48, 16, .rw, .val 0x0, []⟩
  | .tmuStephiSECHI => ⟨.tmuStephi, 0, 32, .rw, .val 0x0, []⟩
  | .tmuCorrSTEPGO => ⟨.tmuCorr, 0, 1, .wo, .val 0x0, []⟩
  | .tmuCorrINCPEND => ⟨.tmuCorr, 1, 1, .ro, .val 0x0, []⟩
  | .tmuCorrSTEPPEND => ⟨.tmuCorr, 2, 1, .ro, .val 0x0, []⟩
  | .tmuCorrSTEPERR => ⟨.tmuCorr, 3, 1, .w1c, .val 0x0, []⟩
  | .tmuCorrINCERR => ⟨.tmuCorr, 4, 1, .w1c, .val 0x0, []⟩
  | .tmuCorrAPPLIED => ⟨.tmuCorr, 5, 1, .w1c, .val 0x0, []⟩
  | .tmuHoldoverINTERVAL => ⟨.tmuHoldover, 0, 16, .rw, .val 0x3E8, []⟩
  | .tmuHoldoverACTIVE => ⟨.tmuHoldover, 16, 1, .ro, .val 0x0, []⟩
  | .tmuHoldoverSEEN => ⟨.tmuHoldover, 31, 1, .w1c, .val 0x0, []⟩
  | .tmuPpsctlEN => ⟨.tmuPpsctl, 0, 1, .rw, .val 0x0, []⟩
  | .tmuPpsctlPOL => ⟨.tmuPpsctl, 1, 1, .rw, .val 0x0, []⟩
  | .tmuPpsctlWIDTH => ⟨.tmuPpsctl, 2, 20, .rw, .val 0x186A0, []⟩
  | .tmuPpsctlINEN => ⟨.tmuPpsctl, 22, 1, .rw, .val 0x0, []⟩
  | .tmuPpsctlINEDGE => ⟨.tmuPpsctl, 23, 1, .rw, .val 0x0, []⟩
  | .tmuTrigcfgMODE => ⟨.tmuTrigcfg, 0, 2, .rw, .val 0x0, []⟩
  | .tmuTrigcfgEDGE => ⟨.tmuTrigcfg, 2, 2, .rw, .val 0x0, []⟩
  | .tmuTrigcfgIDLE => ⟨.tmuTrigcfg, 4, 1, .rw, .val 0x0, []⟩
  | .tmuTrigcfgWIDTH => ⟨.tmuTrigcfg, 5, 16, .rw, .val 0x64, []⟩
  | .tmuTsbaseBASE => ⟨.tmuTsbase, 12, 36, .rw, .val 0x0, []⟩
  | .tmuTscfgEN => ⟨.tmuTscfg, 0, 1, .rw, .val 0x0, []⟩
  | .tmuTscfgPITCHTS => ⟨.tmuTscfg, 1, 1, .rw, .val 0x0, []⟩
  | .tmuTscfgLOG2N => ⟨.tmuTscfg, 2, 5, .rw, .val 0xC, []⟩
  | .tmuTscfgWM => ⟨.tmuTscfg, 8, 20, .rw, .val 0x800, []⟩
  | .tmuTswrWR => ⟨.tmuTswr, 0, 20, .ro, .val 0x0, []⟩
  | .tmuTsrdRD => ⟨.tmuTsrd, 0, 20, .rw, .val 0x0, []⟩
  | .tmuTsstatLOST => ⟨.tmuTsstat, 0, 24, .ro, .val 0x0, []⟩
  | .tmuTsstatPATHFAIL => ⟨.tmuTsstat, 29, 1, .w1c, .val 0x0, []⟩
  | .tmuTsstatWMSEEN => ⟨.tmuTsstat, 30, 1, .w1c, .val 0x0, []⟩
  | .tmuTsstatOVF => ⟨.tmuTsstat, 31, 1, .w1c, .val 0x0, [.tmuTsstatLOST]⟩
  | .tmuLtsenEN => ⟨.tmuLtsen, 0, 64, .rw, .val 0x0, []⟩
  | .tmuDtsenEN => ⟨.tmuDtsen, 0, 60, .rw, .val 0x0, []⟩
  | .tmuTmrevtFIRED => ⟨.tmuTmrevt, 0, 32, .w1c, .val 0x0, []⟩
  | .tmuWinevtHIT => ⟨.tmuWinevt, 0, 64, .w1c, .val 0x0, []⟩
  | .tmrCtlEN => ⟨.tmrCtl, 0, 1, .rw, .val 0x0, []⟩
  | .tmrCtlDEST => ⟨.tmrCtl, 1, 2, .rw, .val 0x0, []⟩
  | .tmrCtlSEL => ⟨.tmrCtl, 3, 6, .rw, .val 0x0, []⟩
  | .tmrCtlEVT => ⟨.tmrCtl, 9, 1, .rw, .val 0x0, []⟩
  | .tmrCtlARMED => ⟨.tmrCtl, 10, 1, .ro, .val 0x0, []⟩
  | .tmrCtlMISS => ⟨.tmrCtl, 11, 1, .w1c, .val 0x0, []⟩
  | .tmrCtlERR => ⟨.tmrCtl, 12, 1, .w1c, .val 0x0, []⟩
  | .tmrCtlERRCODE => ⟨.tmrCtl, 13, 3, .ro, .val 0x0, []⟩
  | .tmrCtlCOUNT => ⟨.tmrCtl, 16, 16, .rw, .val 0x0, []⟩
  | .tmrStartloFRAC => ⟨.tmrStartlo, 0, 16, .rw, .val 0x0, []⟩
  | .tmrStartloNS => ⟨.tmrStartlo, 16, 30, .rw, .val 0x0, []⟩
  | .tmrStartloSECLO => ⟨.tmrStartlo, 48, 16, .rw, .val 0x0, []⟩
  | .tmrStarthiSECHI => ⟨.tmrStarthi, 0, 32, .rw, .val 0x0, []⟩
  | .tmrPeriodPERIOD => ⟨.tmrPeriod, 0, 64, .rw, .val 0x0, []⟩
  | .winCtlEN => ⟨.winCtl, 0, 1, .rw, .val 0x0, []⟩
  | .winCtlSRC => ⟨.winCtl, 1, 11, .rw, .val 0x0, []⟩
  | .winCtlGATE => ⟨.winCtl, 12, 1, .rw, .val 0x0, []⟩
  | .winCtlEVT => ⟨.winCtl, 13, 1, .rw, .val 0x0, []⟩
  | .winCtlERR => ⟨.winCtl, 14, 1, .w1c, .val 0x0, []⟩
  | .winStatINCNT => ⟨.winStat, 0, 16, .ro, .val 0x0, []⟩
  | .winStatOCC => ⟨.winStat, 16, 15, .ro, .val 0x0, []⟩
  | .winStatHIT => ⟨.winStat, 31, 1, .w1c, .val 0x0, []⟩
  | .winStartloFRAC => ⟨.winStartlo, 0, 16, .rw, .val 0x0, []⟩
  | .winStartloNS => ⟨.winStartlo, 16, 30, .rw, .val 0x0, []⟩
  | .winStartloSECLO => ⟨.winStartlo, 48, 16, .rw, .val 0x0, []⟩
  | .winStarthiSECHI => ⟨.winStarthi, 0, 32, .rw, .val 0x0, []⟩
  | .winEndloFRAC => ⟨.winEndlo, 0, 16, .rw, .val 0x0, []⟩
  | .winEndloNS => ⟨.winEndlo, 16, 30, .rw, .val 0x0, []⟩
  | .winEndloSECLO => ⟨.winEndlo, 48, 16, .rw, .val 0x0, []⟩
  | .winEndhiSECHI => ⟨.winEndhi, 0, 32, .rw, .val 0x0, []⟩
  | .winPeriodPERIOD => ⟨.winPeriod, 0, 64, .rw, .val 0x0, []⟩
  | .winFirstloFRAC => ⟨.winFirstlo, 0, 16, .ro, .val 0x0, []⟩
  | .winFirstloNS => ⟨.winFirstlo, 16, 30, .ro, .val 0x0, []⟩
  | .winFirstloSECLO => ⟨.winFirstlo, 48, 16, .ro, .val 0x0, []⟩
  | .winFirsthiSECHI => ⟨.winFirsthi, 0, 32, .ro, .val 0x0, []⟩
  | .caskCfgMODE => ⟨.caskCfg, 0, 2, .rw, .val 0x0, []⟩
  | .caskCfgNREG => ⟨.caskCfg, 2, 2, .rw, .val 0x0, []⟩
  | .caskEndaACLS => ⟨.caskEnda, 0, 3, .rw, .val 0x0, []⟩
  | .caskEndaAID => ⟨.caskEnda, 3, 8, .rw, .val 0x0, []⟩
  | .caskEndaTAGENT => ⟨.caskEnda, 11, 7, .rw, .val 0x0, []⟩
  | .caskEndaTBIT => ⟨.caskEnda, 18, 5, .rw, .val 0x0, []⟩
  | .caskEndaTEN => ⟨.caskEnda, 23, 1, .rw, .val 0x0, []⟩
  | .caskEndaTREM => ⟨.caskEnda, 24, 1, .rw, .val 0x0, []⟩
  | .caskEndaTDEV => ⟨.caskEnda, 25, 7, .rw, .val 0x0, []⟩
  | .caskEndbACLS => ⟨.caskEndb, 0, 3, .rw, .val 0x0, []⟩
  | .caskEndbAID => ⟨.caskEndb, 3, 8, .rw, .val 0x0, []⟩
  | .caskEndbTAGENT => ⟨.caskEndb, 11, 7, .rw, .val 0x0, []⟩
  | .caskEndbTBIT => ⟨.caskEndb, 18, 5, .rw, .val 0x0, []⟩
  | .caskEndbTEN => ⟨.caskEndb, 23, 1, .rw, .val 0x0, []⟩
  | .caskEndbTREM => ⟨.caskEndb, 24, 1, .rw, .val 0x0, []⟩
  | .caskEndbTDEV => ⟨.caskEndb, 25, 7, .rw, .val 0x0, []⟩
  | .caskStatGO => ⟨.caskStat, 0, 1, .ro, .val 0x0, []⟩
  | .caskStatFROM => ⟨.caskStat, 1, 1, .ro, .val 0x0, []⟩
  | .caskStatCOLLIDE => ⟨.caskStat, 2, 1, .w1c, .val 0x0, [.caskStatDROPS]⟩
  | .caskStatACCERR => ⟨.caskStat, 3, 1, .w1c, .val 0x0, []⟩
  | .caskStatEMPTYRD => ⟨.caskStat, 4, 1, .w1c, .val 0x0, []⟩
  | .caskStatQAB => ⟨.caskStat, 8, 5, .ro, .val 0x0, []⟩
  | .caskStatQBA => ⟨.caskStat, 16, 5, .ro, .val 0x0, []⟩
  | .caskStatDROPS => ⟨.caskStat, 24, 8, .ro, .val 0x0, []⟩
  | .caskMsgDATA => ⟨.caskMsg, 0, 32, .rw, .val 0x0, []⟩
  | .caskXctlGO => ⟨.caskXctl, 0, 1, .wo, .val 0x0, []⟩
  | .caskXctlTAKE => ⟨.caskXctl, 1, 1, .wo, .val 0x0, []⟩
  | .caskXpushWORD => ⟨.caskXpush, 0, 32, .wo, .val 0x0, []⟩
  | .caskXpopWORD => ⟨.caskXpop, 0, 32, .ro, .val 0x0, []⟩
  | .evrRouteMSIEN => ⟨.evrRoute, 0, 1, .rw, .val 0x0, []⟩
  | .evrRouteVEC => ⟨.evrRoute, 1, 11, .rw, .val 0x0, []⟩
  | .evrRouteDESEN => ⟨.evrRoute, 12, 1, .rw, .val 0x0, []⟩
  | .evrRouteDPOS => ⟨.evrRoute, 13, 6, .rw, .val 0x0, []⟩
  | .evrRouteTAPEN => ⟨.evrRoute, 19, 1, .rw, .val 0x0, []⟩
  | .evrRouteTAGENT => ⟨.evrRoute, 20, 7, .rw, .val 0x0, []⟩
  | .evrRouteTBIT => ⟨.evrRoute, 27, 5, .rw, .val 0x0, []⟩
  | .evrRoutePEND => ⟨.evrRoute, 32, 1, .ro, .val 0x0, []⟩
  | .evrRouteCNT => ⟨.evrRoute, 48, 15, .ro, .val 0x0, []⟩
  | .evrRouteSEEN => ⟨.evrRoute, 63, 1, .w1c, .val 0x0, [.evrRouteCNT]⟩
  | .evrPayPAYLOAD => ⟨.evrPay, 0, 64, .ro, .val 0x0, []⟩
  | .tapPendPEND => ⟨.tapPend, 0, 32, .w1c, .val 0x0, []⟩
  | .tapMaskMASK => ⟨.tapMask, 0, 32, .rw, .val 0xFFFFFFFF, []⟩
  | .tapCfgVEC => ⟨.tapCfg, 0, 11, .rw, .val 0x0, []⟩
  | .kilnCtlRELOAD => ⟨.kilnCtl, 0, 1, .wo, .val 0x0, []⟩
  | .kilnCtlRSLOT => ⟨.kilnCtl, 1, 2, .rw, .val 0x0, []⟩
  | .kilnStatSTATE => ⟨.kilnStat, 0, 4, .ro, .val 0x0, []⟩
  | .kilnStatSLOT => ⟨.kilnStat, 4, 2, .ro, .val 0x0, []⟩
  | .kilnStatRLDIGN => ⟨.kilnStat, 7, 1, .w1c, .val 0x0, []⟩
  | .kilnStatATTEMPT => ⟨.kilnStat, 8, 4, .ro, .val 0x0, []⟩
  | .kilnStatBOOTSEL => ⟨.kilnStat, 12, 2, .ro, .val 0x0, []⟩
  | .kilnStatCFGPULL => ⟨.kilnStat, 14, 1, .ro, .val 0x0, []⟩
  | .kilnStatKEYSEL => ⟨.kilnStat, 15, 1, .ro, .val 0x0, []⟩
  | .kilnStatRELMS => ⟨.kilnStat, 16, 16, .ro, .val 0x0, []⟩
  | .kilnFramesCOUNT => ⟨.kilnFrames, 0, 32, .ro, .val 0x0, []⟩
  | .kilnImgverVERSION => ⟨.kilnImgver, 0, 64, .ro, .val 0x0, []⟩
  | .kilnBasedigDIG => ⟨.kilnBasedig, 0, 32, .ro, .val 0x0, []⟩
  | .kilnLogptrNEXT => ⟨.kilnLogptr, 0, 4, .ro, .val 0x0, []⟩
  | .kilnLoadlogCODE => ⟨.kilnLoadlog, 0, 8, .ro, .val 0x0, []⟩
  | .kilnLoadlogSLOT => ⟨.kilnLoadlog, 8, 2, .ro, .val 0x0, []⟩
  | .kilnLoadlogLPOS => ⟨.kilnLoadlog, 10, 6, .ro, .val 0x0, []⟩
  | .kilnLoadlogFRAME => ⟨.kilnLoadlog, 16, 16, .ro, .val 0x0, []⟩
  | .kilnLoadlogTIMEMS => ⟨.kilnLoadlog, 32, 16, .ro, .val 0x0, []⟩
  | .kilnLoadlogATTEMPT => ⟨.kilnLoadlog, 48, 8, .ro, .val 0x0, []⟩
  | .kilnLoadlogVALID => ⟨.kilnLoadlog, 63, 1, .ro, .val 0x0, []⟩
  | .kilnProgctlSLOT => ⟨.kilnProgctl, 0, 2, .rw, .val 0x1, []⟩
  | .kilnProgctlSTART => ⟨.kilnProgctl, 2, 1, .wo, .val 0x0, []⟩
  | .kilnProgctlBUSY => ⟨.kilnProgctl, 3, 1, .ro, .val 0x0, []⟩
  | .kilnProgctlDONE => ⟨.kilnProgctl, 4, 1, .w1c, .val 0x0, []⟩
  | .kilnProgctlERR => ⟨.kilnProgctl, 5, 1, .w1c, .val 0x0, []⟩
  | .kilnProgctlERRCODE => ⟨.kilnProgctl, 6, 4, .ro, .val 0x0, []⟩
  | .kilnProglenLEN => ⟨.kilnProglen, 0, 32, .rw, .val 0x0, []⟩
  | .kilnProgsrcZERO => ⟨.kilnProgsrc, 0, 12, .ro, .val 0x0, []⟩
  | .kilnProgsrcADDR => ⟨.kilnProgsrc, 12, 52, .rw, .val 0x0, []⟩
  | .kilnAttctlSTART => ⟨.kilnAttctl, 0, 1, .wo, .val 0x0, []⟩
  | .kilnAttctlBUSY => ⟨.kilnAttctl, 1, 1, .ro, .val 0x0, []⟩
  | .kilnAttctlDONE => ⟨.kilnAttctl, 2, 1, .w1c, .val 0x0, []⟩
  | .kilnAttctlERR => ⟨.kilnAttctl, 3, 1, .w1c, .val 0x0, []⟩
  | .kilnAttaddrADDR => ⟨.kilnAttaddr, 0, 64, .rw, .val 0x0, []⟩
  | .kilnAttnonceNONCE => ⟨.kilnAttnonce, 0, 32, .rw, .val 0x0, []⟩
  | .kilnAttpubPUB => ⟨.kilnAttpub, 0, 32, .ro, .attPub, []⟩
  | .kilnPldctlSTART => ⟨.kilnPldctl, 0, 1, .wo, .val 0x0, []⟩
  | .kilnPldctlTIMED => ⟨.kilnPldctl, 1, 1, .rw, .val 0x0, []⟩
  | .kilnPldsrcZERO => ⟨.kilnPldsrc, 0, 12, .ro, .val 0x0, []⟩
  | .kilnPldsrcADDR => ⟨.kilnPldsrc, 12, 52, .rw, .val 0x0, []⟩
  | .kilnPldlenLEN => ⟨.kilnPldlen, 0, 32, .rw, .val 0x0, []⟩
  | .kilnPldtimeNS => ⟨.kilnPldtime, 0, 30, .rw, .val 0x0, []⟩
  | .kilnPldtimeSEC => ⟨.kilnPldtime, 30, 34, .rw, .val 0x0, []⟩
  | .kilnPldstatSTATE => ⟨.kilnPldstat, 0, 3, .ro, .val 0x0, []⟩
  | .kilnPldstatFLOOR => ⟨.kilnPldstat, 8, 6, .ro, .val 0x0, []⟩
  | .kilnPldstatCODE => ⟨.kilnPldstat, 16, 8, .ro, .val 0x0, []⟩
  | .kilnPldstatLATE => ⟨.kilnPldstat, 28, 1, .w1c, .val 0x0, []⟩
  | .kilnPldstatIGN => ⟨.kilnPldstat, 29, 1, .w1c, .val 0x0, []⟩
  | .kilnPldstatFAIL => ⟨.kilnPldstat, 30, 1, .w1c, .val 0x0, []⟩
  | .kilnPldstatDONE => ⟨.kilnPldstat, 31, 1, .w1c, .val 0x0, []⟩
  | .kilnFlrstatSTATE => ⟨.kilnFlrstat, 0, 3, .ro, .val 0x0, []⟩
  | .kilnFlrstatLOADS => ⟨.kilnFlrstat, 16, 16, .ro, .val 0x0, []⟩
  | .kilnShelfFREE => ⟨.kilnShelf, 0, 16, .ro, .val 0x1980, []⟩
  | .dieCtlAUTOREP => ⟨.dieCtl, 0, 1, .rw, .val 0x1, []⟩
  | .dieCtlREMAPPOL => ⟨.dieCtl, 1, 2, .rw, .val 0x1, []⟩
  | .dieDiscstatDONE => ⟨.dieDiscstat, 0, 1, .ro, .val 0x0, []⟩
  | .dieDiscstatPANELBAD => ⟨.dieDiscstat, 1, 1, .ro, .val 0x0, []⟩
  | .dieDiscstatIDMIS => ⟨.dieDiscstat, 2, 1, .w1c, .val 0x0, []⟩
  | .dieDiscstatLINKMIS => ⟨.dieDiscstat, 3, 1, .w1c, .val 0x0, []⟩
  | .dieDiscstatMAPINVAL => ⟨.dieDiscstat, 4, 1, .w1c, .val 0x0, []⟩
  | .dieDiscstatAUTOREPD => ⟨.dieDiscstat, 5, 1, .w1c, .val 0x0, []⟩
  | .dieDiscstatANSWERS => ⟨.dieDiscstat, 16, 7, .ro, .val 0x0, []⟩
  | .dieLthrRETIRE => ⟨.dieLthr, 0, 16, .rw, .val 0x100, []⟩
  | .dieLthrWLOG => ⟨.dieLthr, 16, 5, .rw, .val 0x14, []⟩
  | .dieTlnkstatSPUSEDA => ⟨.dieTlnkstat, 0, 4, .ro, .val 0x0, []⟩
  | .dieTlnkstatSPUSEDB => ⟨.dieTlnkstat, 4, 4, .ro, .val 0x0, []⟩
  | .dieTlnkstatSURVA => ⟨.dieTlnkstat, 8, 6, .ro, .val 0x0, []⟩
  | .dieTlnkstatSURVB => ⟨.dieTlnkstat, 14, 6, .ro, .val 0x0, []⟩
  | .dieTlnkstatNSPUSED => ⟨.dieTlnkstat, 20, 3, .ro, .val 0x0, []⟩
  | .dieTlnkstatNSURV => ⟨.dieTlnkstat, 23, 5, .ro, .val 0x0, []⟩
  | .dieTlnkstatSTATE => ⟨.dieTlnkstat, 28, 2, .ro, .val 0x0, []⟩
  | .dieTlnkstatCKB => ⟨.dieTlnkstat, 30, 1, .ro, .val 0x0, []⟩
  | .dieTlnkstatCLKUP => ⟨.dieTlnkstat, 31, 1, .ro, .val 0x0, []⟩
  | .dieTlnkstatFOLDA => ⟨.dieTlnkstat, 32, 7, .ro, .val 0x40, []⟩
  | .dieTlnkstatFOLDB => ⟨.dieTlnkstat, 39, 7, .ro, .val 0x40, []⟩
  | .dieTlnkstatLASTRET => ⟨.dieTlnkstat, 48, 7, .ro, .val 0x0, []⟩
  | .dieTlnkstatRETSEEN => ⟨.dieTlnkstat, 63, 1, .w1c, .val 0x0, []⟩
  | .dieSerialSERIAL => ⟨.dieSerial, 0, 64, .ro, .val 0x0, []⟩
  | .dieIdinfoTYPE => ⟨.dieIdinfo, 0, 4, .ro, .val 0x0, []⟩
  | .dieIdinfoGRADE => ⟨.dieIdinfo, 4, 2, .ro, .val 0x0, []⟩
  | .dieIdinfoRXMASK => ⟨.dieIdinfo, 6, 4, .ro, .val 0x0, []⟩
  | .dieIdinfoUPPORT => ⟨.dieIdinfo, 10, 2, .ro, .val 0x0, []⟩
  | .dieIdinfoDEPTH => ⟨.dieIdinfo, 12, 6, .ro, .val 0x0, []⟩
  | .dieIdinfoPRESENT => ⟨.dieIdinfo, 18, 1, .ro, .val 0x0, []⟩
  | .dieIdinfoDISPLACED => ⟨.dieIdinfo, 19, 1, .ro, .val 0x0, []⟩
  | .dieIdinfoLPOS => ⟨.dieIdinfo, 20, 6, .ro, .val 0x3F, []⟩
  | .dieXserialSERIAL => ⟨.dieXserial, 0, 64, .ro, .val 0x0, []⟩
  | .dieXidinfoTYPE => ⟨.dieXidinfo, 0, 4, .ro, .val 0x0, []⟩
  | .dieXidinfoGRADE => ⟨.dieXidinfo, 4, 2, .ro, .val 0x0, []⟩
  | .dieXidinfoRXMASK => ⟨.dieXidinfo, 6, 4, .ro, .val 0x0, []⟩
  | .dieXidinfoUPPORT => ⟨.dieXidinfo, 10, 2, .ro, .val 0x0, []⟩
  | .dieXidinfoDEPTH => ⟨.dieXidinfo, 12, 6, .ro, .val 0x0, []⟩
  | .dieXidinfoPRESENT => ⟨.dieXidinfo, 18, 1, .ro, .val 0x0, []⟩
  | .dieXidinfoDISPLACED => ⟨.dieXidinfo, 19, 1, .ro, .val 0x0, []⟩
  | .dieXidinfoLPOS => ⟨.dieXidinfo, 20, 6, .ro, .val 0x3F, []⟩
  | .dieMapPHYS => ⟨.dieMap, 0, 6, .ro, .home, []⟩
  | .dieRemapctlLPOS => ⟨.dieRemapctl, 0, 6, .rw, .val 0x0, []⟩
  | .dieRemapctlSPARE => ⟨.dieRemapctl, 6, 6, .rw, .val 0x0, []⟩
  | .dieRemapctlSTART => ⟨.dieRemapctl, 12, 1, .wo, .val 0x0, []⟩
  | .dieRemapstatSTATE => ⟨.dieRemapstat, 0, 3, .ro, .val 0x0, []⟩
  | .dieRemapstatREASON => ⟨.dieRemapstat, 3, 5, .ro, .val 0x0, []⟩
  | .dieRemapstatLPOS => ⟨.dieRemapstat, 8, 6, .ro, .val 0x0, []⟩
  | .dieRemapstatSPARE => ⟨.dieRemapstat, 14, 6, .ro, .val 0x0, []⟩
  | .dieRemapstatNOSTATE => ⟨.dieRemapstat, 20, 1, .ro, .val 0x0, []⟩
  | .dieRemapstatSEEN => ⟨.dieRemapstat, 31, 1, .w1c, .val 0x0, []⟩
  | .dieGrstHOLD => ⟨.dieGrst, 0, 60, .rw, .val 0x0, []⟩
  | .dieFaultPHYS => ⟨.dieFault, 0, 6, .ro, .val 0x0, []⟩
  | .dieFaultPORT => ⟨.dieFault, 6, 2, .ro, .val 0x0, []⟩
  | .dieFaultKIND => ⟨.dieFault, 8, 2, .ro, .val 0x0, []⟩
  | .dieFaultLPOS => ⟨.dieFault, 10, 6, .ro, .val 0x3F, []⟩
  | .dieFaultSURV => ⟨.dieFault, 16, 7, .ro, .val 0x0, []⟩
  | .dieFaultSUB => ⟨.dieFault, 23, 1, .ro, .val 0x0, []⟩
  | .dieFaultCOUNT => ⟨.dieFault, 32, 16, .ro, .val 0x0, []⟩
  | .dieFaultSEEN => ⟨.dieFault, 63, 1, .w1c, .val 0x0, [.dieFaultCOUNT]⟩
  | .dieClklossPHYS => ⟨.dieClkloss, 0, 6, .ro, .val 0x0, []⟩
  | .dieClklossLPOS => ⟨.dieClkloss, 6, 6, .ro, .val 0x3F, []⟩
  | .dieClklossPORTS => ⟨.dieClkloss, 12, 4, .ro, .val 0x0, []⟩
  | .dieClklossCLKBACK => ⟨.dieClkloss, 16, 1, .ro, .val 0x0, []⟩
  | .dieClklossSEEN => ⟨.dieClkloss, 31, 1, .w1c, .val 0x0, []⟩
  | .spgCtlINTERVAL => ⟨.spgCtl, 0, 8, .rw, .val 0x0, []⟩
  | .spgCtlBURST => ⟨.spgCtl, 8, 16, .rw, .val 0x10, []⟩
  | .spgFindstatCOUNT => ⟨.spgFindstat, 0, 11, .ro, .val 0x0, []⟩
  | .spgFindstatOVFCNT => ⟨.spgFindstat, 11, 16, .ro, .val 0x0, []⟩
  | .spgFindstatOVF => ⟨.spgFindstat, 31, 1, .w1c, .val 0x0, [.spgFindstatOVFCNT]⟩
  | .spgFindaddrADDR => ⟨.spgFindaddr, 0, 64, .ro, .val 0x0, []⟩
  | .spgFindinfoFADDR => ⟨.spgFindinfo, 0, 32, .ro, .val 0x0, []⟩
  | .spgFindinfoCLASS => ⟨.spgFindinfo, 32, 3, .ro, .val 0x0, []⟩
  | .spgFindinfoNBITS => ⟨.spgFindinfo, 35, 5, .ro, .val 0x0, []⟩
  | .spgFindinfoBIT => ⟨.spgFindinfo, 40, 11, .ro, .val 0x0, []⟩
  | .spgFindinfoINFLOOR => ⟨.spgFindinfo, 51, 1, .ro, .val 0x0, []⟩
  | .spgFindinfoFLOOR => ⟨.spgFindinfo, 52, 6, .ro, .val 0x0, []⟩
  | .spgFindinfoPHYS => ⟨.spgFindinfo, 58, 6, .ro, .val 0x0, []⟩
  | .spgFindpopPOP => ⟨.spgFindpop, 0, 1, .wo, .val 0x0, []⟩
  | .capPitchctlKIND => ⟨.capPitchctl, 0, 3, .rw, .val 0x3, []⟩
  | .capPitchctlDESIGN => ⟨.capPitchctl, 3, 1, .rw, .val 0x0, []⟩
  | .capPitchctlSTART => ⟨.capPitchctl, 4, 1, .wo, .val 0x0, []⟩
  | .capPitchtimeNS => ⟨.capPitchtime, 0, 30, .rw, .val 0x0, []⟩
  | .capPitchtimeSEC => ⟨.capPitchtime, 30, 34, .rw, .val 0x0, []⟩
  | .capPitchflrFLOORMASK => ⟨.capPitchflr, 0, 64, .rw, .val 0x0, []⟩
  | .capPitchposPOSMASK => ⟨.capPitchpos, 0, 60, .rw, .val 0x0, []⟩
  | .capPitchposBASE => ⟨.capPitchpos, 63, 1, .rw, .val 0x0, []⟩
  | .capStatPEND => ⟨.capStat, 0, 5, .ro, .val 0x0, []⟩
  | .capStatFULL => ⟨.capStat, 5, 1, .w1c, .val 0x0, []⟩
  | .capStatLATE => ⟨.capStat, 6, 1, .w1c, .val 0x0, []⟩
  | .capStatBADKIND => ⟨.capStat, 7, 1, .w1c, .val 0x0, []⟩
  | .capStatCAPDONE => ⟨.capStat, 8, 1, .w1c, .val 0x0, []⟩
  | .capStatCAPSEQ => ⟨.capStat, 16, 16, .ro, .val 0x0, []⟩
  | .capCapskipFLOORS => ⟨.capCapskip, 0, 64, .ro, .val 0x0, []⟩
  | .capCapskipposPOS => ⟨.capCapskippos, 0, 60, .ro, .val 0x0, []⟩
  | .capAccctlOP => ⟨.capAccctl, 0, 2, .rw, .val 0x0, []⟩
  | .capAccctlLPOS => ⟨.capAccctl, 2, 6, .rw, .val 0x0, []⟩
  | .capAccctlFTYPE => ⟨.capAccctl, 8, 4, .rw, .val 0x0, []⟩
  | .capAccctlSTART => ⟨.capAccctl, 12, 1, .wo, .val 0x0, []⟩
  | .capAccidxFIRST => ⟨.capAccidx, 0, 16, .rw, .val 0x0, []⟩
  | .capAccidxCOUNT => ⟨.capAccidx, 16, 16, .rw, .val 0x0, []⟩
  | .capAccaddrZERO => ⟨.capAccaddr, 0, 6, .ro, .val 0x0, []⟩
  | .capAccaddrADDR => ⟨.capAccaddr, 6, 58, .rw, .val 0x0, []⟩
  | .capAccstatBUSY => ⟨.capAccstat, 0, 1, .ro, .val 0x0, []⟩
  | .capAccstatDONE => ⟨.capAccstat, 1, 1, .w1c, .val 0x0, []⟩
  | .capAccstatERR => ⟨.capAccstat, 2, 1, .w1c, .val 0x0, []⟩
  | .capAccstatERRCODE => ⟨.capAccstat, 3, 3, .ro, .val 0x0, []⟩
  | .capAccstatTORN => ⟨.capAccstat, 6, 1, .ro, .val 0x0, []⟩
  | .capAccstatFRAMES => ⟨.capAccstat, 16, 16, .ro, .val 0x0, []⟩
  | .cohCtlNOALLOC => ⟨.cohCtl, 0, 1, .rw, .val 0x0, []⟩
  | .cohCtlFLUSH => ⟨.cohCtl, 1, 1, .wo, .val 0x0, []⟩
  | .cohCtlFLUSHBUSY => ⟨.cohCtl, 2, 1, .ro, .val 0x0, []⟩
  | .cohCtlFLUSHDONE => ⟨.cohCtl, 3, 1, .w1c, .val 0x0, []⟩
  | .cohCtlHTMO => ⟨.cohCtl, 16, 12, .rw, .val 0x3E8, []⟩
  | .cohStatFLIPDH => ⟨.cohStat, 0, 16, .ro, .val 0x0, []⟩
  | .cohStatFLIPHD => ⟨.cohStat, 16, 16, .ro, .val 0x0, []⟩
  | .cohStatFEVICT => ⟨.cohStat, 32, 12, .ro, .val 0x0, []⟩
  | .cohStatLOSTDIRTY => ⟨.cohStat, 44, 16, .ro, .val 0x0, []⟩
  | .cohStatBIASLOST => ⟨.cohStat, 62, 1, .w1c, .val 0x0, []⟩
  | .cohStatLINKLOST => ⟨.cohStat, 63, 1, .w1c, .val 0x0, [.cohStatLOSTDIRTY]⟩
  | .cohBiasbaseADDR => ⟨.cohBiasbase, 0, 48, .ro, .val 0x0, []⟩
  | .cohBiascmdPAGE => ⟨.cohBiascmd, 0, 29, .rw, .val 0x0, []⟩
  | .cohBiascmdTARGET => ⟨.cohBiascmd, 29, 1, .rw, .val 0x0, []⟩
  | .cohBiascmdSTART => ⟨.cohBiascmd, 30, 1, .wo, .val 0x0, []⟩
  | .cohBiascmdQUERY => ⟨.cohBiascmd, 31, 1, .rw, .val 0x0, []⟩
  | .cohBiascmdCOUNTM1 => ⟨.cohBiascmd, 32, 9, .rw, .val 0x0, []⟩
  | .cohBiasstatBUSY => ⟨.cohBiasstat, 0, 1, .ro, .val 0x0, []⟩
  | .cohBiasstatDONE => ⟨.cohBiasstat, 1, 1, .w1c, .val 0x0, []⟩
  | .cohBiasstatERR => ⟨.cohBiasstat, 2, 1, .w1c, .val 0x0, []⟩
  | .cohBiasstatERRCODE => ⟨.cohBiasstat, 3, 2, .ro, .val 0x0, []⟩
  | .cohBiasstatCUR => ⟨.cohBiasstat, 5, 1, .ro, .val 0x0, []⟩
  | .cohHwinEN => ⟨.cohHwin, 0, 1, .rw, .val 0x0, []⟩
  | .cohHwinBASE => ⟨.cohHwin, 30, 22, .rw, .val 0x0, []⟩
  | .cohHerrADDR => ⟨.cohHerr, 0, 48, .ro, .val 0x0, []⟩
  | .cohHerrCAUSE => ⟨.cohHerr, 48, 4, .ro, .val 0x0, []⟩
  | .cohHerrCOUNT => ⟨.cohHerr, 52, 8, .ro, .val 0x0, []⟩
  | .cohHerrSEEN => ⟨.cohHerr, 63, 1, .w1c, .val 0x0, [.cohHerrCOUNT]⟩
  | .cxlLnkstatUP => ⟨.cxlLnkstat, 0, 1, .ro, .val 0x0, []⟩
  | .cxlLnkstatMODE => ⟨.cxlLnkstat, 1, 1, .ro, .val 0x0, []⟩
  | .cxlLnkstatSPEED => ⟨.cxlLnkstat, 2, 3, .ro, .val 0x0, []⟩
  | .cxlLnkstatWIDTH => ⟨.cxlLnkstat, 5, 4, .ro, .val 0x0, []⟩
  | .cxlLnkstatCACHEEN => ⟨.cxlLnkstat, 9, 1, .ro, .val 0x0, []⟩
  | .cxlLnkstatMEMEN => ⟨.cxlLnkstat, 10, 1, .ro, .val 0x0, []⟩
  | .cxlLnkstatCHGSEEN => ⟨.cxlLnkstat, 31, 1, .w1c, .val 0x0, []⟩
  | .mempAlarmctlPINEN => ⟨.mempAlarmctl, 0, 6, .rw, .val 0x3F, []⟩
  | .mempAlarmctlZEROIZE => ⟨.mempAlarmctl, 8, 1, .rw, .val 0x0, []⟩
  | .mempAlarmstatSEEN => ⟨.mempAlarmstat, 0, 6, .w1c, .val 0x0, []⟩
  | .mempAlarmstatCOUNT => ⟨.mempAlarmstat, 8, 16, .ro, .val 0x0, []⟩
  | .mempAlarmrecADDR => ⟨.mempAlarmrec, 0, 48, .ro, .val 0x0, []⟩
  | .mempAlarmrecREGION => ⟨.mempAlarmrec, 48, 6, .ro, .val 0x0, []⟩
  | .mempAlarmrecCAUSE => ⟨.mempAlarmrec, 54, 3, .ro, .val 0x0, []⟩
  | .mempAlarmrecSNODE => ⟨.mempAlarmrec, 57, 7, .ro, .val 0x0, []⟩
  | .mempKeyctlKEYID => ⟨.mempKeyctl, 0, 6, .rw, .val 0x0, []⟩
  | .mempKeyctlCMD => ⟨.mempKeyctl, 8, 2, .wo, .val 0x0, []⟩
  | .mempKeystatBUSY => ⟨.mempKeystat, 0, 1, .ro, .val 0x0, []⟩
  | .mempKeystatERR => ⟨.mempKeystat, 1, 1, .w1c, .val 0x0, []⟩
  | .mempKeystateST => ⟨.mempKeystate, 0, 64, .ro, .val 0x0, []⟩
  | .mempRgnbaseBASE => ⟨.mempRgnbase, 24, 24, .rw, .val 0x0, []⟩
  | .mempRgncfgENABLE => ⟨.mempRgncfg, 0, 1, .rw, .val 0x0, []⟩
  | .mempRgncfgMODE => ⟨.mempRgncfg, 1, 2, .rw, .val 0x0, []⟩
  | .mempRgncfgKEYID => ⟨.mempRgncfg, 3, 6, .rw, .val 0x0, []⟩
  | .mempRgncfgLOG2S => ⟨.mempRgncfg, 9, 6, .rw, .val 0x18, []⟩
  | .mempRgncfgAUTOREKEY => ⟨.mempRgncfg, 15, 1, .rw, .val 0x1, []⟩
  | .mempRgncfgACC => ⟨.mempRgncfg, 16, 8, .rw, .val 0x0, []⟩
  | .mempRgnstatSTATE => ⟨.mempRgnstat, 0, 3, .ro, .val 0x0, []⟩
  | .mempRgnstatREKEYDUE => ⟨.mempRgnstat, 3, 1, .ro, .val 0x0, []⟩
  | .mempRgnstatREKEYBLK => ⟨.mempRgnstat, 4, 1, .w1c, .val 0x0, []⟩
  | .mempRgnstatERR => ⟨.mempRgnstat, 5, 1, .w1c, .val 0x0, []⟩
  | .mempRgnstatWALKS => ⟨.mempRgnstat, 16, 16, .ro, .val 0x0, []⟩
  | .mempRgnwalkWP => ⟨.mempRgnwalk, 0, 35, .ro, .val 0x0, []⟩
  | .mempRgnwalkNEWKEY => ⟨.mempRgnwalk, 35, 6, .rw, .val 0x0, []⟩
  | .mempRgnwalkSTART => ⟨.mempRgnwalk, 41, 1, .wo, .val 0x0, []⟩
  | .mempRgnwalkJUMPS => ⟨.mempRgnwalk, 42, 5, .ro, .val 0x0, []⟩
  | .ddrCfgSPEED => ⟨.ddrCfg, 0, 2, .ro, .val 0x0, []⟩
  | .ddrCfgPAIR => ⟨.ddrCfg, 2, 1, .ro, .val 0x0, []⟩
  | .ddrCfgRANKS2 => ⟨.ddrCfg, 3, 1, .ro, .val 0x0, []⟩
  | .ddrCfgDENS => ⟨.ddrCfg, 4, 2, .ro, .val 0x0, []⟩
  | .ddrCfgCGIB => ⟨.ddrCfg, 8, 8, .ro, .val 0x0, []⟩
  | .ddrCfgINMAP => ⟨.ddrCfg, 16, 1, .ro, .val 0x0, []⟩
  | .ddrCfgSLOT => ⟨.ddrCfg, 20, 4, .ro, .val 0x0, []⟩
  | .ddrCtlWBUF => ⟨.ddrCtl, 0, 2, .rw, .val 0x2, []⟩
  | .ddrCtlMAXSPD => ⟨.ddrCtl, 2, 2, .rw, .val 0x2, []⟩
  | .ddrCtlWBACK => ⟨.ddrCtl, 4, 1, .rw, .val 0x1, []⟩
  | .ddrCtlRETRAIN => ⟨.ddrCtl, 5, 1, .wo, .val 0x0, []⟩
  | .ddrStatSTATE => ⟨.ddrStat, 0, 3, .ro, .val 0x0, []⟩
  | .ddrStatRTIGN => ⟨.ddrStat, 3, 1, .w1c, .val 0x0, []⟩
  | .ddrStatINFL => ⟨.ddrStat, 4, 8, .ro, .val 0x0, []⟩
  | .ddrStatWBOCC => ⟨.ddrStat, 12, 8, .ro, .val 0x0, []⟩
  | .ddrStatTRSTEP => ⟨.ddrStat, 20, 4, .ro, .val 0x0, []⟩
  | .ddrStatSEEN => ⟨.ddrStat, 31, 1, .w1c, .val 0x0, [.ddrStatDROPS]⟩
  | .ddrStatDROPS => ⟨.ddrStat, 32, 32, .ro, .val 0x0, []⟩
  | .ddrSchedPGTMO => ⟨.ddrSched, 0, 12, .rw, .val 0x19, []⟩
  | .ddrSchedSTARVE => ⟨.ddrSched, 12, 12, .rw, .val 0x10, []⟩
  | .ddrRdpK => ⟨.ddrRdp, 0, 4, .rw, .val 0x8, []⟩
  | .ddrRdpNRCNT => ⟨.ddrRdp, 8, 24, .ro, .val 0x0, []⟩
  | .ddrHazFWD => ⟨.ddrHaz, 0, 32, .ro, .val 0x0, []⟩
  | .ddrHazPWAIT => ⟨.ddrHaz, 32, 32, .ro, .val 0x0, []⟩
  | .ddrEccstatCECNT => ⟨.ddrEccstat, 0, 16, .ro, .val 0x0, []⟩
  | .ddrEccstatUECNT => ⟨.ddrEccstat, 16, 12, .ro, .val 0x0, []⟩
  | .ddrEccstatUSEEN => ⟨.ddrEccstat, 30, 1, .w1c, .val 0x0, [.ddrEccstatUECNT]⟩
  | .ddrEccstatCSEEN => ⟨.ddrEccstat, 31, 1, .w1c, .val 0x0, [.ddrEccstatCECNT]⟩
  | .ddrEccaddrADDR => ⟨.ddrEccaddr, 0, 48, .ro, .val 0x0, []⟩
  | .ddrEccaddrRANK => ⟨.ddrEccaddr, 48, 1, .ro, .val 0x0, []⟩
  | .ddrEccaddrSUB => ⟨.ddrEccaddr, 49, 1, .ro, .val 0x0, []⟩
  | .ddrEccinfoDEV => ⟨.ddrEccinfo, 0, 5, .ro, .val 0x0, []⟩
  | .ddrEccinfoNSYM => ⟨.ddrEccinfo, 5, 5, .ro, .val 0x0, []⟩
  | .ddrEccinfoUE => ⟨.ddrEccinfo, 10, 1, .ro, .val 0x0, []⟩
  | .ddrEccinfoWRFAIL => ⟨.ddrEccinfo, 11, 1, .ro, .val 0x0, []⟩
  | .ddrEccinfoMULTI => ⟨.ddrEccinfo, 12, 1, .ro, .val 0x0, []⟩
  | .ddrEccinfoERASE => ⟨.ddrEccinfo, 13, 1, .ro, .val 0x0, []⟩
  | .ddrDevfailVALID => ⟨.ddrDevfail, 0, 1, .ro, .val 0x0, []⟩
  | .ddrDevfailRANK => ⟨.ddrDevfail, 1, 1, .ro, .val 0x0, []⟩
  | .ddrDevfailDEV => ⟨.ddrDevfail, 2, 5, .ro, .val 0x0, []⟩
  | .ddrDevfailDEVTHR => ⟨.ddrDevfail, 16, 16, .rw, .val 0x10, []⟩
  | .ddrThermTEMP => ⟨.ddrTherm, 0, 12, .ro, .val 0x0, []⟩
  | .ddrThermHOT => ⟨.ddrTherm, 12, 1, .ro, .val 0x0, []⟩
  | .ddrThermSBERR => ⟨.ddrTherm, 13, 1, .ro, .val 0x0, []⟩
  | .ddrThermHOTSEEN => ⟨.ddrTherm, 31, 1, .w1c, .val 0x0, []⟩
  | .ddrImap0K => ⟨.ddrImap0, 0, 3, .ro, .val 0x0, []⟩
  | .ddrImap0VALID => ⟨.ddrImap0, 3, 1, .ro, .val 0x0, []⟩
  | .ddrImap0CGIB => ⟨.ddrImap0, 8, 8, .ro, .val 0x0, []⟩
  | .ddrImap1CH => ⟨.ddrImap1, 0, 64, .ro, .val 0x0, []⟩
  | .xcvrLcfgMODE => ⟨.xcvrLcfg, 0, 2, .rw, .val 0x0, []⟩
  | .xcvrLcfgDIV => ⟨.xcvrLcfg, 2, 3, .rw, .val 0x0, []⟩
  | .xcvrLcfgWIDTH => ⟨.xcvrLcfg, 5, 1, .rw, .val 0x0, []⟩
  | .xcvrLcfgRAW => ⟨.xcvrLcfg, 6, 1, .rw, .val 0x0, []⟩
  | .xcvrLcfgTXPOL => ⟨.xcvrLcfg, 7, 1, .rw, .val 0x0, []⟩
  | .xcvrLcfgRXPOL => ⟨.xcvrLcfg, 8, 1, .rw, .val 0x0, []⟩
  | .xcvrLcfgDROPIDLE => ⟨.xcvrLcfg, 9, 1, .rw, .val 0x1, []⟩
  | .xcvrLcfgBOND => ⟨.xcvrLcfg, 10, 1, .rw, .val 0x0, []⟩
  | .xcvrQpllN => ⟨.xcvrQpll, 0, 5, .rw, .val 0x14, []⟩
  | .xcvrQpllF => ⟨.xcvrQpll, 5, 24, .rw, .val 0x0, []⟩
  | .xcvrQpllEN => ⟨.xcvrQpll, 29, 1, .rw, .val 0x0, []⟩
  | .xcvrQpllLOCK => ⟨.xcvrQpll, 30, 1, .ro, .val 0x0, []⟩
  | .xcvrQpllUNLOCKSEEN => ⟨.xcvrQpll, 31, 1, .w1c, .val 0x0, []⟩
  | .xcvrLstatRXST => ⟨.xcvrLstat, 0, 2, .ro, .val 0x0, []⟩
  | .xcvrLstatSIGDET => ⟨.xcvrLstat, 2, 1, .ro, .val 0x0, []⟩
  | .xcvrLstatCDRLOCK => ⟨.xcvrLstat, 3, 1, .ro, .val 0x0, []⟩
  | .xcvrLstatPSTATE => ⟨.xcvrLstat, 4, 2, .ro, .val 0x3, []⟩
  | .xcvrLstatUPSEEN => ⟨.xcvrLstat, 16, 1, .w1c, .val 0x0, []⟩
  | .xcvrLstatDOWNSEEN => ⟨.xcvrLstat, 17, 1, .w1c, .val 0x0, []⟩
  | .xcvrLstatRXOVF => ⟨.xcvrLstat, 18, 1, .w1c, .val 0x0, []⟩
  | .xcvrLstatERRSEEN => ⟨.xcvrLstat, 19, 1, .w1c, .val 0x0, [.xcvrLerrCODEERR, .xcvrLerrDISPERR]⟩
  | .xcvrLstatBONDERR => ⟨.xcvrLstat, 20, 1, .w1c, .val 0x0, []⟩
  | .xcvrLerrCODEERR => ⟨.xcvrLerr, 0, 32, .ro, .val 0x0, []⟩
  | .xcvrLerrDISPERR => ⟨.xcvrLerr, 32, 32, .ro, .val 0x0, []⟩
  | .xcvrLpmREQ => ⟨.xcvrLpm, 0, 2, .rw, .val 0x0, []⟩
  | .xcvrLpmAUTO => ⟨.xcvrLpm, 2, 1, .rw, .val 0x0, []⟩
  | .xcvrLpmSBYUS => ⟨.xcvrLpm, 3, 16, .rw, .val 0x0, []⟩
  | .xcvrLpmSLPMS => ⟨.xcvrLpm, 19, 12, .rw, .val 0x0, []⟩
  | .xcvrTscfgSOFSYM => ⟨.xcvrTscfg, 0, 8, .rw, .val 0xFB, []⟩
  | .xcvrTscfgSOFK => ⟨.xcvrTscfg, 8, 1, .rw, .val 0x1, []⟩
  | .xcvrTscfgTSDEC => ⟨.xcvrTscfg, 9, 5, .rw, .val 0x0, []⟩
  | .xcvrPgenPAT => ⟨.xcvrPgen, 0, 3, .rw, .val 0x0, []⟩
  | .xcvrPchkPAT => ⟨.xcvrPchk, 0, 3, .rw, .val 0x0, []⟩
  | .xcvrPchkLOCK => ⟨.xcvrPchk, 3, 1, .ro, .val 0x0, []⟩
  | .xcvrPchkLOSTSEEN => ⟨.xcvrPchk, 4, 1, .w1c, .val 0x0, []⟩
  | .xcvrPchkCLR => ⟨.xcvrPchk, 5, 1, .wo, .val 0x0, []⟩
  | .xcvrPerrcntERR => ⟨.xcvrPerrcnt, 0, 40, .ro, .val 0x0, []⟩
  | .xcvrPbitcntKBITS => ⟨.xcvrPbitcnt, 0, 48, .ro, .val 0x0, []⟩
  | .xcvrPuserPAT => ⟨.xcvrPuser, 0, 32, .rw, .val 0x0, []⟩
  | .xcvrInjKIND => ⟨.xcvrInj, 0, 2, .rw, .val 0x0, []⟩
  | .xcvrInjBURST => ⟨.xcvrInj, 2, 6, .rw, .val 0x0, []⟩
  | .xcvrInjEXP => ⟨.xcvrInj, 8, 4, .rw, .val 0x6, []⟩
  | .xcvrInjGO => ⟨.xcvrInj, 12, 1, .wo, .val 0x0, []⟩
  | .xcvrInjBUSY => ⟨.xcvrInj, 13, 1, .ro, .val 0x0, []⟩
  | .wortCtlROOT => ⟨.wortCtl, 0, 1, .rw, .val 0x0, []⟩
  | .wortCtlAUTODISC => ⟨.wortCtl, 1, 1, .rw, .val 0x1, []⟩
  | .wortCtlDISC => ⟨.wortCtl, 2, 1, .wo, .val 0x0, []⟩
  | .wortStatDEVNUM => ⟨.wortStat, 0, 8, .ro, .val 0x0, []⟩
  | .wortStatDONE => ⟨.wortStat, 8, 1, .ro, .val 0x0, []⟩
  | .wortStatISROOT => ⟨.wortStat, 9, 1, .ro, .val 0x0, []⟩
  | .wortStatRBMODE => ⟨.wortStat, 10, 1, .ro, .val 0x0, []⟩
  | .wortStatEXCESS => ⟨.wortStat, 11, 1, .ro, .val 0x0, []⟩
  | .wortStatNDEVM1 => ⟨.wortStat, 12, 8, .ro, .val 0x0, []⟩
  | .wortStatSEEN => ⟨.wortStat, 31, 1, .w1c, .val 0x0, []⟩
  | .wortLinkEN => ⟨.wortLink, 0, 1, .rw, .val 0x0, []⟩
  | .wortLinkSTATE => ⟨.wortLink, 1, 2, .ro, .val 0x0, []⟩
  | .wortLinkLANES => ⟨.wortLink, 3, 4, .ro, .val 0x0, []⟩
  | .wortLinkPEERDEV => ⟨.wortLink, 8, 8, .ro, .val 0x0, []⟩
  | .wortLinkPEERPOS => ⟨.wortLink, 16, 6, .ro, .val 0x0, []⟩
  | .wortLinkPEERHALF => ⟨.wortLink, 22, 1, .ro, .val 0x0, []⟩
  | .wortLinkERR => ⟨.wortLink, 23, 1, .w1c, .val 0x0, []⟩
  | .wortLinkREPLAYS => ⟨.wortLink, 24, 16, .ro, .val 0x0, []⟩
  | .wortLinkSEEN => ⟨.wortLink, 63, 1, .w1c, .val 0x0, [.wortLinkREPLAYS]⟩
  | .wortRtPOS => ⟨.wortRt, 0, 6, .ro, .val 0x0, []⟩
  | .wortRtHALF => ⟨.wortRt, 6, 1, .ro, .val 0x0, []⟩
  | .wortRtVALID => ⟨.wortRt, 7, 1, .ro, .val 0x0, []⟩
  | .grnSpanstatCOUNT => ⟨.grnSpanstat, 0, 16, .ro, .val 0x0, []⟩
  | .grnSpanstatACTIVE => ⟨.grnSpanstat, 16, 1, .ro, .val 0x0, []⟩
  | .grnSpanstatSEEN => ⟨.grnSpanstat, 31, 1, .w1c, .val 0x0, [.grnSpanstatCOUNT]⟩
  | .grnSpanaddrADDR => ⟨.grnSpanaddr, 0, 64, .ro, .val 0x0, []⟩
  | .grnSpantrkTRACK => ⟨.grnSpantrk, 0, 4, .ro, .val 0x0, []⟩
  | .grnSpantrkVERT => ⟨.grnSpantrk, 4, 1, .ro, .val 0x0, []⟩
  | .grnSpantrkSEG => ⟨.grnSpantrk, 8, 4, .ro, .val 0x0, []⟩
  | .grnSpantrkENMASK => ⟨.grnSpantrk, 16, 16, .ro, .val 0x0, []⟩
  | .grnMemeccSBECNT => ⟨.grnMemecc, 0, 12, .ro, .val 0x0, []⟩
  | .grnMemeccDBECNT => ⟨.grnMemecc, 12, 12, .ro, .val 0x0, []⟩
  | .grnMemeccDSEEN => ⟨.grnMemecc, 30, 1, .w1c, .val 0x0, [.grnMemeccDBECNT]⟩
  | .grnMemeccSSEEN => ⟨.grnMemecc, 31, 1, .w1c, .val 0x0, [.grnMemeccSBECNT]⟩
  | .grnMemeaddrADDR => ⟨.grnMemeaddr, 0, 64, .ro, .val 0x0, []⟩
  | .grnMemeinfoWORD => ⟨.grnMemeinfo, 0, 15, .ro, .val 0x0, []⟩
  | .grnMemeinfoPORT => ⟨.grnMemeinfo, 15, 1, .ro, .val 0x0, []⟩
  | .grnMemeinfoDBE => ⟨.grnMemeinfo, 16, 1, .ro, .val 0x0, []⟩
  | .grnMemeinfoSYND => ⟨.grnMemeinfo, 24, 8, .ro, .val 0x0, []⟩
  | .grnSlcstatILLCNT => ⟨.grnSlcstat, 0, 10, .ro, .val 0x0, []⟩
  | .grnSlcstatCSBECNT => ⟨.grnSlcstat, 10, 10, .ro, .val 0x0, []⟩
  | .grnSlcstatCDBECNT => ⟨.grnSlcstat, 20, 10, .ro, .val 0x0, []⟩
  | .grnSlcstatILLSEEN => ⟨.grnSlcstat, 30, 1, .w1c, .val 0x0, [.grnSlcstatILLCNT]⟩
  | .grnSlcstatCSEEN => ⟨.grnSlcstat, 31, 1, .w1c, .val 0x0, [.grnSlcstatCSBECNT, .grnSlcstatCDBECNT]⟩
  | .grnSlcaddrADDR => ⟨.grnSlcaddr, 0, 64, .ro, .val 0x0, []⟩
  | .grnSlccaddrADDR => ⟨.grnSlccaddr, 0, 64, .ro, .val 0x0, []⟩
  | .grnSlcinfoOPW => ⟨.grnSlcinfo, 0, 12, .ro, .val 0x0, []⟩
  | .grnSlcinfoCWORD => ⟨.grnSlcinfo, 16, 10, .ro, .val 0x0, []⟩
  | .grnSlcinfoCDBE => ⟨.grnSlcinfo, 26, 1, .ro, .val 0x0, []⟩
  | .grnPllcfgREFSRC => ⟨.grnPllcfg, 0, 3, .ro, .val 0x0, []⟩
  | .grnPllcfgDM1 => ⟨.grnPllcfg, 4, 3, .ro, .val 0x0, []⟩
  | .grnPllcfgMM1 => ⟨.grnPllcfg, 8, 7, .ro, .val 0x0, []⟩
  | .grnPllcfgEN => ⟨.grnPllcfg, 15, 1, .ro, .val 0x0, []⟩
  | .grnPllcfgOUT => ⟨.grnPllcfg, 16, 48, .ro, .val 0x0, []⟩
  | .grnPllstatLOCK => ⟨.grnPllstat, 0, 4, .ro, .val 0x0, []⟩
  | .grnPllstatCOASTNOW => ⟨.grnPllstat, 4, 4, .ro, .val 0x0, []⟩
  | .grnPllstatCOASTSEEN => ⟨.grnPllstat, 8, 4, .w1c, .val 0x0, []⟩
  | .grnPllstatUNLOCKSEEN => ⟨.grnPllstat, 12, 4, .w1c, .val 0x0, []⟩
  | .grnPllstatTROOK => ⟨.grnPllstat, 16, 1, .ro, .val 0x0, []⟩
  | .grnXstatINREST => ⟨.grnXstat, 0, 4, .ro, .val 0x0, []⟩
  | .grnXstatCLKMISS => ⟨.grnXstat, 4, 4, .ro, .val 0x0, []⟩
  | .grnXstatREPLAYSEEN => ⟨.grnXstat, 8, 4, .w1c, .val 0x0, []⟩
  | .grnXstatPAIRLOSTSEEN => ⟨.grnXstat, 12, 4, .w1c, .val 0x0, []⟩
  | .grnXstatCREDFROZEN => ⟨.grnXstat, 16, 4, .ro, .val 0x0, []⟩
  | .grnXereplayCNTN => ⟨.grnXereplay, 0, 16, .ro, .val 0x0, []⟩
  | .grnXereplayCNTE => ⟨.grnXereplay, 16, 16, .ro, .val 0x0, []⟩
  | .grnXereplayCNTS => ⟨.grnXereplay, 32, 16, .ro, .val 0x0, []⟩
  | .grnXereplayCNTW => ⟨.grnXereplay, 48, 16, .ro, .val 0x0, []⟩
  | .grnXpairRIDX => ⟨.grnXpair, 0, 10, .ro, .val 0x0, []⟩
  | .grnXpairPORT => ⟨.grnXpair, 10, 2, .ro, .val 0x0, []⟩
  | .grnLnkstatSPUSEDA => ⟨.grnLnkstat, 0, 4, .ro, .val 0x0, []⟩
  | .grnLnkstatSPUSEDB => ⟨.grnLnkstat, 4, 4, .ro, .val 0x0, []⟩
  | .grnLnkstatSURVA => ⟨.grnLnkstat, 8, 6, .ro, .val 0x0, []⟩
  | .grnLnkstatSURVB => ⟨.grnLnkstat, 14, 6, .ro, .val 0x0, []⟩
  | .grnLnkstatNSPUSED => ⟨.grnLnkstat, 20, 3, .ro, .val 0x0, []⟩
  | .grnLnkstatNSURV => ⟨.grnLnkstat, 23, 5, .ro, .val 0x0, []⟩
  | .grnLnkstatSTATE => ⟨.grnLnkstat, 28, 2, .ro, .val 0x0, []⟩
  | .grnLnkstatCKB => ⟨.grnLnkstat, 30, 1, .ro, .val 0x0, []⟩
  | .grnLnkstatCLKUP => ⟨.grnLnkstat, 31, 1, .ro, .val 0x0, []⟩
  | .grnLnkstatFOLDA => ⟨.grnLnkstat, 32, 7, .ro, .val 0x40, []⟩
  | .grnLnkstatFOLDB => ⟨.grnLnkstat, 39, 7, .ro, .val 0x40, []⟩
  | .grnLnkstatLASTRET => ⟨.grnLnkstat, 48, 7, .ro, .val 0x0, []⟩
  | .grnLnkstatRETSEEN => ⟨.grnLnkstat, 63, 1, .w1c, .val 0x0, []⟩
  | .grnSpgstatCORRCNT => ⟨.grnSpgstat, 0, 12, .ro, .val 0x0, []⟩
  | .grnSpgstatREWCNT => ⟨.grnSpgstat, 12, 10, .ro, .val 0x0, []⟩
  | .grnSpgstatFAILCNT => ⟨.grnSpgstat, 22, 6, .ro, .val 0x0, []⟩
  | .grnSpgstatFAILSEEN => ⟨.grnSpgstat, 30, 1, .w1c, .val 0x0, [.grnSpgstatFAILCNT]⟩
  | .grnSpgstatSEEN => ⟨.grnSpgstat, 31, 1, .w1c, .val 0x0, [.grnSpgstatCORRCNT, .grnSpgstatREWCNT]⟩
  | .grnSpgpassFRAME => ⟨.grnSpgpass, 0, 15, .ro, .val 0x0, []⟩
  | .grnSpgpassPAUSED => ⟨.grnSpgpass, 15, 1, .ro, .val 0x0, []⟩
  | .grnSpgpassPASSES => ⟨.grnSpgpass, 16, 16, .ro, .val 0x0, []⟩
  | .grnShdsrcSEQ => ⟨.grnShdsrc, 0, 16, .ro, .val 0x0, []⟩
  | .grnShdsrcSRC => ⟨.grnShdsrc, 16, 2, .ro, .val 0x0, []⟩
  | .grnShdsrcFROZEN => ⟨.grnShdsrc, 18, 1, .ro, .val 0x0, []⟩
  | .grnRtabaPORTS => ⟨.grnRtaba, 0, 64, .ro, .val 0xFFFFFFFFFFFFFFFF, []⟩
  | .grnRtabbPORTS => ⟨.grnRtabb, 0, 64, .ro, .val 0xFFFFFFFFFFFFFFFF, []⟩
  | .grnNocisoISO => ⟨.grnNociso, 0, 7, .ro, .val 0x0, []⟩
  | .grnNocisoRESTH => ⟨.grnNociso, 8, 7, .ro, .val 0x0, []⟩
  | .grnNocisoCLR => ⟨.grnNociso, 16, 7, .wo, .val 0x0, []⟩
  | .grnNocisoDECL => ⟨.grnNociso, 24, 7, .wo, .val 0x0, []⟩
  | .grnNocisoSEEN => ⟨.grnNociso, 31, 1, .w1c, .val 0x0, [.grnNocabsABSORBED, .grnNocabsDISCARD]⟩
  | .grnNocabsABSORBED => ⟨.grnNocabs, 0, 32, .ro, .val 0x0, []⟩
  | .grnNocabsDISCARD => ⟨.grnNocabs, 32, 32, .ro, .val 0x0, []⟩
  | .grnNocinjCAP0 => ⟨.grnNocinj, 0, 11, .rw, .val 0x0, []⟩
  | .grnNocinjCAP1 => ⟨.grnNocinj, 16, 11, .rw, .val 0x0, []⟩
  | .grnNocwakeWAKES => ⟨.grnNocwake, 0, 16, .ro, .val 0x0, []⟩
  | .grnNocwakeHELD => ⟨.grnNocwake, 16, 5, .ro, .val 0x0, []⟩
  | .grnNocwakeSEEN => ⟨.grnNocwake, 31, 1, .w1c, .val 0x0, [.grnNocwakeWAKES]⟩
  | .grnEvstatDROPS => ⟨.grnEvstat, 0, 16, .ro, .val 0x0, []⟩
  | .grnEvstatSEEN => ⟨.grnEvstat, 31, 1, .w1c, .val 0x0, [.grnEvstatDROPS]⟩
  | .grnIostatVDECL => ⟨.grnIostat, 0, 2, .ro, .val 0x0, []⟩
  | .grnIostatDECLVALID => ⟨.grnIostat, 2, 1, .ro, .val 0x0, []⟩
  | .grnIostatVSENSE => ⟨.grnIostat, 3, 2, .ro, .val 0x0, []⟩
  | .grnIostatVPRES => ⟨.grnIostat, 5, 1, .ro, .val 0x0, []⟩
  | .grnIostatMISSEEN => ⟨.grnIostat, 31, 1, .w1c, .val 0x0, []⟩
  | .grnLanecntCOUNT => ⟨.grnLanecnt, 0, 16, .ro, .val 0x0, []⟩

/-- The fields of a register, low bits first. -/
def RegName.fields : RegName → List Fld
  | .tunId => [.tunIdFAMILY, .tunIdPART, .tunIdGRADE, .tunIdTEMP, .tunIdSTEP]
  | .tunSerial => [.tunSerialSERIAL]
  | .tunFeat0 => [.tunFeat0MEMP, .tunFeat0CXLCM, .tunFeat0GUEST, .tunFeat0BAR4]
  | .tunFeat => [.tunFeatZERO]
  | .tunFeatack => [.tunFeatackACK]
  | .tunFeatlock => [.tunFeatlockLOCK]
  | .tunClken => [.tunClkenEN]
  | .tunClkstat => [.tunClkstatCLOCKED]
  | .tunGatehit => [.tunGatehitCOUNT, .tunGatehitUNIT, .tunGatehitSEEN]
  | .tunGateaddr => [.tunGateaddrOFFSET, .tunGateaddrSRC]
  | .tunGateaddr4 => [.tunGateaddr4OFFSET]
  | .clkRootcfg => [.clkRootcfgREFSEL, .clkRootcfgAUTOSW]
  | .clkRootstat => [.clkRootstatLOCK, .clkRootstatCOAST, .clkRootstatREF0OK, .clkRootstatREF1OK, .clkRootstatTRIMOK, .clkRootstatCOASTSEEN, .clkRootstatREFSWSEEN]
  | .clkTroctl => [.clkTroctlENABLE, .clkTroctlTSRC, .clkTroctlWINLOG, .clkTroctlLPOS, .clkTroctlLANE, .clkTroctlSRCLOST]
  | .clkTroexp => [.clkTroexpE]
  | .clkTrotrim => [.clkTrotrimTRIM, .clkTrotrimLOCKED]
  | .clkTrocnt => [.clkTrocntM]
  | .clkFmctl => [.clkFmctlMSRC, .clkFmctlGSRC, .clkFmctlGLOG, .clkFmctlGATEERR, .clkFmctlSTART, .clkFmctlBUSY, .clkFmctlOVF, .clkFmctlDONE]
  | .clkFmcnt => [.clkFmcntCOUNT]
  | .pwrCtl => [.pwrCtlRESCLR]
  | .pwrDctl => [.pwrDctlREQ, .pwrDctlAUTO, .pwrDctlWAKE_ON_OFF, .pwrDctlAUTORET, .pwrDctlIDLE, .pwrDctlRETIDLE]
  | .pwrDstat => [.pwrDstatSTATE, .pwrDstatBUSY, .pwrDstatISO, .pwrDstatLASTWAKE, .pwrDstatREFUSED, .pwrDstatERRCODE, .pwrDstatSEEN]
  | .pwrRes => [.pwrResUS]
  | .nocCtl => [.nocCtlTMO, .nocCtlDRSPTMO]
  | .nocRtctl => [.nocRtctlSWITCH, .nocRtctlACTIVE, .nocRtctlDRAINING, .nocRtctlFORCED, .nocRtctlDONE, .nocRtctlDRAINMAX]
  | .nocIsosum => [.nocIsosumPOS]
  | .nocTiso => [.nocTisoEXT, .nocTisoLINK, .nocTisoCLREXT, .nocTisoCLRLINK, .nocTisoSEEN]
  | .nocTabs => [.nocTabsABSORBED]
  | .nocRbcfg => [.nocRbcfgRXBUF, .nocRbcfgTXBUF, .nocRbcfgTXCNT]
  | .nocRbstat => [.nocRbstatSPLITCNT, .nocRbstatSEGDONE, .nocRbstatFAILSEEN]
  | .nocGfwctl => [.nocGfwctlCLASS, .nocGfwctlRATE]
  | .nocGfwwinl => [.nocGfwwinlRD, .nocGfwwinlWR, .nocGfwwinlBASE]
  | .nocGfwwinh => [.nocGfwwinhLIMIT]
  | .nocGfwviol => [.nocGfwviolADDR, .nocGfwviolOPC, .nocGfwviolVN, .nocGfwviolCAUSE, .nocGfwviolSEEN]
  | .nocTrtaba => [.nocTrtabaPORTS]
  | .nocTrtabb => [.nocTrtabbPORTS]
  | .tmuTimelo => [.tmuTimeloFRAC, .tmuTimeloNS, .tmuTimeloSECLO]
  | .tmuTimehi => [.tmuTimehiSECHI]
  | .tmuInc => [.tmuIncINC]
  | .tmuSteplo => [.tmuSteploFRAC, .tmuSteploNS, .tmuSteploSECLO]
  | .tmuStephi => [.tmuStephiSECHI]
  | .tmuCorr => [.tmuCorrSTEPGO, .tmuCorrINCPEND, .tmuCorrSTEPPEND, .tmuCorrSTEPERR, .tmuCorrINCERR, .tmuCorrAPPLIED]
  | .tmuHoldover => [.tmuHoldoverINTERVAL, .tmuHoldoverACTIVE, .tmuHoldoverSEEN]
  | .tmuPpsctl => [.tmuPpsctlEN, .tmuPpsctlPOL, .tmuPpsctlWIDTH, .tmuPpsctlINEN, .tmuPpsctlINEDGE]
  | .tmuTrigcfg => [.tmuTrigcfgMODE, .tmuTrigcfgEDGE, .tmuTrigcfgIDLE, .tmuTrigcfgWIDTH]
  | .tmuTsbase => [.tmuTsbaseBASE]
  | .tmuTscfg => [.tmuTscfgEN, .tmuTscfgPITCHTS, .tmuTscfgLOG2N, .tmuTscfgWM]
  | .tmuTswr => [.tmuTswrWR]
  | .tmuTsrd => [.tmuTsrdRD]
  | .tmuTsstat => [.tmuTsstatLOST, .tmuTsstatPATHFAIL, .tmuTsstatWMSEEN, .tmuTsstatOVF]
  | .tmuLtsen => [.tmuLtsenEN]
  | .tmuDtsen => [.tmuDtsenEN]
  | .tmuTmrevt => [.tmuTmrevtFIRED]
  | .tmuWinevt => [.tmuWinevtHIT]
  | .tmrCtl => [.tmrCtlEN, .tmrCtlDEST, .tmrCtlSEL, .tmrCtlEVT, .tmrCtlARMED, .tmrCtlMISS, .tmrCtlERR, .tmrCtlERRCODE, .tmrCtlCOUNT]
  | .tmrStartlo => [.tmrStartloFRAC, .tmrStartloNS, .tmrStartloSECLO]
  | .tmrStarthi => [.tmrStarthiSECHI]
  | .tmrPeriod => [.tmrPeriodPERIOD]
  | .winCtl => [.winCtlEN, .winCtlSRC, .winCtlGATE, .winCtlEVT, .winCtlERR]
  | .winStat => [.winStatINCNT, .winStatOCC, .winStatHIT]
  | .winStartlo => [.winStartloFRAC, .winStartloNS, .winStartloSECLO]
  | .winStarthi => [.winStarthiSECHI]
  | .winEndlo => [.winEndloFRAC, .winEndloNS, .winEndloSECLO]
  | .winEndhi => [.winEndhiSECHI]
  | .winPeriod => [.winPeriodPERIOD]
  | .winFirstlo => [.winFirstloFRAC, .winFirstloNS, .winFirstloSECLO]
  | .winFirsthi => [.winFirsthiSECHI]
  | .caskCfg => [.caskCfgMODE, .caskCfgNREG]
  | .caskEnda => [.caskEndaACLS, .caskEndaAID, .caskEndaTAGENT, .caskEndaTBIT, .caskEndaTEN, .caskEndaTREM, .caskEndaTDEV]
  | .caskEndb => [.caskEndbACLS, .caskEndbAID, .caskEndbTAGENT, .caskEndbTBIT, .caskEndbTEN, .caskEndbTREM, .caskEndbTDEV]
  | .caskStat => [.caskStatGO, .caskStatFROM, .caskStatCOLLIDE, .caskStatACCERR, .caskStatEMPTYRD, .caskStatQAB, .caskStatQBA, .caskStatDROPS]
  | .caskMsg => [.caskMsgDATA]
  | .caskXctl => [.caskXctlGO, .caskXctlTAKE]
  | .caskXpush => [.caskXpushWORD]
  | .caskXpop => [.caskXpopWORD]
  | .evrRoute => [.evrRouteMSIEN, .evrRouteVEC, .evrRouteDESEN, .evrRouteDPOS, .evrRouteTAPEN, .evrRouteTAGENT, .evrRouteTBIT, .evrRoutePEND, .evrRouteCNT, .evrRouteSEEN]
  | .evrPay => [.evrPayPAYLOAD]
  | .tapPend => [.tapPendPEND]
  | .tapMask => [.tapMaskMASK]
  | .tapCfg => [.tapCfgVEC]
  | .kilnCtl => [.kilnCtlRELOAD, .kilnCtlRSLOT]
  | .kilnStat => [.kilnStatSTATE, .kilnStatSLOT, .kilnStatRLDIGN, .kilnStatATTEMPT, .kilnStatBOOTSEL, .kilnStatCFGPULL, .kilnStatKEYSEL, .kilnStatRELMS]
  | .kilnFrames => [.kilnFramesCOUNT]
  | .kilnImgver => [.kilnImgverVERSION]
  | .kilnBasedig => [.kilnBasedigDIG]
  | .kilnLogptr => [.kilnLogptrNEXT]
  | .kilnLoadlog => [.kilnLoadlogCODE, .kilnLoadlogSLOT, .kilnLoadlogLPOS, .kilnLoadlogFRAME, .kilnLoadlogTIMEMS, .kilnLoadlogATTEMPT, .kilnLoadlogVALID]
  | .kilnProgctl => [.kilnProgctlSLOT, .kilnProgctlSTART, .kilnProgctlBUSY, .kilnProgctlDONE, .kilnProgctlERR, .kilnProgctlERRCODE]
  | .kilnProglen => [.kilnProglenLEN]
  | .kilnProgsrc => [.kilnProgsrcZERO, .kilnProgsrcADDR]
  | .kilnAttctl => [.kilnAttctlSTART, .kilnAttctlBUSY, .kilnAttctlDONE, .kilnAttctlERR]
  | .kilnAttaddr => [.kilnAttaddrADDR]
  | .kilnAttnonce => [.kilnAttnonceNONCE]
  | .kilnAttpub => [.kilnAttpubPUB]
  | .kilnPldctl => [.kilnPldctlSTART, .kilnPldctlTIMED]
  | .kilnPldsrc => [.kilnPldsrcZERO, .kilnPldsrcADDR]
  | .kilnPldlen => [.kilnPldlenLEN]
  | .kilnPldtime => [.kilnPldtimeNS, .kilnPldtimeSEC]
  | .kilnPldstat => [.kilnPldstatSTATE, .kilnPldstatFLOOR, .kilnPldstatCODE, .kilnPldstatLATE, .kilnPldstatIGN, .kilnPldstatFAIL, .kilnPldstatDONE]
  | .kilnFlrstat => [.kilnFlrstatSTATE, .kilnFlrstatLOADS]
  | .kilnShelf => [.kilnShelfFREE]
  | .dieCtl => [.dieCtlAUTOREP, .dieCtlREMAPPOL]
  | .dieDiscstat => [.dieDiscstatDONE, .dieDiscstatPANELBAD, .dieDiscstatIDMIS, .dieDiscstatLINKMIS, .dieDiscstatMAPINVAL, .dieDiscstatAUTOREPD, .dieDiscstatANSWERS]
  | .dieLthr => [.dieLthrRETIRE, .dieLthrWLOG]
  | .dieTlnkstat => [.dieTlnkstatSPUSEDA, .dieTlnkstatSPUSEDB, .dieTlnkstatSURVA, .dieTlnkstatSURVB, .dieTlnkstatNSPUSED, .dieTlnkstatNSURV, .dieTlnkstatSTATE, .dieTlnkstatCKB, .dieTlnkstatCLKUP, .dieTlnkstatFOLDA, .dieTlnkstatFOLDB, .dieTlnkstatLASTRET, .dieTlnkstatRETSEEN]
  | .dieSerial => [.dieSerialSERIAL]
  | .dieIdinfo => [.dieIdinfoTYPE, .dieIdinfoGRADE, .dieIdinfoRXMASK, .dieIdinfoUPPORT, .dieIdinfoDEPTH, .dieIdinfoPRESENT, .dieIdinfoDISPLACED, .dieIdinfoLPOS]
  | .dieXserial => [.dieXserialSERIAL]
  | .dieXidinfo => [.dieXidinfoTYPE, .dieXidinfoGRADE, .dieXidinfoRXMASK, .dieXidinfoUPPORT, .dieXidinfoDEPTH, .dieXidinfoPRESENT, .dieXidinfoDISPLACED, .dieXidinfoLPOS]
  | .dieMap => [.dieMapPHYS]
  | .dieRemapctl => [.dieRemapctlLPOS, .dieRemapctlSPARE, .dieRemapctlSTART]
  | .dieRemapstat => [.dieRemapstatSTATE, .dieRemapstatREASON, .dieRemapstatLPOS, .dieRemapstatSPARE, .dieRemapstatNOSTATE, .dieRemapstatSEEN]
  | .dieGrst => [.dieGrstHOLD]
  | .dieFault => [.dieFaultPHYS, .dieFaultPORT, .dieFaultKIND, .dieFaultLPOS, .dieFaultSURV, .dieFaultSUB, .dieFaultCOUNT, .dieFaultSEEN]
  | .dieClkloss => [.dieClklossPHYS, .dieClklossLPOS, .dieClklossPORTS, .dieClklossCLKBACK, .dieClklossSEEN]
  | .spgCtl => [.spgCtlINTERVAL, .spgCtlBURST]
  | .spgFindstat => [.spgFindstatCOUNT, .spgFindstatOVFCNT, .spgFindstatOVF]
  | .spgFindaddr => [.spgFindaddrADDR]
  | .spgFindinfo => [.spgFindinfoFADDR, .spgFindinfoCLASS, .spgFindinfoNBITS, .spgFindinfoBIT, .spgFindinfoINFLOOR, .spgFindinfoFLOOR, .spgFindinfoPHYS]
  | .spgFindpop => [.spgFindpopPOP]
  | .capPitchctl => [.capPitchctlKIND, .capPitchctlDESIGN, .capPitchctlSTART]
  | .capPitchtime => [.capPitchtimeNS, .capPitchtimeSEC]
  | .capPitchflr => [.capPitchflrFLOORMASK]
  | .capPitchpos => [.capPitchposPOSMASK, .capPitchposBASE]
  | .capStat => [.capStatPEND, .capStatFULL, .capStatLATE, .capStatBADKIND, .capStatCAPDONE, .capStatCAPSEQ]
  | .capCapskip => [.capCapskipFLOORS]
  | .capCapskippos => [.capCapskipposPOS]
  | .capAccctl => [.capAccctlOP, .capAccctlLPOS, .capAccctlFTYPE, .capAccctlSTART]
  | .capAccidx => [.capAccidxFIRST, .capAccidxCOUNT]
  | .capAccaddr => [.capAccaddrZERO, .capAccaddrADDR]
  | .capAccstat => [.capAccstatBUSY, .capAccstatDONE, .capAccstatERR, .capAccstatERRCODE, .capAccstatTORN, .capAccstatFRAMES]
  | .cohCtl => [.cohCtlNOALLOC, .cohCtlFLUSH, .cohCtlFLUSHBUSY, .cohCtlFLUSHDONE, .cohCtlHTMO]
  | .cohStat => [.cohStatFLIPDH, .cohStatFLIPHD, .cohStatFEVICT, .cohStatLOSTDIRTY, .cohStatBIASLOST, .cohStatLINKLOST]
  | .cohBiasbase => [.cohBiasbaseADDR]
  | .cohBiascmd => [.cohBiascmdPAGE, .cohBiascmdTARGET, .cohBiascmdSTART, .cohBiascmdQUERY, .cohBiascmdCOUNTM1]
  | .cohBiasstat => [.cohBiasstatBUSY, .cohBiasstatDONE, .cohBiasstatERR, .cohBiasstatERRCODE, .cohBiasstatCUR]
  | .cohHwin => [.cohHwinEN, .cohHwinBASE]
  | .cohHerr => [.cohHerrADDR, .cohHerrCAUSE, .cohHerrCOUNT, .cohHerrSEEN]
  | .cxlLnkstat => [.cxlLnkstatUP, .cxlLnkstatMODE, .cxlLnkstatSPEED, .cxlLnkstatWIDTH, .cxlLnkstatCACHEEN, .cxlLnkstatMEMEN, .cxlLnkstatCHGSEEN]
  | .mempAlarmctl => [.mempAlarmctlPINEN, .mempAlarmctlZEROIZE]
  | .mempAlarmstat => [.mempAlarmstatSEEN, .mempAlarmstatCOUNT]
  | .mempAlarmrec => [.mempAlarmrecADDR, .mempAlarmrecREGION, .mempAlarmrecCAUSE, .mempAlarmrecSNODE]
  | .mempKeyctl => [.mempKeyctlKEYID, .mempKeyctlCMD]
  | .mempKeystat => [.mempKeystatBUSY, .mempKeystatERR]
  | .mempKeystate => [.mempKeystateST]
  | .mempRgnbase => [.mempRgnbaseBASE]
  | .mempRgncfg => [.mempRgncfgENABLE, .mempRgncfgMODE, .mempRgncfgKEYID, .mempRgncfgLOG2S, .mempRgncfgAUTOREKEY, .mempRgncfgACC]
  | .mempRgnstat => [.mempRgnstatSTATE, .mempRgnstatREKEYDUE, .mempRgnstatREKEYBLK, .mempRgnstatERR, .mempRgnstatWALKS]
  | .mempRgnwalk => [.mempRgnwalkWP, .mempRgnwalkNEWKEY, .mempRgnwalkSTART, .mempRgnwalkJUMPS]
  | .ddrCfg => [.ddrCfgSPEED, .ddrCfgPAIR, .ddrCfgRANKS2, .ddrCfgDENS, .ddrCfgCGIB, .ddrCfgINMAP, .ddrCfgSLOT]
  | .ddrCtl => [.ddrCtlWBUF, .ddrCtlMAXSPD, .ddrCtlWBACK, .ddrCtlRETRAIN]
  | .ddrStat => [.ddrStatSTATE, .ddrStatRTIGN, .ddrStatINFL, .ddrStatWBOCC, .ddrStatTRSTEP, .ddrStatSEEN, .ddrStatDROPS]
  | .ddrSched => [.ddrSchedPGTMO, .ddrSchedSTARVE]
  | .ddrRdp => [.ddrRdpK, .ddrRdpNRCNT]
  | .ddrHaz => [.ddrHazFWD, .ddrHazPWAIT]
  | .ddrEccstat => [.ddrEccstatCECNT, .ddrEccstatUECNT, .ddrEccstatUSEEN, .ddrEccstatCSEEN]
  | .ddrEccaddr => [.ddrEccaddrADDR, .ddrEccaddrRANK, .ddrEccaddrSUB]
  | .ddrEccinfo => [.ddrEccinfoDEV, .ddrEccinfoNSYM, .ddrEccinfoUE, .ddrEccinfoWRFAIL, .ddrEccinfoMULTI, .ddrEccinfoERASE]
  | .ddrDevfail => [.ddrDevfailVALID, .ddrDevfailRANK, .ddrDevfailDEV, .ddrDevfailDEVTHR]
  | .ddrTherm => [.ddrThermTEMP, .ddrThermHOT, .ddrThermSBERR, .ddrThermHOTSEEN]
  | .ddrImap0 => [.ddrImap0K, .ddrImap0VALID, .ddrImap0CGIB]
  | .ddrImap1 => [.ddrImap1CH]
  | .xcvrLcfg => [.xcvrLcfgMODE, .xcvrLcfgDIV, .xcvrLcfgWIDTH, .xcvrLcfgRAW, .xcvrLcfgTXPOL, .xcvrLcfgRXPOL, .xcvrLcfgDROPIDLE, .xcvrLcfgBOND]
  | .xcvrQpll => [.xcvrQpllN, .xcvrQpllF, .xcvrQpllEN, .xcvrQpllLOCK, .xcvrQpllUNLOCKSEEN]
  | .xcvrLstat => [.xcvrLstatRXST, .xcvrLstatSIGDET, .xcvrLstatCDRLOCK, .xcvrLstatPSTATE, .xcvrLstatUPSEEN, .xcvrLstatDOWNSEEN, .xcvrLstatRXOVF, .xcvrLstatERRSEEN, .xcvrLstatBONDERR]
  | .xcvrLerr => [.xcvrLerrCODEERR, .xcvrLerrDISPERR]
  | .xcvrLpm => [.xcvrLpmREQ, .xcvrLpmAUTO, .xcvrLpmSBYUS, .xcvrLpmSLPMS]
  | .xcvrTscfg => [.xcvrTscfgSOFSYM, .xcvrTscfgSOFK, .xcvrTscfgTSDEC]
  | .xcvrPgen => [.xcvrPgenPAT]
  | .xcvrPchk => [.xcvrPchkPAT, .xcvrPchkLOCK, .xcvrPchkLOSTSEEN, .xcvrPchkCLR]
  | .xcvrPerrcnt => [.xcvrPerrcntERR]
  | .xcvrPbitcnt => [.xcvrPbitcntKBITS]
  | .xcvrPuser => [.xcvrPuserPAT]
  | .xcvrInj => [.xcvrInjKIND, .xcvrInjBURST, .xcvrInjEXP, .xcvrInjGO, .xcvrInjBUSY]
  | .wortCtl => [.wortCtlROOT, .wortCtlAUTODISC, .wortCtlDISC]
  | .wortStat => [.wortStatDEVNUM, .wortStatDONE, .wortStatISROOT, .wortStatRBMODE, .wortStatEXCESS, .wortStatNDEVM1, .wortStatSEEN]
  | .wortLink => [.wortLinkEN, .wortLinkSTATE, .wortLinkLANES, .wortLinkPEERDEV, .wortLinkPEERPOS, .wortLinkPEERHALF, .wortLinkERR, .wortLinkREPLAYS, .wortLinkSEEN]
  | .wortRt => [.wortRtPOS, .wortRtHALF, .wortRtVALID]
  | .grnSpanstat => [.grnSpanstatCOUNT, .grnSpanstatACTIVE, .grnSpanstatSEEN]
  | .grnSpanaddr => [.grnSpanaddrADDR]
  | .grnSpantrk => [.grnSpantrkTRACK, .grnSpantrkVERT, .grnSpantrkSEG, .grnSpantrkENMASK]
  | .grnMemecc => [.grnMemeccSBECNT, .grnMemeccDBECNT, .grnMemeccDSEEN, .grnMemeccSSEEN]
  | .grnMemeaddr => [.grnMemeaddrADDR]
  | .grnMemeinfo => [.grnMemeinfoWORD, .grnMemeinfoPORT, .grnMemeinfoDBE, .grnMemeinfoSYND]
  | .grnSlcstat => [.grnSlcstatILLCNT, .grnSlcstatCSBECNT, .grnSlcstatCDBECNT, .grnSlcstatILLSEEN, .grnSlcstatCSEEN]
  | .grnSlcaddr => [.grnSlcaddrADDR]
  | .grnSlccaddr => [.grnSlccaddrADDR]
  | .grnSlcinfo => [.grnSlcinfoOPW, .grnSlcinfoCWORD, .grnSlcinfoCDBE]
  | .grnPllcfg => [.grnPllcfgREFSRC, .grnPllcfgDM1, .grnPllcfgMM1, .grnPllcfgEN, .grnPllcfgOUT]
  | .grnPllstat => [.grnPllstatLOCK, .grnPllstatCOASTNOW, .grnPllstatCOASTSEEN, .grnPllstatUNLOCKSEEN, .grnPllstatTROOK]
  | .grnXstat => [.grnXstatINREST, .grnXstatCLKMISS, .grnXstatREPLAYSEEN, .grnXstatPAIRLOSTSEEN, .grnXstatCREDFROZEN]
  | .grnXereplay => [.grnXereplayCNTN, .grnXereplayCNTE, .grnXereplayCNTS, .grnXereplayCNTW]
  | .grnXpair => [.grnXpairRIDX, .grnXpairPORT]
  | .grnLnkstat => [.grnLnkstatSPUSEDA, .grnLnkstatSPUSEDB, .grnLnkstatSURVA, .grnLnkstatSURVB, .grnLnkstatNSPUSED, .grnLnkstatNSURV, .grnLnkstatSTATE, .grnLnkstatCKB, .grnLnkstatCLKUP, .grnLnkstatFOLDA, .grnLnkstatFOLDB, .grnLnkstatLASTRET, .grnLnkstatRETSEEN]
  | .grnSpgstat => [.grnSpgstatCORRCNT, .grnSpgstatREWCNT, .grnSpgstatFAILCNT, .grnSpgstatFAILSEEN, .grnSpgstatSEEN]
  | .grnSpgpass => [.grnSpgpassFRAME, .grnSpgpassPAUSED, .grnSpgpassPASSES]
  | .grnShdsrc => [.grnShdsrcSEQ, .grnShdsrcSRC, .grnShdsrcFROZEN]
  | .grnRtaba => [.grnRtabaPORTS]
  | .grnRtabb => [.grnRtabbPORTS]
  | .grnNociso => [.grnNocisoISO, .grnNocisoRESTH, .grnNocisoCLR, .grnNocisoDECL, .grnNocisoSEEN]
  | .grnNocabs => [.grnNocabsABSORBED, .grnNocabsDISCARD]
  | .grnNocinj => [.grnNocinjCAP0, .grnNocinjCAP1]
  | .grnNocwake => [.grnNocwakeWAKES, .grnNocwakeHELD, .grnNocwakeSEEN]
  | .grnEvstat => [.grnEvstatDROPS, .grnEvstatSEEN]
  | .grnIostat => [.grnIostatVDECL, .grnIostatDECLVALID, .grnIostatVSENSE, .grnIostatVPRES, .grnIostatMISSEEN]
  | .grnLanecnt => [.grnLanecntCOUNT]

/-- The home site of every logical position: its physical grain number (R18). -/
def homeTable : List Nat :=
  [0,1,2,3,4,5,6,7,8,9,10,12,13,14,15,16,17,19,20,21,22,23,24,25,26,27,28,29,30,31,32,33,34,35,36,37,38,39,40,41,42,43,44,46,47,48,49,50,51,53,54,55,56,57,58,59,60,61,62,63]

/-- The home physical grain of position n (R18). -/
def homeOf (n : Nat) : Nat := homeTable.getD n 63

/-- Interior positions (R24's table): every other position is perimeter. -/
def interior (n : Nat) : Bool :=
  (11 ≤ n && n ≤ 16) || (19 ≤ n && n ≤ 24) || (27 ≤ n && n ≤ 32) || (35 ≤ n && n ≤ 40) || (43 ≤ n && n ≤ 48)

/-- What is fused into a part or fitted on its board: speed grade, temperature code and options of the ordering code (R1, R2,
R5), the Tun's serial and stepping, and the attestation public key (R261). -/
structure Part where
  grade  : BitVec 2
  tempE  : Bool
  optS   : Bool
  optX   : Bool
  optG   : Bool
  step   : BitVec 4
  serial : W64
  /-- KILN_ATTPUB0-15, low word first -/
  attPub : BitVec 512
  deriving DecidableEq, Repr

/-- TUN_CLKEN as it stands after reset: the bits of absent option units read 0 (R165, R5). -/
def Part.clken (p : Part) : Nat :=
  0x1FFFF - (if p.optX then 0 else 0x800) - (if p.optS then 0 else 0x2000)

/-- A PWR domain that R473 holds Off: the PHY domain of an interior position. -/
def domainHeldOff (d : Nat) : Bool := 64 ≤ d && d ≤ 123 && interior (d - 64)

/-- The reset value of a field in its instance i (the Reset columns; a column that names pins, fuses or options takes that
source's value). -/
def Fld.reset (p : Part) (f : Fld) (i : Nat) : Nat :=
  match f.info.reset with
  | .val n => n
  | .grade => p.grade.toNat
  | .temp => p.tempE.toNat
  | .step => p.step.toNat
  | .serial => p.serial.toNat
  | .optS => p.optS.toNat
  | .optX => p.optX.toNat
  | .optG => p.optG.toNat
  | .noX => (!p.optX).toNat
  | .clken => p.clken
  | .domain => if domainHeldOff i then 3 else 0
  | .attPub => (p.attPub.toNat >>> (32 * i)) % 2 ^ 32
  | .home => homeOf i

/-- The registers in table order, part 1. -/
def RegName.all1 : List RegName :=
  [.tunId, .tunSerial, .tunFeat0, .tunFeat, .tunFeatack, .tunFeatlock, .tunClken, .tunClkstat, .tunGatehit, .tunGateaddr, .tunGateaddr4, .clkRootcfg, .clkRootstat, .clkTroctl, .clkTroexp, .clkTrotrim, .clkTrocnt, .clkFmctl, .clkFmcnt, .pwrCtl, .pwrDctl, .pwrDstat, .pwrRes, .nocCtl, .nocRtctl, .nocIsosum, .nocTiso, .nocTabs, .nocRbcfg, .nocRbstat, .nocGfwctl, .nocGfwwinl, .nocGfwwinh, .nocGfwviol, .nocTrtaba, .nocTrtabb, .tmuTimelo, .tmuTimehi, .tmuInc, .tmuSteplo, .tmuStephi, .tmuCorr]

/-- The registers in table order, part 2. -/
def RegName.all2 : List RegName :=
  [.tmuHoldover, .tmuPpsctl, .tmuTrigcfg, .tmuTsbase, .tmuTscfg, .tmuTswr, .tmuTsrd, .tmuTsstat, .tmuLtsen, .tmuDtsen, .tmuTmrevt, .tmuWinevt, .tmrCtl, .tmrStartlo, .tmrStarthi, .tmrPeriod, .winCtl, .winStat, .winStartlo, .winStarthi, .winEndlo, .winEndhi, .winPeriod, .winFirstlo, .winFirsthi, .caskCfg, .caskEnda, .caskEndb, .caskStat, .caskMsg, .caskXctl, .caskXpush, .caskXpop, .evrRoute, .evrPay, .tapPend, .tapMask, .tapCfg, .kilnCtl, .kilnStat, .kilnFrames, .kilnImgver]

/-- The registers in table order, part 3. -/
def RegName.all3 : List RegName :=
  [.kilnBasedig, .kilnLogptr, .kilnLoadlog, .kilnProgctl, .kilnProglen, .kilnProgsrc, .kilnAttctl, .kilnAttaddr, .kilnAttnonce, .kilnAttpub, .kilnPldctl, .kilnPldsrc, .kilnPldlen, .kilnPldtime, .kilnPldstat, .kilnFlrstat, .kilnShelf, .dieCtl, .dieDiscstat, .dieLthr, .dieTlnkstat, .dieSerial, .dieIdinfo, .dieXserial, .dieXidinfo, .dieMap, .dieRemapctl, .dieRemapstat, .dieGrst, .dieFault, .dieClkloss, .spgCtl, .spgFindstat, .spgFindaddr, .spgFindinfo, .spgFindpop, .capPitchctl, .capPitchtime, .capPitchflr, .capPitchpos, .capStat, .capCapskip]

/-- The registers in table order, part 4. -/
def RegName.all4 : List RegName :=
  [.capCapskippos, .capAccctl, .capAccidx, .capAccaddr, .capAccstat, .cohCtl, .cohStat, .cohBiasbase, .cohBiascmd, .cohBiasstat, .cohHwin, .cohHerr, .cxlLnkstat, .mempAlarmctl, .mempAlarmstat, .mempAlarmrec, .mempKeyctl, .mempKeystat, .mempKeystate, .mempRgnbase, .mempRgncfg, .mempRgnstat, .mempRgnwalk, .ddrCfg, .ddrCtl, .ddrStat, .ddrSched, .ddrRdp, .ddrHaz, .ddrEccstat, .ddrEccaddr, .ddrEccinfo, .ddrDevfail, .ddrTherm, .ddrImap0, .ddrImap1, .xcvrLcfg, .xcvrQpll, .xcvrLstat, .xcvrLerr, .xcvrLpm, .xcvrTscfg]

/-- The registers in table order, part 5. -/
def RegName.all5 : List RegName :=
  [.xcvrPgen, .xcvrPchk, .xcvrPerrcnt, .xcvrPbitcnt, .xcvrPuser, .xcvrInj, .wortCtl, .wortStat, .wortLink, .wortRt, .grnSpanstat, .grnSpanaddr, .grnSpantrk, .grnMemecc, .grnMemeaddr, .grnMemeinfo, .grnSlcstat, .grnSlcaddr, .grnSlccaddr, .grnSlcinfo, .grnPllcfg, .grnPllstat, .grnXstat, .grnXereplay, .grnXpair, .grnLnkstat, .grnSpgstat, .grnSpgpass, .grnShdsrc, .grnRtaba, .grnRtabb, .grnNociso, .grnNocabs, .grnNocinj, .grnNocwake, .grnEvstat, .grnIostat, .grnLanecnt]

/-- Every register, for the address decoder. -/
def RegName.all : List RegName :=
  RegName.all1 ++ RegName.all2 ++ RegName.all3 ++ RegName.all4 ++ RegName.all5

/-- A register instance as an address reaches it: the register, its two indices, and the bit of the register at which the
addressed byte lies (0, or 32 for the upper half of a 64-bit register). -/
structure RegAt where
  reg : RegName
  i   : Nat
  j   : Nat
  bit : Nat
  deriving DecidableEq, Repr

/-- The instance of register r that holds the byte at BAR0 offset o, if one does. -/
def RegName.hit (r : RegName) (o : Nat) : Option RegAt :=
  let x := o - (r.info.unit.base + r.info.off)
  if o < r.info.unit.base + r.info.off then none else
  let i := if r.info.n1 ≤ 1 then 0 else x / r.info.s1
  let y := x - r.info.s1 * i
  let j := if r.info.n2 ≤ 1 then 0 else y / r.info.s2
  let z := y - r.info.s2 * j
  if i < r.info.n1 ∧ j < r.info.n2 ∧ z < r.info.width / 8 then some ⟨r, i, j, 8 * z⟩ else none

/-- The lane windows that the WORT registers replace (R508). -/
def wortHole (o : Nat) : Bool := decide (0x2080000 ≤ o ∧ o < 0x2088000)

/-- An XCVR lane register is not decoded in the windows of L16, and XCVR_QPLL only in those of lanes :0 and :4 (R508). -/
def laneRegOk (a : RegAt) (o : Nat) : Bool :=
  if a.reg = .xcvrQpll then !wortHole o && (a.i % 4 == 0)
  else if [RegName.xcvrLcfg, .xcvrLstat, .xcvrLerr, .xcvrLpm, .xcvrTscfg, .xcvrPgen, .xcvrPchk, .xcvrPerrcnt, .xcvrPbitcnt,
    .xcvrPuser, .xcvrInj].contains a.reg then !wortHole o
  else true

/-- A TAP agent or PWR domain index that names something (R457, R473); other instances of those registers do not exist. -/
def instanceExists (a : RegAt) : Bool :=
  if a.reg = .tapPend ∨ a.reg = .tapMask then a.i ≤ 19 || 32 ≤ a.i
  else if a.reg = .tapCfg then a.i ≤ 15
  else true

/-- The register instance at a BAR0 offset; none where no chapter assigns one (R506). -/
def RegAt.ofOffset (o : Nat) : Option RegAt :=
  (RegName.all.findSome? fun r =>
    match r.hit o with
    | some a => if laneRegOk a o && instanceExists a then some a else none
    | none => none)

end Sys2Proof.Machine
end

