-- ==== Sys2Proof/Machine/SMap.lean ====
section
/-! DEFINITION. Sparse maps: lists of (key, value) pairs in one canonical form, the keys strictly rising and no entry equal to
what an unlisted key reads as. Every array, memory and register store of the model is one of these. -/

namespace Sys2Proof.Machine

/-- A sparse map: (key, value) pairs, keys strictly rising. -/
abbrev SMap (ν : Type) := List (Nat × ν)

/-- The value at key k; `d k` where k is not listed. -/
def SMap.get {ν : Type} (d : Nat → ν) : SMap ν → Nat → ν
  | [], k => d k
  | (a, v) :: m, k => if k = a then v else SMap.get d m k

/-- The map without an entry at k. -/
def SMap.erase {ν : Type} : SMap ν → Nat → SMap ν
  | [], _ => []
  | (a, v) :: m, k => if k = a then SMap.erase m k else (a, v) :: SMap.erase m k

/-- The map with the entry (k, v). -/
def SMap.insert {ν : Type} : SMap ν → Nat → ν → SMap ν
  | [], k, v => [(k, v)]
  | (a, w) :: m, k, v =>
    if k = a then (k, v) :: m else if k < a then (k, v) :: (a, w) :: m else (a, w) :: SMap.insert m k v

/-- The map after key k takes the value v, in canonical form. -/
def SMap.set {ν : Type} [DecidableEq ν] (d : Nat → ν) (m : SMap ν) (k : Nat) (v : ν) : SMap ν :=
  if v = d k then SMap.erase m k else SMap.insert m k v

/-- The canonical form above key lo: keys strictly rising from lo on, no entry equal to its default. -/
def SMap.wfFrom {ν : Type} [DecidableEq ν] (d : Nat → ν) : Nat → SMap ν → Bool
  | _, [] => true
  | lo, (a, v) :: m => decide (lo ≤ a) && !decide (v = d a) && SMap.wfFrom d (a + 1) m

/-- The canonical form. -/
def SMap.wf {ν : Type} [DecidableEq ν] (d : Nat → ν) (m : SMap ν) : Bool := SMap.wfFrom d 0 m

/-- The keys of a range lo, lo+1, …, lo+n-1 set to v. -/
def SMap.setRange {ν : Type} [DecidableEq ν] (d : Nat → ν) (m : SMap ν) (lo : Nat) (v : ν) : Nat → SMap ν
  | 0 => m
  | n + 1 => SMap.set d (SMap.setRange d m lo v n) (lo + n) v

/-- The map without the entries whose key satisfies p: those keys read their default again. -/
def SMap.clearWhere {ν : Type} (p : Nat → Bool) (m : SMap ν) : SMap ν := m.filter fun e => !p e.1

end Sys2Proof.Machine
end

