-- ==== Sys2Proof/Machine/State.lean ====
section
/-! DEFINITION. The state of the block: the register fields of the chapters, the state the chapters give the part besides
registers, and the queue of waiting commands. Plain data throughout. -/

namespace Sys2Proof.Machine

-- ===== reset and clocks (06) =====

/-- What the root PLL is doing (R146–R150). -/
inductive Root where
  | waiting | locking | locked
  /-- switching to the reference REFSEL names (R147, R150) -/
  | switching
  | coasting | relocking
  deriving DecidableEq, Repr

/-- The trim engine beside its registers (R161, R162). -/
structure TrimEng where
  /-- a window is being counted -/
  on   : Bool
  /-- the E of the window being counted -/
  e    : Nat
  /-- consecutive qualifying windows, at most 4 -/
  good : Nat
  deriving DecidableEq, Repr

/-- Faults: none. The manual describes no behaviour that stops the part: every command has a next state. -/
inductive Fault where
  deriving DecidableEq, Repr

/-- Refusals. -/
inductive Refusal where
  /-- Raised by the arm of `exec` of a command that has no meaning yet; safe, since nothing can be proved of its effect. -/
  | notModelled (mnemonic : String)
  deriving DecidableEq, Repr

-- ===== positions =====

/-- What the grain serving a logical position is doing, beside its registers. -/
structure PosSt where
  /-- in die reset (R229) -/
  inReset : Bool
  /-- under global restore of the whole grain (R51) -/
  restore : Bool
  deriving DecidableEq, Repr

/-- A position before the release pitch. -/
def PosSt.initial : PosSt := ⟨false, true⟩

-- ===== grain content (02-05) =====

/-- A configuration frame as a grain holds it: the stored bits, the bits as last written, whose CRC is the golden signature
(R246), and the frame status word (R281). -/
structure CfgFrame where
  data   : Nat
  good   : Nat
  status : Nat
  deriving DecidableEq, Repr

/-- The all-zero frame (R246). -/
def CfgFrame.zero : CfgFrame := ⟨0, 0, 0⟩

/-- A block port's output stages (R102, R109, R110): output with SBE and DBE, the stage a DEEP2M cascade adds, correction stage
and array stage with theirs, and whether each stage holds a word. -/
structure BPort where
  ext  : Nat
  extS : Bool
  extD : Bool
  extV : Bool
  dout : Nat
  sbe  : Bool
  dbe  : Bool
  cor  : Nat
  corS : Bool
  corD : Bool
  corV : Bool
  arr  : Nat
  arrS : Bool
  arrD : Bool
  arrV : Bool
  /-- the 72 stored bits in the array stage of a DEEP2M block -/
  raw  : Nat
  deriving DecidableEq, Repr

/-- A port with its output at a value. -/
def BPort.at (v : Nat) : BPort := ⟨0, false, false, false, v, false, false, 0, false, false, false, 0, false, false, false, 0⟩

/-- The latest access of a block, for the collision rules (R103): its port, row, the bits it touched, the row before it, and
whether it wrote. -/
structure BLast where
  portB : Bool
  row   : Nat
  mask  : Nat
  old   : Nat
  wrote : Bool
  deriving DecidableEq, Repr

/-- A slice (R124, R140): accumulator, outputs, address generator, counters, search state and the three pipeline stages. -/
structure SliceSt where
  acc    : Nat
  r      : Nat
  dec    : Nat
  satf   : Bool
  illop  : Bool
  aout   : Nat
  base   : Nat
  /-- 1 to 1,024 -/
  len    : Nat
  stride : Nat
  off    : Nat
  acs    : Nat
  idxc   : Nat
  empty  : Bool
  /-- stage 1: valid, OP, X, AX, and Y with BX at [31:24], or C -/
  v1     : Bool
  op1    : Nat
  x1     : Nat
  ax1    : Nat
  y1     : Nat
  /-- stage 2: valid, OP, and the products, or the operands of LDA, ACS and MINMAX -/
  v2     : Bool
  op2    : Nat
  p2     : Nat
  /-- stage 3: valid, OP, SATF of the accumulate stage, decisions and metrics of an ACS -/
  v3     : Bool
  op3    : Nat
  sat3   : Bool
  dec3   : Nat
  deriving DecidableEq, Repr

/-- The slice state that RST leaves (R137), with the attribute values of an all-zero tile frame. -/
def SliceSt.zero : SliceSt :=
  { acc := 0, r := 0, dec := 0, satf := false, illop := false, aout := 0, base := 0, len := 1024, stride := 0, off := 0,
    acs := 0, idxc := 0, empty := true, v1 := false, op1 := 0, x1 := 0, ax1 := 0, y1 := 0, v2 := false, op2 := 0, p2 := 0,
    v3 := false, op3 := 0, sat3 := false, dec3 := 0 }

-- ===== crossings (07) =====

/-- A rigid crossing in flight (R173, R187). -/
structure XrSt where
  /-- the last value launched before any substitution, for hold-last -/
  last : Bool
  /-- values launched and not yet landed, oldest first -/
  pipe : List Bool
  /-- the value on Q -/
  q    : Bool
  deriving DecidableEq, Repr

/-- An elastic channel (R177, R182, R190). -/
structure XeSt where
  src    : Nat
  /-- its link directions in order, as `hopKey` -/
  hops   : List Nat
  /-- source FIFO, head first -/
  srcF   : List Nat
  /-- crossing cycles left of the word being launched -/
  slots  : Nat
  /-- words launched and not yet landed, oldest first -/
  fly    : List Nat
  /-- destination FIFO, head first -/
  dstF   : List Nat
  /-- credits spent and not returned -/
  spent  : Nat
  /-- words popped whose credit is not yet returned -/
  owed   : Nat
  /-- credits frozen (R190) -/
  frozen : Bool
  deriving DecidableEq, Repr

/-- A channel nothing has used. -/
def XeSt.idle : XeSt := ⟨0, [], [], 0, [], [], 0, 0, false⟩

-- ===== die links (08) =====

/-- An incoming link direction (R199–R213). -/
structure LinkSt where
  /-- trained and carrying traffic (R207) -/
  up      : Bool
  /-- physical lanes retired or dead, a 104-bit mask by the index of R199 -/
  retired : Nat
  /-- logical payload lanes on another host: (logical lane, physical lane) -/
  hosts   : List (Nat × Nat)
  /-- logical payload lanes without a working host, a mask -/
  down    : Nat
  /-- retirements in progress: (logical lane, physical lane it leaves, spare), head first (R208) -/
  moving  : List (Nat × Nat × Nat)
  /-- the transmitter copies the head of `moving` onto its spare (R208 step 2) -/
  copying : Bool
  /-- clock lanes missing: bits 0–3 for lanes 100–103 (R202) -/
  ckLost  : Nat
  deriving DecidableEq, Repr

/-- A link not yet trained, every lane good. -/
def LinkSt.initial : LinkSt := ⟨false, 0, [], 0, [], false, 0⟩

/-- A grain in the forwarded clock tree (R203, R204). -/
structure ClkSt where
  /-- upstream port: 0 N, 1 E, 2 S, 3 W -/
  up     : Option Nat
  depth  : Nat
  orphan : Bool
  /-- it forwards the clock -/
  fwd    : Bool
  /-- it has lost its clock (R230) -/
  lost   : Bool
  deriving DecidableEq, Repr

/-- A grain without a clock. -/
def ClkSt.initial : ClkSt := ⟨none, 0, false, false, false⟩

/-- What a die that answered discovery said (R216). -/
structure AnsSt where
  serial : Nat
  type   : Nat
  grade  : Nat
  rxmask : Nat
  depth  : Nat
  deriving DecidableEq, Repr

/-- The repair record on the store dies (R26, R217, R227): the map and the serial held for every grain site. -/
structure RepairRec where
  map     : List Nat
  serials : SMap Nat
  seq     : Nat
  deriving DecidableEq, Repr

/-- What a remap is doing (R227). -/
inductive RemapPhase where
  | idle
  /-- accepted, and not started while a floor in the position is in a partial load (R224, R277) -/
  | waiting
  /-- steps 2 and 3: the spare is being prepared -/
  | preparing
  /-- capture pitch scheduled, or past and not yet complete (steps 3 and 4) -/
  | captured
  /-- steps 6 to 8 -/
  | writing
  /-- the load onto a spare failed; the other spare is being prepared within the same stop (R228) -/
  | again
  /-- switchover pitch scheduled -/
  | switching
  /-- step 10 -/
  | finishing
  /-- abort pitch scheduled -/
  | aborting
  deriving DecidableEq, Repr

/-- The remap beside its registers. -/
structure RemapSt where
  phase   : RemapPhase
  pos     : Nat
  spare   : Nat
  /-- spares on which the load has failed (R228) -/
  tried   : List Nat
  nostate : Bool
  /-- the displaced grain -/
  old     : Nat
  /-- die-link faults that wait for the remap or load to end (R224) -/
  queued  : List (Nat × Nat)
  deriving DecidableEq, Repr

-- ===== the Kiln (09, 10) =====

/-- Jobs of the Kiln in arrival order (R259). -/
inductive KilnJob where
  | remapWrite | partialLoad | attest
  | reload (slot : Nat)
  /-- slot, length and source address -/
  | slotProg (slot len src : Nat)
  deriving DecidableEq, Repr

/-- Ndoec firmware (R247 step 3). -/
inductive FwSt where
  | none | running | failed
  deriving DecidableEq, Repr

/-- The load in progress (R248–R253). -/
structure LoadSt where
  /-- slots still to try after this one -/
  order   : List Nat
  /-- next record of each position's section -/
  next    : SMap Nat
  /-- frame addresses taken: key n × 2^32 + FADDR -/
  seen    : SMap Bool
  /-- positions written in this attempt -/
  written : List Nat
  /-- the header has passed; the trailer is next -/
  headed  : Bool
  /-- attempts since PERST_N or reload -/
  tries   : Nat
  deriving DecidableEq, Repr

/-- No load. -/
def LoadSt.none : LoadSt := ⟨[], [], [], [], false, 0⟩

/-- The partial load beside its registers (R274, R276). -/
structure PldSt where
  /-- the device time at which the header passed, in 2^-16 ns -/
  passed  : Option Nat
  /-- step 4 is done -/
  cleared : Bool
  /-- it failed after its start pitch, and the floor is being returned to base content -/
  failed  : Bool
  /-- the code of that failure -/
  code    : Nat
  /-- bytes of the image and its source address, release time and TIMED, as they stood at START -/
  len     : Nat
  src     : Nat
  timed   : Bool
  time    : Nat
  next    : SMap Nat
  seen    : SMap Bool
  deriving DecidableEq, Repr

/-- No partial load. -/
def PldSt.none : PldSt := ⟨Option.none, false, false, 0, 0, 0, false, 0, [], []⟩

/-- A JTAG operation in progress (R500). -/
inductive JtagOp where
  | fuseprog (row data : Nat)
  | keyram (key : Nat)
  | slotprog (bytes : List Byte)
  deriving DecidableEq, Repr

/-- The instruction in force in the test access port (R499). -/
inductive JtagIr where
  | extest | idcode | sample | highz | clamp | fuseprog | keyram | slotprog | status | bypass
  deriving DecidableEq, Repr

/-- The test access port and the JTAG service path (R499–R501). -/
structure JtagSt where
  ir    : JtagIr
  /-- the boundary-scan cells, first shifted first -/
  cells : List Bool
  op    : Option JtagOp
  done  : Bool
  err   : Bool
  /-- what TDO shifted out last -/
  tdo   : Nat
  deriving DecidableEq, Repr

/-- The test access port at power-on: IDCODE in force (IEEE 1149.1). -/
def JtagSt.initial : JtagSt := ⟨.idcode, [], none, false, false, 0⟩

/-- A shelf entry (R275): stripes it takes, the IMGDIGEST of its image. -/
structure ShelfEnt where
  stripes : Nat
  digest  : Nat
  deriving DecidableEq, Repr

-- ===== pitches, capture, Sparge (11) =====

/-- The selection of a capture, freeze or thaw (R294). -/
structure Sel where
  floors : Nat
  base   : Bool
  pos    : Nat
  deriving DecidableEq, Repr

/-- A pitch entry (R290): kind, design pulse, device time in 2^-16 ns, selection, and its crossing-cycle index once sent (R289). -/
structure Pitch where
  kind   : Nat
  design : Bool
  time   : Nat
  sel    : Sel
  index  : Option Nat
  deriving DecidableEq, Repr

/-- A finding in the queue (R286). -/
structure Finding where
  addr : Nat
  info : Nat
  deriving DecidableEq, Repr

/-- The Sparge pass of a position beside its registers (R282, R288). -/
structure SpgSt where
  /-- a pass is being made -/
  inPass : Bool
  /-- class 1 and class 2 findings of this pass -/
  count  : Nat
  /-- `ran39` when the pass started -/
  start  : Nat
  deriving DecidableEq, Repr

/-- No pass made. -/
def SpgSt.initial : SpgSt := ⟨false, 0, 0⟩

/-- A capture between its pitch and its completion (R65, R295). -/
structure CaptSt where
  sel     : Sel
  /-- positions and floors skipped at the instant -/
  skipPos : Nat
  skipFlr : Nat
  /-- shadow bits already taken, by tile key -/
  taken   : SMap Nat
  /-- hard blocks whose snapshot is already taken, by snapshot key -/
  snapped : SMap Bool
  /-- the CAPSEL instance that asked for it -/
  capsel  : Option Nat
  /-- Ndoec firmware's capture of a remap (R227) -/
  remap   : Bool
  deriving DecidableEq, Repr

/-- A snapshot of a hard block (R295, R298): its 512 bits. -/
abbrev Snap := Nat

/-- A configuration-path job (R299). -/
structure AccSt where
  op    : Nat
  lpos  : Nat
  ftype : Nat
  first : Nat
  count : Nat
  addr  : Nat
  done  : Nat
  deriving DecidableEq, Repr

/-- No job. -/
def AccSt.none : AccSt := ⟨3, 0, 0, 0, 0, 0, 0⟩

-- ===== device memory (13) =====

/-- A write-buffer entry (R344–R348): line number (device address / 64), byte mask, data, drain next (R346), and the request it
belongs to while that is open. -/
structure WbEnt where
  line     : Nat
  mask     : Nat
  data     : Nat
  promoted : Bool
  req      : Option Nat
  deriving DecidableEq, Repr

/-- A line operation of a request (R344): request number, line number, which line of the request, and for a write its byte mask
and data. An accepted read holds the data its acceptance order gives it (R345) and waits on a masked entry or not (R346). -/
structure LineOp where
  req   : Nat
  line  : Nat
  k     : Nat
  write : Bool
  mask  : Nat
  data  : Nat
  wait  : Bool
  deriving DecidableEq, Repr

/-- A request at a home slice: its packet, line operations not yet done, poison met (R349), and the lines read. -/
structure MemReq where
  pkt    : Packet
  left   : Nat
  poison : Bool
  got    : SMap Nat
  deriving DecidableEq, Repr

/-- A memory channel beside its registers. -/
structure ChanSt where
  /-- 0 no DIMM, 1 unsupported, 2 usable (R332) -/
  dimm   : Nat
  /-- the rate of its SPD, encoded as DDR_CFG.SPEED -/
  rate   : Nat
  /-- line operations not yet accepted, oldest first (R344) -/
  inp    : List LineOp
  /-- reads in flight, oldest first -/
  reads  : List LineOp
  /-- write buffer, oldest first -/
  wbuf   : List WbEnt
  /-- lines of the write buffer, latched at training start (R343) -/
  wbSize : Nat
  /-- draining between the two occupancies of R351 -/
  drain  : Bool
  /-- failed attempts of the current training step -/
  tries  : Nat
  /-- in the RESET_n pulse of a retrain (R343) -/
  pulse  : Bool
  /-- a RETRAIN waits for the wake from self-refresh (R343) -/
  retrainDue : Bool
  deriving DecidableEq, Repr

/-- A channel at reset. -/
def ChanSt.initial : ChanSt := ⟨0, 0, [], [], [], 64, false, 0, false, false⟩

-- ===== packet network (12) =====

/-- A request that a DNP target side holds (R327). -/
structure TReq where
  id  : Nat
  pkt : Packet
  deriving DecidableEq, Repr

/-- A DNP (R327): initiator tags outstanding with the requests, target requests outstanding, retired target IDs (R527). -/
structure DnpSt where
  tags    : List Packet
  held    : List TReq
  retired : List Nat
  deriving DecidableEq, Repr

/-- A DNP with nothing outstanding. -/
def DnpSt.idle : DnpSt := ⟨[], [], []⟩

/-- A request taken to a reserved-buffer port (R316–R319): the packet, its segments not yet done as (address, length) with their
number, whether the first of them has its grant and is sent, the status of a segment that failed, and the bytes read so far. -/
structure RbReq where
  pkt    : Packet
  segs   : List (Nat × Nat)
  done   : Nat
  sent   : Bool
  status : Nat
  got    : List Byte
  deriving DecidableEq, Repr

-- ===== time (16) =====

/-- A capture at the ring writer (R417): device time in 2^-16 ns, source code, edge, pitch kind, WIN bit, SEQ. -/
structure RingEnt where
  time  : Nat
  src   : Nat
  edge  : Bool
  pkind : Nat
  win   : Bool
  seq   : Nat
  deriving DecidableEq, Repr

/-- A timer channel beside its registers: the next fire time not yet sent, for DEST 1 and 3, and the fires sent and not yet made,
oldest first, as (fire time, crossing-cycle index) (R419, R421). -/
structure TmrSt where
  next : Nat
  sent : List (Nat × Nat)
  deriving DecidableEq, Repr

/-- A channel with nothing sent. -/
def TmrSt.idle : TmrSt := ⟨0, []⟩

-- ===== inline memory protection (14) =====

/-- A request that node 70 has accepted: its region, lines not yet done, the status of the first line that failed, and the lines
read (R370, R371). -/
structure PReq where
  pkt    : Packet
  rgn    : Nat
  todo   : List Nat
  status : Nat
  got    : SMap Nat
  deriving DecidableEq, Repr

-- ===== host attach and coherence (15) =====

/-- What COH asks of the host (R390–R394). -/
inductive HostOp where
  | rdShared | rdOwn | rdOwnNoData | rdCurr | itoMWr | wrCur | dirtyEvict | cleanEvictNoData
  deriving DecidableEq, Repr

/-- A valid state of a line of the coherent cache (R394); an invalid line is not held. -/
inductive LineSt where
  | m | e | s
  deriving DecidableEq, Repr

/-- A line of the coherent cache. -/
structure HLine where
  st   : LineSt
  data : Nat
  deriving DecidableEq, Repr

/-- A request to host memory that COH has accepted: its host physical address, line operations left, the status of the first line
that failed, and the lines read. -/
structure CohReq where
  pkt    : Packet
  hpa    : Nat
  left   : Nat
  status : Nat
  got    : SMap Nat
  deriving DecidableEq, Repr

/-- A line operation of COH (R394): its request, the line of the request, the host line (address / 64), and what has been asked of
the host for it. -/
structure CohOp where
  req  : Nat
  k    : Nat
  line : Nat
  sent : Option HostOp
  deriving DecidableEq, Repr

/-- A page changing bias (R391, R392) and the packets that wait for it. -/
structure FlipSt where
  page   : Nat
  toHost : Bool
  wait   : List Packet
  deriving DecidableEq, Repr

/-- A resolve (R390): the packet held at its home slice or at node 70, and the device lines the host has not yet answered for. -/
structure Resolve where
  pkt   : Packet
  lines : List Nat
  deriving DecidableEq, Repr

/-- A committed HDM decoder (R387): host range, interleave, the way this device has in it, and the device address it starts at. -/
structure Hdm where
  base    : Nat
  size    : Nat
  ways    : Nat
  granule : Nat
  way     : Nat
  dpa     : Nat
  deriving DecidableEq, Repr

/-- What a packet of node 64 stands for. -/
inductive HostTx where
  /-- a part of a BAR read, by its tag -/
  | bar (tag : Nat)
  /-- a CXL.mem read or write: its tag, host physical and device address -/
  | mem (write : Bool) (tag hpa dpa : Nat)
  deriving DecidableEq, Repr

/-- A host read through a BAR: its parts in address order as (packet tag, answer) (R384). -/
structure BarRd where
  tag   : Nat
  parts : List (Nat × Option (Nat × List Byte))
  deriving DecidableEq, Repr

-- ===== transceivers and wort links (17) =====

/-- A beat of a receive FIFO (R438): data, control marks, valid bytes, errors. -/
structure RxBeat where
  data : Nat
  k    : Nat
  bv   : Nat
  err  : Nat
  deriving DecidableEq, Repr

/-- A cell of a wort link beside its SEQ (R449): TYPE, VN and the flit. -/
structure WFlit where
  type : Nat
  vn   : Nat
  flit : Nat
  deriving DecidableEq, Repr

/-- A wort link beside its register (R448–R454). -/
structure WortSt where
  /-- incoming lane set, and the sets that the next frame brings, in and out -/
  inSet   : Nat
  inNext  : Option Nat
  outNext : Option Nat
  /-- number of the last frame received -/
  frame   : Nat
  /-- SEQ of the next cell sent; cells sent and not acknowledged; flits that wait -/
  txSeq   : Nat
  txBuf   : List (Nat × WFlit)
  txQ     : List WFlit
  /-- SEQ expected; whether a failed SEQ is being replayed; cells to be replayed since it failed; replays still to come -/
  rxSeq   : Nat
  failed  : Bool
  lost    : Nat
  replay  : Nat
  /-- flits of the packet that each virtual network is receiving, header first -/
  rxPart  : SMap (List Nat)
  /-- flits sent on each virtual network whose credit has not come back -/
  spent   : SMap Nat
  /-- requests that wait for a GRANT of the far end (R317) -/
  await   : List Packet
  deriving DecidableEq, Repr

/-- A link with nothing sent or received. -/
def WortSt.idle : WortSt := ⟨0, none, none, 0, 0, [], [], 0, false, 0, 0, [], [], []⟩

/-- What the inline memory protection engine holds beside its registers (node 70). -/
structure MempSt where
  /-- encryption and MAC key of each key ID that is not FREE (R366) -/
  keys : SMap (Option (Nat × Nat))
  /-- a RETIRE of MEMP_KEYCTL in progress -/
  cmd : Option Nat
  /-- the top node of each region in CIF mode (R364) -/
  top : SMap Nat
  /-- metadata lines and tree nodes in the cache: device line, key ID and content (R365) -/
  cache : SMap (Option (Nat × Nat))
  /-- requests at node 70, oldest first -/
  reqs : List PReq
  /-- requests that arrived for a region which is being disabled (R369) -/
  wait : List Packet
  /-- key ID of a walk, and the jump table, by region (R375, R376) -/
  walk : SMap (Option Nat)
  jump : SMap (List Nat)
  /-- a REKEYDUE that arose during a walk (R374) -/
  due : SMap Bool
  deriving DecidableEq, Repr

/-- An engine with no key, nothing cached and nothing in flight. -/
def MempSt.idle : MempSt := ⟨[], none, [], [], [], [], [], [], []⟩

-- ===== what leaves the part =====

/-- What leaves the part: to the host, to Ndoec firmware. Oldest first in `State.out`. -/
inductive OutMsg where
  /-- an MSI-X write of a vector from node 64 (R458, R468) -/
  | msix (v : Nat)
  /-- a raise as Ndoec firmware receives it (R468): source and payload -/
  | fwEvent (source payload : Nat)
  /-- the answer to a register access: its requester, tag, STATUS (R308) and data, 0 for a write -/
  | answer (dst : Agent) (tag status data : Nat)
  /-- a packet to another device, a guest or a store die -/
  | packet (p : Packet)
  /-- a request presented on the target side of DNP k of Ln with its T_ID; 256 for a posted one (R327) -/
  | targetReq (n k id : Nat) (p : Packet)
  /-- a response presented on the initiator side of DNP k of Ln: tag, STATUS, data (R327) -/
  | initiatorRsp (n k tag status : Nat) (data : List Byte)
  /-- a completion of a host access to a BAR: tag, STATUS, data (R384) -/
  | hostCpl (tag status : Nat) (data : List Byte)
  /-- a request of COH to the host for a line, by host physical address, with the byte mask and data it writes (R390–R394) -/
  | hostReq (op : HostOp) (hpa mask data : Nat)
  /-- the answer to a host snoop: the state the line is left in, none for I, and the data of a modified line (R394) -/
  | snoopRsp (hpa : Nat) (st : Option LineSt) (data : Option Nat)
  /-- CXL.mem DRS: tag, poison, data (R398) -/
  | memData (tag : Nat) (poison : Bool) (data : List Byte)
  /-- CXL.mem NDR Cmp: tag (R398) -/
  | memCmp (tag : Nat)
  /-- bits inverted on the line of lane 8n + i (R445) -/
  | inverted (lane bits : Nat)
  /-- a cell sent on wort link k (R449) -/
  | wortCell (k : Nat) (c : WCell)
  deriving DecidableEq, Repr

set_option maxRecDepth 4096 in
/-- The state of the part. -/
structure State where
  /-- the fuses and options of the part -/
  part    : Part
  /-- the register fields, by `regKey` (R11) -/
  regs    : SMap Nat
  /-- free values used so far (the model's own) -/
  freeCtr : Nat
  /-- messages that have left the part, oldest first (the model's own record of its outputs) -/
  out     : List OutMsg
  /-- commands waiting, first in first out -/
  pending : List Instr
  /-- PERST_N is asserted (R255) -/
  perst   : Bool
  /-- the root PLL (R146) -/
  root    : Root
  /-- the Tun's trim engine (R161) -/
  trim    : TrimEng
  /-- deliveries already made of a source whose PEND is 1: bit 0 MSI, 1 tap, 2 + n event port of Ln (R468) -/
  evDone  : SMap Nat
  /-- MSI-X Enable of the configuration space -/
  msixEn  : Bool
  /-- the MSI-X table as 32-bit words, word 4v + k of vector v (PCIe 5.0) -/
  msixTab : SMap Nat
  /-- the MSI-X pending bits (PCIe 5.0) -/
  msixPba : SMap Bool
  /-- vectors of taps held while they cannot be sent (R458) -/
  msixHeld : List Nat
  /-- the event FIFO of each design event port, head first (R471) -/
  evFifo  : SMap (List Nat)
  /-- the queues of the casks, oldest word first: key 2c for A to B, 2c + 1 for B to A (R464) -/
  caskQ   : SMap (List Nat)
  /-- the logical positions -/
  pos     : SMap PosSt
  /-- configuration frames by position: key n × 2^32 + FADDR (R240) -/
  cfg     : SMap CfgFrame
  /-- what the released base image holds for each frame, same keys (R259) -/
  base    : SMap Nat
  /-- what the partial images on the shelf hold, same keys (R275) -/
  shelfF  : SMap Nat
  /-- flip-flops of the tiles, by `tileKey` (R50) -/
  q       : SMap Nat
  /-- asynchronous SR lines asserted, by `tileKey` (R50) -/
  srOn    : SMap Nat
  /-- capture shadows, by `tileKey` (R63) -/
  shadow  : SMap Nat
  /-- parts of positions frozen (R293): key n × 65 + 0 for the tiles in no floor, + 1 + f for floor f -/
  frozen  : SMap Bool
  /-- RAM72 rows: key (n × 288 + block) × 1024 + row, and the stored bits an upset has flipped since they were written -/
  ram     : SMap Nat
  ramFlip : SMap Nat
  /-- DEEP2M words: key (n × 8 + block) × 32768 + word, and their flipped bits (72 bits with the check bits) -/
  deep    : SMap Nat
  deepFlip : SMap Nat
  /-- coefficient words: key (n × 512 + slice) × 1024 + word, and their flipped bits (55 bits with the check bits) -/
  coef    : SMap Nat
  coefFlip : SMap Nat
  /-- block ports: key ((n × 296 + block) × 2 + port), DEEP2M blocks from 288 -/
  bport   : SMap (Option BPort)
  /-- the latest access of each block, key n × 296 + block -/
  blast   : SMap (Option BLast)
  /-- slices, key n × 512 + slice -/
  slices  : SMap SliceSt
  /-- snapshots: key n × 1024 + 0–511 slice, 512–799 RAM72, 800–807 DEEP2M (R298) -/
  snap    : SMap Snap
  /-- rigid crossings: key ((dst × 4 + port) × 1024 + RIDX) -/
  xr      : SMap XrSt
  /-- elastic crossings: key ((dst × 4 + port) × 1024 + CHAN) -/
  xe      : SMap XeSt
  /-- the crossing-cycle index (R154) -/
  xidx    : Nat
  /-- SEQ + 128 × CRC failures in a row of the group cycle that failed last: key link × 8 + group (R181) -/
  xfail   : SMap Nat
  /-- incoming link directions, key phys × 4 + port, Tun port k 256 + k -/
  link    : SMap LinkSt
  /-- the clock tree, by physical grain -/
  clk     : SMap ClkSt
  /-- tokens received by a die before it answers, by die number 0–63 grains, 64–67 S0 S1 G0 G1 (R215) -/
  tokens  : SMap Nat
  /-- discovery answers, by die number -/
  answers : SMap (Option AnsSt)
  /-- positions out of service (R30) -/
  oos     : SMap Bool
  repair  : RepairRec
  remap   : RemapSt
  /-- the image slots: key slot × 2^32 + offset; none = erased (R233, R234) -/
  store   : SMap (Option Byte)
  fw      : FwSt
  load    : LoadSt
  /-- slot of the running base image (R235) -/
  baseSlot : Option Nat
  /-- the base image's floor table, 32-byte entries as numbers (R265) -/
  floorTab : SMap Nat
  pld     : PldSt
  shelf   : SMap (Option ShelfEnt)
  /-- jobs of the Kiln, running one first (R259) -/
  kilnJobs : List KilnJob
  /-- a RELOAD held for a remap, with its slot (R260) -/
  heldReload : Option Nat
  /-- rewrites Sparge has requested: (position, FADDR), oldest first (R285) -/
  rewrites : List (Nat × Nat)
  /-- nanoseconds from t = 0 of R247 to root lock (a free value: no command carries it) -/
  lockNs  : Nat
  /-- time-clock ticks since root lock in 1/39 ns, a coasting tick being 40/39 as long (R148) -/
  ran39   : Nat
  /-- pitch entries: 0–15 software, 16 Kiln, 17 firmware, 18–21 CAPSEL, 22 + c timer (R290) -/
  pitches : SMap (Option Pitch)
  findings : List Finding
  spg     : SMap SpgSt
  capt    : Option CaptSt
  /-- CAPSEL instances whose BUSY is 1 (R296) -/
  capselBusy : SMap Bool
  acc     : AccSt
  /-- the state a power transition in progress leads to, by domain (R482) -/
  pwrGo   : SMap (Option Nat)
  /-- cores whose Off-wake rewrite has passed its checks (R483) -/
  pwrRewr : SMap Bool
  /-- causes of wakes that follow an entry in progress, by domain (R485) -/
  pwrNext : SMap (Option Nat)
  /-- device memory by device address, one byte an entry; an unlisted byte reads 0 (DESIGN CHOICE, log 3) -/
  mem     : SMap Nat
  /-- memory channels -/
  ddr     : SMap ChanSt
  /-- requests at home slices, by number -/
  memReqs : SMap (Option MemReq)
  nextReq : Nat
  /-- open rows: key ((m × 2 + subchannel) × 2 + rank) × 32 + bank -/
  rows    : SMap (Option Nat)
  /-- corrected reads per device (R337): key (m × 2 + rank) × 32 + device -/
  devCnt  : SMap Nat
  /-- channels event 1001 still waits for, a mask (R341) -/
  trWait  : Option Nat
  /-- packets injected and not yet at their targets, oldest first -/
  net     : List Packet
  /-- packets held for an endpoint that wakes (R325): key n × 4 + DEP; (router input, packet), oldest first -/
  held    : SMap (List (Nat × Packet))
  /-- design NoC ports, key n × 2 + k -/
  dnp     : SMap DnpSt
  /-- packets that wait for a route switch to inject (R305) -/
  netWait : List Packet
  /-- requests at the reserved-buffer ports: key 0 G0, 1 G1, 2 S0, 3 S1, oldest first -/
  rb      : SMap (List RbReq)
  /-- buffers of the Tun granted at those ports and not yet used, and the RXBUF in force (R317) -/
  rbGrant : SMap Nat
  rbRx    : SMap Nat
  /-- targets isolated by timeout or declaration (R321), by physical grain, bits as GRN_NOCISO.ISO -/
  isoHard : SMap Nat
  /-- TMU_INC in force (R408) -/
  incNow  : Nat
  /-- a pending INC with the `ran39` of its write, a pending step offset in 2^-16 ns with the `ran39` of its STEPGO (R407–R409) -/
  incPend : Option (Nat × Nat)
  stepPend : Option (Int × Nat)
  /-- `ran39` of the last accepted correction write, 0 at root lock (R411) -/
  holdAt  : Nat
  /-- device time at the latest crossing edge (R406) -/
  edgeTime : Nat
  /-- the three replica counters of a grain whose crossing clock has started (R406), by physical grain -/
  replicas : SMap (Option (Nat × Nat × Nat))
  /-- HI halves latched by a read of their LO register and not yet read, by the register's BAR0 offset -/
  hiLatch : SMap (Option Nat)
  /-- counting has carried into TIME_SEC and PPS_OUT has not acted: the advance since (R426) -/
  ppsDue  : Option Nat
  /-- advance left of the pulse on PPS_OUT; of the pulses on a trigger output, by pin (R525) -/
  ppsLeft : Option Nat
  trigLeft : SMap (Option Nat)
  /-- captures at the ring writer, oldest first (R416) -/
  ringQ   : List RingEnt
  /-- the index of the ring entry whose write is not yet complete -/
  ringOut : Option Nat
  /-- SEQ of the next capture -/
  tsSeq   : Nat
  /-- capture-path copies retired, by source code (R415) -/
  pathsOut : SMap Nat
  /-- timer channels -/
  tmr     : SMap TmrSt
  /-- pulses at the design event ports: (timed line, or 64 for PITCH; crossing-cycle index) (R290, R419) -/
  lines   : List (Nat × Nat)
  /-- what counting has advanced device time since root lock, in 2^-16 ns (R486, R525) -/
  adv     : Nat
  /-- residency of the states that have been left, key domain × 4 + state, in the units of `adv`, and the `adv` at which a
  domain's state was entered (R486) -/
  resAcc  : SMap Nat
  resFrom : SMap Nat
  /-- TIME_SEC[47:34] when CAP_PITCHTIME (key 0) or KILN_PLDTIME (key 1) was written (R405) -/
  secHi   : SMap Nat
  /-- fuse rows 0–8 as programmed, and as the Kiln read them after PERST_N deasserted (R244, R501) -/
  fuses   : SMap Nat
  fuseNow : SMap Nat
  /-- the battery-backed key RAM; none = its content is lost (R244) -/
  keyRam  : Option Nat
  jtag    : JtagSt
  /-- supply rails outside their operating conditions (R498) -/
  railsBad : List Rail
  /-- wort links whose egress port is isolated (R455), a mask -/
  wortIso : Nat
  /-- the inline memory protection engine -/
  memp    : MempSt
  /-- pages in host bias, by channel, least recently installed first: the home slice's filter (R389) -/
  hostPages : SMap (List Nat)
  flips   : List FlipSt
  resolves : List Resolve
  /-- a COH_BIASCMD in progress: pages not yet done, the target, the last page -/
  biasCmd : Option (List Nat × Bool × Nat)
  /-- the coherent cache, by host line (R394) -/
  hcache  : SMap (Option HLine)
  cohReqs : SMap (Option CohReq)
  cohNext : Nat
  /-- line operations of COH in order of acceptance -/
  cohOps  : List CohOp
  hdm     : SMap (Option Hdm)
  /-- Error Not Committed, by decoder -/
  hdmErr  : SMap Bool
  /-- what the outstanding packets of node 64 stand for, by TAG -/
  hostTx  : SMap (Option HostTx)
  barRds  : List BarRd
  /-- transmit FIFOs as (data, control marks), receive FIFOs, by lane (R437, R438) -/
  laneTx  : SMap (List (Nat × Nat))
  laneRx  : SMap (List RxBeat)
  /-- a power-state exit to Active in progress, by lane (R442) -/
  laneExit : SMap Bool
  /-- bond of a quad: 0 none, 1 waiting, 2 aligned, 3 failed until BOND is written (R439) -/
  bond    : SMap Nat
  /-- matching symbols seen by a lane, for TSDEC: key 2 × lane + 1 for transmit (R446) -/
  laneCnt : SMap Nat
  /-- bits compared by the checker of a lane since its counts were cleared (R444) -/
  chkBits : SMap Nat
  wort    : SMap WortSt
  deriving DecidableEq, Repr

/-- The part whose reset state is modelled: every option fitted (DESIGN CHOICE, log 1). -/
def Part.default : Part :=
  { grade := 3, tempE := true, optS := true, optX := true, optG := true, step := 0, serial := 0, attPub := 0 }

/-- The state right after reset: PERST_N asserted, every register at its reset value, nothing in flight. -/
def State.reset : State where
  part := Part.default
  regs := []
  freeCtr := 0
  out := []
  pending := []
  perst := true
  root := .waiting
  trim := ⟨false, 0x10000, 0⟩
  evDone := []
  msixEn := false
  msixTab := []
  msixPba := []
  msixHeld := []
  evFifo := []
  caskQ := []
  pos := []
  cfg := []
  base := []
  shelfF := []
  q := []
  srOn := []
  shadow := []
  frozen := []
  ram := []
  ramFlip := []
  deep := []
  deepFlip := []
  coef := []
  coefFlip := []
  bport := []
  blast := []
  slices := []
  snap := []
  xr := []
  xe := []
  xidx := 0
  xfail := []
  link := []
  clk := []
  tokens := []
  answers := []
  oos := []
  repair := ⟨homeTable, [], 0⟩
  remap := ⟨.idle, 0, 0, [], false, 0, []⟩
  store := []
  fw := .none
  load := .none
  baseSlot := none
  floorTab := []
  pld := .none
  shelf := []
  kilnJobs := []
  heldReload := none
  rewrites := []
  lockNs := 0
  ran39 := 0
  pitches := []
  findings := []
  spg := []
  capt := none
  capselBusy := []
  acc := .none
  pwrGo := []
  pwrRewr := []
  pwrNext := []
  mem := []
  ddr := []
  memReqs := []
  nextReq := 0
  rows := []
  devCnt := []
  trWait := none
  net := []
  held := []
  dnp := []
  netWait := []
  rb := []
  rbGrant := []
  rbRx := []
  isoHard := []
  incNow := 0x10000
  incPend := none
  stepPend := none
  holdAt := 0
  edgeTime := 0
  replicas := []
  hiLatch := []
  ppsDue := none
  ppsLeft := none
  trigLeft := []
  ringQ := []
  ringOut := none
  tsSeq := 0
  pathsOut := []
  tmr := []
  lines := []
  adv := 0
  resAcc := []
  resFrom := []
  secHi := []
  fuses := []
  fuseNow := []
  keyRam := none
  jtag := .initial
  railsBad := []
  wortIso := 0
  memp := MempSt.idle
  hostPages := []
  flips := []
  resolves := []
  biasCmd := none
  hcache := []
  cohReqs := []
  cohNext := 0
  cohOps := []
  hdm := []
  hdmErr := []
  hostTx := []
  barRds := []
  laneTx := []
  laneRx := []
  laneExit := []
  bond := []
  laneCnt := []
  chkBits := []
  wort := []

end Sys2Proof.Machine
end

