-- ==== Sys2Proof/Machine/Ops.lean ====
section
/-! DEFINITION. The shared operations: reading and writing register fields and whole registers by type (R11, R512), counters,
free values, the repair map, and messages that leave the part. -/

namespace Sys2Proof.Machine

/-- What a meaning answers. -/
abbrev Res := Host.Outcome State Fault Refusal

/-- The key of instance (i, j) of a field in the register store. -/
def regKey (f : Fld) (i j : Nat) : Nat := (f.ctorIdx * 0x100000 + i % 0x100000) * 0x100000 + j % 0x100000

/-- What an unlisted key of the register store reads as: the reset value of its field. -/
def regDefault (p : Part) (k : Nat) : Nat := (Fld.ofNat (k / 0x10000000000)).reset p (k / 0x100000 % 0x100000)

/-- The value of a register field. -/
def State.getF (s : State) (f : Fld) (i j : Nat := 0) : Nat :=
  SMap.get (regDefault s.part) s.regs (regKey f i j)

/-- The state after a register field takes a value, cut to the field's width. -/
def State.setF (s : State) (f : Fld) (v : Nat) (i j : Nat := 0) : State :=
  { s with regs := SMap.set (regDefault s.part) s.regs (regKey f i j) (v % 2 ^ f.info.len) }

/-- A one-bit field as a Bool. -/
def State.isSet (s : State) (f : Fld) (i j : Nat := 0) : Bool := s.getF f i j != 0

/-- A one-bit field set to 1. -/
def State.setOn (s : State) (f : Fld) (i j : Nat := 0) : State := s.setF f 1 i j

/-- A field set to 0. -/
def State.setOff (s : State) (f : Fld) (i j : Nat := 0) : State := s.setF f 0 i j

/-- A counter field that saturates at its width, after n more counts. -/
def State.count (s : State) (f : Fld) (n : Nat := 1) (i j : Nat := 0) : State :=
  s.setF f (min (s.getF f i j + n) (2 ^ f.info.len - 1)) i j

/-- A counter field that wraps at its width, after one more count. -/
def State.countWrap (s : State) (f : Fld) (i j : Nat := 0) : State := s.setF f (s.getF f i j + 1) i j

/-- Bit b of a field. -/
def State.bitF (s : State) (f : Fld) (b : Nat) (i j : Nat := 0) : Bool := (s.getF f i j).testBit b

/-- A number with bit b forced to v. -/
def setBit (n b : Nat) (v : Bool) : Nat :=
  if n.testBit b = v then n else if v then n + 2 ^ b else n - 2 ^ b

/-- Bit b of a field forced to v. -/
def State.setBitF (s : State) (f : Fld) (b : Nat) (v : Bool) (i j : Nat := 0) : State :=
  s.setF f (setBit (s.getF f i j) b v) i j

/-- Every instance of the fields that satisfy p goes back to its reset value. -/
def State.resetFields (s : State) (p : Fld → Nat → Nat → Bool) : State :=
  let q := fun k => p (Fld.ofNat (k / 0x10000000000)) (k / 0x100000 % 0x100000) (k % 0x100000)
  { s with regs := SMap.clearWhere q s.regs }

/-- A free value, and the state that has used it up. -/
def State.free (s : State) : Nat × State := (Config.freeNat s.freeCtr, { s with freeCtr := s.freeCtr + 1 })

/-- A message leaves the part. -/
def State.emit (s : State) (m : OutMsg) : State := { s with out := s.out ++ [m] }

/-- Apply f for every k below n, from 0 up. -/
def State.each (n : Nat) (f : Nat → State → State) (s : State) : State := (List.range n).foldl (fun t k => f k t) s

/-- Bits lo to lo+len-1 of a number. -/
def bits (w lo len : Nat) : Nat := w / 2 ^ lo % 2 ^ len

/-- The physical grain that serves logical position n (R25, R509). -/
def State.phys (s : State) (n : Nat) : Nat := s.getF .dieMapPHYS n

/-- The logical position that physical grain p serves, if any (R509). -/
def State.posOf (s : State) (p : Nat) : Option Nat := (List.range 60).find? fun n => s.phys n == p

/-! ## Whole registers by type -/

/-- The value a register reads: its fields at their places, WO fields and reserved bits 0 (R11). -/
def State.readReg (s : State) (r : RegName) (i j : Nat) : Nat :=
  r.fields.foldl (fun acc f => if f.info.type = .wo then acc else acc + s.getF f i j * 2 ^ f.info.lo) 0

/-- One field written by its type (R11): w is the value written and m the mask of the bits the access reaches (R512). -/
def State.writeFld (s : State) (i j : Nat) (w m : Nat) (f : Fld) : State :=
  let v := bits w f.info.lo f.info.len
  let k := bits m f.info.lo f.info.len
  let old := s.getF f i j
  match f.info.type with
  | .rw => s.setF f ((old &&& (2 ^ f.info.len - 1 - k)) ||| (v &&& k)) i j
  | .w1c =>
    let t := s.setF f (old &&& (2 ^ f.info.len - 1 - (v &&& k))) i j
    if v &&& k = 0 then t else f.info.clears.foldl (fun u g => u.setF g 0 i j) t
  | .w1s => s.setF f (old ||| (v &&& k)) i j
  | .ro => s
  | .wo => s

/-- A register written by the types of its fields (R11, R512). -/
def State.writeReg (s : State) (r : RegName) (i j : Nat) (w m : Nat) : State :=
  r.fields.foldl (fun t f => t.writeFld i j w m f) s

/-- The mask of a whole 32-bit register. -/
def full32 : Nat := 0xFFFFFFFF

/-- The mask of a whole 64-bit register. -/
def full64 : Nat := 0xFFFFFFFFFFFFFFFF

end Sys2Proof.Machine
end

