-- ==== Sys2Proof/Machine/Events.lean ====
section
/-! DEFINITION. Gated accesses (R6, R165–R167), MSI-X vectors, taps (R457, R458) and the event router (R466–R472): the shared
operations that other commands call, and the commands of the event router. -/

namespace Sys2Proof.Machine

/-! ## Gated units -/

/-- The local device number (R35, R452). -/
def State.devNum (s : State) : Nat := s.getF .wortStatDEVNUM

/-- TUN_GATEADDR.SRC of an agent. -/
def State.srcCode (s : State) (a : Agent) : Nat :=
  if a.dev.toNat ≠ s.devNum then 6
  else if a.node.toNat = 64 then 0
  else if 72 ≤ a.node.toNat ∧ a.node.toNat ≤ 75 then a.node.toNat - 71
  else if a.node.toNat = 76 ∨ a.node.toNat = 77 then 7
  else 5

/-- The host of the local device. -/
def State.hostAgent (s : State) : Agent := ⟨64, BitVec.ofNat 8 s.devNum⟩

/-- A unit's registers are reachable: it is present, acknowledged and clocked (R6, R165). -/
def State.unitOn (s : State) (u : Unit0) : Bool := s.bitF .tunClkstatCLOCKED u.bit

/-- A gated access to a BAR0 offset is counted and recorded (R167). -/
def State.gateHit (s : State) (unit off : Nat) (a : Agent) : State :=
  ((((s.count .tunGatehitCOUNT).setF .tunGatehitUNIT unit).setOn .tunGatehitSEEN).setF .tunGateaddrOFFSET off).setF
    .tunGateaddrSRC (s.srcCode a)

/-- A gated BAR4 access is counted and recorded (R167). -/
def State.gateHit4 (s : State) (off : Nat) : State :=
  (((((s.count .tunGatehitCOUNT).setF .tunGatehitUNIT 31).setOn .tunGatehitSEEN).setF .tunGateaddrOFFSET 0x3FFFFFF).setF
    .tunGateaddrSRC 0).setF .tunGateaddr4OFFSET off

/-- A register command of instance (i, j) of register r: performed when the register's unit is on, else a gated access. While PERST_N
is asserted the part answers nothing (R255, R257). -/
def State.viaUnit (s : State) (r : RegName) (i j : Nat) (a : Agent) (k : State → State) : State :=
  if s.perst then s else if s.unitOn r.info.unit then k s else s.gateHit r.info.unit.bit (r.offset i j) a

/-! ## MSI-X -/

/-- What an unlisted word of the MSI-X table reads as: vector control 1 (masked), the rest 0 (PRESUMED: PCIe 5.0, log 4). -/
def msixDefault (k : Nat) : Nat := if k % 4 = 3 then 1 else 0

/-- A vector is masked in the MSI-X table. -/
def State.msixMasked (s : State) (v : Nat) : Bool := (SMap.get msixDefault s.msixTab (4 * v + 3)).testBit 0

/-- A vector can be sent: the link is up and MSI-X is enabled (R458, R468). -/
def State.msixReady (s : State) : Bool := s.isSet .cxlLnkstatUP && s.msixEn

/-- A vector is sent, or its pending bit set where the table masks it. -/
def State.msixWrite (s : State) (v : Nat) : State :=
  if s.msixMasked v then { s with msixPba := SMap.set (fun _ => false) s.msixPba v true } else s.emit (.msix v)

/-- A tap's vector is sent, or held while it cannot be (R458). -/
def State.msixSendOrHold (s : State) (v : Nat) : State :=
  if s.msixReady then s.msixWrite v
  else if s.msixHeld.contains v then s else { s with msixHeld := s.msixHeld ++ [v] }

/-- MSIX_SEND: a held vector goes out once it can (R458). -/
def execMsixSend (v : BitVec 11) (s : State) : Res :=
  .next (if s.msixReady && s.msixHeld.contains v.toNat then
    ({ s with msixHeld := s.msixHeld.erase v.toNat }).msixWrite v.toNat else s)

/-! ## Taps -/

/-- Codes that name an agent (R457). -/
def tapAgent (a : Nat) : Bool := a ≤ 19 || (32 ≤ a && a ≤ 91)

/-- A ring of doorbell bit b of agent a (R458). -/
def State.ring (s : State) (a b : Nat) : State :=
  if !tapAgent a then s else
  let t := s.setBitF .tapPendPEND b true a
  if a ≤ 15 && !s.bitF .tapPendPEND b a && !s.bitF .tapMaskMASK b a then t.msixSendOrHold (s.getF .tapCfgVEC a) else t

/-- Doorbell bits cleared (R458). -/
def State.tapClear (s : State) (a w : Nat) : State :=
  if !tapAgent a then s else s.setF .tapPendPEND (s.getF .tapPendPEND a &&& (full32 - w)) a

/-- The event port of a position is stopped: die reset or global restore of the whole grain (R472). -/
def State.portStopped (s : State) (n : Nat) : Bool :=
  let p := SMap.get (fun _ => PosSt.initial) s.pos n
  p.inReset || p.restore

/-- TAP_CLEAR: W1C of TAP_PENDa, or TAPCLR of a design event port, which a stopped port does not pass on (R458, R472). -/
def execTapClear (a : Fin 92) (w : W32) (pin : Bool) (s : State) : Res :=
  .next (if pin then (if 32 ≤ a.val && !s.portStopped (a.val - 32) then s.tapClear a w.toNat else s)
    else s.viaUnit .tapPend a 0 s.hostAgent fun t => t.tapClear a w.toNat)

/-- TAP_MASK_WRITE: unmasking a set doorbell bit of a host group sends its vector (R458). -/
def execTapMaskWrite (a : Fin 92) (w : W32) (s : State) : Res :=
  .next (s.viaUnit .tapMask a 0 s.hostAgent fun t =>
    if !tapAgent a then t else
    let opened := t.getF .tapMaskMASK a &&& (full32 - w.toNat) &&& t.getF .tapPendPEND a
    let u := t.setF .tapMaskMASK w.toNat a
    if a.val ≤ 15 && opened != 0 then u.msixSendOrHold (t.getF .tapCfgVEC a) else u)

/-! ## Events -/

/-- Source numbers that are ever raised (R466, R467). -/
def evSource (e : Nat) : Bool :=
  e < 960 || (976 ≤ e && e ≤ 978) || (984 ≤ e && e ≤ 986) || (988 ≤ e && e ≤ 1018)

/-- Some route of a source is enabled (R468). -/
def State.routed (s : State) (e : Nat) : Bool :=
  s.isSet .evrRouteMSIEN e || s.isSet .evrRouteDESEN e || s.isSet .evrRouteTAPEN e

/-- A raise of source e (R468). -/
def State.raise (s : State) (e : Nat) (payload : Nat := 0) : State :=
  if !evSource e then s else
  let t := (((s.setF .evrPayPAYLOAD payload e).count .evrRouteCNT 1 e).setOn .evrRouteSEEN e).emit (.fwEvent e payload)
  if s.routed e then t.setOn .evrRoutePEND e else t

/-- A raise by the DCTL of the grain that serves position n, source 16n + k (R466). -/
def State.raiseG (s : State) (n k : Nat) (payload : Nat := 0) : State := s.raise (16 * n + k) payload

/-- EVENT_RAISE (R468). -/
def execEventRaise (e : EvSrc) (payload : W64) (s : State) : Res := .next (if s.perst then s else s.raise e payload.toNat)

/-- The core domain of a position (R473) is in Run and makes no transition. -/
def State.coreRuns (s : State) (n : Nat) : Bool :=
  s.getF .pwrDstatSTATE n == 0 && SMap.get (fun _ => none) s.pwrGo n == none

/-- A delivery of source e at the event port of position n (R471, R472). -/
def State.deliverTo (s : State) (n e : Nat) : State :=
  if s.portStopped n then s else
  let q := SMap.get (fun _ => []) s.evFifo n
  if q.length < 16 then { s with evFifo := SMap.set (fun _ => []) s.evFifo n (q ++ [e]) } else
  let t := (s.count .grnEvstatDROPS 1 (s.phys n)).setOn .grnEvstatSEEN (s.phys n)
  if s.isSet .grnEvstatSEEN (s.phys n) then t else t.raise 1018 n

/-- The deliveries of a pending source made so far: bit 0 MSI, bit 1 tap, bit 2 + n the event port of Ln (R468). -/
def State.delivered (s : State) (e b : Nat) : Bool := (SMap.get (fun _ => 0) s.evDone e).testBit b

/-- A delivery of a pending source is recorded. -/
def State.markDelivered (s : State) (e b : Nat) : State :=
  { s with evDone := SMap.set (fun _ => 0) s.evDone e (setBit (SMap.get (fun _ => 0) s.evDone e) b true) }

/-- The MSI route of a pending source (R468): it waits while the vector cannot be sent. -/
def State.deliverMsi (s : State) (e : Nat) : State :=
  if s.isSet .evrRouteMSIEN e && !s.delivered e 0 && s.msixReady then
    (s.markDelivered e 0).msixWrite (s.getF .evrRouteVEC e)
  else s

/-- The positions a design route names (R468): one, all with 63, none with 60–62. -/
def State.routePos (s : State) (e : Nat) : List Nat :=
  if !s.isSet .evrRouteDESEN e then [] else
  let d := s.getF .evrRouteDPOS e
  if d = 63 then List.range 60 else if d < 60 then [d] else []

/-- The design route of a pending source: a delivery to a core that is not in Run waits (R468, R478, R482). -/
def State.deliverDes (s : State) (e : Nat) : State :=
  (s.routePos e).foldl (fun t n =>
    if t.delivered e (2 + n) then t
    else if t.coreRuns n || t.portStopped n then (t.markDelivered e (2 + n)).deliverTo n e else t) s

/-- The tap route of a pending source (R468). -/
def State.deliverTap (s : State) (e : Nat) : State :=
  if s.isSet .evrRouteTAPEN e && !s.delivered e 1 then
    (s.markDelivered e 1).ring (s.getF .evrRouteTAGENT e) (s.getF .evrRouteTBIT e)
  else s

/-- A route of a source still waits: for the link, or for a core to wake (R468, R478). -/
def State.routeWaits (s : State) (e : Nat) : Bool :=
  (s.isSet .evrRouteMSIEN e && !s.delivered e 0) || (s.routePos e).any fun n => !s.delivered e (2 + n)

/-- Every enabled route of a pending source that can be delivered is, and PEND clears when none is left (R468). -/
def State.deliver (s : State) (e : Nat) : State :=
  let t := ((s.deliverMsi e).deliverDes e).deliverTap e
  if t.routeWaits e then t
  else { t.setOff .evrRoutePEND e with evDone := SMap.set (fun _ => 0) t.evDone e 0 }

/-- EVENT_DELIVERY: nothing is delivered while EVR is gated (R165). -/
def execEventDelivery (e : EvSrc) (s : State) : Res :=
  .next (if s.isSet .evrRoutePEND e && s.unitOn .evr then s.deliver e else s)

/-- EVTAKE removes the head entry of a running event port (R471, R472). -/
def execEvtake (n : Pos) (s : State) : Res :=
  .next (if s.portStopped n then s
    else { s with evFifo := SMap.set (fun _ => []) s.evFifo n ((SMap.get (fun _ => []) s.evFifo n).drop 1) })

end Sys2Proof.Machine
end

