-- ==== Sys2Proof/Machine/Panel.lean ====
section
/-! DEFINITION. The panel (R18–R30), the four-level address (R16, R33–R39), the places of the hard blocks (R34, R93, R117),
the repair coverage (R219) and the global tile plane (R263). -/

namespace Sys2Proof.Machine

/-- The site (column, row) of physical grain p: row-major over the grain sites (R14, R18). -/
def physSites : List (Nat × Nat) :=
  (List.range 70).filterMap fun k =>
    let x := k % 10
    let y := k / 10
    if 2 ≤ y ∧ y ≤ 4 ∧ (x = 4 ∨ x = 5) then none else some (x, y)

/-- The site of physical grain p. -/
def physXY (p : Nat) : Nat × Nat := physSites.getD p (0, 0)

/-- The home site of position n (R18). -/
def posXY (n : Nat) : Nat × Nat := physXY (homeOf n)

/-- The four spares (R18). -/
def spares : List Nat := [11, 18, 45, 52]

/-- What lies beyond a port of a grain: another grain, the Tun, or nothing that a link in service joins (R19, R20). -/
inductive Nbr where
  | grain (p : Nat) | tun | none
  deriving DecidableEq, Repr

/-- The opposite port. -/
def oppPort : GPort → GPort
  | .n => .s | .e => .w | .s => .n | .w => .e

/-- The site beyond a port, if it lies on the grid (R33). -/
def siteBeyond (x y : Nat) : GPort → Option (Nat × Nat)
  | .n => if y = 0 then none else some (x, y - 1)
  | .e => if x = 9 then none else some (x + 1, y)
  | .s => if y = 6 then none else some (x, y + 1)
  | .w => if x = 0 then none else some (x - 1, y)

/-- What the die link at port d of grain p joins (R19, R20). -/
def physNbr (p : Nat) (d : GPort) : Nbr :=
  match siteBeyond (physXY p).1 (physXY p).2 d with
  | none => .none
  | some t =>
    if t = (4, 3) ∨ t = (5, 3) then .tun
    else if physSites.contains t then .grain (physSites.findIdx (· == t)) else .none

/-- The logical neighbour of position n at port d (R24). -/
def posNbr (n : Nat) (d : GPort) : Option Nat :=
  match physNbr (homeOf n) d with
  | .grain q => if homeTable.contains q then some (homeTable.findIdx (· == q)) else none
  | .tun => none
  | .none => none

/-- The positions a spare covers with their hop distances (R219). -/
def coverage (spare : Nat) : List (Nat × Nat) :=
  if spare = 11 then [(11, 1), (12, 2), (13, 3), (19, 1), (20, 2), (21, 3), (27, 2), (28, 3), (35, 3)]
  else if spare = 18 then [(14, 3), (15, 2), (16, 1), (22, 3), (23, 2), (24, 1), (31, 3), (32, 2), (40, 3)]
  else if spare = 45 then [(19, 3), (27, 2), (28, 3), (35, 1), (36, 2), (37, 3), (43, 1), (44, 2), (45, 3)]
  else if spare = 52 then [(24, 3), (31, 3), (32, 2), (38, 3), (39, 2), (40, 1), (46, 3), (47, 2), (48, 1)]
  else []

/-- A spare covers a position (R219). -/
def covers (spare n : Nat) : Bool := (coverage spare).any fun c => c.1 == n

/-- The hop distance of a covering spare. -/
def hopDist (spare n : Nat) : Nat := ((coverage spare).find? fun c => c.1 == n).elim 99 (·.2)

/-- A repair map (physical grain of each position in order) is valid (R25). -/
def mapValid (m : List Nat) : Bool :=
  m.length == 60 &&
  (List.range 60).all (fun n =>
    let p := m.getD n 0
    p == homeOf n || (interior n && n != 29 && n != 30 && covers p n)) &&
  m.Nodup

/-- The identity repair map (R27). -/
def identityMap : List Nat := homeTable

/-- The memory channel of a position, if it bonds one (R21). -/
def chanOfPos (n : Nat) : Option Nat :=
  if 1 ≤ n ∧ n ≤ 8 then some (n - 1) else if 51 ≤ n ∧ n ≤ 58 then some (n - 43) else none

/-- The position of a memory channel (R21). -/
def posOfChan (m : Nat) : Nat := if m < 8 then m + 1 else m + 43

/-! ## Addresses -/

/-- The packed four-level address (R16). -/
def packAddr (dev n col row cell : Nat) : Nat := dev * 2 ^ 25 + n * 2 ^ 19 + col * 2 ^ 11 + row * 2 ^ 4 + cell

/-- The 64-bit address word (R36, R37). -/
def addrWord (kind addr : Nat) : Nat := kind * 2 ^ 33 + addr

/-- The global column and row of a tile of position n (R263). -/
def globalCol (n c : Nat) : Nat := 192 * (posXY n).1 + c

/-- The global row of a tile of position n (R263). -/
def globalRow (n r : Nat) : Nat := 128 * (6 - (posXY n).2) + r

/-- The key of a tile of position n in the tile stores. -/
def tileKey (n col row : Nat) : Nat := (n * 192 + col) * 128 + row

/-- The anchor columns of the RAM72 columns (R93). -/
def ram72Cols : List Nat := [6, 16, 26, 36, 46, 58, 68, 78, 88, 104, 114, 124, 134, 146, 156, 166, 176, 186]

/-- The anchor columns of the SLICE24 columns (R117). -/
def sliceCols : List Nat := [11, 31, 52, 73, 109, 129, 151, 171]

/-- The anchor tile of RAM72 block k: index column × 16 + anchor row / 8 (R240). -/
def ram72Anchor (k : Nat) : Nat × Nat := (ram72Cols.getD (k / 16) 0, 8 * (k % 16))

/-- The anchor tile of DEEP2M block k (R93, R240). -/
def deep2mAnchor (k : Nat) : Nat × Nat := (95, 16 * k)

/-- The anchor tile of slice k: index column × 64 + anchor row / 2 (R240). -/
def sliceAnchor (k : Nat) : Nat × Nat := (sliceCols.getD (k / 64) 0, 2 * (k % 64))

/-- The anchor tile of a block. -/
def blockAnchor : Block → Nat × Nat
  | .ram72 k => ram72Anchor k
  | .deep2m k => deep2mAnchor k

/-- The clock region of a tile (R86). -/
def clockRegion (col row : Nat) : Nat := (row / 64) * 4 + col / 48

/-! ## Bits -/

/-- The number of ones among the low n bits. -/
def popcount : Nat → Nat → Nat
  | 0, _ => 0
  | n + 1, w => w % 2 + popcount n (w / 2)

/-- CRC-32C of n bits of w, bit 0 of byte 0 first (R239, R246): reflected polynomial 0x82F63B78, initial value and final
exclusive-or all ones (PRESUMED: the standard CRC-32C, log 7). -/
def crc32cBits : Nat → Nat → Nat → Nat
  | 0, crc, _ => crc
  | n + 1, crc, w =>
    let c := if (crc + w) % 2 = 1 then (crc / 2) ^^^ 0x82F63B78 else crc / 2
    crc32cBits n c (w / 2)

/-- The golden signature of a frame (R239). -/
def gsig (frame : Nat) : Nat := crc32cBits 2048 0xFFFFFFFF frame ^^^ 0xFFFFFFFF

/-- Little-endian number of a byte list (R12). -/
def leNat : List Byte → Nat
  | [] => 0
  | b :: bs => b.toNat + 256 * leNat bs

/-- The n low bytes of a number, lowest first. -/
def toBytes : Nat → Nat → List Byte
  | 0, _ => []
  | n + 1, w => BitVec.ofNat 8 w :: toBytes n (w / 256)

end Sys2Proof.Machine
end

