-- ==== Sys2Proof/Machine/Fabric.lean ====
section
/-! DEFINITION. The fabric: configuration frames and their validity (R240), floors (R264, R266), gating (R52, R292), tiles,
cells, routing selects and carry (R45–R92), flip-flop edges and captures (R50, R65), and span gates (R79–R83). -/

namespace Sys2Proof.Machine

/-! ## Frames -/

/-- The key of a frame of position n. -/
def cfgKey (n faddr : Nat) : Nat := n * 2 ^ 32 + faddr

/-- A frame of position n. -/
def State.frame (s : State) (n faddr : Nat) : CfgFrame := SMap.get (fun _ => CfgFrame.zero) s.cfg (cfgKey n faddr)

/-- A frame of position n replaced. -/
def State.setFrame (s : State) (n faddr : Nat) (f : CfgFrame) : State :=
  { s with cfg := SMap.set (fun _ => CfgFrame.zero) s.cfg (cfgKey n faddr) f }

/-- A frame address with its type and index (R240). -/
def faddrOf (type idx : Nat) : Nat := type * 2 ^ 28 + idx

/-- The number of frames of each type in a grain (R240); 0 for other types. -/
def frameCount (type : Nat) : Nat :=
  match type with
  | 0 => 24576 | 1 => 384 | 2 => 296 | 3 => 320 | 4 => 1 | 5 => 10368 | 6 => 8192 | 7 => 12288 | 8 => 64 | _ => 0

/-- A valid frame address of an image (R240). -/
def faddrValid (fa : Nat) : Bool := bits fa 0 28 < frameCount (bits fa 28 4)

/-- A frame with a golden signature, which Sparge checks (R280). -/
def faddrChecked (fa : Nat) : Bool := faddrValid fa && (bits fa 28 4 ≤ 4 || bits fa 28 4 = 8)

/-- Field i of a span-enable frame has more than one bit set. -/
def spanFieldBad (data i : Nat) : Bool := 2 ≤ popcount 16 (bits data (16 * i) 16)

/-- The driver-exclusion check of a frame (R81): true when it is rejected. -/
def exclusionFails (fa data : Nat) : Bool := bits fa 28 4 == 1 && (List.range 128).any (spanFieldBad data)

/-! ## Floors and gating -/

/-- Entry f of the base image's floor table (R265). -/
def State.floorEntry (s : State) (f : Nat) : Nat := SMap.get (fun _ => 0) s.floorTab f

/-- Bytes lo to lo+n-1 of a floor-table entry. -/
def entByte (e lo n : Nat) : Nat := bits e (8 * lo) (8 * n)

/-- Floor f is defined. -/
def State.floorDefined (s : State) (f : Nat) : Bool := (s.floorEntry f).testBit 72

/-- The tile of position n lies in the rectangle of a floor-table entry (R263, R264). -/
def inRect (e n col row : Nat) : Bool :=
  entByte e 0 2 ≤ globalCol n col && globalCol n col ≤ entByte e 2 2 &&
  entByte e 4 2 ≤ globalRow n row && globalRow n row ≤ entByte e 6 2

/-- A tile lies in floor f. -/
def State.inFloor (s : State) (f n col row : Nat) : Bool := s.floorDefined f && inRect (s.floorEntry f) n col row

/-- The floor a tile lies in, if any (no two floors share a tile, R264). -/
def State.floorOf (s : State) (n col row : Nat) : Option Nat := (List.range 64).find? fun f => s.inFloor f n col row

/-- Floor f touches position n (R264, POSMASK). -/
def State.touches (s : State) (f n : Nat) : Bool := s.floorDefined f && (entByte (s.floorEntry f) 12 8).testBit n

/-- A floor is steeping (R274, R276). -/
def State.steeping (s : State) (f : Nat) : Bool := s.getF .kilnFlrstatSTATE f = 2 || s.getF .kilnFlrstatSTATE f = 5

/-- The tile lies in a steeping floor. -/
def State.tileSteeps (s : State) (n col row : Nat) : Bool := (s.floorOf n col row).any s.steeping

/-- A position's state beside its registers. -/
def State.posSt (s : State) (n : Nat) : PosSt := SMap.get (fun _ => PosSt.initial) s.pos n

/-- A position's state replaced. -/
def State.setPos (s : State) (n : Nat) (p : PosSt) : State := { s with pos := SMap.set (fun _ => PosSt.initial) s.pos n p }

/-- A position is out of service (R30). -/
def State.isOos (s : State) (n : Nat) : Bool := SMap.get (fun _ => false) s.oos n

/-- The tile is under global restore (R51). -/
def State.restored (s : State) (n col row : Nat) : Bool :=
  (s.posSt n).restore || (s.posSt n).inReset || s.tileSteeps n col row

/-- The old grain of a remap is stopped from 2 µs after its capture pitch to the switchover or abort pitch (R227, R228). -/
def State.remapStops (s : State) (n : Nat) : Bool :=
  s.remap.pos == n && match s.remap.phase with
    | .writing | .again | .switching | .aborting => true
    | .idle | .waiting | .preparing | .captured | .finishing => false

/-- The part of a position that freezes as one: key of its tiles in no floor, or in a floor (R293, R294). -/
def State.partKey (s : State) (n col row : Nat) : Nat := n * 65 + ((s.floorOf n col row).elim 0 fun f => f + 1)

/-- The tile's design clocks are passed (R52, R292, R293, R475). -/
def State.tileClocked (s : State) (n col row : Nat) : Bool :=
  !s.restored n col row && s.coreRuns n && !s.remapStops n &&
  !SMap.get (fun _ => false) s.frozen (s.partKey n col row)

/-- The tile belongs to a selection (R294). -/
def State.selected (s : State) (sel : Sel) (n col row : Nat) : Bool :=
  sel.pos.testBit n && match s.floorOf n col row with
    | some f => sel.floors.testBit f
    | none => sel.base

/-- The number of a floor-table rectangle's tiles is found by the tile's own coordinates: owner of a frame (R266).
The floor that owns frame fa of position n, if one does; a span-enable frame has no single owner and answers none. -/
def State.frameFloor (s : State) (n fa : Nat) : Option Nat :=
  let i := bits fa 0 28
  match bits fa 28 4 with
  | 0 => s.floorOf n (i / 128) (i % 128)
  | 2 => if i < 288 then s.floorOf n (ram72Anchor i).1 (ram72Anchor i).2
         else s.floorOf n (deep2mAnchor (i - 288)).1 (deep2mAnchor (i - 288)).2
  | 3 => (List.range 64).find? fun f =>
      let d := (s.frame n (faddrOf 8 f)).data
      let p := i / 80
      let k := i % 80
      s.floorDefined f && d.testBit 0 && (if k < 16 then d.testBit (16 + 16 * p + k) else d.testBit (80 + 64 * p + (k - 16)))
  | 5 => s.floorOf n (ram72Anchor (i / 36)).1 (ram72Anchor (i / 36)).2
  | 6 => s.floorOf n (deep2mAnchor (i / 1024)).1 (deep2mAnchor (i / 1024)).2
  | 7 => s.floorOf n (sliceAnchor (i / 24)).1 (sliceAnchor (i / 24)).2
  | _ => none

/-- The tile of driver d on span field number k (R77, R79, R240). -/
def spanTile (k d : Nat) : Nat × Nat :=
  if k < 24576 then (16 * (k / 16 % 12) + d, k / 192)
  else ((k - 24576) / 128, 16 * ((k - 24576) / 16 % 8) + d)

/-- Floor f owns span field k of position n: its segment lies wholly in the rectangle (R84, R266). -/
def State.ownsSpan (s : State) (f n k : Nat) : Bool :=
  s.inFloor f n (spanTile k 0).1 (spanTile k 0).2 && s.inFloor f n (spanTile k 15).1 (spanTile k 15).2

/-- A frame that belongs to floor f of position n (R266): a span-enable frame when the floor owns any of its fields. -/
def State.frameOfFloor (s : State) (f n fa : Nat) : Bool :=
  if bits fa 28 4 = 1 then (List.range 128).any fun i => s.ownsSpan f n (128 * bits fa 0 28 + i)
  else s.frameFloor n fa == some f

/-! ## Tile configuration (R241) -/

/-- The frame of a tile as its bits act, upsets included (R82, R284). -/
def State.tileFrame (s : State) (n col row : Nat) : Nat := (s.frame n (faddrOf 0 (col * 128 + row))).data

/-- The configuration of a cell (R47). -/
structure CellCfg where
  tt     : Nat
  cymode : Bool
  cyg    : Nat
  dsel   : Nat
  osel   : Bool
  cksel  : Nat
  cesel  : Nat
  srsel  : Nat
  srval  : Bool
  init   : Bool
  deriving DecidableEq, Repr

/-- Cell c of a tile frame (R241). -/
def cellCfg (fr c : Nat) : CellCfg :=
  let b := bits fr (30 * c) 30
  ⟨bits b 0 16, b.testBit 16, bits b 17 2, bits b 19 2, b.testBit 21, bits b 22 1, bits b 23 3, bits b 26 2, b.testBit 28,
    b.testBit 29⟩

/-- INIT of the 16 cells. -/
def tileInit (fr : Nat) : Nat := (List.range 16).foldl (fun a c => a + if (cellCfg fr c).init then 2 ^ c else 0) 0

/-- The source a routing select of R74 names, at slot n and input j. -/
def pickSource (a : Arrivals) (q : Nat) (n j sel : Nat) : Bool :=
  if sel = 0 then false
  else if sel ≤ 16 then a.o.getLsbD (sel - 1)
  else if sel ≤ 32 then q.testBit (sel - 17)
  else if sel ≤ 36 then a.sng.getLsbD (16 * (sel - 33) + (n + 4 * j) % 16)
  else if sel ≤ 40 then a.sng.getLsbD (16 * (sel - 37) + (n + 4 * j + 8) % 16)
  else if sel ≤ 44 then a.quadFar.getLsbD (8 * (sel - 41) + (n + j) % 8)
  else if sel ≤ 48 then a.quadNear.getLsbD (8 * (sel - 45) + (n + j + 4) % 8)
  else if sel ≤ 52 then a.dozFar.getLsbD (4 * (sel - 49) + (n + j) % 4)
  else if sel ≤ 56 then a.dozMid.getLsbD (4 * (sel - 53) + (n + j + 2) % 4)
  else if sel = 57 then a.h.getLsbD ((n + j) % 16)
  else if sel = 58 then a.v.getLsbD ((n + j) % 16)
  else if sel = 59 then a.h.getLsbD ((n + j + 8) % 16)
  else if sel = 60 then a.v.getLsbD ((n + j + 8) % 16)
  else if sel = 61 then a.tco
  else sel = 62

/-- Input j (0–3 I0–I3, 4 X) of cell c (R74, R241). -/
def cellInput (fr : Nat) (a : Arrivals) (q c j : Nat) : Bool := pickSource a q c j (bits fr (480 + 30 * c + 6 * j) 6)

/-- Level of CEk (k = 0–3) as the cells see it, with CEINV (R54, R75). -/
def ceLine (fr : Nat) (a : Arrivals) (q k : Nat) : Bool :=
  (pickSource a q 0 (5 + k) (bits fr (960 + 6 * k) 6)) != fr.testBit (1008 + k)

/-- Level of SRk (k = 0, 1) as the cells see it, with SRINV (R54, R75). -/
def srLine (fr : Nat) (a : Arrivals) (q k : Nat) : Bool :=
  (pickSource a q 0 (9 + k) (bits fr (984 + 6 * k) 6)) != fr.testBit (1012 + k)

/-- SRk of the tile is asynchronous (R54). -/
def srAsync (fr k : Nat) : Bool := fr.testBit (1014 + k)

/-- The SR line a cell selects, if one (R47). -/
def CellCfg.sr (c : CellCfg) : Option Nat := if c.srsel = 1 then some 0 else if c.srsel = 2 then some 1 else none

/-- The look-up table output F of cell c (R49). -/
def lutF (fr : Nat) (a : Arrivals) (q c : Nat) : Bool :=
  let i := fun j => if cellInput fr a q c j then 2 ^ j else 0
  (cellCfg fr c).tt.testBit (i 0 + i 1 + i 2 + i 3)

/-- The generate source of cell c (R47). -/
def carryG (fr : Nat) (a : Arrivals) (q c : Nat) : Bool :=
  match (cellCfg fr c).cyg with
  | 0 => cellInput fr a q c 0
  | 1 => cellInput fr a q c 1
  | 2 => false
  | _ => true

/-- The carry into cell 0 (R58): at row 0 PREV gives 0. -/
def carryIn0 (fr : Nat) (a : Arrivals) (q row : Nat) : Bool :=
  match bits fr 1016 2 with
  | 0 => row != 0 && a.prevCo
  | 1 => false
  | 2 => true
  | _ => cellInput fr a q 0 4

/-- The carry into cell c (R57, R58). -/
def carryIn (fr : Nat) (a : Arrivals) (q row : Nat) : Nat → Bool
  | 0 => carryIn0 fr a q row
  | c + 1 =>
    if (cellCfg fr c).cymode && !lutF fr a q c then carryG fr a q c else carryIn fr a q row c

/-- The sum output S of cell c (R57). -/
def sumS (fr : Nat) (a : Arrivals) (q row c : Nat) : Bool := lutF fr a q c != carryIn fr a q row c

/-- The tile output TCO: CO of cell 15 (R59). -/
def tileTco (fr : Nat) (a : Arrivals) (q row : Nat) : Bool := carryIn fr a q row 16

/-- The combinational output of cell c (R48). -/
def cellOut (fr : Nat) (a : Arrivals) (q row c : Nat) : Bool :=
  if (cellCfg fr c).osel then sumS fr a q row c else lutF fr a q c

/-- The D source of cell c (R47). -/
def cellD (fr : Nat) (a : Arrivals) (q row c : Nat) : Bool :=
  match (cellCfg fr c).dsel with
  | 0 => lutF fr a q c
  | 1 => sumS fr a q row c
  | _ => cellInput fr a q c 4

/-- The clock enable of cell c (R47). -/
def cellCe (fr : Nat) (a : Arrivals) (q c : Nat) : Bool :=
  let e := (cellCfg fr c).cesel
  if e < 4 then true else ceLine fr a q (e - 4)

/-! ## Routing drivers (R76, R78) -/

/-- What a single, quad or dozen driver or a span driver source carries: k indexes O and Q, `o1` and `o2` the two local
outputs, `sg`, `qf`, `df` the arrivals it takes and `t` its tracks. -/
def pickDriver (a : Arrivals) (q o1 o2 sg qf df t sel : Nat) : Bool :=
  if sel = 1 then a.o.getLsbD (o1 % 16) else if sel = 2 then q.testBit (o1 % 16)
  else if sel = 3 then a.o.getLsbD (o2 % 16) else if sel = 4 then q.testBit (o2 % 16)
  else if 5 ≤ sel ∧ sel ≤ 8 then a.sng.getLsbD (16 * (sel - 5) + sg % 16)
  else if 9 ≤ sel ∧ sel ≤ 12 then a.quadFar.getLsbD (8 * (sel - 9) + qf % 8)
  else if 13 ≤ sel ∧ sel ≤ 16 then a.dozFar.getLsbD (4 * (sel - 13) + df % 4)
  else if sel = 17 then a.h.getLsbD (t % 16) else if sel = 18 then a.v.getLsbD (t % 16)
  else if sel = 19 then a.tco else false

/-- SNGd[k] of a tile (R76, R241). -/
def drvSingle (fr : Nat) (a : Arrivals) (q d k : Nat) : Bool :=
  pickDriver a q k (k + 8) k k k k (bits fr (1018 + 5 * (16 * d + k)) 5)

/-- QUADd[k] of a tile. -/
def drvQuad (fr : Nat) (a : Arrivals) (q d k : Nat) : Bool :=
  pickDriver a q k (k + 8) (2 * k) k k k (bits fr (1338 + 5 * (8 * d + k)) 5)

/-- DOZd[k] of a tile. -/
def drvDozen (fr : Nat) (a : Arrivals) (q d k : Nat) : Bool :=
  pickDriver a q (4 * k) (4 * k + 2) (4 * k) (2 * k) k (4 * k) (bits fr (1498 + 5 * (4 * d + k)) 5)

/-- The driver that conducts onto a segment: the lowest-numbered enabled one (R82); none leaves the keeper's 0 (R80). -/
def conducting (field : Nat) : Option Nat := (List.range 16).find? fun i => field.testBit i

/-- What a segment carries, given the sources of its drivers (R80, R82). -/
def segmentValue (field : Nat) (src : Nat → Bool) : Bool :=
  match conducting field with
  | some i => src i
  | none => false

/-- The span-enable field of a segment (R79, R240). -/
def spanFieldNo (sp : Span) : Nat :=
  if sp.vert then 24576 + (sp.line.val * 8 + sp.seg.val) * 16 + sp.track.val
  else (sp.line.val * 12 + sp.seg.val) * 16 + sp.track.val

/-- The enable field of field number k of position n, as its bits stand. -/
def State.spanField (s : State) (n k : Nat) : Nat := bits (s.frame n (faddrOf 1 (k / 128))).data (16 * (k % 128)) 16

/-! ## Clock lines (R85–R87, R153) -/

/-- A source select of R153 names a source in position n. -/
def clockSource (n sel : Nat) : Bool := 1 ≤ sel && sel ≤ 24 && (sel ≤ 20 || !interior n)

/-- A tile clock select names a line that has a source and reaches the tile (R86, R87). -/
def State.clockSelLive (s : State) (n col row sel : Nat) : Bool :=
  let fr := (s.frame n (faddrOf 4 0)).data
  if sel = 0 then false
  else if sel ≤ 16 then clockSource n (bits fr (256 + 5 * (sel - 1)) 5)
  else if sel ≤ 24 then
    clockSource n (bits fr (256 + 5 * (sel - 1)) 5) && (bits fr (376 + 8 * (sel - 17)) 8).testBit (clockRegion col row)
  else false

/-! ## Flip-flops -/

/-- The flip-flops of a tile as stored. -/
def State.tileQ (s : State) (key : Nat) : Nat := SMap.get (fun _ => 0) s.q key

/-- What the flip-flops of a tile show: INIT under global restore (R50, R51). -/
def State.showQ (s : State) (n col row : Nat) : Nat :=
  if s.restored n col row then tileInit (s.tileFrame n col row) else s.tileQ (tileKey n col row)

/-- The flip-flops of a tile take a value. -/
def State.setTileQ (s : State) (key v : Nat) : State := { s with q := SMap.set (fun _ => 0) s.q key v }

/-- Asynchronous SR line k of the tile is asserted. -/
def State.asyncOn (s : State) (key k : Nat) : Bool := (SMap.get (fun _ => 0) s.srOn key).testBit k

/-- Cell c's flip-flop is forced by an asserted asynchronous SR (R50 priority 2). -/
def State.forced (s : State) (key fr c : Nat) : Bool :=
  match (cellCfg fr c).sr with
  | some k => srAsync fr k && s.asyncOn key k
  | none => false

/-- The next value of cell c at an active edge of its clock (R50 priorities 2 to 5). -/
def State.edgeBit (s : State) (key fr : Nat) (a : Arrivals) (q row c : Nat) : Bool :=
  let cc := cellCfg fr c
  if s.forced key fr c then cc.srval
  else
    match cc.sr with
    | some k =>
      if !srAsync fr k && srLine fr a q k then cc.srval
      else if cellCe fr a q c then cellD fr a q row c else q.testBit c
    | none => if cellCe fr a q c then cellD fr a q row c else q.testBit c

/-- Bits of a pending capture that an edge takes first (R65): each shadow bit of the edge's cells takes Q before the edge. -/
def State.captureBits (s : State) (n col row cells : Nat) : State :=
  match s.capt with
  | none => s
  | some c =>
    let key := tileKey n col row
    if !s.selected c.sel n col row || c.skipPos.testBit n || (s.floorOf n col row).any c.skipFlr.testBit then s else
    let t := SMap.get (fun _ => 0) c.taken key
    let new := cells &&& (0xFFFF - t)
    let sh := SMap.get (fun _ => 0) s.shadow key
    { s with
      shadow := SMap.set (fun _ => 0) s.shadow key ((sh &&& (0xFFFF - new)) ||| (s.tileQ key &&& new))
      capt := some { c with taken := SMap.set (fun _ => 0) c.taken key (t ||| new) } }

/-- The cells of a tile on clock line k. -/
def cellsOn (fr k : Nat) : Nat := (List.range 16).foldl (fun m c => if (cellCfg fr c).cksel = k then m + 2 ^ c else m) 0

/-- The bits of a mask for which p holds, as a number. -/
def maskOf (p : Nat → Bool) : Nat := (List.range 16).foldl (fun m c => if p c then m + 2 ^ c else m) 0

/-- ACTIVE_CLOCK_EDGE (R50): an edge that the gating passes and whose line has a source. With the recovery time of a released
asynchronous SR violated, each flip-flop on such a line takes SRVAL or its rule-4 value, a free choice (R53). -/
def execActiveClockEdge (t : Tile) (line : Fin 2) (a : Arrivals) (recoveryViolated : Bool) (s : State) : Res :=
  .next (
    let n := t.pos.val
    let col := t.col.val
    let row := t.row.val
    let key := tileKey n col row
    let fr := s.tileFrame n col row
    if !s.tileClocked n col row || !s.clockSelLive n col row (bits fr (996 + 5 * line.val) 5) then s else
    let cells := cellsOn fr line.val
    let q := s.tileQ key
    let next := maskOf fun c => if cells.testBit c then s.edgeBit key fr a q row c else q.testBit c
    let u := s.captureBits n col row cells
    if !recoveryViolated then u.setTileQ key next else
    let free := u.free
    let v := maskOf fun c =>
      let cc := cellCfg fr c
      if cells.testBit c && cc.sr.any (srAsync fr ·) && !s.forced key fr c && free.1.testBit c then cc.srval
      else next.testBit c
    free.2.setTileQ key v)

/-- ASYNC_SET_RESET (R50 priority 2). -/
def execAsyncSetReset (t : Tile) (line : Fin 2) (s : State) : Res :=
  .next (
    let n := t.pos.val
    let key := tileKey n t.col t.row
    let fr := s.tileFrame n t.col t.row
    if !srAsync fr line.val then s else
    let u := { s with srOn := SMap.set (fun _ => 0) s.srOn key (setBit (SMap.get (fun _ => 0) s.srOn key) line.val true) }
    let q := s.tileQ key
    u.setTileQ key (maskOf fun c => if (cellCfg fr c).sr = some line.val then (cellCfg fr c).srval else q.testBit c))

/-- ASYNC_SET_RESET_RELEASE (R53): with the removal time violated, each flip-flop of the line takes SRVAL or its rule-4 value, a
free choice. -/
def execAsyncSetResetRelease (t : Tile) (line : Fin 2) (a : Arrivals) (removalViolated : Bool) (s : State) : Res :=
  .next (
    let n := t.pos.val
    let key := tileKey n t.col t.row
    let fr := s.tileFrame n t.col t.row
    if !s.asyncOn key line.val then s else
    let u := { s with srOn := SMap.set (fun _ => 0) s.srOn key (setBit (SMap.get (fun _ => 0) s.srOn key) line.val false) }
    if !removalViolated || !s.tileClocked n t.col t.row then u else
    let q := s.tileQ key
    let free := u.free
    free.2.setTileQ key (maskOf fun c =>
      if (cellCfg fr c).sr = some line.val && !free.1.testBit c then u.edgeBit key fr a q t.row c else q.testBit c))

/-! ## Spans -/

/-- GRN_SPANSTAT.ACTIVE of position n as its span-enable fields stand. -/
def State.spanActive (s : State) (n : Nat) : Bool :=
  s.cfg.any fun e => e.1 / 2 ^ 28 == n * 16 + 1 && (List.range 128).any (spanFieldBad e.2.data)

/-- ACTIVE follows the fields. -/
def State.updSpanActive (s : State) (n : Nat) : State := s.setF .grnSpanstatACTIVE (s.spanActive n).toNat (s.phys n)

/-- CONFIG_UPSET (R82): the wrong bits act until corrected. -/
def execConfigUpset (pos : Pos) (fa : W32) (flips : Frame) (s : State) : Res :=
  .next (if !faddrChecked fa.toNat then s else
    let f := s.frame pos fa.toNat
    (s.setFrame pos fa.toNat { f with data := f.data ^^^ flips.toNat }).updSpanActive pos)

/-- SPAN_GATE_EVENT (R83): a first-driver gate that finds more than one bit set. -/
def execSpanGateEvent (pos : Pos) (sp : Span) (s : State) : Res :=
  .next (
    let n := pos.val
    let k := spanFieldNo sp
    let field := s.spanField n k
    let inRange := if sp.vert then sp.seg.val < 8 else sp.line.val < 128
    if !inRange || popcount 16 field < 2 then s else
    let fa := faddrOf 1 (k / 128)
    let f := s.frame n fa
    let d := (conducting field).getD 0
    let p := s.phys n
    let addr := addrWord 1 (packAddr s.devNum n (spanTile k d).1 (spanTile k d).2 0)
    let t := s.setFrame n fa { f with status := setBit f.status 0 true }
    let u := (((t.count .grnSpanstatCOUNT 1 p).setOn .grnSpanstatSEEN p).updSpanActive n).setF .grnSpanaddrADDR addr p
    let v := (((u.setF .grnSpantrkTRACK sp.track p).setF .grnSpantrkVERT sp.vert.toNat p).setF .grnSpantrkSEG sp.seg p).setF
      .grnSpantrkENMASK field p
    v.raiseG n 6 addr)

end Sys2Proof.Machine
end

