-- ==== Sys2Proof/Machine/Blocks.lean ====
section
/-! DEFINITION. RAM72 and DEEP2M blocks (R93–R116): attributes, port behaviour, collisions, SECDED, cascades, and upsets of
stored words. -/

namespace Sys2Proof.Machine

/-- Attributes of a RAM72 block (R100), from its hard-block frame (R240). -/
structure RamAttr where
  sdp     : Bool
  widthA  : Nat
  widthB  : Nat
  ecc     : Bool
  oregA   : Bool
  oregB   : Bool
  rdwA    : Nat
  rdwB    : Nat
  orvalA  : Nat
  orvalB  : Nat
  cascPos : Nat
  cascLen : Nat
  deriving DecidableEq, Repr

/-- The attributes packed in a frame in the order of R100. -/
def ramAttr (fr : Nat) : RamAttr :=
  ⟨fr.testBit 0, bits fr 1 3, bits fr 4 3, fr.testBit 7, fr.testBit 8, fr.testBit 9, bits fr 10 2, bits fr 12 2, bits fr 14 72,
    bits fr 86 72, bits fr 158 4, bits fr 162 4⟩

/-- Attributes of RAM72 block k of position n. -/
def State.ramAttrOf (s : State) (n k : Nat) : RamAttr := ramAttr (s.frame n (faddrOf 2 k)).data

/-- Port width in bits (R100); none where the port is unused. -/
def widthOf (w : Nat) : Option Nat :=
  match w with
  | 0 => some 1 | 1 => some 2 | 2 => some 4 | 3 => some 9 | 4 => some 18 | 5 => some 36 | 6 => some 72 | _ => none

/-- Row and lowest column of word a at width w (R98). -/
def ramPlace (w a : Nat) : Nat × Nat :=
  if w % 9 = 0 then ((a % (73728 / w)) * w / 72, (a % (73728 / w)) * w % 72)
  else ((a % (65536 / w)) * w / 64, (a % (65536 / w)) * w % 64)

/-- Key of a RAM72 row. -/
def ramKey (n k row : Nat) : Nat := (n * 288 + k) * 1024 + row

/-- A RAM72 row as stored. -/
def State.ramRow (s : State) (n k row : Nat) : Nat := SMap.get (fun _ => 0) s.ram (ramKey n k row)

/-- The stored bits of a row that an upset flipped and nothing has written since. -/
def State.ramBad (s : State) (n k row : Nat) : Nat := SMap.get (fun _ => 0) s.ramFlip (ramKey n k row)

/-- A row stored, its bits under `m` written. -/
def State.setRamRow (s : State) (n k row v m : Nat) : State :=
  let key := ramKey n k row
  { s with
    ram := SMap.set (fun _ => 0) s.ram key v
    ramFlip := SMap.set (fun _ => 0) s.ramFlip key (s.ramBad n k row &&& (2 ^ 72 - 1 - (m &&& (2 ^ 72 - 1)))) }

/-- The mask of w bits from lo. -/
def maskAt (lo w : Nat) : Nat := (2 ^ w - 1) * 2 ^ lo

/-- The bits a write enables (R99, R104): all with ECC, whole bytes in the nine family, all in the binary family. -/
def writeMask (ecc : Bool) (w lo be : Nat) : Nat :=
  if ecc then 2 ^ 72 - 1
  else if w % 9 = 0 then (List.range (w / 9)).foldl (fun m k => if be.testBit k then m + maskAt (lo + 9 * k) 9 else m) 0
  else maskAt lo w

/-- Old and new bits mixed: each 9-bit byte, or the whole word, is old or new by a free choice (R103). -/
def mixBytes (whole : Bool) (choice old new : Nat) : Nat :=
  (List.range 8).foldl (fun v k =>
    let pick := if whole then choice.testBit 0 else choice.testBit k
    v + ((if pick then new else old) &&& maskAt (9 * k) 9)) 0

/-- The latest access of a block. -/
def State.lastAcc (s : State) (n b : Nat) : Option BLast := SMap.get (fun _ => none) s.blast (n * 296 + b)

/-- The latest access recorded. -/
def State.setLast (s : State) (n b : Nat) (l : BLast) : State :=
  { s with blast := SMap.set (fun _ => none) s.blast (n * 296 + b) (some l) }

/-- The latest access collides with this one: the other port, the same row, overlapping bits (R103). -/
def collides (coll : Coll) (l : Option BLast) (portB : Bool) (row mask : Nat) : Option BLast :=
  match coll, l with
  | .none, _ => none
  | _, none => none
  | .oneClock, some l => if l.portB != portB && l.row == row && (l.mask &&& mask) != 0 then some l else none
  | .twoClocks, some l => if l.portB != portB && l.row == row && (l.mask &&& mask) != 0 then some l else none

/-- A write of a row with the collision rules: the row to store (R103). -/
def State.collideWrite (s : State) (ecc : Bool) (coll : Coll) (l : Option BLast) (portB : Bool) (cur new : Nat) : Nat × State :=
  match l with
  | none => (new, s)
  | some l =>
    if !l.wrote then (new, s)
    else match coll with
      | .none => (new, s)
      | .oneClock =>
        if !portB then (new, s)
        else if ecc then (cur, s) else ((new &&& (2 ^ 72 - 1 - l.mask)) ||| (cur &&& l.mask), s)
      | .twoClocks =>
        let f := s.free
        if ecc then (if f.1.testBit 0 then new else cur, f.2)
        else ((new &&& (2 ^ 72 - 1 - l.mask)) ||| (mixBytes false f.1 cur new &&& l.mask), f.2)

/-- A read of a row with the collision rules: the row the read sees (R103). -/
def State.collideRead (s : State) (ecc : Bool) (coll : Coll) (l : Option BLast) (cur : Nat) : Nat × State :=
  match l with
  | none => (cur, s)
  | some l =>
    if !l.wrote then (cur, s)
    else match coll with
      | .none => (cur, s)
      | .oneClock => ((cur &&& (2 ^ 72 - 1 - l.mask)) ||| (l.old &&& l.mask), s)
      | .twoClocks =>
        let f := s.free
        if ecc then (if f.1.testBit 0 then cur else l.old, f.2)
        else ((cur &&& (2 ^ 72 - 1 - l.mask)) ||| (mixBytes false f.1 l.old cur &&& l.mask), f.2)

/-- A block's output before anything is read: ORVAL (R100, R111). -/
def State.orval (s : State) (n : Nat) (b : Nat) (portB : Bool) : Nat :=
  if b < 288 then (if portB then (s.ramAttrOf n b).orvalB else (s.ramAttrOf n b).orvalA)
  else bits (s.frame n (faddrOf 2 b)).data 2 64

/-- A block port's stages. -/
def State.port (s : State) (n b : Nat) (portB : Bool) : BPort :=
  (SMap.get (fun _ => none) s.bport ((n * 296 + b) * 2 + portB.toNat)).getD (BPort.at (s.orval n b portB))

/-- A block port's stages replaced. -/
def State.setPort (s : State) (n b : Nat) (portB : Bool) (p : BPort) : State :=
  { s with bport := SMap.set (fun _ => none) s.bport ((n * 296 + b) * 2 + portB.toNat) (some p) }

/-- The output register, or the array latch without one, at ORVAL (R102). -/
def BPort.reset (p : BPort) (v : Nat) : BPort := { p with dout := v, sbe := false, dbe := false }

/-- A SECDED error of a read, recorded (R105, R114). -/
def State.eccRecord (s : State) (n b row : Nat) (portB dbe : Bool) (synd : Nat) : State :=
  let p := s.phys n
  let anchor := if b < 288 then ram72Anchor b else deep2mAnchor (b - 288)
  let addr := addrWord (if b < 288 then 2 else 3) (packAddr s.devNum n anchor.1 anchor.2 0)
  let t := if dbe then (s.count .grnMemeccDBECNT 1 p).setOn .grnMemeccDSEEN p
    else (s.count .grnMemeccSBECNT 1 p).setOn .grnMemeccSSEEN p
  let u := if dbe || !s.isSet .grnMemeccDSEEN p then
      ((((t.setF .grnMemeaddrADDR addr p).setF .grnMemeinfoWORD row p).setF .grnMemeinfoPORT portB.toNat p).setF
        .grnMemeinfoDBE dbe.toNat p).setF .grnMemeinfoSYND synd p
    else t
  if dbe then u.raiseG n 7 addr else u

/-- What SECDED makes of a stored word with wrong bits `bad` (R104): the word returned, SBE, DBE and the syndrome. Three or more
wrong bits have no stated result: they take a free choice of a double-bit report or a clean or corrected word as read. -/
def State.secded (s : State) (word bad : Nat) : (Nat × Bool × Bool × Nat) × State :=
  match popcount 72 bad with
  | 0 => ((word, false, false, 0), s)
  | 1 => ((word ^^^ bad, true, false, Config.secdedSynd bad % 256), s)
  | 2 => ((word, false, true, Config.secdedSynd bad % 256), s)
  | _ =>
    let f := s.free
    ((f.1 / 4 % 2 ^ 72, f.1.testBit 0, !f.1.testBit 0 && f.1.testBit 1, Config.secdedSynd bad % 256), f.2)

/-- The array part of a read of RAM72 block k at row, columns lo to lo+w-1: the word on DO with SBE and DBE, and the state with
any error recorded (R98, R104, R105). -/
def State.ramRead (s : State) (n k row lo w : Nat) (ecc portB : Bool) (rowSeen : Nat) : (Nat × Bool × Bool) × State :=
  if !ecc then ((bits rowSeen lo w, false, false), s) else
  let e := s.secded rowSeen (s.ramBad n k row)
  let out := bits e.1.1 0 64 + e.1.2.2.2 * 2 ^ 64
  let t := if e.1.2.1 || e.1.2.2.1 then e.2.eccRecord n k row portB e.1.2.2.1 e.1.2.2.2 else e.2
  ((out, e.1.2.1, e.1.2.2.1), t)

/-- A RAM72 port's stages after an edge, given the array result if there was one (R102). -/
def ramStages (oreg oce rsto : Bool) (orv : Nat) (p : BPort) (res : Option (Nat × Bool × Bool)) : BPort :=
  if !oreg then
    let q := match res with
      | some r => { p with dout := r.1, sbe := r.2.1, dbe := r.2.2 }
      | none => p
    if rsto then q.reset orv else q
  else
    let o := if rsto then p.reset orv
      else if oce && p.arrV then { p with dout := p.arr, sbe := p.arrS, dbe := p.arrD } else p
    match res with
    | some r => { o with arr := r.1, arrS := r.2.1, arrD := r.2.2, arrV := true }
    | none => o

/-- An active edge of a RAM72 port (R101–R106). `we` is the WE pin. The block named takes the pins; in a cascade it is the
southmost one, the block of ADDR[13:10] acts and the northmost one returns the data. -/
def State.ramEdge (s : State) (n k : Nat) (we : Bool) (p : BPins) : State :=
  let at0 := s.ramAttrOf n k
  let kt := k + bits p.addr.toNat 10 4
  let ko := k + at0.cascLen
  let at1 := s.ramAttrOf n ko
  let casc := at0.cascLen != 0
  let reach := !casc || (bits p.addr.toNat 10 4 ≤ at0.cascLen && bits p.addr.toNat 14 2 == 0)
  let kb := if casc then kt else k
  let w? := if casc then some 72 else widthOf (if p.portB then at0.widthB else at0.widthA)
  match w? with
  | none => s
  | some w =>
    let anchor := ram72Anchor k
    if !s.tileClocked n anchor.1 anchor.2 || (casc && at0.cascPos != 0) then s else
    let rdw := if p.portB then at0.rdwB else at0.rdwA
    let oreg := if p.portB then at1.oregB else at1.oregA
    let orv := s.orval n ko p.portB
    let write := p.en && we && !(at0.sdp && p.portB)
    let read := p.en && (!we || (at0.sdp && p.portB)) && !(at0.sdp && !p.portB)
    let fin := fun (t : State) (res : Option (Nat × Bool × Bool)) =>
      t.setPort n ko p.portB (ramStages oreg p.oce p.rsto orv (t.port n ko p.portB) res)
    if !reach then fin s (if read || (write && !at0.sdp && rdw != 2) then some (0, false, false) else none) else
    let pl := ramPlace w p.addr.toNat
    let row := pl.1
    let lo := pl.2
    let cur := s.ramRow n kb row
    let wordMask := if at0.ecc then 2 ^ 72 - 1 else maskAt lo w
    let last := collides p.coll (s.lastAcc n kb) p.portB row wordMask
    if write then
      let m := writeMask at0.ecc w lo p.be.toNat
      let d := if at0.ecc then bits p.di.toNat 0 64 + (Config.secdedCheck (bits p.di.toNat 0 64) % 256) * 2 ^ 64
        else bits p.di.toNat 0 w * 2 ^ lo
      let new := (cur &&& (2 ^ 72 - 1 - m)) ||| (d &&& m)
      let c := s.collideWrite at0.ecc p.coll last p.portB cur new
      -- DO after the write: the word before it for READ_FIRST, after it for WRITE_FIRST, held for NO_CHANGE
      let pre := c.2.ramRead n kb row lo w at0.ecc p.portB cur
      let t := if at0.sdp || rdw = 2 || rdw = 0 then c.2 else pre.2
      let u := (t.setRamRow n kb row c.1 m).setLast n kb ⟨p.portB, row, wordMask, cur, true⟩
      let wf := if at0.ecc then bits c.1 0 64 else bits c.1 lo w
      fin u (if at0.sdp || rdw = 2 then none else if rdw = 0 then some (wf, false, false) else some pre.1)
    else if read then
      let c := s.collideRead at0.ecc p.coll last cur
      let r := c.2.ramRead n kb row lo w at0.ecc p.portB c.1
      fin (r.2.setLast n kb ⟨p.portB, row, wordMask, cur, false⟩) (some r.1)
    else fin s none

/-! ## DEEP2M -/

/-- Key of a DEEP2M word. -/
def deepKey (n k word : Nat) : Nat := (n * 8 + k) * 32768 + word

/-- Key of the flipped bits of a DEEP2M word. -/
def State.deepBad (s : State) (n k word : Nat) : Nat := SMap.get (fun _ => 0) s.deepFlip (deepKey n k word)

/-- A DEEP2M word as stored: its 64 data bits, upsets included. -/
def State.deepWord (s : State) (n k word : Nat) : Nat := SMap.get (fun _ => 0) s.deep (deepKey n k word)

/-- The 72 bits of a DEEP2M word whose data bits read v, the check bits above them (R111). -/
def State.deepRaw (s : State) (n k word v : Nat) : Nat :=
  let bad := s.deepBad n k word
  v + ((Config.secdedCheck (v ^^^ bits bad 0 64) % 256) ^^^ bits bad 64 8) * 2 ^ 64

/-- A DEEP2M word written whole (R108). -/
def State.setDeep (s : State) (n k word v : Nat) : State :=
  { s with
    deep := SMap.set (fun _ => 0) s.deep (deepKey n k word) (v % 2 ^ 64)
    deepFlip := SMap.set (fun _ => 0) s.deepFlip (deepKey n k word) 0 }

/-- The stages of a DEEP2M read port after an edge (R109, R110): array, correction, the stage a cascade adds, output. -/
def deepStages (casc oce rsto : Bool) (orv raw : Nat) (p : BPort) (res : Option (Nat × Bool × Bool)) : BPort :=
  let o := if rsto then p.reset orv
    else if casc then (if oce && p.extV then { p with dout := p.ext, sbe := p.extS, dbe := p.extD } else p)
    else if oce && p.corV then { p with dout := p.cor, sbe := p.corS, dbe := p.corD } else p
  { o with
    ext := p.cor, extS := p.corS, extD := p.corD, extV := casc && p.corV
    cor := p.arr, corS := p.arrS, corD := p.arrD, corV := p.arrV
    arr := (res.map (·.1)).getD p.arr, arrS := (res.map (·.2.1)).getD p.arrS, arrD := (res.map (·.2.2)).getD p.arrD
    raw := if res.isSome then raw else p.raw
    arrV := res.isSome }

/-- An active edge of a DEEP2M port (R108–R110). -/
def State.deepEdge (s : State) (n k : Nat) (we : Bool) (p : BPins) : State :=
  let fr := (s.frame n (faddrOf 2 (288 + k))).data
  let sdp := fr.testBit 0
  let rdwNo := fr.testBit 1
  let cascPos := bits fr 66 4
  let cascLen := bits fr 70 4
  let casc := cascLen != 0
  let ca := bits p.addr.toNat 15 3
  let reach := !casc || ca ≤ cascLen
  let kb := if casc then k + ca else k
  let ko := 288 + k + cascLen
  let anchor := deep2mAnchor k
  if !s.tileClocked n anchor.1 anchor.2 || (casc && cascPos != 0) then s else
  let write := p.en && we && !(sdp && p.portB)
  let read := p.en && (if sdp then p.portB else !p.portB && !we)
  let outPort := sdp
  let orv := s.orval n ko outPort
  let isOut := p.portB == sdp
  let fin := fun (t : State) (raw : Nat) (res : Option (Nat × Bool × Bool)) =>
    if isOut then t.setPort n ko outPort (deepStages casc p.oce p.rsto orv raw (t.port n ko outPort) res) else t
  let word := bits p.addr.toNat 0 15
  if !reach then fin s 0 (if read || (write && !sdp && !rdwNo) then some (0, false, false) else none) else
  let cur := s.deepWord n kb word
  let last := collides p.coll (s.lastAcc n (288 + kb)) p.portB word (2 ^ 72 - 1)
  let readWord := fun (t : State) (v : Nat) =>
    let e := t.secded v (t.deepBad n kb word)
    let u := if e.1.2.1 || e.1.2.2.1 then e.2.eccRecord n (288 + kb) word p.portB e.1.2.2.1 e.1.2.2.2 else e.2
    ((bits e.1.1 0 64, e.1.2.1, e.1.2.2.1), u)
  if write then
    let pre := readWord s cur
    let t := if sdp || rdwNo then s else pre.2
    let u := (t.setDeep n kb word p.di.toNat).setLast n (288 + kb) ⟨p.portB, word, 2 ^ 72 - 1, cur, true⟩
    fin u (s.deepRaw n kb word cur) (if sdp || rdwNo then none else some pre.1)
  else if read then
    let c := s.collideRead true p.coll last cur
    let r := readWord c.2 c.1
    fin (r.2.setLast n (288 + kb) ⟨p.portB, word, 2 ^ 72 - 1, cur, false⟩) (s.deepRaw n kb word c.1) (some r.1)
  else fin s 0 none

/-! ## Snapshots at an edge (R295, R298) -/

/-- The snapshot key of a block (R298). -/
def blockSnapKey (n b : Nat) : Nat := n * 1024 + 512 + b

/-- A port's 160 snapshot bits (R298). -/
def ramPortSnap (p : BPort) : Nat :=
  p.dout + p.sbe.toNat * 2 ^ 72 + p.dbe.toNat * 2 ^ 73 +
  (p.arr + p.arrS.toNat * 2 ^ 72 + p.arrD.toNat * 2 ^ 73) * 2 ^ 74 + p.arrV.toNat * 2 ^ 148

/-- A DEEP2M block's snapshot bits (R298). -/
def deepSnap (p : BPort) : Nat :=
  (p.dout % 2 ^ 64 + p.sbe.toNat * 2 ^ 64 + p.dbe.toNat * 2 ^ 65) +
  (p.cor % 2 ^ 64 + p.corS.toNat * 2 ^ 64 + p.corD.toNat * 2 ^ 65) * 2 ^ 66 +
  p.raw % 2 ^ 72 * 2 ^ 132 +
  p.arrV.toNat * 2 ^ 204 + p.corV.toNat * 2 ^ 205

/-- The snapshot of a block as it stands. -/
def State.blockSnap (s : State) (n b : Nat) : Nat :=
  if b < 288 then ramPortSnap (s.port n b false) + ramPortSnap (s.port n b true) * 2 ^ 160
  else deepSnap (s.port n b ((s.frame n (faddrOf 2 b)).data.testBit 0))

/-- A pending capture takes the snapshot of a hard block before its first edge (R65, R295). -/
def State.captureBlock (s : State) (n col row key snapKey v : Nat) : State :=
  match s.capt with
  | none => s
  | some c =>
    if !s.selected c.sel n col row || c.skipPos.testBit n || (s.floorOf n col row).any c.skipFlr.testBit ||
      SMap.get (fun _ => false) c.snapped key then s
    else { s with
      snap := SMap.set (fun _ => 0) s.snap snapKey v
      capt := some { c with snapped := SMap.set (fun _ => false) c.snapped key true } }

/-- The block's number in its grain: RAM72 0–287, DEEP2M 288–295. -/
def blockNo : Block → Nat
  | .ram72 k => k
  | .deep2m k => 288 + k

/-- An active edge of a block port, a pending capture first. -/
def State.blockEdge (s : State) (n : Nat) (b : Block) (we : Bool) (p : BPins) : State :=
  let an := blockAnchor b
  let k := blockNo b
  let t := if s.tileClocked n an.1 an.2 then s.captureBlock n an.1 an.2 (blockSnapKey n k) (blockSnapKey n k) (s.blockSnap n k)
    else s
  match b with
  | .ram72 k => t.ramEdge n k we p
  | .deep2m k => t.deepEdge n k we p

/-- BLOCK_READ (R101). -/
def execBlockRead (pos : Pos) (b : Block) (p : BPins) (s : State) : Res := .next (s.blockEdge pos b false p)

/-- BLOCK_WRITE (R101). -/
def execBlockWrite (pos : Pos) (b : Block) (p : BPins) (s : State) : Res := .next (s.blockEdge pos b true p)

/-- OUTPUT_RESET: RSTO = 1 on an active edge without an access (R102, R106). -/
def execOutputReset (pos : Pos) (b : Block) (portB : Bool) (s : State) : Res :=
  .next (s.blockEdge pos b false ⟨portB, 0, 0, 0, false, false, true, .none⟩)

/-! ## Upsets of stored words (R104, R128) -/

/-- Key of a coefficient word. -/
def coefKey (n k word : Nat) : Nat := (n * 512 + k) * 1024 + word

/-- STORED_BIT_FLIP: the word stays wrong until it is written. -/
def execStoredBitFlip (pos : Pos) (w : StoredWord) (flips : BitVec 72) (s : State) : Res :=
  let n := pos.val
  .next (match w with
    | .ram72 k row =>
      let key := ramKey n k row
      { s with
        ram := SMap.set (fun _ => 0) s.ram key (s.ramRow n k row ^^^ flips.toNat)
        ramFlip := SMap.set (fun _ => 0) s.ramFlip key (s.ramBad n k row ^^^ flips.toNat) }
    | .deep2m k word =>
      let key := deepKey n k word
      { s with
        deep := SMap.set (fun _ => 0) s.deep key (s.deepWord n k word ^^^ bits flips.toNat 0 64)
        deepFlip := SMap.set (fun _ => 0) s.deepFlip key (s.deepBad n k word ^^^ flips.toNat) }
    | .coeff k word =>
      let key := coefKey n k word
      let f := bits flips.toNat 0 55
      { s with
        coef := SMap.set (fun _ => 0) s.coef key (SMap.get (fun _ => 0) s.coef key ^^^ bits f 0 48)
        coefFlip := SMap.set (fun _ => 0) s.coefFlip key (SMap.get (fun _ => 0) s.coefFlip key ^^^ f) })

end Sys2Proof.Machine
end

