-- ==== Sys2Proof/Machine/Slices.lean ====
section
/-! DEFINITION. SLICE24 signal-processing slices (R117–R142): attributes, operand lanes, narrowing, coefficient RAM, address
generator, pipeline and cascades. One command is one active edge of one slice. -/

namespace Sys2Proof.Machine

/-- Attributes of a slice (R120), from the tile frame of its anchor tile (R241). -/
structure SliceAttr where
  mode    : Bool
  rshift  : Nat
  owid    : Nat
  normk   : Nat
  acsmap  : Nat
  agbase  : Nat
  aglen   : Nat
  agstride : Nat
  agoffs  : Nat
  deriving DecidableEq, Repr

/-- The attributes packed in a tile frame from bit 1,962 on. -/
def sliceAttr (fr : Nat) : SliceAttr :=
  ⟨fr.testBit 1962, bits fr 1963 6, bits fr 1969 3, bits fr 1972 4, bits fr 1976 16, bits fr 1992 10, bits fr 2002 10,
    bits fr 2012 10, bits fr 2022 10⟩

/-- A LEN field: 0 means 1,024 (R120, R129). -/
def agLen (n : Nat) : Nat := if n = 0 then 1024 else n

/-- The state a slice starts from: zero, with the address generator at its attribute values (R138). -/
def sliceStart (a : SliceAttr) : SliceSt :=
  { SliceSt.zero with base := a.agbase, len := agLen a.aglen, stride := a.agstride, off := a.agoffs % agLen a.aglen }

/-- Key of a slice. -/
def sliceKey (n k : Nat) : Nat := n * 512 + k

/-- A slice. -/
def State.slice (s : State) (n k : Nat) : SliceSt := SMap.get (fun _ => SliceSt.zero) s.slices (sliceKey n k)

/-- A slice replaced. -/
def State.setSlice (s : State) (n k : Nat) (v : SliceSt) : State :=
  { s with slices := SMap.set (fun _ => SliceSt.zero) s.slices (sliceKey n k) v }

/-- Attributes of slice k of position n. -/
def State.sliceAttrOf (s : State) (n k : Nat) : SliceAttr := sliceAttr (s.tileFrame n (sliceAnchor k).1 (sliceAnchor k).2)

/-! ## Lanes -/

/-- A field of `len` bits as a signed number. -/
def signed (len v : Nat) : Int := if 2 * (v % 2 ^ len) < 2 ^ len then (v % 2 ^ len : Nat) else (v % 2 ^ len : Nat) - (2 ^ len : Nat)

/-- A signed number fitted to w bits by the SAT rule (R126): the field, and whether it was clamped. -/
def fit (sat : Bool) (w : Nat) (v : Int) : Nat × Bool :=
  let lo : Int := -(2 ^ (w - 1) : Nat)
  let hi : Int := (2 ^ (w - 1) : Nat) - 1
  if sat && v < lo then ((lo % (2 ^ w : Nat)).toNat, true)
  else if sat && hi < v then (hi.toNat, true)
  else ((v % (2 ^ w : Nat)).toNat, false)

/-- The number of lanes of SPLIT. -/
def splitLanes (split : Nat) : Nat := if split = 0 then 1 else if split = 1 then 2 else 4

/-- The width of an accumulator lane. -/
def laneW (split : Nat) : Nat := 64 / splitLanes split

/-- The width of a product field. -/
def prodW (split : Nat) : Nat := if split = 0 then 48 else if split = 1 then 24 else 16

/-- Fold over lanes: the packed lanes of width w, and whether any lane was clamped. -/
def lanes (n w : Nat) (f : Nat → Nat × Bool) : Nat × Bool :=
  (List.range n).foldl (fun r k => (r.1 + (f k).1 * 2 ^ (w * k), r.2 || (f k).2)) (0, false)

/-- The products of X, AX and Y, with BX or C[31:24] at Y[31:24] (R125). -/
def products (split x ax y : Nat) : Nat :=
  let f := fun (w a b : Nat) => ((signed w a * signed w b) % (2 ^ (2 * w) : Nat)).toNat
  if split = 0 then f 24 (bits x 0 24) (bits y 0 24)
  else if split = 1 then f 12 (bits x 0 12) (bits y 0 12) + f 12 (bits x 12 12) (bits y 12 12) * 2 ^ 24
  else f 8 (bits x 0 8) (bits y 0 8) + f 8 (bits x 8 8) (bits y 8 8) * 2 ^ 16 + f 8 (bits x 16 8) (bits y 16 8) * 2 ^ 32 +
    f 8 ax (bits y 24 8) * 2 ^ 48

/-- The accumulator after base ± products, lane by lane (R122, R126). -/
def accumulate (split : Nat) (sat neg : Bool) (base p : Nat) : Nat × Bool :=
  lanes (splitLanes split) (laneW split) fun k =>
    let b := signed (laneW split) (bits base (laneW split * k) (laneW split))
    let m := signed (prodW split) (bits p (prodW split * k) (prodW split))
    fit sat (laneW split) (if neg then b - m else b + m)

/-- The accumulator that LDA loads from {Y, X} (R126). -/
def ldaAcc (split yx : Nat) : Nat :=
  if split = 0 then (signed 48 yx % (2 ^ 64 : Nat)).toNat
  else if split = 1 then
    (signed 24 (bits yx 0 24) % (2 ^ 32 : Nat)).toNat + (signed 24 (bits yx 24 24) % (2 ^ 32 : Nat)).toNat * 2 ^ 32
  else (List.range 4).foldl (fun a k => a + bits yx (12 * k) 12 * 2 ^ (16 * k)) 0

/-- OWID as a width. -/
def owidBits (o : Nat) : Nat :=
  match o with | 0 => 8 | 1 => 12 | 2 => 16 | 3 => 24 | 4 => 32 | _ => 48

/-- The output R of an accumulator, and whether a lane was clamped (R127). -/
def narrow (a : SliceAttr) (split : Nat) (sat rnd : Bool) (acc : Nat) : Nat × Bool :=
  let ow := 48 / splitLanes split
  let v := min (owidBits a.owid) ow
  lanes (splitLanes split) ow fun k =>
    let x := signed (laneW split) (bits acc (laneW split * k) (laneW split))
    let r := if rnd && 1 ≤ a.rshift then x + (2 ^ (a.rshift - 1) : Nat) else x
    let f := fit sat v (r / (2 ^ a.rshift : Nat))
    ((signed v f.1 % (2 ^ ow : Nat)).toNat, f.2)

/-! ## ACS and MINMAX -/

/-- One add-compare-select step (R131): the four new metrics, DEC, and whether a sum was clamped. -/
def acsStep (acsmap : Nat) (sat : Bool) (acc yx : Nat) : List Nat × Nat × Bool :=
  let sum := fun (m t : Nat) =>
    let v := bits acc (16 * m) 16 + bits yx (12 * bits acsmap (2 * t) 2) 12
    if sat then (if 0xFFFF < v then (0xFFFF, true) else (v, false)) else (v % 65536, false)
  (List.range 4).foldl (fun r j =>
    let ca := sum (2 * (j % 2)) (2 * j)
    let cb := sum (2 * (j % 2) + 1) (2 * j + 1)
    (r.1 ++ [min ca.1 cb.1], r.2.1 + (if cb.1 < ca.1 then 2 ^ j else 0), r.2.2 || ca.2 || cb.2)) ([], 0, false)

/-- Fields of equal width packed, first lowest. -/
def pack (w : Nat) : List Nat → Nat
  | [] => 0
  | x :: xs => x + 2 ^ w * pack w xs

/-! ## Coefficient RAM (R128, R141) -/

/-- A coefficient word with its error: the word delivered, single-bit, double-bit. Three or more wrong bits have no stated
result and take a free choice. -/
def State.coefWord (s : State) (n k w : Nat) : (Nat × Bool × Bool) × State :=
  let v := SMap.get (fun _ => 0) s.coef (coefKey n k w)
  let bad := SMap.get (fun _ => 0) s.coefFlip (coefKey n k w)
  match popcount 55 bad with
  | 0 => ((v, false, false), s)
  | 1 => ((v ^^^ bits bad 0 48, true, false), s)
  | 2 => ((v, false, true), s)
  | _ =>
    let f := s.free
    ((f.1 / 4 % 2 ^ 48, f.1.testBit 0, !f.1.testBit 0 && f.1.testBit 1), f.2)

/-- The address word of a slice (R36, KIND 0b100). -/
def State.sliceAddr (s : State) (n k : Nat) : Nat := addrWord 4 (packAddr s.devNum n (sliceAnchor k).1 (sliceAnchor k).2 0)

/-- A coefficient error recorded (R141). -/
def State.coefRecord (s : State) (n k w : Nat) (dbe : Bool) : State :=
  let p := s.phys n
  let newest := dbe || s.getF .grnSlcstatCDBECNT p == 0
  let t := (s.count (if dbe then .grnSlcstatCDBECNT else .grnSlcstatCSBECNT) 1 p).setOn .grnSlcstatCSEEN p
  let u := if newest then
      ((t.setF .grnSlccaddrADDR (s.sliceAddr n k) p).setF .grnSlcinfoCWORD w p).setF .grnSlcinfoCDBE dbe.toNat p
    else t
  if dbe then u.raiseG n 9 (s.sliceAddr n k) else u

/-- A coefficient read at step 1 (R124, R128). -/
def State.coefRead (s : State) (n k w : Nat) : Nat × State :=
  let c := s.coefWord n k w
  (c.1.1, if c.1.2.1 || c.1.2.2 then c.2.coefRecord n k w c.1.2.2 else c.2)

/-- A coefficient word written with its check bits (R128). -/
def State.coefWrite (s : State) (n k w v : Nat) : State :=
  { s with
    coef := SMap.set (fun _ => 0) s.coef (coefKey n k w) (v % 2 ^ 48)
    coefFlip := SMap.set (fun _ => 0) s.coefFlip (coefKey n k w) 0 }

/-- The pointer PTR (R129). -/
def SliceSt.ptr (c : SliceSt) : Nat := (c.base + c.off) % 1024

/-! ## The pipeline (R124) -/

/-- OP[11:0] of an operation code and its pins. -/
def opWord (opc : Nat) (p : SPins) : Nat :=
  opc + p.split.toNat * 2 ^ 4 + p.sat.toNat * 2 ^ 6 + p.ysrc.toNat * 2 ^ 7 + p.agadv.toNat * 2 ^ 8 + p.neg.toNat * 2 ^ 9 +
    p.rnd.toNat * 2 ^ 10 + p.asrc.toNat * 2 ^ 11

/-- An operation word is illegal in a slice with this MODE (R123). -/
def opIllegal (mode : Bool) (op : Nat) : Bool :=
  9 ≤ op % 16 || (1 ≤ op % 16 && op % 16 ≤ 4 && bits op 4 2 == 3) || (op % 16 == 8 && !mode)

/-- The slice to the south gives its AOUT and ACC, or 0 at anchor row 0 and where it steeps, is in die reset or in global
restore (R135, R136). -/
def State.southSlice (s : State) (n k : Nat) : SliceSt :=
  if k % 64 = 0 then SliceSt.zero
  else if s.restored n (sliceAnchor (k - 1)).1 (sliceAnchor (k - 1)).2 then SliceSt.zero
  else s.slice n (k - 1)

/-- Step 4: the output registers (R122, R126, R127, R131, R133). The manual states no DEC for NOP, CWR, AGSET and illegal
words: a free value. -/
def sliceOut (a : SliceAttr) (c : SliceSt) (free : Nat) : SliceSt :=
  let op := c.op3
  let opc := op % 16
  if opIllegal a.mode op then { c with illop := true, satf := false, dec := free % 16 }
  else if opc = 0 ∨ opc = 5 ∨ opc = 6 then { c with illop := false, satf := false, dec := free % 16 }
  else if opc = 7 then
    { c with illop := false, satf := c.sat3, dec := c.dec3
             r := pack 12 ((List.range 4).map fun j => min 0xFFF (bits c.acc (16 * j) 16)) }
  else if opc = 8 then { c with illop := false, satf := c.sat3, dec := 0, r := bits c.acc 0 48 }
  else
    let f := narrow a (bits op 4 2) (op.testBit 6) (op.testBit 10) c.acc
    { c with illop := false, satf := c.sat3 || f.2, dec := 0, r := f.1 }

/-- Step 3: the accumulate stage (R122, R126, R131–R133). `acin` is ACC of the slice to the south (R135). -/
def sliceAcc (a : SliceAttr) (acin : Nat) (c : SliceSt) : SliceSt :=
  let op := c.op2
  let opc := op % 16
  let split := bits op 4 2
  let sat := op.testBit 6
  let neg := op.testBit 9
  let put := fun (r : Nat × Bool) => { c with acc := r.1, sat3 := r.2, dec3 := 0 }
  let d := { c with sat3 := false, dec3 := 0 }
  if opIllegal a.mode op then d
  else match opc with
    | 1 => put (accumulate split sat neg 0 c.p2)
    | 2 => put (accumulate split sat neg c.acc c.p2)
    | 3 => put (accumulate split sat neg acin c.p2)
    | 4 => { d with acc := ldaAcc split c.p2, acs := 0, idxc := 0, empty := true }
    | 7 =>
      let r := acsStep a.acsmap sat c.acc c.p2
      let m := r.1.foldl min 0xFFFF
      if c.acs + 1 = 2 ^ a.normk then { c with acc := pack 16 (r.1.map (· - m)), acs := 0, sat3 := r.2.2, dec3 := r.2.1 }
      else { c with acc := pack 16 r.1, acs := c.acs + 1, sat3 := r.2.2, dec3 := r.2.1 }
    | 8 =>
      let x := bits c.p2 0 24
      let best := bits c.acc 0 24
      let take := c.empty || (if neg then signed 24 best < signed 24 x else signed 24 x < signed 24 best)
      { d with acc := if take then x + c.idxc * 2 ^ 24 else bits c.acc 0 34
               empty := false, idxc := min 1023 (c.idxc + 1), sat3 := c.idxc == 1023 }
    | _ => d

/-- Step 2: products, or the operands {Y, X} of LDA, ACS and MINMAX. -/
def sliceMul (c : SliceSt) : Nat :=
  let opc := c.op1 % 16
  if 1 ≤ opc ∧ opc ≤ 3 then products (bits c.op1 4 2) c.x1 c.ax1 c.y1 else c.x1 + bits c.y1 0 24 * 2 ^ 24

/-- Steps 4, 3 and 2 of the operations in flight, at one edge (R124). -/
def sliceAdvance (a : SliceAttr) (acin free : Nat) (c : SliceSt) : SliceSt :=
  let o := if c.v3 then sliceOut a c free else c
  let m := if o.v2 then sliceAcc a acin o else o
  { m with v3 := c.v2, op3 := if c.v2 then c.op2 else m.op3
           v2 := c.v1, op2 := if c.v1 then c.op1 else m.op2, p2 := if c.v1 then sliceMul c else m.p2 }

/-- The operation at step 4 leaves DEC unstated. -/
def decOpen (a : SliceAttr) (c : SliceSt) : Bool :=
  c.v3 && (opIllegal a.mode c.op3 || c.op3 % 16 == 0 || c.op3 % 16 == 5 || c.op3 % 16 == 6)

/-- An illegal operation recorded (R123, R141), at step 1 of its word (DEDUCED, log 11). -/
def State.illRecord (s : State) (n k op : Nat) : State :=
  let p := s.phys n
  let t := (((s.count .grnSlcstatILLCNT 1 p).setOn .grnSlcstatILLSEEN p).setF .grnSlcaddrADDR (s.sliceAddr n k) p).setF
    .grnSlcinfoOPW op p
  if s.isSet .grnSlcstatILLSEEN p then t else t.raiseG n 8 (s.sliceAddr n k)

/-- Step 1 of an operation (R121, R124, R128, R129). -/
def State.sliceIssue (s : State) (n k op : Nat) (p : SPins) (x : Nat) (c : SliceSt) : SliceSt × State :=
  let opc := op % 16
  let ill := opIllegal (s.sliceAttrOf n k).mode op
  let w := c.ptr
  let reads := !ill && (1 ≤ opc && opc ≤ 8 && opc != 5 && opc != 6) && p.ysrc
  let writes := !ill && opc == 5
  let rd := if reads then s.coefRead n k w else (0, s)
  let t := if writes then rd.2.coefWrite n k w (x + p.b.toNat * 2 ^ 24) else rd.2
  let y := if p.ysrc && opc != 5 && opc != 6 then rd.1 else p.b.toNat + p.bx.toNat * 2 ^ 24
  let adv := if (reads || writes) && p.agadv then { c with off := (c.off + c.stride) % c.len } else c
  let set := if !ill && opc == 6 then
      { adv with base := bits p.a.toNat 0 10, len := agLen (bits p.a.toNat 10 10), stride := bits p.b.toNat 0 10
                 off := bits p.b.toNat 10 10 % agLen (bits p.a.toNat 10 10) }
    else adv
  ({ set with v1 := true, op1 := op, x1 := x, ax1 := p.ax.toNat, y1 := y, aout := x },
    if ill then t.illRecord n k op else t)

/-- The 512 snapshot bits of a slice (R298). -/
def sliceSnap (c : SliceSt) : Nat :=
  c.acc + c.r * 2 ^ 64 + c.dec * 2 ^ 112 + c.satf.toNat * 2 ^ 116 + c.illop.toNat * 2 ^ 117 + c.aout * 2 ^ 118 +
  c.base * 2 ^ 142 + c.len % 1024 * 2 ^ 152 + c.stride * 2 ^ 162 + c.off * 2 ^ 172 + c.acs * 2 ^ 182 + c.idxc * 2 ^ 198 +
  c.empty.toNat * 2 ^ 208 + c.op1 * 2 ^ 209 + c.x1 * 2 ^ 221 + c.ax1 * 2 ^ 245 + c.y1 * 2 ^ 253 + c.op2 * 2 ^ 301 +
  c.p2 * 2 ^ 313 + c.op3 * 2 ^ 377 + (c.v1.toNat + 2 * c.v2.toNat + 4 * c.v3.toNat) * 2 ^ 389

/-- The slice's clock passes (R52, R119). -/
def State.sliceClocked (s : State) (n k : Nat) : Bool := s.tileClocked n (sliceAnchor k).1 (sliceAnchor k).2

/-- A pending capture takes the slice's snapshot before its first edge (R140, R295). -/
def State.captureSlice (s : State) (n k : Nat) : State :=
  s.captureBlock n (sliceAnchor k).1 (sliceAnchor k).2 (n * 1024 + k) (n * 1024 + k) (sliceSnap (s.slice n k))

/-- An active edge of a slice with RST = 0 and the operation word on OP (R119, R124). Where edges fall together, those of
northern slices are sent first, so that ACIN and AIN are as the southern slice's previous edge left them (log 12). -/
def State.sliceEdge (s : State) (r : SliceRef) (opc : Nat) (p : SPins) : State :=
  let n := r.pos.val
  let k := r.idx.val
  if !s.sliceClocked n k then s else
  let t := s.captureSlice n k
  if !p.ce then t else
  let a := t.sliceAttrOf n k
  let south := t.southSlice n k
  let c := t.slice n k
  let f := if decOpen a c then t.free else (0, t)
  let x := if p.asrc then south.aout else p.a.toNat
  let i := f.2.sliceIssue n k (opWord opc p) p x (sliceAdvance a south.acc f.1 c)
  i.2.setSlice n k i.1

/-- NOP (R122). -/
def execNop (r : SliceRef) (p : SPins) (s : State) : Res := .next (s.sliceEdge r 0 p)

/-- MUL (R122). -/
def execMul (r : SliceRef) (p : SPins) (s : State) : Res := .next (s.sliceEdge r 1 p)

/-- MAC (R122). -/
def execMac (r : SliceRef) (p : SPins) (s : State) : Res := .next (s.sliceEdge r 2 p)

/-- MACC (R122). -/
def execMacc (r : SliceRef) (p : SPins) (s : State) : Res := .next (s.sliceEdge r 3 p)

/-- LDA (R126). -/
def execLda (r : SliceRef) (p : SPins) (s : State) : Res := .next (s.sliceEdge r 4 p)

/-- CWR (R122). -/
def execCwr (r : SliceRef) (p : SPins) (s : State) : Res := .next (s.sliceEdge r 5 p)

/-- AGSET (R129). -/
def execAgset (r : SliceRef) (p : SPins) (s : State) : Res := .next (s.sliceEdge r 6 p)

/-- ACS (R131). -/
def execAcs (r : SliceRef) (p : SPins) (s : State) : Res := .next (s.sliceEdge r 7 p)

/-- MINMAX (R133). -/
def execMinmax (r : SliceRef) (p : SPins) (s : State) : Res := .next (s.sliceEdge r 8 p)

/-- ILLEGAL_OPERATION (R123): a word whose OPC is the operand; a word that is legal is not one of these events. -/
def execIllegalOperation (r : SliceRef) (opc : BitVec 4) (p : SPins) (s : State) : Res :=
  .next (if opIllegal (s.sliceAttrOf r.pos r.idx).mode (opWord opc.toNat p) then s.sliceEdge r opc.toNat p else s)

/-- SLICE_RESET (R137): RST = 1 on an active edge, whatever CE is. -/
def execSliceReset (r : SliceRef) (s : State) : Res :=
  let n := r.pos.val
  let k := r.idx.val
  .next (if !s.sliceClocked n k then s else
    let t := s.captureSlice n k
    let c := t.slice n k
    t.setSlice n k { SliceSt.zero with base := c.base, len := c.len, stride := c.stride })

end Sys2Proof.Machine
end

