-- ==== Sys2Proof/Machine/Links.lean ====
section
/-! DEFINITION. Die links (R199–R214): lanes, margin windows, retirement, lane death, folding, link states, and the crossing
tables of a grain (R240) that they depend on. -/

namespace Sys2Proof.Machine

/-! ## Link directions and their registers -/

/-- The key of a link direction: physical grain × 4 + port, or 256 + Tun port. -/
def linkKey : LinkDir → Nat
  | .grain p d => 4 * p.val + d.num
  | .tun k => 256 + k.val

/-- A field of GRN_LNKSTAT of the direction, or the same field `g` of DIE_TLNKSTAT for a Tun port. -/
def State.setLink (s : State) (l : LinkDir) (f g : Fld) (v : Nat) : State :=
  match l with
  | .grain p d => s.setF f v p d.num
  | .tun k => s.setF g v k

/-- The value of such a field. -/
def State.getLink (s : State) (l : LinkDir) (f g : Fld) : Nat :=
  match l with
  | .grain p d => s.getF f p d.num
  | .tun k => s.getF g k

/-- A link direction's state. -/
def State.lnk (s : State) (l : LinkDir) : LinkSt := SMap.get (fun _ => LinkSt.initial) s.link (linkKey l)

/-- A link direction's state replaced. -/
def State.setLnk (s : State) (l : LinkDir) (v : LinkSt) : State :=
  { s with link := SMap.set (fun _ => LinkSt.initial) s.link (linkKey l) v }

/-- The position that receives on a link direction, if one does. -/
def State.linkPos (s : State) (l : LinkDir) : Option Nat :=
  match l with
  | .grain p _ => s.posOf p
  | .tun _ => none

/-- A raise of source 16n + k for the position that receives on a link direction; a displaced grain, an idle spare or a Tun
port raises nothing (R232, R466). -/
def State.raiseLink (s : State) (l : LinkDir) (k : Nat) : State := (s.linkPos l).elim s fun n => s.raiseG n k

/-- The count register of a lane of a grain's port (the Tun has none). -/
def State.setLaneCnt (s : State) (l : LinkDir) (lane v : Nat) : State :=
  match l with
  | .grain p d => s.setF .grnLanecntCOUNT v p (128 * d.num + lane)
  | .tun _ => s

/-! ## Lanes -/

/-- The half a lane belongs to (R199, R200): 0 A, 1 B, 2 NoC, 3 clock lanes. -/
def laneHalf (i : Nat) : Nat :=
  if i < 32 then 0 else if i < 64 then 1 else if i < 68 then 0 else if i < 72 then 1
  else if i < 76 then 0 else if i < 80 then 1 else if i < 100 then 2 else 3

/-- The spares of a half or of the NoC sub-link. -/
def spareLanes (h : Nat) : List Nat :=
  if h = 0 then [64, 65, 66, 67] else if h = 1 then [68, 69, 70, 71] else if h = 2 then [96, 97, 98, 99] else []

/-- The payload lanes of a half or of the NoC sub-link. -/
def payloadLanes (h : Nat) : List Nat :=
  if h = 0 then List.range 32 else if h = 1 then (List.range 32).map (· + 32) else if h = 2 then (List.range 16).map (· + 80)
  else []

/-- A lane is retired or dead. -/
def LinkSt.isRetired (v : LinkSt) (i : Nat) : Bool := v.retired.testBit i

/-- The physical lane that carries a logical payload lane. -/
def LinkSt.hostOf (v : LinkSt) (i : Nat) : Nat := ((v.hosts.find? fun e => e.1 == i).map (·.2)).getD i

/-- The logical payload lane that a physical lane carries, if one. -/
def LinkSt.carried (v : LinkSt) (phys : Nat) : Option Nat :=
  match v.hosts.find? fun e => e.2 == phys with
  | some e => some e.1
  | none =>
    if (phys < 64 || (80 ≤ phys && phys < 96)) && !(v.hosts.any fun e => e.1 == phys) then some phys else none

/-- The lowest-numbered free spare of a half (R208): in service, carrying nothing and promised to nothing. -/
def LinkSt.freeSpare (v : LinkSt) (h : Nat) : Option Nat :=
  (spareLanes h).find? fun i =>
    !v.isRetired i && !(v.hosts.any fun e => e.2 == i) && !(v.moving.any fun e => e.2.2 == i)

/-- A logical lane moved to a physical lane. -/
def LinkSt.place (v : LinkSt) (logical phys : Nat) : LinkSt :=
  { v with hosts := (v.hosts.filter fun e => e.1 != logical) ++ (if logical = phys then [] else [(logical, phys)])
           down := setBit v.down logical false }

/-- Physical lanes of a half or of the NoC sub-link in service, P and SP (R211). -/
def LinkSt.inService (v : LinkSt) (h : Nat) : Nat :=
  ((payloadLanes h ++ spareLanes h).filter fun i => !v.isRetired i).length

/-- Spares in use as a mask. -/
def LinkSt.sparesUsed (v : LinkSt) (h : Nat) : Nat :=
  (spareLanes h).zipIdx.foldl (fun m e => if v.hosts.any (fun x => x.2 == e.1) then m + 2 ^ e.2 else m) 0

/-! ## Crossing tables (R240) -/

/-- Entry i of the incoming rigid table of port d of position n. -/
def State.rigidIn (s : State) (n d i : Nat) : Nat :=
  bits (s.frame n (faddrOf 3 (80 * d + 8 + i / 128))).data (16 * (i % 128)) 16

/-- Entry i of the outgoing rigid table. -/
def State.rigidOut (s : State) (n d i : Nat) : Nat :=
  bits (s.frame n (faddrOf 3 (80 * d + i / 128))).data (16 * (i % 128)) 16

/-- Entry c of the incoming elastic table. -/
def State.elasticIn (s : State) (n d c : Nat) : Nat :=
  bits (s.frame n (faddrOf 3 (80 * d + 48 + c / 32))).data (64 * (c % 32)) 64

/-- Entry c of the outgoing elastic table. -/
def State.elasticOut (s : State) (n d c : Nat) : Nat :=
  bits (s.frame n (faddrOf 3 (80 * d + 16 + c / 32))).data (64 * (c % 32)) 64

/-- The primary payload lane of RIDX i; the partner is 32 above (R174). -/
def rigidLane (i : Nat) : Nat := 8 * (i / 256) + i % 256 / 64

/-- A payload lane of half A carries a rigid slot of the port. -/
def State.rigidLaneUsed (s : State) (n d lane : Nat) : Bool :=
  lane % 8 < 4 && (List.range 64).any fun b => (s.rigidIn n d (256 * (lane / 8) + 64 * (lane % 8) + b)).testBit 14

/-- The rigid lanes in use of half A, as a mask; half B carries the partners, 32 lanes above. -/
def State.rigidMask (s : State) (n d : Nat) : Nat :=
  (List.range 32).foldl (fun m i => if s.rigidLaneUsed n d i then m + 2 ^ i else m) 0

/-- The payload lane of data slot k of lane group g (R179): P(8g+4)–P(8g+6), then bits of P(8g+7), then the group's rigid lanes
without a rigid slot, in lane order. -/
def slotLane (rigid g k : Nat) : Nat :=
  if k < 192 then 8 * g + 4 + k / 64
  else if k < 208 then 8 * g + 7
  else ((List.range 4).filter fun j => !rigid.testBit ((8 * g + j) % 32)).getD ((k - 208) / 64) 7 + 8 * g

/-- The logical lanes of the port that carry elastic slots or an overhead field, as a mask (R211). Every group has its overhead
field (DEDUCED, log 13). -/
def State.elasticMask (s : State) (n d : Nat) : Nat :=
  let rigid := s.rigidMask n d
  let head := (List.range 8).foldl (fun m g => m + 2 ^ (8 * g + 7)) 0
  (List.range 1024).foldl (fun m c =>
    let e := s.elasticIn n d c
    if !e.testBit 41 then m
    else (List.range (bits e 21 9 + 1)).foldl (fun m k => setBit m (slotLane rigid (bits e 36 3) (bits e 44 9 + k)) true) m) head

/-! ## The fold (R211–R213) -/

/-- What decides the fold of a crossing sub-link direction: S_h, K_h and N_h of halves A and B. -/
structure FoldQ where
  sA : Nat
  sB : Nat
  kA : Nat
  kB : Nat
  nA : Nat
  nB : Nat
  deriving DecidableEq, Repr

/-- The quantities of R211 of a link direction as it stands. -/
def State.foldQ (s : State) (l : LinkDir) : FoldQ :=
  let v := s.lnk l
  match l, s.linkPos l with
  | .grain _ d, some n =>
    let k := popcount 32 (s.rigidMask n d.num)
    let e := s.elasticMask n d.num
    ⟨v.inService 0, v.inService 1, k, k, popcount 32 (bits e 0 32), popcount 32 (bits e 32 32)⟩
  | _, _ => ⟨v.inService 0, v.inService 1, 0, 0, 4, 4⟩

/-- Group-cycles per fold frame of a half (R212). -/
def foldCycles (s k n : Nat) : Nat := if s - k < n then 64 * (s - k) / n else 64

/-- S, the surviving payload lanes (R211). -/
def FoldQ.surv (q : FoldQ) : Nat := min 32 q.sA + min 32 q.sB

/-- The state of a crossing sub-link direction (R213): 0 Normal, 1 Folded, 2 Critical, 3 Fault. -/
def FoldQ.state (q : FoldQ) : Nat :=
  if q.surv < 32 ∨ q.sA < q.kA ∨ q.sB < q.kB then 3
  else if q.surv < 40 then 2
  else if q.sA - q.kA < q.nA ∨ q.sB - q.kB < q.nB then 1
  else 0

/-- A record in DIE_FAULT (R213, R214, R232). -/
def State.dieFault (s : State) (l : LinkDir) (kind surv : Nat) (noc : Bool) : State :=
  let phys := match l with | .grain p _ => p.val | .tun _ => 0x3F
  let port := match l with | .grain _ d => d.num | .tun k => k.val % 4
  let t := ((((s.setF .dieFaultPHYS phys).setF .dieFaultPORT port).setF .dieFaultKIND kind).setF .dieFaultLPOS
    ((s.linkPos l).getD 0x3F)).setF .dieFaultSURV surv
  ((t.setF .dieFaultSUB noc.toNat).count .dieFaultCOUNT).setOn .dieFaultSEEN

/-- The lane counts of GRN_LNKSTAT as they stand. -/
def State.updLanes (s : State) (l : LinkDir) : State :=
  let v := s.lnk l
  let t := (s.setLink l .grnLnkstatNSPUSED .dieTlnkstatNSPUSED (popcount 4 (v.sparesUsed 2))).setLink l .grnLnkstatNSURV
    .dieTlnkstatNSURV (v.inService 2)
  match l with
  | .tun _ => t
  | .grain p d =>
    (((t.setF .grnLnkstatSPUSEDA (v.sparesUsed 0) p d.num).setF .grnLnkstatSPUSEDB (v.sparesUsed 1) p d.num).setF
      .grnLnkstatSURVA (v.inService 0) p d.num).setF .grnLnkstatSURVB (v.inService 1) p d.num

/-- The state of the crossing sub-link evaluated; it returns to Normal only at a link start (R213). A change raises event 12,
and event 13 with a record for Critical and Fault. -/
def State.evalLink (s : State) (l : LinkDir) (start : Bool) : State :=
  match l with
  | .tun _ => s
  | .grain p d =>
    let q := s.foldQ l
    let old := s.getF .grnLnkstatSTATE p d.num
    let new := if start then q.state else max old q.state
    if new = old then s else
    let t := (s.setF .grnLnkstatSTATE new p d.num).raiseLink l 12
    if new < 2 then t else (t.dieFault l (if new = 2 then 1 else 0) q.surv false).raiseLink l 13

/-- The NoC sub-link after a lane left service: LINK_CRITICAL below 10 surviving lanes, a die-link fault below 8 (R214). -/
def State.evalNoc (s : State) (l : LinkDir) (before : Nat) : State :=
  let now := (s.lnk l).inService 2
  if now < 8 ∧ 8 ≤ before then (s.dieFault l 0 now true).raiseLink l 13
  else if now < 10 ∧ 10 ≤ before then (s.dieFault l 1 now true).raiseLink l 13
  else s

/-! ## Retirement -/

/-- A lane leaves service: recorded with event 12 (R208 step 5, R232). -/
def State.retireLane (s : State) (l : LinkDir) (lane : Nat) : State :=
  let v := s.lnk l
  let t := (s.setLnk l { v with retired := setBit v.retired lane true }).setLaneCnt l lane 0xFFFF
  ((t.setLink l .grnLnkstatLASTRET .dieTlnkstatLASTRET lane).setLink l .grnLnkstatRETSEEN .dieTlnkstatRETSEEN 1).raiseLink l 12

/-- Counts and states after a lane left service or a lane was restored. -/
def State.lanesChanged (s : State) (l : LinkDir) (nocBefore : Nat) : State := ((s.updLanes l).evalLink l false).evalNoc l nocBefore

/-- The retirement at the head completes: the spare takes the lane, and the old lane leaves service (R208 steps 4 and 5). -/
def State.retireDone (s : State) (l : LinkDir) : State :=
  let v := s.lnk l
  match v.moving with
  | [] => s
  | (logical, old, spare) :: rest =>
    let t := s.setLnk l { (v.place logical spare) with moving := rest, copying := false }
    (t.retireLane l old).lanesChanged l (v.inService 2)

/-- A lane retired by folding: no spare is free (R209, R210). -/
def State.retireByFold (s : State) (l : LinkDir) (logical lane : Nat) : State :=
  let v := s.lnk l
  let t := s.setLnk l { v with down := setBit v.down logical true }
  (t.retireLane l lane).lanesChanged l (v.inService 2)

/-- Retirement of a lane begins (R208 step 1), or the lane is retired at once when it carries nothing or no spare is free. -/
def State.startRetire (s : State) (l : LinkDir) (lane : Nat) : State :=
  let v := s.lnk l
  match v.carried lane with
  | none => (s.retireLane l lane).lanesChanged l (v.inService 2)
  | some logical =>
    match v.freeSpare (laneHalf lane) with
    | some spare => s.setLnk l { v with moving := v.moving ++ [(logical, lane, spare)] }
    | none => s.retireByFold l logical lane

/-- DIE_LTHR.RETIRE, 0 acting as 1. -/
def State.retireThr (s : State) : Nat := max 1 (s.getF .dieLthrRETIRE)

/-- MARGIN_WINDOW_END (R205, R208): clock lanes have no margin count in the model's retirement. -/
def execMarginWindowEnd (l : LinkDir) (lane : Fin 104) (count : Nat) (s : State) : Res :=
  let v := s.lnk l
  .next (if !v.up || v.isRetired lane then s else
    let t := s.setLaneCnt l lane (min count 0xFFFF)
    if s.retireThr < count && laneHalf lane != 3 && !(v.moving.any fun e => e.2.1 == lane.val) then t.startRetire l lane else t)

/-- SPARE_COPY_REQUEST (R208 step 2). -/
def execSpareCopyRequest (l : LinkDir) (s : State) : Res :=
  let v := s.lnk l
  .next (if v.up && !v.moving.isEmpty && !v.copying then s.setLnk l { v with copying := true } else s)

/-- SPARE_QUALIFIED (R208 steps 4 and 5, R209). -/
def execSpareQualified (l : LinkDir) (s : State) : Res :=
  .next (if (s.lnk l).copying then s.retireDone l else s)

/-- SPARE_COMPARE_TIMEOUT (R209): without a margin event of the spare the receiver switches anyway; otherwise the spare is
retired and the next one is tried. -/
def execSpareCompareTimeout (l : LinkDir) (spareHadMargin : Bool) (s : State) : Res :=
  let v := s.lnk l
  .next (if !v.copying then s
    else if !spareHadMargin then s.retireDone l
    else match v.moving with
      | [] => s
      | (_, old, spare) :: rest =>
        let t := (s.setLnk l { v with moving := rest, copying := false }).retireLane l spare
        (t.lanesChanged l (v.inService 2)).startRetire l old)

/-! ## Pair loss (R175) -/

/-- A lane of the crossing sub-link is without a working host. -/
def LinkSt.laneDown (v : LinkSt) (i : Nat) : Bool := v.down.testBit i

/-- Both copies of RIDX i are unusable on the link direction. -/
def LinkSt.pairDown (v : LinkSt) (i : Nat) : Bool := v.laneDown (rigidLane i) && v.laneDown (rigidLane i + 32)

/-- The pair losses of the rigid slots of one pair of lanes, lowest RIDX first (R175, R198). -/
def State.pairLosses (s : State) (l : LinkDir) (lane : Nat) : State :=
  match l, s.linkPos l with
  | .grain p d, some n =>
    if (s.lnk l).laneDown (lane % 32) && (s.lnk l).laneDown (lane % 32 + 32) && lane % 8 < 4 then
      (List.range 64).foldl (fun t b =>
        let i := 256 * (lane % 32 / 8) + 64 * (lane % 8) + b
        if (s.rigidIn n d.num i).testBit 14 then
          (((t.setBitF .grnXstatPAIRLOSTSEEN d.num true p).setF .grnXpairRIDX i p).setF .grnXpairPORT d.num p).raiseG n 11
        else t) s
    else s
  | _, _ => s

/-- LANE_DEATH (R210): the lane is out of service from this cycle; the move to a free spare follows, and without one the link
folds. A dead clock lane is a lost clock lane (R202). -/
def execLaneDeath (l : LinkDir) (lane : Fin 104) (s : State) : Res :=
  let v := s.lnk l
  let i := lane.val
  .next (if !v.up || v.isRetired i then s
    else if 100 ≤ i then
      let t := s.setLnk l { v with ckLost := setBit v.ckLost (i - 100) true }
      if i % 2 = 0 then t.setLink l .grnLnkstatCKB .dieTlnkstatCKB 1 else t
    else
      let w := { v with moving := v.moving.filter fun e => e.2.1 != i && e.2.2 != i
                        copying := v.copying && !((v.moving.take 1).any fun e => e.2.1 == i || e.2.2 == i) }
      match v.carried i with
      | none => ((s.setLnk l w).retireLane l i).lanesChanged l (v.inService 2)
      | some logical =>
        let x := { w with down := setBit w.down logical true }
        let y := match x.freeSpare (laneHalf i) with
          | some spare => { x with moving := x.moving ++ [(logical, i, spare)] }
          | none => x
        (((s.setLnk l y).retireLane l i).lanesChanged l (v.inService 2)).pairLosses l logical)

/-- DEAD_LANE_MOVED (R210): both copies are used again. -/
def execDeadLaneMoved (l : LinkDir) (lane : Fin 104) (s : State) : Res :=
  let v := s.lnk l
  .next (match v.moving.find? fun e => e.2.1 == lane.val with
    | some e =>
      if v.isRetired lane then
        (s.setLnk l { (v.place e.1 e.2.2) with moving := v.moving.erase e }).lanesChanged l (v.inService 2)
      else s
    | none => s)

/-- A rigid logical lane without a host takes the lowest physical lane of its half that is in service and hosts no rigid lane
(R211, R212); the lane it displaces loses its host. -/
def LinkSt.rehost (rigid : Nat) (v : LinkSt) (logical : Nat) : LinkSt :=
  if !v.laneDown logical || !rigid.testBit (logical % 32) then v else
  let h := laneHalf logical
  let free := (payloadLanes h ++ spareLanes h).find? fun i =>
    !v.isRetired i && !(v.moving.any fun e => e.2.2 == i) &&
    match v.carried i with
    | some c => !rigid.testBit (c % 32) || v.laneDown c
    | none => true
  match free with
  | none => v
  | some i =>
    match v.carried i with
    | some c => { (v.place logical i) with down := setBit (setBit v.down logical false) c true }
    | none => v.place logical i

/-- FOLD_CHANGE (R212): the new layout at both ends; rigid lanes are hosted first. -/
def execFoldChange (l : LinkDir) (s : State) : Res :=
  .next (match l, s.linkPos l with
    | .grain p d, some n =>
      let q := s.foldQ l
      let v := (payloadLanes 0 ++ payloadLanes 1).foldl (LinkSt.rehost (s.rigidMask n d.num)) (s.lnk l)
      ((s.setLnk l v).setF .grnLnkstatFOLDA (foldCycles q.sA q.kA q.nA) p d.num).setF .grnLnkstatFOLDB
        (foldCycles q.sB q.kB q.nB) p d.num
    | _, _ => s)

/-- NOC_FLIT_REPLAY (R214): the flit is sent again; nothing the part keeps changes. -/
def execNocFlitReplay (_l : LinkDir) (s : State) : Res := .next s

/-! ## Clock lanes (R202) -/

/-- CKB of GRN_LNKSTAT as the clock lanes stand. -/
def State.updCkb (s : State) (l : LinkDir) : State :=
  let v := s.lnk l
  s.setLink l .grnLnkstatCKB .dieTlnkstatCKB (if v.ckLost.testBit 0 || v.ckLost.testBit 2 then 1 else 0)

/-- CLOCK_LANE_LOSS: CKA of the sub-link is lost and CKB is sampled. -/
def execClockLaneLoss (l : LinkDir) (noc : Bool) (s : State) : Res :=
  let v := s.lnk l
  .next ((s.setLnk l { v with ckLost := setBit v.ckLost (if noc then 2 else 0) true }).updCkb l)

/-- CLOCK_LANE_RETURN: CKA is present again. -/
def execClockLaneReturn (l : LinkDir) (noc : Bool) (s : State) : Res :=
  let v := s.lnk l
  .next ((s.setLnk l { v with ckLost := setBit v.ckLost (if noc then 2 else 0) false }).updCkb l)

/-! ## Link start (R207) -/

/-- A lane that trained badly is retired, and its logical lane takes a spare or is left to the fold. -/
def State.trainedBad (s : State) (l : LinkDir) (lane : Nat) : State :=
  let v := s.lnk l
  let t := s.retireLane l lane
  if 64 ≤ lane ∧ ¬(80 ≤ lane ∧ lane < 96) then t else
  let w := t.lnk l
  match w.freeSpare (laneHalf lane) with
  | some spare => t.setLnk l (w.place lane spare)
  | none => t.setLnk l { w with down := setBit v.down lane true }

end Sys2Proof.Machine
end

