-- ==== Sys2Proof/Machine/TimeOps.lean ====
section
/-! DEFINITION. Device time (R402–R406): the layout of time values, the replicas, and the crossing edge as the TMU sees it. The
commands stand in Tmu.lean. -/

namespace Sys2Proof.Machine

/-- The fields of a pair of time-valued registers. -/
structure TimeFlds where
  frac  : Fld
  ns    : Fld
  seclo : Fld
  sechi : Fld
  deriving DecidableEq, Repr

/-- TMU_TIMELO and TMU_TIMEHI. -/
def timeFlds : TimeFlds := ⟨.tmuTimeloFRAC, .tmuTimeloNS, .tmuTimeloSECLO, .tmuTimehiSECHI⟩

/-- TMU_STEPLO and TMU_STEPHI. -/
def stepFlds : TimeFlds := ⟨.tmuSteploFRAC, .tmuSteploNS, .tmuSteploSECLO, .tmuStephiSECHI⟩

/-- TMR_STARTLOc and TMR_STARTHIc. -/
def startFlds : TimeFlds := ⟨.tmrStartloFRAC, .tmrStartloNS, .tmrStartloSECLO, .tmrStarthiSECHI⟩

/-- WIN_STARTLOw and WIN_STARTHIw. -/
def winStartFlds : TimeFlds := ⟨.winStartloFRAC, .winStartloNS, .winStartloSECLO, .winStarthiSECHI⟩

/-- WIN_ENDLOw and WIN_ENDHIw. -/
def winEndFlds : TimeFlds := ⟨.winEndloFRAC, .winEndloNS, .winEndloSECLO, .winEndhiSECHI⟩

/-- WIN_FIRSTLOw and WIN_FIRSTHIw. -/
def winFirstFlds : TimeFlds := ⟨.winFirstloFRAC, .winFirstloNS, .winFirstloSECLO, .winFirsthiSECHI⟩

/-- A second in 2^-16 ns. -/
def secUnits : Nat := 1000000000 * 65536

/-- Time values lie below this (R402). -/
def timeLimit : Nat := 2 ^ 48 * secUnits

/-- A microsecond in 2^-16 ns. -/
def usUnits : Nat := 1000 * 65536

/-- A nanosecond in 2^-16 ns. -/
def nsUnits : Nat := 65536

/-- V of the time value that instance i of a pair holds (R402). -/
def State.timeOf (s : State) (t : TimeFlds) (i : Nat := 0) : Nat :=
  (s.getF t.seclo i + 65536 * s.getF t.sechi i) * secUnits + s.getF t.ns i * 65536 + s.getF t.frac i

/-- A pair takes the time value V. -/
def State.setTime (s : State) (t : TimeFlds) (v : Nat) (i : Nat := 0) : State :=
  let sec := v / secUnits % 2 ^ 48
  (((s.setF t.frac (v % 65536) i).setF t.ns (v % secUnits / 65536) i).setF t.seclo (sec % 65536) i).setF t.sechi (sec / 65536) i

/-- Device time V. -/
def State.now (s : State) : Nat := s.timeOf timeFlds

/-- TIME_SEC of device time. -/
def State.nowSec (s : State) : Nat := s.now / secUnits

/-- The 64-bit LO value of a time (Time-valued registers). -/
def timeLo (v : Nat) : Nat := v % 65536 + v % secUnits / 65536 * 2 ^ 16 + v / secUnits % 65536 * 2 ^ 48

/-- The 32-bit HI value of a time. -/
def timeHi (v : Nat) : Nat := v / secUnits / 65536 % 2 ^ 32

/-- The value two of three replicas hold; the first when all differ. -/
def majority (r : Nat × Nat × Nat) : Nat := if r.2.1 = r.2.2 then r.2.1 else r.1

/-- Every replica of a grain changed by f. -/
def State.mapReplicas (s : State) (f : Nat → Nat) : State :=
  (s.replicas.map (·.1)).foldl (fun t p =>
    match SMap.get (fun _ => none) t.replicas p with
    | some r => { t with replicas := SMap.set (fun _ => none) t.replicas p (some (f r.1, f r.2.1, f r.2.2)) }
    | none => t) s

/-- The replicas of grain p are loaded from the Tun (R215 step 2, R406). -/
def State.loadReplicas (s : State) (p : Nat) : State :=
  { s with replicas := SMap.set (fun _ => none) s.replicas p (some (s.edgeTime, s.edgeTime, s.edgeTime)) }

/-- A crossing edge: device time at the edge and every replica advance by 2 × TMU_INC (R406), and pulses of timed lines whose
cycle is over are dropped. -/
def State.timeEdge (s : State) : State :=
  let step := fun v : Nat => (v + 2 * s.incNow) % timeLimit
  let t := s.mapReplicas step
  { t with edgeTime := step t.edgeTime, lines := t.lines.filter fun e => decide (s.xidx + 1 ≤ e.2) }

end Sys2Proof.Machine
end

