-- ==== Sys2Proof/Machine/Crossings.lean ====
section
/-! DEFINITION. Die crossings (R168–R198): rigid crossings as pipelines of 6 cycles a hop, elastic channels as credit-controlled
FIFOs, rest values, replays, and the missing-clock detector. -/

namespace Sys2Proof.Machine

/-! ## Ends and conditions -/

/-- The key of a link direction of a PATH: position, incoming port, index. -/
def hopKey (h : Hop) : Nat := (h.pos.val * 4 + h.port.num) * 1024 + h.idx.val

/-- The tile an edge pin lies in (R193). -/
def edgeTile (d pin : Nat) : Nat × Nat :=
  if d = 0 then (pin / 16, 127) else if d = 2 then (pin / 16, 0) else if d = 1 then (191, pin / 16 + 1) else (0, pin / 16 + 1)

/-- The number of the opposite port. -/
def oppNum (d : Nat) : Nat := (d + 2) % 4

/-- A rest condition at a source in this tile (R187): die reset, global restore, steeping floor, Retain or Off. -/
def State.sourceRests (s : State) (n col row : Nat) : Bool :=
  s.restored n col row || s.isSet .pwrDstatISO n || 2 ≤ s.getF .pwrDstatSTATE n

/-- The port number of a port code. -/
def portOf (d : Nat) : GPort := if d = 0 then .n else if d = 1 then .e else if d = 2 then .s else .w

/-- The link direction entering position n by port d shows rest values by its downstream block (R187, R188, R197). -/
def State.hopRests (s : State) (n d : Nat) : Bool :=
  s.bitF .grnXstatCLKMISS d (s.phys n) || s.remapStops n || (posNbr n (portOf d)).any s.remapStops

/-- The forwarded crossing clock of the direction is missing and not yet detected: the last values hold (R188). -/
def State.hopHolds (s : State) (n d : Nat) : Bool :=
  (posNbr n (portOf d)).any (fun m => (SMap.get (fun _ => ClkSt.initial) s.clk (s.phys m)).lost) ||
  ((SMap.get (fun _ => LinkSt.initial) s.link (4 * s.phys n + d)).ckLost % 4 == 3)

/-- Both copies of RIDX i on the direction entering position n by port d are unusable (R175). -/
def State.hopPairDown (s : State) (n d i : Nat) : Bool :=
  (SMap.get (fun _ => LinkSt.initial) s.link (4 * s.phys n + d)).pairDown i

/-- A rest value: constant, or the value before (R171, R189). -/
def restValue (rest : Nat) (before : Bool) : Bool := if rest = 0 then false else if rest = 1 then true else before

/-! ## Rigid crossings -/

/-- A crossing nothing has launched. -/
def XrSt.initial : XrSt := ⟨false, [], false⟩

/-- The landing position, port and index of a PATH. -/
def lastHop (hs : List Hop) : Nat × Nat × Nat :=
  match hs.getLast? with
  | some h => (h.pos.val, h.port.num, h.idx.val)
  | none => (0, 0, 0)

/-- The table entry of a rigid crossing at its destination. -/
def State.xrEntry (s : State) (x : XrRef) : Nat :=
  let l := lastHop x.hops
  s.rigidIn l.1 l.2.1 l.2.2

/-- The key of a crossing: its last link direction. -/
def pathKey (hs : List Hop) : Nat := (hs.getLast?.map hopKey).getD 0

/-- The tile of D at the source (R192, R193). -/
def State.xrSourceTile (s : State) (x : XrRef) : Nat × Nat :=
  match x.hops with
  | h :: _ => edgeTile (oppNum h.port.num) (bits (s.rigidOut x.src (oppNum h.port.num) h.idx) 0 12)
  | [] => (0, 0)

/-- What the link directions of a PATH of k hops do to the values in flight: index 6(k − i) of the pipe, oldest first, is at the
receiving end of hop i (R173, R187). -/
def State.substitute (s : State) (rest : Nat) (hops : List Hop) (before : Bool) (pipe : List Bool) : List Bool :=
  let k := hops.length
  (hops.zipIdx.foldl (fun (p : List Bool) e =>
    let n := e.1.pos.val
    let d := e.1.port.num
    let m := 6 * (k - 1 - e.2)
    let prev := if m = 0 then before else pipe.getD (m - 1) before
    if s.hopRests n d || s.hopPairDown n d e.1.idx then p.set m (restValue rest prev)
    else if s.hopHolds n d then p.set m prev else p) pipe)

/-- One crossing-clock edge of a rigid crossing with D (R173, R187–R191). -/
def State.xrEdge (s : State) (x : XrRef) (d : Bool) : State :=
  let e := s.xrEntry x
  if x.hops.isEmpty || !e.testBit 14 then s else
  let key := pathKey x.hops
  let rest := bits e 12 2
  let c := SMap.get (fun _ => XrSt.initial) s.xr key
  let src := s.xrSourceTile x
  let launch := if s.sourceRests x.src src.1 src.2 then restValue rest c.last else d
  let last := if s.sourceRests x.src src.1 src.2 then c.last else d
  let k := x.hops.length
  let full := (if c.pipe.length = 6 * k then c.pipe else List.replicate (6 * k) (restValue rest false)) ++ [launch]
  let moved := s.substitute rest x.hops c.q full
  let l := lastHop x.hops
  let t := edgeTile l.2.1 (bits e 0 12)
  let q := if s.restored l.1 t.1 t.2 then restValue rest c.q else moved.headD c.q
  { s with xr := SMap.set (fun _ => XrSt.initial) s.xr key ⟨last, moved.drop 1, q⟩ }

/-! ## Elastic channels -/

/-- A channel. -/
def State.chan (s : State) (key : Nat) : XeSt := SMap.get (fun _ => XeSt.idle) s.xe key

/-- A channel replaced. -/
def State.setChan (s : State) (key : Nat) (c : XeSt) : State := { s with xe := SMap.set (fun _ => XeSt.idle) s.xe key c }

/-- The table entry of a channel at its destination; the key names it. -/
def State.xeEntry (s : State) (key : Nat) : Nat := s.elasticIn (key / 4096) (key / 1024 % 4) (key % 1024)

/-- Width, slot width and depth of a channel's entry (R240). -/
def xeW (e : Nat) : Nat := bits e 12 9 + 1
def xeSw (e : Nat) : Nat := bits e 21 9 + 1
def xeDepth (e : Nat) : Nat := bits e 30 6 + 1

/-- The tile of the first pin at the destination. -/
def State.xeDestTile (s : State) (key : Nat) : Nat × Nat := edgeTile (key / 1024 % 4) (bits (s.xeEntry key) 0 12)

/-- The tile of the first pin at the source. -/
def State.xeSourceTile (s : State) (c : XeSt) : Nat × Nat :=
  match c.hops with
  | h :: _ => edgeTile (oppNum (h / 1024 % 4)) (bits (s.elasticOut c.src (oppNum (h / 1024 % 4)) (h % 1024)) 0 12)
  | [] => (0, 0)

/-- A rest condition at the source of a channel, or substituted on its way (R187, R190). -/
def State.xeSourceRests (s : State) (c : XeSt) : Bool :=
  let t := s.xeSourceTile c
  s.sourceRests c.src t.1 t.2 || c.hops.any fun h => s.hopRests (h / 4096) (h / 1024 % 4)

/-- The destination ignores the channel (R191). -/
def State.xeDestRests (s : State) (key : Nat) : Bool :=
  let t := s.xeDestTile key
  s.restored (key / 4096) t.1 t.2

/-- The half of the channel's lane group on its last link has no elastic lane (R212). -/
def State.xeStalled (s : State) (key : Nat) : Bool :=
  let p := s.phys (key / 4096)
  let d := key / 1024 % 4
  if bits (s.xeEntry key) 36 3 < 4 then s.getF .grnLnkstatFOLDA p d == 0 else s.getF .grnLnkstatFOLDB p d == 0

/-- The source port of a channel's first link. -/
def XeSt.sport (c : XeSt) : Nat := oppNum (c.hops.headD 0 / 1024 % 4)

/-- One crossing-clock edge of a channel (R179, R182, R190): rest conditions, then the launch of slots. -/
def State.xeEdge (s : State) (key : Nat) : State :=
  let c := s.chan key
  let e := s.xeEntry key
  let srcBad := s.xeSourceRests c
  let dstBad := s.xeDestRests key
  if srcBad || dstBad then
    let a := if srcBad then { c with srcF := [], slots := 0, fly := [], frozen := true } else c
    let b := if dstBad then { a with dstF := [], fly := [], frozen := true } else a
    (s.setChan key b).setBitF .grnXstatCREDFROZEN c.sport true (s.phys c.src)
  else if s.xeStalled key then s
  else
    let a := if c.slots = 0 && !c.srcF.isEmpty && !c.frozen && c.spent < xeDepth e then
        { c with slots := (xeW e + xeSw e - 1) / xeSw e, spent := c.spent + 1 }
      else c
    s.setChan key (match a.slots, a.srcF with
      | 0, _ => a
      | 1, w :: f => { a with slots := 0, srcF := f, fly := a.fly ++ [w] }
      | 1, [] => { a with slots := 0 }
      | n + 2, _ => { a with slots := n + 1 })

/-- The crossing clock runs: after the first root lock. -/
def State.crossingRuns (s : State) : Bool :=
  match s.root with
  | .waiting | .locking => false
  | .locked | .switching | .coasting | .relocking => true

/-- CROSSING_CLOCK_EDGE (R173): every XR of the design with its D; every channel in use; the cycle index (R154); device time at
the edge (R406). -/
def execCrossingClockEdge (ds : List (XrRef × Bool)) (s : State) : Res :=
  .next (if !s.crossingRuns then s else
    let t := ds.foldl (fun u e => u.xrEdge e.1 e.2) s
    let u := (t.xe.map (·.1)).foldl (fun v key => v.xeEdge key) t
    { u.timeEdge with xidx := u.xidx + 1 })

/-- The channel of a reference, named if nothing has used it yet. -/
def State.openChan (s : State) (x : XeRef) : XeSt :=
  { s.chan (pathKey x.hops) with src := x.src.val, hops := x.hops.map hopKey }

/-- XE_PUSH (R177): with WRDY = 0 it is ignored. -/
def execXePush (x : XeRef) (word : BitVec 512) (s : State) : Res :=
  let key := pathKey x.hops
  let e := s.xeEntry key
  let c := s.openChan x
  let t := s.xeSourceTile c
  .next (if x.hops.isEmpty || !e.testBit 41 || !s.tileClocked x.src t.1 t.2 || 16 ≤ c.srcF.length then s
    else s.setChan key { c with srcF := c.srcF ++ [word.toNat % 2 ^ xeW e] })

/-- XE_POP (R177, R182). -/
def execXePop (x : XeRef) (s : State) : Res :=
  let key := pathKey x.hops
  let c := s.chan key
  let t := s.xeDestTile key
  .next (if !s.tileClocked (key / 4096) t.1 t.2 then s
    else match c.dstF with
      | [] => s
      | _ :: f => s.setChan key { c with dstF := f, owed := c.owed + 1 })

/-- CREDIT_RETURN (R182): at most the words popped; frozen credits do not change (R190). -/
def execCreditReturn (x : XeRef) (n : BitVec 6) (s : State) : Res :=
  let key := pathKey x.hops
  let c := s.chan key
  .next (if c.frozen || c.owed < n.toNat then s
    else s.setChan key { c with spent := c.spent - n.toNat, owed := c.owed - n.toNat })

/-- WORD_LANDED (R183): the oldest word in flight stands in the destination FIFO. -/
def execWordLanded (x : XeRef) (s : State) : Res :=
  let key := pathKey x.hops
  let c := s.chan key
  .next (match c.fly with
    | [] => s
    | w :: f => s.setChan key (if s.xeDestRests key then { c with fly := f } else { c with fly := f, dstF := c.dstF ++ [w] }))

/-- XE_RESYNC (R190): the source takes as many credits as the destination has free space. -/
def execXeResync (x : XeRef) (s : State) : Res :=
  let key := pathKey x.hops
  let c := s.chan key
  .next (if !c.frozen || s.xeSourceRests c || s.xeDestRests key then s else
    let t := s.setChan key { c with frozen := false, spent := c.dstF.length, owed := 0 }
    let still := t.xe.any fun e => e.2.frozen && e.2.src == c.src && e.2.sport == c.sport
    t.setBitF .grnXstatCREDFROZEN c.sport still (s.phys c.src))

/-! ## Replays (R181) -/

/-- The replay counter of a port. -/
def replayFld (d : Nat) : Fld :=
  if d = 0 then .grnXereplayCNTN else if d = 1 then .grnXereplayCNTE else if d = 2 then .grnXereplayCNTS else .grnXereplayCNTW

/-- GROUP_CRC_FAILURE: the cycle is replayed; when four replays of one cycle have failed in a row the group is handed to lane
retirement (event 11). -/
def execGroupCrcFailure (l : LinkDir) (group : Fin 8) (seq : BitVec 7) (s : State) : Res :=
  .next (match l with
    | .tun _ => s
    | .grain p d =>
      let key := linkKey l * 8 + group.val
      let v := SMap.get (fun _ => 0) s.xfail key
      let n := if v % 128 = seq.toNat ∧ v ≠ 0 then v / 128 + 1 else 1
      if n = 5 then ({ s with xfail := SMap.set (fun _ => 0) s.xfail key 0 }).raiseLink l 11
      else
        let t := { s with xfail := SMap.set (fun _ => 0) s.xfail key (seq.toNat + 128 * n) }
        (t.count (replayFld d.num) 1 p).setBitF .grnXstatREPLAYSEEN d.num true p)

/-! ## Missing clock (R188) -/

/-- The forwarded crossing clock of a direction is missing: its sender has lost its clock, or both clock lanes are lost. -/
def State.clockMissing (s : State) (p : Nat) (d : GPort) : Bool :=
  (match physNbr p d with
    | .grain q => (SMap.get (fun _ => ClkSt.initial) s.clk q).lost
    | .tun => !s.crossingRuns
    | .none => false) ||
  (SMap.get (fun _ => LinkSt.initial) s.link (4 * p + d.num)).ckLost % 4 == 3

/-- MISSING_CLOCK_DETECT: CLKMISS and INREST, and the report in DIE_CLKLOSS.PORTS (R230). -/
def execMissingClockDetect (l : LinkDir) (s : State) : Res :=
  .next (match l with
    | .tun _ => s
    | .grain p d =>
      if s.clockMissing p d then
        let t := (s.setBitF .grnXstatCLKMISS d.num true p).setBitF .grnXstatINREST d.num true p
        match physNbr p d with
        | .grain q =>
          if t.isSet .dieClklossSEEN && t.getF .dieClklossPHYS == q then t.setBitF .dieClklossPORTS (oppNum d.num) true else t
        | .tun => t
        | .none => t
      else s)

end Sys2Proof.Machine
end

