-- ==== Sys2Proof/Machine/PowerOps.lean ====
section
/-! DEFINITION. Shared operations of power management (R473–R486): domains, transitions and wakes. The commands stand in
Power.lean. -/

namespace Sys2Proof.Machine

/-- A PWR index that names a domain of this part (R473). -/
def State.domainExists (s : State) (d : Nat) : Bool :=
  d < 60 || (64 ≤ d && d < 124) || (128 ≤ d && d < 248 && !interior ((d - 128) / 2)) || (256 ≤ d && d < 272) ||
  (288 ≤ d && d < 293) || (d == 293 && s.part.optS) || d == 294 || (d == 295 && s.part.optX) || d == 296

/-- The states a domain allows (R473), 0 Run, 1 Doze, 2 Retain, 3 Off. -/
def domainAllows (d t : Nat) : Bool :=
  if d < 60 then t < 4
  else if 64 ≤ d && d < 124 then t == 3 || (t == 0 && !interior (d - 64))
  else if (128 ≤ d && d < 248) || (256 ≤ d && d < 272) then t != 2 && t < 4
  else if d == 288 then t == 0
  else if d < 292 then t < 3
  else if d == 292 || d == 294 then t < 2
  else if d == 293 then t < 4
  else if d == 295 then t != 2 && t < 4
  else t == 0

/-- The target of a transition in progress. -/
def State.going (s : State) (d : Nat) : Option Nat := SMap.get (fun _ => none) s.pwrGo d

/-- The Retain copy: the shadows of the position's tiles take Q (R64, R297, R481); GRN_SHDSRC.SRC becomes 2. -/
def State.retainCopy (s : State) (n : Nat) : State :=
  let inPos := fun k : Nat => decide (k / 24576 = n)
  let t := { s with shadow := SMap.clearWhere inPos s.shadow }
  ((s.q.filter fun e => inPos e.1).foldl (fun u e => { u with shadow := SMap.set (fun _ => 0) u.shadow e.1 e.2 }) t).setF
    .grnShdsrcSRC 2 (s.phys n)

/-- A transition of domain d to state t begins (R481, R526): clamps engage for Retain and Off, a core's flip-flops go to the
shadows for Retain unless they are there already. -/
def State.startTransition (s : State) (d t : Nat) : State :=
  let u := { s.setOn .pwrDstatBUSY d with pwrGo := SMap.set (fun _ => none) s.pwrGo d (some t) }
  let v := if d < 60 && t = 2 && s.getF .pwrDstatSTATE d < 2 then u.retainCopy d else u
  if 2 ≤ t then v.setOn .pwrDstatISO d else v

/-- A domain wakes with a cause (R482): at once, or after an entry in progress (R485). -/
def State.wake (s : State) (d cause : Nat) : State :=
  let t := (s.setF .pwrDctlREQ 0 d).setF .pwrDstatLASTWAKE cause d
  match s.going d with
  | some 0 => t
  | some _ => { t with pwrNext := SMap.set (fun _ => none) s.pwrNext d (some cause) }
  | none => if s.getF .pwrDstatSTATE d = 0 then s else t.startTransition d 0

/-- Domain d enters state st, and its residency of the state it leaves is added up (R486). -/
def State.setDom (s : State) (d st : Nat) : State :=
  let key := d * 4 + s.getF .pwrDstatSTATE d
  let acc := SMap.get (fun _ => 0) s.resAcc key + (s.adv - SMap.get (fun _ => 0) s.resFrom d)
  { s.setF .pwrDstatSTATE st d with
      resAcc := SMap.set (fun _ => 0) s.resAcc key acc
      resFrom := SMap.set (fun _ => 0) s.resFrom d s.adv }

/-- What PWR_RES of domain d and state st counts: microseconds of device time, as counting advances it (R486). -/
def State.residency (s : State) (d st : Nat) : Nat :=
  let acc := SMap.get (fun _ => 0) s.resAcc (d * 4 + st)
  let now := if s.domainExists d && s.getF .pwrDstatSTATE d = st then s.adv - SMap.get (fun _ => 0) s.resFrom d else 0
  (acc + now) / usUnits % 2 ^ 64

/-- A PHY domain is Off: its quads and channel cannot leave Off (R477). -/
def State.phyOff (s : State) (n : Nat) : Bool := s.getF .pwrDstatSTATE (64 + n) == 3

/-- A refused request (R479). -/
def State.pwrRefuse (s : State) (d code : Nat) : State := (s.setOn .pwrDstatREFUSED d).setF .pwrDstatERRCODE code d

end Sys2Proof.Machine
end

