-- ==== Sys2Proof/Machine/Alarms.lean ====
section
/-! DEFINITION. What other chapters report to the protection engines and the COH unit: alarms and the key store (R366, R367,
R379), the loss of the bias table (R400), and errors towards the host (R398, R401). -/

namespace Sys2Proof.Machine

/-- Packets that wait at a target become deliverable again, ahead of those injected later. -/
def State.requeue (s : State) (ps : List Packet) : State := { s with net := ps ++ s.net }

/-! ## Keys and alarms -/

/-- The state of key ID k: 0 FREE, 1 ACTIVE, 2 RETIRING (R366). -/
def State.keyState (s : State) (k : Nat) : Nat := bits (s.getF .mempKeystateST (k / 32)) (2 * (k % 32)) 2

/-- Key ID k enters state v. -/
def State.setKeyState (s : State) (k v : Nat) : State :=
  s.setF .mempKeystateST (setBit (setBit (s.getF .mempKeystateST (k / 32)) (2 * (k % 32)) (v.testBit 0))
    (2 * (k % 32) + 1) (v.testBit 1)) (k / 32)

/-- Every key is zeroed and every key ID FREE (R367). -/
def State.zeroKeys (s : State) : State :=
  { (s.setF .mempKeystateST 0 0).setF .mempKeystateST 0 1 with memp.keys := [], memp.cmd := none }

/-- Region r enters FAULT (R373); a walk of it ends. -/
def State.rgnFault (s : State) (r : Nat) : State :=
  { s.setF .mempRgnstatSTATE 4 r with memp.walk := SMap.set (fun _ => none) s.memp.walk r none }

/-- Every region that is not OFF enters FAULT (R378, R379). -/
def State.faultRegions (s : State) : State :=
  State.each 64 (fun r t => if t.getF .mempRgnstatSTATE r = 0 then t else t.rgnFault r) s

/-- An alarm of a cause for a region and line address, by requester node `snode` (R379). -/
def State.mempAlarm (s : State) (cause r addr snode : Nat) : State :=
  let t := (s.setBitF .mempAlarmstatSEEN cause true).count .mempAlarmstatCOUNT
  let u := if s.getF .mempAlarmstatSEEN = 0 then
      (((t.setF .mempAlarmrecADDR (addr / 64 * 64)).setF .mempAlarmrecREGION r).setF .mempAlarmrecCAUSE cause).setF
        .mempAlarmrecSNODE snode
    else t
  let v := u.raise (if cause = 5 then 1005 else 1002)
  if v.isSet .mempAlarmctlZEROIZE && v.bitF .mempAlarmctlPINEN cause then v.zeroKeys.faultRegions else v

/-- PERST_N or a reload: keys FREE, regions OFF (R367). -/
def State.mempReset (s : State) : State :=
  let t := State.each 64 (fun r t => (((t.setF .mempRgnstatSTATE 0 r).setOff .mempRgncfgENABLE r).setOff .mempRgnstatREKEYDUE r).setF
    .mempRgnwalkJUMPS 0 r) s.zeroKeys
  { t.requeue (t.memp.reqs.map (·.pkt) ++ t.memp.wait) with
      memp.top := [], memp.cache := [], memp.reqs := [], memp.wait := [], memp.walk := [], memp.jump := [], memp.due := [] }

/-- A retrain puts every region that is not OFF into FAULT with alarm MDECC (R378); the engines are the requester. -/
def State.retrainRegions (s : State) : State :=
  State.each 64 (fun r t =>
    if t.getF .mempRgnstatSTATE r = 0 then t
    else (t.rgnFault r).mempAlarm 3 r (t.getF .mempRgnbaseBASE r * 2 ^ 24) 70) s

/-! ## Bias -/

/-- Bytes of the bias table: one bit a page (R388). -/
def biasSize (mem : Nat) : Nat := mem / 32768

/-- Region r waits for host-bias pages to flip before it is enabled (R392). -/
def State.rgnWaits (s : State) (r : Nat) : Bool := s.isSet .mempRgncfgENABLE r && s.getF .mempRgnstatSTATE r == 0

/-- A page lies in region r as it is defined. -/
def State.pageInRgn (s : State) (r page : Nat) : Bool :=
  let b := s.getF .mempRgnbaseBASE r * 2 ^ 12
  b ≤ page && page < b + 2 ^ (s.getF .mempRgncfgLOG2S r - 12)

/-- A page is in host bias (R389). -/
def State.hostBias (s : State) (page : Nat) : Bool := s.hostPages.any fun e => e.2.contains page

/-- Regions whose pages are all in device bias start their initialisation (R368, R392). -/
def State.rgnGo (s : State) : State :=
  State.each 64 (fun r t =>
    if t.rgnWaits r && !(t.hostPages.any fun e => e.2.any (t.pageInRgn r)) && !(t.flips.any fun f => t.pageInRgn r f.page)
    then t.setF .mempRgnstatSTATE 1 r else t) s

/-- A COH_BIASCMD is complete (R392). -/
def State.biasCmdDone (s : State) (last : Nat) : State :=
  ((({ s with biasCmd := none }.setOff .cohBiasstatBUSY).setOn .cohBiasstatDONE).setF .cohBiasstatCUR
    (s.hostBias last).toNat).raise 1006

/-- Every page takes device bias without snooping: filters empty, flips and resolves end, what waited goes on, and a bias command
in progress is complete (R399, R400). -/
def State.biasClear (s : State) : State :=
  let t := { s.requeue (s.flips.flatMap (·.wait) ++ s.resolves.map (·.pkt)) with hostPages := [], flips := [], resolves := [] }
  let u := match s.biasCmd with
    | some c => t.biasCmdDone c.2.2
    | none => t
  u.rgnGo

/-- The bias table is rebuilt as all device bias (R400). -/
def State.biasLost (s : State) : State :=
  if s.part.optX then s.biasClear.setOn .cohStatBIASLOST else s

/-! ## Errors towards the host -/

/-- A record in COH_HERR (R401). -/
def State.herr (s : State) (addr cause : Nat) : State :=
  if !s.part.optX then s else
  let t := if s.isSet .cohHerrSEEN then s else (s.setF .cohHerrADDR addr).setF .cohHerrCAUSE cause
  ((t.setOn .cohHerrSEEN).count .cohHerrCOUNT).raise 1008

/-- A posted BAR write that fails is recorded with CAUSE 0 (R398). -/
def State.postedFail (s : State) (p : Packet) : State :=
  if p.snode = 64 ∧ p.sdev.toNat = s.devNum then s.herr p.addr.toNat 0 else s

end Sys2Proof.Machine
end

