-- ==== Sys2Proof/Machine/NetOps.lean ====
section
/-! DEFINITION. Shared operations of the packet network (R300–R331): routers and routes, isolation, responses. The commands
stand in Packets.lean. -/

namespace Sys2Proof.Machine

/-! ## Device time and age -/

/-- Device time in nanoseconds. -/
def State.timeNs (s : State) : Nat := s.now / nsUnits

/-- AGE at injection (R313). -/
def State.ageNow (s : State) : Nat := s.timeNs / 1024 % 65536

/-! ## Packets -/

/-- A request opcode (R307). -/
def isReq : Opc → Bool
  | .rd | .wr | .wrp | .wrm | .wrmp | .resv => true
  | .rdata | .wcmp | .grant | .evt | .other _ => false

/-- A posted request (R307). -/
def isPosted : Opc → Bool
  | .wrp | .wrmp => true
  | .rd | .wr | .wrm | .resv | .rdata | .wcmp | .grant | .evt | .other _ => false

/-- A write request. -/
def isWrite : Opc → Bool
  | .wr | .wrp | .wrm | .wrmp => true
  | .rd | .resv | .rdata | .wcmp | .grant | .evt | .other _ => false

/-- A masked write. -/
def isMasked : Opc → Bool
  | .wrm | .wrmp => true
  | .rd | .wr | .wrp | .resv | .rdata | .wcmp | .grant | .evt | .other _ => false

/-- The OPC code of an opcode (R307). -/
def opcCode : Opc → Nat
  | .rd => 0 | .wr => 1 | .wrp => 2 | .wrm => 3 | .wrmp => 4 | .resv => 5 | .rdata => 8 | .wcmp => 9 | .grant => 0xA | .evt => 0xC
  | .other c => c.toNat

/-- The VN code of a network (R306). -/
def vnCode : Vn → Nat
  | .req => 0 | .rsp => 1 | .coh => 2 | .evt => 3

/-- The length of a packet in bytes. -/
def pktLen (p : Packet) : Nat := p.lenm1.toNat + 1

/-- A legal request: known opcode, no 4 KiB crossing, a masked write on one aligned line (R307). -/
def reqLegal (p : Packet) : Bool :=
  isReq p.opc && p.vn == .req && p.addr.toNat % 4096 + pktLen p ≤ 4096 &&
  (!isMasked p.opc || (p.lenm1 == 63 && p.addr.toNat % 64 == 0))

/-- A packet enters the network with its age stamp (R313). While a route switch drains, only responses do (R305). -/
def State.inject (s : State) (p : Packet) : State :=
  if s.isSet .nocRtctlDRAINING && p.vn != .rsp then { s with netWait := s.netWait ++ [p] }
  else { s with net := s.net ++ [{ p with age := BitVec.ofNat 16 s.ageNow }] }

/-- The response to a request (R307, R309): RDATA, WCMP, or GRANT for a reservation. -/
def responseOf (p : Packet) (status : Nat) (data : List Byte) : Packet :=
  { p with dnode := p.snode, dep := p.sep, ddev := p.sdev, snode := p.dnode, sep := p.dep, sdev := p.ddev, vn := .rsp
           opc := if isWrite p.opc then .wcmp else match p.opc with | .resv => .grant | _ => .rdata
           status := BitVec.ofNat 4 status, data := data, wmask := 0 }

/-- A request is answered; a posted one is not (R307), but one of the host that fails is recorded (R398). -/
def State.respond (s : State) (p : Packet) (status : Nat) (data : List Byte := []) : State :=
  if isPosted p.opc then (if status = 0 then s else s.postedFail p) else s.inject (responseOf p status data)

/-! ## Isolation (R321–R324) -/

/-- The targets of the grain p isolated by timeout or declaration. -/
def State.hardIso (s : State) (p : Nat) : Nat := SMap.get (fun _ => 0) s.isoHard p

/-- GRN_NOCISO.ISO and NOC_ISOSUM follow the isolations of grain p. -/
def State.updIso (s : State) (p : Nat) : State :=
  let m := s.hardIso p ||| s.getF .grnNocisoRESTH p
  let t := s.setF .grnNocisoISO m p
  (s.posOf p).elim t fun n => t.setBitF .nocIsosumPOS n (m != 0)

/-- Isolation of target t of grain p by timeout or declaration (R321, R322). -/
def State.isolate (s : State) (p t : Nat) : State :=
  let u := { s with isoHard := SMap.set (fun _ => 0) s.isoHard p (setBit (s.hardIso p) t true) }
  let v := (u.updIso p).setOn .grnNocisoSEEN p
  (s.posOf p).elim v fun n => v.raiseG n 2

/-- Target t of grain p is isolated. -/
def State.isIso (s : State) (p t : Nat) : Bool := s.bitF .grnNocisoISO t p

/-- A rest isolation of target t of grain p begins or ends (R323, R326). -/
def State.restIso (s : State) (p t : Nat) (on : Bool) : State := (s.setBitF .grnNocisoRESTH t on p).updIso p

/-- Isolation of a Tun target: k = 0–3 nodes G0, G1, S0, S1 (R321, R322). -/
def State.isolateExt (s : State) (k : Nat) : State := ((s.setBitF .nocTisoEXT k true).setOn .nocTisoSEEN).raise 999

/-- Isolation of a Tun port: k = 0 W, 1 E. -/
def State.isolateLink (s : State) (k : Nat) : State := ((s.setBitF .nocTisoLINK k true).setOn .nocTisoSEEN).raise 999

/-! ## Routers and routes (R302, R304) -/

/-- The router of a node: 0–63 a physical grain, 64 + k the Tun router TNk. -/
def State.routerOf (s : State) (node : Nat) : Nat :=
  if node < 60 then s.phys node
  else if node = 67 ∨ node = 68 ∨ node = 76 then 64
  else if node = 66 ∨ node = 78 then 65
  else if node = 64 ∨ node = 65 ∨ node = 72 ∨ node = 73 then 66
  else if node = 70 ∨ node = 74 ∨ node = 75 then 67
  else if node = 69 ∨ node = 77 then 68
  else 69

/-- The active table's output code for a node (R304). -/
def State.routeCode (s : State) (r node : Nat) : Nat :=
  let b := s.isSet .nocRtctlACTIVE
  let f := if r < 64 then (if b then Fld.grnRtabbPORTS else .grnRtabaPORTS) else (if b then .nocTrtabbPORTS else .nocTrtabaPORTS)
  bits (s.getF f (if r < 64 then r else r - 64) (node / 16)) (4 * (node % 16)) 4

/-- Where an output of a router leads: the next router and the input it arrives by (0 N, 1 E, 2 S, 3 W), or an external node. -/
inductive Step1 where
  | router (r inPort : Nat)
  | ext (node : Nat)
  | nowhere
  deriving DecidableEq, Repr

/-- The output of code 1–4 of router r (R302). -/
def State.output (s : State) (r code : Nat) : Step1 :=
  if r < 64 then
    match physNbr r (portOf (code - 1)) with
    | .grain q => .router q (oppNum (code - 1))
    | .tun => if code = 2 then .router 66 3 else .router 67 1
    | .none => .nowhere
  else
    let k := r - 64
    match code with
    | 1 => if 2 ≤ k then .router (r - 2) 2 else .ext (if k = 0 then 76 else 78)
    | 3 => if k < 4 then .router (r + 2) 0 else .ext (if k = 4 then 77 else 79)
    | 2 => if k % 2 = 0 then .router (r + 1) 3 else if k = 3 then .router (s.phys 30) 3 else .nowhere
    | _ => if k % 2 = 1 then .router (r - 1) 1 else if k = 2 then .router (s.phys 29) 1 else .nowhere

/-- The output port is an isolated target (R321). -/
def State.outIso (s : State) (r code : Nat) : Bool :=
  if r < 64 then s.isIso r (code - 1)
  else if r = 66 ∧ code = 4 then s.bitF .nocTisoLINK 0
  else if r = 67 ∧ code = 2 then s.bitF .nocTisoLINK 1
  else false

/-- Where the routes take a packet. -/
inductive Route where
  /-- delivered by this router, which it entered by this input (4: the router's own endpoints) -/
  | local (r inPort : Nat)
  /-- handed to a guest or store port -/
  | ext (node : Nat)
  /-- stopped at this router by an isolated output or an entry that names none -/
  | blocked (r : Nat)
  deriving DecidableEq, Repr

/-- The walk of a packet for a node from router r, at most n hops. -/
def State.walk (s : State) (node : Nat) : Nat → Nat → Nat → Route
  | 0, r, _ => .blocked r
  | n + 1, r, inPort =>
    let c := s.routeCode r node
    if c = 0 then .local r inPort
    else if 5 ≤ c ∨ s.outIso r c then .blocked r
    else match s.output r c with
      | .router q i => s.walk node n q i
      | .ext e => .ext e
      | .nowhere => .blocked r

/-- The node whose table entry routes a packet: its own, or the egress position for another device (R304, R453). -/
def State.routeNode (s : State) (p : Packet) : Nat :=
  if p.ddev.toNat = s.devNum then p.dnode.toNat else s.getF .wortRtPOS p.ddev.toNat

/-- The route of a packet from its source's router; a packet of another device enters at the router of its destination. -/
def State.routeOf (s : State) (p : Packet) : Route :=
  let node := s.routeNode p
  let start := if p.sdev.toNat = s.devNum then s.routerOf p.snode.toNat else s.routerOf node
  s.walk node 256 start 4

/-- A packet handled by a router for an isolated target (R321). -/
def State.absorb (s : State) (r : Nat) (p : Packet) : State :=
  if isReq p.opc then
    (if !isPosted p.opc then s else if r < 64 then s.count .grnNocabsABSORBED 1 r else s.count .nocTabsABSORBED).respond p 1
  else if r < 64 then s.count .grnNocabsDISCARD 1 r else s

/-! ## Taking a packet out of the network -/

/-- Two packets of one flow: same source endpoint, destination endpoint and virtual network (R310). -/
def sameFlow (p q : Packet) : Bool :=
  p.snode == q.snode && p.sep == q.sep && p.sdev == q.sdev && p.dnode == q.dnode && p.dep == q.dep && p.ddev == q.ddev &&
  p.vn == q.vn

/-- The network without a packet that arrives: a packet of this device's own endpoints arrives in the order of its flow; one that
is not in the network comes from outside. None where an older packet of its flow has not arrived (R310). -/
def State.netTake (s : State) (p : Packet) : Option State :=
  if !s.net.contains p then some s
  else match s.net.find? (sameFlow p) with
    | some q => if q = p then some { s with net := s.net.erase p } else none
    | none => some s

/-! ## Design NoC ports -/

/-- DNP k of position n. -/
def State.dnpSt (s : State) (n k : Nat) : DnpSt := SMap.get (fun _ => DnpSt.idle) s.dnp (2 * n + k)

/-- A DNP replaced. -/
def State.setDnp (s : State) (n k : Nat) (d : DnpSt) : State := { s with dnp := SMap.set (fun _ => DnpSt.idle) s.dnp (2 * n + k) d }

/-- The tile column of DNP k (R327). -/
def dnpCol (k : Nat) : Nat := if k = 0 then 92 else 99

/-- The floor a DNP belongs to (R328). -/
def State.dnpFloor (s : State) (n k : Nat) : Option Nat :=
  (List.range 64).find? fun f => s.inFloor f n (dnpCol k) 0 && s.inFloor f n (dnpCol k) 74

/-- A rest condition of a DNP begins: isolation, and its tags and held requests are retired, held ones answered (R321, R323). -/
def State.dnpRest (s : State) (n k : Nat) : State :=
  let t := s.restIso (s.phys n) (4 + k) true
  let u := (s.dnpSt n k).held.foldl (fun v h => v.respond h.pkt 1) t
  u.setDnp n k DnpSt.idle

/-- The pitch that ends a rest condition clears the isolation (R323). -/
def State.dnpUnrest (s : State) (n k : Nat) : State := s.restIso (s.phys n) (4 + k) false

/-- A DNP is held by its position's die reset or by a rest condition: its initiator injects nothing (R229, R321). -/
def State.dnpStopped (s : State) (n k : Nat) : Bool := (s.posSt n).inReset || s.isIso (s.phys n) (4 + k)

end Sys2Proof.Machine
end

