-- ==== Sys2Proof/Machine/Memory.lean ====
section
/-! DEFINITION. Device memory (R332–R356): the interleave, line operations and the write buffer, ECC, training, refresh and
row-disturb protection, and the SPD temperature. -/

namespace Sys2Proof.Machine

/-! ## Address map (R338–R340) -/

/-- Bytes of fitted memory: N × C; 0 without a map. -/
def State.memSize (s : State) : Nat :=
  if s.isSet .ddrImap0VALID then 2 ^ s.getF .ddrImap0K * s.getF .ddrImap0CGIB * 2 ^ 30 else 0

/-- The map slot of a device address. -/
def State.slotOf (s : State) (a : Nat) : Nat := (bits a 12 4 ^^^ bits a 16 4 ^^^ bits a 20 4 ^^^ bits a 24 4) % 2 ^ s.getF .ddrImap0K

/-- The home channel of a device address. -/
def State.chanOf (s : State) (a : Nat) : Nat := bits (s.getF .ddrImap1CH) (4 * s.slotOf a) 4

/-- The channel-local address. -/
def State.localAddr (s : State) (a : Nat) : Nat := a / 2 ^ (12 + s.getF .ddrImap0K) * 4096 + a % 4096

/-- A device address lies in the fitted memory (R339). -/
def State.memFitted (s : State) (a : Nat) : Bool := a < s.memSize

/-- The DRAM coordinates of a device line of channel m: subchannel or half, rank, row (R340). -/
def State.dramCoord (s : State) (m line : Nat) : Nat × Nat × Nat :=
  let l := s.localAddr (64 * line) / 64
  let two := s.isSet .ddrCfgRANKS2 m
  if s.isSet .ddrCfgPAIR m then
    if two then (l % 2, bits l 12 1, l / 2 ^ 13) else (l % 2, 0, l / 2 ^ 12)
  else if two then (l % 2, bits l 13 1, l / 2 ^ 14) else (l % 2, 0, l / 2 ^ 13)

/-- The rows of a bank: 65,536, 98,304 or 131,072 (R340). -/
def State.rowCount (s : State) (m : Nat) : Nat :=
  match s.getF .ddrCfgDENS m with | 0 => 65536 | 1 => 98304 | _ => 131072

/-! ## Contents -/

/-- A byte of the DRAM. -/
def State.dramByte (s : State) (a : Nat) : Nat := SMap.get (fun _ => 0) s.mem a

/-- A line of the DRAM. -/
def State.dramLine (s : State) (line : Nat) : Nat := pack 8 ((List.range 64).map fun i => s.dramByte (64 * line + i))

/-- The mask of bits that a byte mask of a line covers. -/
def byteBits (mask : Nat) : Nat := (List.range 64).foldl (fun m i => if mask.testBit i then m + 0xFF * 2 ^ (8 * i) else m) 0

/-- A line with the bytes under a mask replaced. -/
def overlay (old mask data : Nat) : Nat :=
  (old &&& (2 ^ 512 - 1 - byteBits mask)) ||| (data &&& byteBits mask)

/-- Every byte of a line valid. -/
def fullMask : Nat := 2 ^ 64 - 1

/-- The bytes of a line under a mask stored in the DRAM. -/
def State.storeLine (s : State) (line mask data : Nat) : State :=
  (List.range 64).foldl (fun t i =>
    if mask.testBit i then { t with mem := SMap.set (fun _ => 0) t.mem (64 * line + i) (bits data (8 * i) 8) } else t) s

/-- A channel. -/
def State.chanSt (s : State) (m : Nat) : ChanSt := SMap.get (fun _ => ChanSt.initial) s.ddr m

/-- A channel replaced, its counts in DDR_STAT following (R344). -/
def State.setChanSt (s : State) (m : Nat) (c : ChanSt) : State :=
  let t := { s with ddr := SMap.set (fun _ => ChanSt.initial) s.ddr m c }
  (t.setF .ddrStatINFL (min 128 (c.reads.length + c.wbuf.length)) m).setF .ddrStatWBOCC c.wbuf.length m

/-- A line as a read accepted now must see it: the DRAM under every older write of the buffer (R345). -/
def State.lineNow (s : State) (m line : Nat) : Nat :=
  (s.chanSt m).wbuf.foldl (fun v e => if e.line = line then overlay v e.mask e.data else v) (s.dramLine line)

/-- A byte of device memory as an engine of the device reads it. -/
def State.memByte (s : State) (a : Nat) : Nat := bits (s.lineNow (s.chanOf a) (a / 64)) (8 * (a % 64)) 8

/-- n bytes of device memory from address a. -/
def State.memRead (s : State) (a n : Nat) : List Byte := (List.range n).map fun i => BitVec.ofNat 8 (s.memByte (a + i))

/-- Bytes written by an engine of the device: newer than every write already buffered. -/
def State.memWrite (s : State) (a : Nat) (bs : List Byte) : State :=
  bs.zipIdx.foldl (fun t e =>
    let x := a + e.2
    let m := t.chanOf x
    let u := { t with mem := SMap.set (fun _ => 0) t.mem x e.1.toNat }
    if (u.chanSt m).wbuf.any (fun w => w.line == x / 64) then
      let c := u.chanSt m
      u.setChanSt m { c with wbuf := c.wbuf.map fun w =>
        if w.line = x / 64 ∧ w.mask.testBit (x % 64) then
          { w with data := overlay w.data (2 ^ (x % 64)) (e.1.toNat * 2 ^ (8 * (x % 64))) } else w }
    else u) s

/-- n bytes from a are fitted memory on trained channels, in service or in self-refresh (R342). -/
def State.memUsable (s : State) (a n : Nat) : Bool :=
  a + n ≤ s.memSize &&
  (List.range ((a + n + 4095) / 4096 - a / 4096)).all fun k =>
    let st := s.getF .ddrStatSTATE (s.chanOf (4096 * (a / 4096 + k)))
    st = 4 ∨ st = 5

/-! ## ECC (R336, R337, R349, R356) -/

/-- A record in DDR_ECCADDR and DDR_ECCINFO (R356). -/
def State.eccInfo (s : State) (m line dev nsym : Nat) (ue wrfail multi erase : Bool) : State :=
  let c := s.dramCoord m line
  (((((((((s.setF .ddrEccaddrADDR (64 * line) m).setF .ddrEccaddrRANK c.2.1 m).setF .ddrEccaddrSUB c.1 m).setF
    .ddrEccinfoDEV dev m).setF .ddrEccinfoNSYM nsym m).setF .ddrEccinfoUE ue.toNat m).setF .ddrEccinfoWRFAIL wrfail.toNat m).setF
    .ddrEccinfoMULTI multi.toNat m).setF .ddrEccinfoERASE erase.toNat m)

/-- An uncorrectable codeword (R349, R356). -/
def State.eccUe (s : State) (m line : Nat) (wrfail erase : Bool) : State :=
  let t := (s.count .ddrEccstatUECNT 1 m).setOn .ddrEccstatUSEEN m
  (t.eccInfo m line 0 0 true wrfail false erase).raiseG (posOfChan m) 3

/-- The count of a device of a rank; reaching DEVTHR marks it, one device at most (R337). -/
def State.devCorrected (s : State) (m rank dev : Nat) : State :=
  let key := (m * 2 + rank) * 32 + dev
  let n := SMap.get (fun _ => 0) s.devCnt key + 1
  let t := { s with devCnt := SMap.set (fun _ => 0) s.devCnt key n }
  let thr := s.getF .ddrDevfailDEVTHR m
  if thr != 0 && n == thr && !s.isSet .ddrDevfailVALID m then
    (((t.setOn .ddrDevfailVALID m).setF .ddrDevfailRANK rank m).setF .ddrDevfailDEV dev m).raiseG (posOfChan m) 3
  else t

/-- A corrected codeword (R337, R356): the device with the most corrected symbols, the first of equals, is recorded. -/
def State.eccCe (s : State) (m line : Nat) (devs : List (Nat × Nat)) (erase : Bool) : State :=
  let rank := (s.dramCoord m line).2.1
  let top := devs.foldl (fun (b : Nat × Nat) e => if b.2 < e.2 then e else b) (0, 0)
  let t := (s.count .ddrEccstatCECNT 1 m).setOn .ddrEccstatCSEEN m
  let u := if s.isSet .ddrEccstatUSEEN m then t
    else t.eccInfo m line top.1 (devs.foldl (fun n e => n + e.2) 0) false false (1 < devs.length) erase
  devs.foldl (fun v e => v.devCorrected m rank e.1) u

/-- What the decoder makes of wrong symbols (R336). -/
inductive Decoded where
  | clean
  | corrected (devs : List (Nat × Nat)) (data : Option Nat)
  | uncorrectable
  deriving DecidableEq, Repr

/-- Decoding: within its limits the code corrects; outside them it reports an uncorrectable codeword unless the errors form another
correctable pattern, which is a free choice with a free result. -/
def State.decode (s : State) (m line : Nat) (e : ReadErr) : Decoded × State :=
  let devs := (e.devs.map fun d => (d.1.val, d.2.val)).filter fun d => d.2 != 0
  let rank := (s.dramCoord m line).2.1
  let marked := s.isSet .ddrDevfailVALID m && s.getF .ddrDevfailRANK m == rank
  let erased := if marked then s.getF .ddrDevfailDEV m else 99
  let rest : Nat := (devs.filter fun d => d.1 != erased).foldl (fun n d => n + d.2) 0
  let lim : Nat := if s.isSet .ddrCfgPAIR m then (if marked then 8 else 16) else (if marked then 4 else 8)
  if devs.isEmpty then (.clean, s)
  else if rest ≤ lim then (.corrected devs none, s)
  else
    let f := s.free
    if f.1.testBit 0 then (.corrected [(f.1 / 2 % 20, 1 + f.1 / 64 % 8)] (some (f.1 / 512 % 2 ^ 512)), f.2) else (.uncorrectable, f.2)

/-! ## Requests and line operations (R344–R348) -/

/-- The number of 64-byte lines that [a, a + n) touches. -/
def lineCount (a n : Nat) : Nat := (a + n - 1) / 64 - a / 64 + 1

/-- The byte mask of line k of a request. -/
def reqMask (p : Packet) (k : Nat) : Nat :=
  if isMasked p.opc then p.wmask.toNat
  else
    let a := p.addr.toNat
    let base := 64 * (a / 64 + k)
    (List.range 64).foldl (fun m i => if a ≤ base + i ∧ base + i < a + pktLen p then m + 2 ^ i else m) 0

/-- The data of line k of a write. -/
def reqData (p : Packet) (k : Nat) : Nat :=
  let a := p.addr.toNat
  let base := 64 * (a / 64 + k)
  pack 8 ((List.range 64).map fun i =>
    if isMasked p.opc then (p.data.getD i 0).toNat
    else if a ≤ base + i then (p.data.getD (base + i - a) 0).toNat else 0)

/-- The bytes of a read from the lines fetched. -/
def readBytes (p : Packet) (got : SMap Nat) : List Byte :=
  (List.range (pktLen p)).map fun i =>
    let x := p.addr.toNat % 64 + i
    BitVec.ofNat 8 (bits (SMap.get (fun _ => 0) got (x / 64)) (8 * (x % 64)) 8)

/-- A line operation of a request is done; the last one sends the response (R309, R345, R349). -/
def State.lineDone (s : State) (req k data : Nat) (poison : Bool) : State :=
  match SMap.get (fun _ => none) s.memReqs req with
  | none => s
  | some q =>
    let w := { q with left := q.left - 1, poison := q.poison || poison, got := SMap.set (fun _ => 0) q.got k data }
    if w.left = 0 then
      let t := { s with memReqs := SMap.set (fun _ => none) s.memReqs req none }
      if w.poison then t.respond q.pkt 4
      else t.respond q.pkt 0 (if isWrite q.pkt.opc then [] else readBytes q.pkt w.got)
    else { s with memReqs := SMap.set (fun _ => none) s.memReqs req (some w) }

/-- The newest write-buffer entry of a line. -/
def newest (b : List WbEnt) (line : Nat) : Option WbEnt := b.reverse.find? fun e => e.line == line

/-- The newest entry of a line changed. -/
def mapNewest (f : WbEnt → WbEnt) (line : Nat) (b : List WbEnt) : List WbEnt :=
  match b.reverse.findIdx? fun e => e.line == line with
  | some i => b.modify (b.length - 1 - i) f
  | none => b

/-- One line operation is accepted if there is room (R344, R346). -/
def State.acceptLine (s : State) (m : Nat) (op : LineOp) : Option State :=
  let c := s.chanSt m
  if op.write then
    match newest c.wbuf op.line with
    | some _ =>
      some ((s.setChanSt m { c with wbuf := mapNewest (fun e =>
        { e with mask := e.mask ||| op.mask, data := overlay e.data op.mask op.data, req := some op.req }) op.line c.wbuf }).lineDone
        op.req op.k 0 false)
    | none =>
      if c.wbuf.length < c.wbSize && c.reads.length + c.wbuf.length < 128 then
        some ((s.setChanSt m { c with wbuf := c.wbuf ++ [⟨op.line, op.mask, op.data, false, some op.req⟩] }).lineDone op.req op.k 0
          false)
      else none
  else if 128 ≤ c.reads.length + c.wbuf.length then none
  else
    let v := s.lineNow m op.line
    match newest c.wbuf op.line with
    | none => some (s.setChanSt m { c with reads := c.reads ++ [{ op with data := v }] })
    | some e =>
      if e.mask = fullMask then some ((s.countWrap .ddrHazFWD m).lineDone op.req op.k v false)
      else
        some ((s.countWrap .ddrHazPWAIT m).setChanSt m
          { c with reads := c.reads ++ [{ op with data := v, wait := true }]
                   wbuf := mapNewest (fun e => { e with promoted := true }) op.line c.wbuf })

/-- Line operations are accepted in order while there is room (R344). -/
def State.pump : Nat → Nat → State → State
  | 0, _, s => s
  | n + 1, m, s =>
    let c := s.chanSt m
    match c.inp with
    | [] => s
    | op :: rest =>
      match (s.setChanSt m { c with inp := rest }).acceptLine m op with
      | some t => State.pump n m t
      | none => s

/-- The home slice pumps what waits at channel m. -/
def State.pumpChan (s : State) (m : Nat) : State := State.pump (s.chanSt m).inp.length m s

/-- The home slice takes a request (R342, R344). A request for a channel in self-refresh does not come here. -/
def State.homeAccept (s : State) (m : Nat) (p : Packet) : State :=
  if s.getF .ddrStatSTATE m ≠ 4 then
    (if isPosted p.opc then s.count .ddrStatDROPS 1 m else s).respond p 5
  else
    let a := p.addr.toNat
    let n := lineCount a (pktLen p)
    let id := s.nextReq
    let t := { s with
      nextReq := id + 1
      memReqs := SMap.set (fun _ => none) s.memReqs id (some ⟨p, n, false, []⟩) }
    let c := t.chanSt m
    let ops := (List.range n).map fun k : Nat =>
      (⟨id, a / 64 + k, k, isWrite p.opc, reqMask p k, if isWrite p.opc then reqData p k else 0, false⟩ : LineOp)
    (t.setChanSt m { c with inp := c.inp ++ ops }).pumpChan m

/-- DRAM_READ_DATA (R336, R348, R349): the oldest read that does not wait on a write. -/
def execDramReadData (m : Chan) (err : ReadErr) (s : State) : Res :=
  let c := s.chanSt m
  .next (match c.reads.find? fun r => !r.wait with
    | none => s
    | some op =>
      let t := s.setChanSt m { c with reads := c.reads.erase op }
      let d := t.decode m op.line err
      let erase := s.isSet .ddrDevfailVALID m && s.getF .ddrDevfailRANK m == (s.dramCoord m op.line).2.1
      let u := match d.1 with
        | .clean => d.2.lineDone op.req op.k op.data false
        | .uncorrectable => (d.2.eccUe m op.line false erase).lineDone op.req op.k 0 true
        | .corrected devs data =>
          let v := (d.2.eccCe m op.line devs erase).lineDone op.req op.k (data.getD op.data) false
          let w := v.chanSt m
          if s.isSet .ddrCtlWBACK m && w.wbuf.length < w.wbSize && v.lineNow m op.line == op.data &&
              (newest w.wbuf op.line).isNone then
            v.setChanSt m { w with wbuf := w.wbuf ++ [(⟨op.line, fullMask, data.getD op.data, false, none⟩ : WbEnt)] }
          else v
      u.pumpChan m)

/-- Reads that waited on a line go to the DRAM (R346). -/
def releaseReads (line : Nat) (rs : List LineOp) : List LineOp := rs.map fun r => if r.line = line then { r with wait := false } else r

/-- The drain rule of R351 after an occupancy change. -/
def drainFlag (c : ChanSt) : Bool :=
  if 3 * c.wbSize ≤ 4 * c.wbuf.length then true else if 4 * c.wbuf.length ≤ c.wbSize then false else c.drain

/-- WRITE_DRAIN (R346, R347, R349, R351): the promoted entry, or the oldest. -/
def execWriteDrain (m : Chan) (rmwUncorrectable : Bool) (s : State) : Res :=
  let c := s.chanSt m
  let pick := match c.wbuf.find? (·.promoted) with
    | some e => some e
    | none => if drainFlag c || c.reads.isEmpty then c.wbuf.head? else none
  .next (match pick with
    | none => s
    | some e =>
      let pair := s.isSet .ddrCfgPAIR m
      let mate := if pair then c.wbuf.find? fun x => x.line == (e.line ^^^ 1) && x.mask == fullMask else none
      let rmw := e.mask != fullMask || (pair && mate.isNone)
      let left := fun (b : List WbEnt) => match e.mask == fullMask, mate with
        | true, some x => b.erase x
        | _, _ => b
      let d := { c with wbuf := left (c.wbuf.erase e), reads := releaseReads e.line c.reads }
      let t := s.setChanSt m { d with drain := drainFlag d }
      if rmw && rmwUncorrectable then
        let u := t.eccUe m e.line true (s.isSet .ddrDevfailVALID m)
        let v := match e.req.bind (SMap.get (fun _ => none) u.memReqs) with
          | some q => { u with memReqs := SMap.set (fun _ => none) u.memReqs (e.req.getD 0) (some { q with poison := true }) }
          | none => u
        v.pumpChan m
      else
        let u := t.storeLine e.line e.mask e.data
        let v := match e.mask == fullMask, mate with
          | true, some x => u.storeLine x.line x.mask x.data
          | _, _ => u
        v.pumpChan m)

/-! ## Rows (R350, R352, R354) -/

/-- Key of an open row. -/
def rowKey (m sub rank bank : Nat) : Nat := ((m * 2 + sub) * 2 + rank) * 32 + bank

/-- The low-bit count of the row-disturb test: DDR_RDP.K held to 4–12 (R354). -/
def State.rdpK (s : State) (m : Nat) : Nat := max 4 (min 12 (s.getF .ddrRdpK m))

/-- The neighbours of a row that exist (R354). -/
def neighbours (row count : Nat) : List Nat :=
  (if 2 ≤ row then [row - 2] else []) ++ (if 1 ≤ row then [row - 1] else []) ++ [row + 1, row + 2].filter (· < count)

/-- DRAM_COMMAND_ISSUE (R350, R352, R354). The LFSR is seeded from entropy, so its bits are a free value. -/
def execDramCommandIssue (m : Chan) (sub : Fin 2) (c : DramCmd) (s : State) : Res :=
  let set := fun (t : State) (bank rank : Nat) (v : Option Nat) =>
    { t with rows := SMap.set (fun _ => none) t.rows (rowKey m sub rank bank) v }
  .next (if s.getF .ddrStatSTATE m ≠ 4 then s else
    match c with
    | .activate bank rank row =>
      let f := s.free
      let t := set f.2 bank rank.toNat (some row.toNat)
      if f.1 % 2 ^ s.rdpK m = 0 then t.count .ddrRdpNRCNT (neighbours row.toNat (s.rowCount m)).length m else t
    | .column bank rank _ phint sameRow =>
      if phint.toNat = 1 ∨ (phint.toNat ≠ 2 ∧ sameRow) then s else set s bank rank.toNat none
    | .precharge bank rank => set s bank rank.toNat none)

/-- PAGE_TIMEOUT (R352): the row of both subchannels' queue closes. -/
def execPageTimeout (m : Chan) (bank : Fin 32) (rank : Bool) (s : State) : Res :=
  let close := fun (sub : Nat) (t : State) =>
    { t with rows := SMap.set (fun _ => none) t.rows (rowKey m sub rank.toNat bank) none }
  .next (close 1 (close 0 s))

/-- Every row of a channel closes. -/
def State.closeRows (s : State) (m : Nat) : State := { s with rows := SMap.clearWhere (fun k => k / 128 == m) s.rows }

/-- REFRESH (R353, R355): REFab to every rank from training step 2 on; a channel in self-refresh issues none. -/
def execRefresh (m : Chan) (s : State) : Res :=
  let st := s.getF .ddrStatSTATE m
  .next (if st = 4 ∨ (st = 3 ∧ 2 ≤ s.getF .ddrStatTRSTEP m) then s.closeRows m else s)

/-- SPD_TEMPERATURE_READ (R355): a signed reading in 0.25 °C; 85 °C is 340. -/
def execSpdTemperatureRead (m : Chan) (reading : Option (BitVec 12)) (s : State) : Res :=
  .next (match reading with
    | none => s.setOn .ddrThermSBERR m
    | some r =>
      let t := (s.setF .ddrThermTEMP r.toNat m).setOff .ddrThermSBERR m
      if 340 ≤ r.toInt then ((t.setOn .ddrThermHOT m).setOn .ddrThermHOTSEEN m).raiseG (posOfChan m) 5
      else t.setOff .ddrThermHOT m)

/-! ## Training (R341–R343) -/

/-- Requests still open at channel m are answered as an unserved channel answers (R342). -/
def State.dropRequests (s : State) (m : Nat) : State :=
  let mine := s.memReqs.filter fun e => e.2.any fun q => s.chanOf q.pkt.addr.toNat == m
  let t := mine.foldl (fun u e => match e.2 with
    | some q => { u with memReqs := SMap.set (fun _ => none) u.memReqs e.1 none }.respond q.pkt 5
    | none => u) s
  t.setChanSt m { t.chanSt m with inp := [], reads := [], wbuf := [], drain := false }

/-- The contents of channel m are lost; what no training has filled yet cannot be read (R342). -/
def State.loseContents (s : State) (m : Nat) : State :=
  { s with mem := SMap.clearWhere (fun a => s.chanOf a == m) s.mem }

/-- Training starts from step 1 (R341, R343). -/
def State.startTraining (s : State) (m : Nat) : State :=
  let t := (s.dropRequests m).loseContents m
  let c := t.chanSt m
  let u := t.setChanSt m { c with wbSize := 16 * 2 ^ s.getF .ddrCtlWBUF m, tries := 0, pulse := false, retrainDue := false }
  let v := (((u.setF .ddrStatSTATE 3 m).setF .ddrStatTRSTEP 1 m).setF .ddrCfgSPEED (min c.rate (min 2 (s.getF .ddrCtlMAXSPD m)))
    m).setF .ddrRdpNRCNT 0 m
  { (v.setOff .ddrDevfailVALID m).closeRows m with devCnt := SMap.clearWhere (fun k => k / 64 == m) v.devCnt }

/-- Event 1001, once every channel it waits for has reached STATE 4 or 6 (R341). -/
def State.trArrived (s : State) (m : Nat) : State :=
  match s.trWait with
  | none => s
  | some w =>
    let v := setBit w m false
    if v = 0 then ({ s with trWait := none }).raise 1001 else { s with trWait := some v }

/-- Training ends in STATE 4 or 6 (R341, R342). -/
def State.trainEnd (s : State) (m st : Nat) : State :=
  (((s.setF .ddrStatSTATE st m).setOn .ddrStatSEEN m).raiseG (posOfChan m) 4).trArrived m

/-- Training of every mapped channel starts, at the release pitch or at entry to FAILED (R341, R254). -/
def State.ddrStart (s : State) : State :=
  let go := (List.range 16).filter fun m => s.isSet .ddrCfgINMAP m && s.getF .pwrDstatSTATE (256 + m) != 3
  if go.isEmpty then s.raise 1001
  else { go.foldl (fun t m => t.startTraining m) s with trWait := some (go.foldl (fun w m => w + 2 ^ m) 0) }

/-- A reload: RESET_n falls and contents are lost (R260). -/
def State.ddrReset (s : State) : State :=
  let t := (List.range 16).foldl (fun u m =>
    let v := u.dropRequests m
    let w := v.setChanSt m { v.chanSt m with pulse := false, retrainDue := false, tries := 0 }
    if (w.chanSt m).dimm = 2 then (w.setF .ddrStatSTATE 2 m).closeRows m else w) s
  { t with mem := [], trWait := none }

/-- TRAINING_STEP_DONE (R341): zero fill ends step 7, and STATE 4 is step 8. -/
def execTrainingStepDone (m : Chan) (s : State) : Res :=
  .next (if s.getF .ddrStatSTATE m ≠ 3 then s else
    let step := s.getF .ddrStatTRSTEP m
    let t := (s.setChanSt m { s.chanSt m with tries := 0 }).setF .ddrStatTRSTEP (step + 1) m
    if step = 7 then (t.loseContents m).trainEnd m 4 else t)

/-- TRAINING_ATTEMPT_FAIL (R342). -/
def execTrainingAttemptFail (m : Chan) (s : State) : Res :=
  .next (if s.getF .ddrStatSTATE m ≠ 3 then s else
    let c := s.chanSt m
    let t := s.setChanSt m { c with tries := c.tries + 1 }
    if c.tries = 2 then t.trainEnd m 6 else t)

/-- TRAINING_TIMEOUT (R341): steps 2 to 6. -/
def execTrainingTimeout (m : Chan) (s : State) : Res :=
  let step := s.getF .ddrStatTRSTEP m
  .next (if s.getF .ddrStatSTATE m = 3 ∧ 2 ≤ step ∧ step ≤ 6 then s.trainEnd m 6 else s)

/-- The RESET_n pulse of a retrain begins (R343); protected regions fault (R378) and the bias table is rebuilt (R400). -/
def State.retrainPulse (s : State) (m : Nat) : State :=
  ((s.setChanSt m { s.chanSt m with pulse := true, retrainDue := false }).setF .ddrStatSTATE 2 m).retrainRegions.biasLost

/-- A write of DDR_CTL (R343). -/
def State.ddrCtlWrite (s : State) (m w : Nat) : State :=
  let t := s.writeReg .ddrCtl m 0 w full32
  if !w.testBit 5 then t else
  match s.getF .ddrStatSTATE m with
  | 4 => t.retrainPulse m
  | 6 => t.retrainPulse m
  | 5 => (t.setChanSt m { t.chanSt m with retrainDue := true }).wake (256 + m) 1
  | _ => t.setOn .ddrStatRTIGN m

/-- RETRAIN: a write of DDR_CTL (R343). -/
def execRetrain (m : Chan) (w : W32) (s : State) : Res :=
  .next (s.viaUnit .ddrCtl m 0 s.hostAgent fun t => t.ddrCtlWrite m w.toNat)

/-- RETRAIN_PULSE_END (R343): line operations in flight complete first. -/
def execRetrainPulseEnd (m : Chan) (s : State) : Res :=
  let c := s.chanSt m
  .next (if c.pulse && c.inp.isEmpty && c.reads.isEmpty && c.wbuf.isEmpty then s.startTraining m else s)

end Sys2Proof.Machine
end

