-- ==== Sys2Proof/Machine/AddrMap.lean ====
section
/-! DEFINITION. The device address map (R330), the areas of protected regions (R357, R358, R361), and requests of the Tun's
engines. -/

namespace Sys2Proof.Machine

/-- Bytes of region r: 2^n (R357). -/
def State.rgnSize (s : State) (r : Nat) : Nat := 2 ^ s.getF .mempRgncfgLOG2S r

/-- The base of region r. -/
def State.rgnBase (s : State) (r : Nat) : Nat := s.getF .mempRgnbaseBASE r * 2 ^ 24

/-- Region r is in state INIT, ON, WALK or FAULT. -/
def State.rgnLive (s : State) (r : Nat) : Bool := 1 ≤ s.getF .mempRgnstatSTATE r && s.getF .mempRgnstatSTATE r ≤ 4

/-- The live region that an address lies in. -/
def State.rgnAt (s : State) (a : Nat) : Option Nat :=
  (List.range 64).find? fun r => s.rgnLive r && s.rgnBase r ≤ a && a < s.rgnBase r + s.rgnSize r

/-- An address lies in the data area of region r (R361). -/
def State.inData (s : State) (r a : Nat) : Bool := s.rgnBase r ≤ a && a < s.rgnBase r + s.rgnSize r / 8 * 7

/-- What a device address names (R330, R358). -/
inductive DevTarget where
  /-- the home slice of a channel -/
  | home (m : Nat)
  /-- the data area of a protected region: node 70 -/
  | memp (r : Nat)
  /-- the metadata or tree area of a protected region -/
  | shadowArea (r : Nat)
  | hostMem
  | bar0 (offset : Nat)
  | dnp (n k : Nat)
  | nowhere
  deriving DecidableEq, Repr

/-- The decoding of a device address (R330, R358). -/
def State.devDecode (s : State) (a : Nat) : DevTarget :=
  if a < 0x20000000000 then
    if !s.memFitted a then .nowhere
    else match s.rgnAt a with
      | some r => if s.inData r a then .memp r else .shadowArea r
      | none => .home (s.chanOf a)
  else if a < 0x40000000000 then (if s.part.optX then .hostMem else .nowhere)
  else if 0x40000000000 ≤ a ∧ a < 0x40004000000 then .bar0 (a - 0x40000000000)
  else if 0x50000000000 ≤ a ∧ a < 0x50100000000 then
    if bits a 26 6 < 60 then .dnp (bits a 26 6) (bits a 25 1) else .nowhere
  else .nowhere

/-- The Tun node that holds the registers at a BAR0 offset (R300). -/
def regNode (o : Nat) : Nat :=
  match Unit0.ofOffset o with
  | some .coh => 65
  | some .kiln => 66
  | some .cask => 67
  | some .evr => 68
  | some .tmu => 69
  | some .cap => 69
  | some .memp => 70
  | _ => 71

/-- Node and DEP of a target: home slice, node 70, 65, the node of a register, or a DNP (R300, R301). -/
def DevTarget.nodeDep : DevTarget → Option (Nat × Nat)
  | .home m => some (posOfChan m, 3)
  | .memp _ => some (70, 0)
  | .shadowArea _ => .none
  | .hostMem => some (65, 0)
  | .bar0 o => some (regNode o, 0)
  | .dnp n k => some (n, 1 + k)
  | .nowhere => .none

/-- A request of a Tun engine at its node for a device address; none where the address names nothing (ADDRERR). -/
def State.engineReq (s : State) (node : Nat) (opc : Opc) (a len : Nat) (data : List Byte) : Option Packet :=
  (s.devDecode a).nodeDep.map fun nd =>
    { dnode := BitVec.ofNat 7 nd.1, dep := BitVec.ofNat 3 nd.2, ddev := BitVec.ofNat 8 s.devNum, snode := BitVec.ofNat 7 node,
      sep := 0, sdev := BitVec.ofNat 8 s.devNum, vn := .req, opc := opc, tag := 0, age := 0, addr := BitVec.ofNat 48 a,
      lenm1 := BitVec.ofNat 12 (len - 1), phint := 0, status := 0, segno := 0, split := false, wmask := 0, data := data }

end Sys2Proof.Machine
end

