-- ==== Sys2Proof/Machine/Bias.lean ====
section
/-! DEFINITION. HDM decoders (R387), the bias of device-memory pages and its flips (R388–R392, R400). -/

namespace Sys2Proof.Machine

/-! ## HDM decoders -/

/-- Decoder k, where committed. -/
def State.hdmOf (s : State) (k : Nat) : Option Hdm := SMap.get (fun _ => none) s.hdm k

/-- Bytes of device memory that a decoder maps. -/
def Hdm.len (h : Hdm) : Nat := h.size / h.ways

/-- The device address of a host physical address under one decoder: the interleave bits are removed (R387). -/
def Hdm.toDpa (h : Hdm) (hpa : Nat) : Option Nat :=
  let off := hpa - h.base
  let block := off / h.granule
  if hpa < h.base ∨ h.base + h.size ≤ hpa ∨ block % h.ways ≠ h.way then none
  else some (h.dpa + block / h.ways * h.granule + off % h.granule)

/-- The host physical address of a device address under one decoder. -/
def Hdm.toHpa (h : Hdm) (dpa : Nat) : Option Nat :=
  let off := dpa - h.dpa
  if dpa < h.dpa ∨ h.dpa + h.len ≤ dpa then none
  else some (h.base + (off / h.granule * h.ways + h.way) * h.granule + off % h.granule)

/-- CXL.mem is in use: enabled and not withdrawn (R386). -/
def State.memEnabled (s : State) : Bool := s.isSet .cxlLnkstatUP && s.isSet .cxlLnkstatMEMEN

/-- The device address that the committed decoders give a host physical address. -/
def State.hdmDecode (s : State) (hpa : Nat) : Option Nat :=
  if !s.memEnabled then none
  else match (s.hdmOf 0).bind (·.toDpa hpa) with
    | some d => some d
    | none => (s.hdmOf 1).bind (·.toDpa hpa)

/-- The host physical address of a device address, where a committed decoder maps it. -/
def State.hdmHpa (s : State) (dpa : Nat) : Option Nat :=
  match (s.hdmOf 0).bind (·.toHpa dpa) with
  | some h => some h
  | none => (s.hdmOf 1).bind (·.toHpa dpa)

/-- A page lies in a committed decoder (R389). -/
def State.pageMapped (s : State) (page : Nat) : Bool := (s.hdmHpa (4096 * page)).isSome

/-- The end of the fitted memory that is not reserved: the bias table at the very top, the 16 MiB remap buffer beneath (R388). -/
def State.memTop (s : State) : Nat := s.memSize - biasSize s.memSize - 2 ^ 24

/-! ## Flips -/

/-- A page is changing bias. -/
def State.flipping (s : State) (page : Nat) : Option FlipSt := s.flips.find? fun f => f.page == page

/-- COH asks the host for a device line (R390, R392). -/
def State.askHost (s : State) (op : HostOp) (line : Nat) : State :=
  match s.hdmHpa (64 * line) with
  | some h => s.emit (.hostReq op h 0 0)
  | none => s

/-- The home slice of a page that sleeps is woken by a flip or resolve (R400). -/
def State.wakeHome (s : State) (page : Nat) : State :=
  let m := s.chanOf (4096 * page)
  let t := if [1, 2].contains (s.getF .pwrDstatSTATE (posOfChan m)) then s.wake (posOfChan m) 2 else s
  if t.getF .pwrDstatSTATE (256 + m) = 1 then t.wake (256 + m) 2 else t

/-- A flip begins (R391 step 1, R392): to device bias, RdOwnNoData goes out for each line. -/
def State.startFlip (s : State) (page : Nat) (toHost : Bool) (wait : List Packet := []) : State :=
  if (s.flipping page).isSome then s else
  let t := { s with flips := s.flips ++ [(⟨page, toHost, wait⟩ : FlipSt)] }.wakeHome page
  if toHost then t else State.each 64 (fun k u => u.askHost .rdOwnNoData (64 * page + k)) t

/-- The table bit of a page (R389). -/
def State.setTable (s : State) (page : Nat) (host : Bool) : State :=
  let a := s.getF .cohBiasbaseADDR + page / 8
  s.memWrite a [BitVec.ofNat 8 (setBit (s.memByte a) (page % 8) host)]

/-- A bias command goes on: pages at their target are done, pages that change bias are taken when their flip ends, and the others
start to flip (R392, R400). -/
def State.biasAdvance (s : State) : State :=
  match s.biasCmd with
  | none => s
  | some c =>
    let r := c.1.foldl (fun (acc : State × List Nat) page =>
      if (acc.1.flipping page).isSome then (acc.1, acc.2 ++ [page])
      else if acc.1.hostBias page = c.2.1 then acc
      else (acc.1.startFlip page c.2.1, acc.2 ++ [page])) (s, [])
    if r.2.isEmpty then r.1.biasCmdDone c.2.2 else { r.1 with biasCmd := some (r.2, c.2) }

/-- The filter of a home slice: the host-bias pages of its channel, least recently installed first (R389). -/
def State.filterOf (s : State) (m : Nat) : List Nat := SMap.get (fun _ => []) s.hostPages m

/-- A flip ends: what waited goes on under R390. -/
def State.flipEnd (s : State) (f : FlipSt) : State :=
  (({ s with flips := s.flips.erase f }.requeue f.wait).biasAdvance).rgnGo

/-- An operation accepted on a page is not complete (R391 step 2). -/
def State.pageBusy (s : State) (page : Nat) : Bool :=
  (s.memReqs.any fun e => e.2.any fun q => q.pkt.addr.toNat / 4096 == page) || s.memp.reqs.any fun q => q.pkt.addr.toNat / 4096 == page

/-- BIAS_FLIP_TO_HOST_DONE (R391): a full filter first flips its least recently installed page to device bias. -/
def execBiasFlipToHostDone (page : BitVec 29) (s : State) : Res :=
  let p := page.toNat
  let m := s.chanOf (4096 * p)
  .next (match s.flipping p with
    | none => s
    | some f =>
      if !f.toHost || s.pageBusy p then s
      else if 4096 ≤ (s.filterOf m).length then
        match (s.filterOf m).head? with
        | some old => if (s.flipping old).isSome then s else (s.startFlip old false).count .cohStatFEVICT
        | none => s
      else
        let t := { s with hostPages := SMap.set (fun _ => []) s.hostPages m (s.filterOf m ++ [p]) }
        ((t.setTable p true).countWrap .cohStatFLIPDH).flipEnd f)

/-- BIAS_FLIP_TO_DEVICE_DONE (R392). -/
def execBiasFlipToDeviceDone (page : BitVec 29) (s : State) : Res :=
  let p := page.toNat
  let m := s.chanOf (4096 * p)
  .next (match s.flipping p with
    | none => s
    | some f =>
      if f.toHost then s else
      let t := { s with hostPages := SMap.set (fun _ => []) s.hostPages m ((s.filterOf m).erase p) }
      ((t.setTable p false).countWrap .cohStatFLIPHD).flipEnd f)

/-- A write of COH_BIASCMD (R392). The link is checked before the pages. -/
def State.biasCmdWrite (s : State) (w m : Nat) : State :=
  let t := s.writeReg .cohBiascmd 0 0 w m
  if !(w &&& m).testBit 30 || s.isSet .cohBiasstatBUSY then t else
  let first := t.getF .cohBiascmdPAGE
  let pages := (List.range (t.getF .cohBiascmdCOUNTM1 + 1)).map (first + ·)
  let refuse := fun c => (t.setOn .cohBiasstatERR).setF .cohBiasstatERRCODE c
  if !(t.isSet .cxlLnkstatUP && t.isSet .cxlLnkstatMEMEN) then refuse 2
  else if t.isSet .cohBiascmdQUERY then
    if t.pageMapped first then t.biasCmdDone first else refuse 1
  else if !pages.all t.pageMapped then refuse 1
  else
    { t.setOn .cohBiasstatBUSY with
        biasCmd := some (pages, t.isSet .cohBiascmdTARGET, first + t.getF .cohBiascmdCOUNTM1) }.biasAdvance

/-- BIAS_COMMAND: a write of COH_BIASCMD with START (R392). -/
def execBiasCommand (w : W64) (s : State) : Res :=
  .next (s.viaUnit .cohBiascmd 0 0 s.hostAgent fun t => t.biasCmdWrite w.toNat full64)

/-- BIAS_QUERY: a write of COH_BIASCMD with START and QUERY (R392). -/
def execBiasQuery (w : W64) (s : State) : Res :=
  .next (s.viaUnit .cohBiascmd 0 0 s.hostAgent fun t => t.biasCmdWrite w.toNat full64)

/-- HDM_COMMIT (R387): a commit outside the supported settings, out of order, or reaching beyond the memory fails with Error Not
Committed. -/
def execHdmCommit (k : Fin 2) (base size skip : BitVec 52) (ways granule way : Nat) (s : State) : Res :=
  let unit := 2 ^ 28
  let start := (if k = 0 then 0 else ((s.hdmOf 0).map fun h => h.dpa + h.len).getD 0) + skip.toNat
  let ok := s.unitOn .coh && [1, 2, 4, 8].contains ways && way < ways &&
    [256, 512, 1024, 2048, 4096, 8192, 16384].contains granule &&
    base.toNat % unit == 0 && size.toNat % unit == 0 && 0 < size.toNat && start + size.toNat / ways ≤ s.memTop &&
    (k == 0 || (s.hdmOf 0).isSome)
  .next (if ok then
      { s with
        hdm := SMap.set (fun _ => none) s.hdm k (some ⟨base.toNat, size.toNat, ways, granule, way, start⟩)
        hdmErr := SMap.set (fun _ => false) s.hdmErr k false }
    else { s with hdmErr := SMap.set (fun _ => false) s.hdmErr k true })

end Sys2Proof.Machine
end

