-- ==== Sys2Proof/Machine/Casks.lean ====
section
/-! DEFINITION. Casks (R459–R465): access checks, register-block mode, queue mode and configuration. Each shared operation
answers the state and the STATUS of the access (R308). -/

namespace Sys2Proof.Machine

/-- STATUS codes (R308). -/
def stOk : Nat := 0
def stIsolated : Nat := 1
def stAddrErr : Nat := 2
def stUnsup : Nat := 3
def stPoison : Nat := 4
def stSlvErr : Nat := 5

/-- The party that CASK_ENDX names matches a packet's source (R460). -/
def partyMatches (acls aid : Nat) (a : Agent) (devNum : Nat) : Bool :=
  match acls with
  | 0 => true
  | 1 => a.node.toNat == 64
  | 2 => a.node.toNat == 72 + aid
  | 3 => a.node.toNat == aid
  | 4 => a.dev.toNat == aid && a.dev.toNat != devNum
  | _ => false

/-- The source may use end B (true) or A (false) of cask c (R460). -/
def State.endMatches (s : State) (c : Nat) (endB : Bool) (a : Agent) : Bool :=
  if endB then partyMatches (s.getF .caskEndbACLS c) (s.getF .caskEndbAID c) a s.devNum
  else partyMatches (s.getF .caskEndaACLS c) (s.getF .caskEndaAID c) a s.devNum

/-- The number of message registers (CASK_CFG.NREG). -/
def State.caskNreg (s : State) (c : Nat) : Nat :=
  match s.getF .caskCfgNREG c with | 0 => 8 | 1 => 12 | _ => 16

/-- An access that fails the check of R460. -/
def State.caskFail (s : State) (c : Nat) : State × Nat := (s.setOn .caskStatACCERR c, stSlvErr)

/-- The 32 payload bytes of an event message (R470). -/
def evtBytes (ekind evnum agent bit payload : Nat) : List Byte :=
  toBytes 32 (ekind + evnum * 2 ^ 2 + agent * 2 ^ 13 + bit * 2 ^ 20 + payload * 2 ^ 64)

/-- The EVT packet by which node 67 rings a tap of another device (R462, R470). -/
def State.tapPacket (s : State) (dev agent bit : Nat) : Packet :=
  { dnode := 68, dep := 0, ddev := BitVec.ofNat 8 dev, snode := 67, sep := 0, sdev := BitVec.ofNat 8 s.devNum, vn := .evt, opc := .evt,
    tag := 0, age := 0, addr := 0, lenm1 := 0, phint := 0, status := 0, segno := 0, split := false, wmask := 0,
    data := evtBytes 2 0 agent bit 0 }

/-- The tap of end B (true) or A (false) is rung for a message that arrives there (R462). -/
def State.caskRing (s : State) (c : Nat) (endB : Bool) : State :=
  let ten := if endB then s.isSet .caskEndbTEN c else s.isSet .caskEndaTEN c
  let trem := if endB then s.isSet .caskEndbTREM c else s.isSet .caskEndaTREM c
  let agent := if endB then s.getF .caskEndbTAGENT c else s.getF .caskEndaTAGENT c
  let bit := if endB then s.getF .caskEndbTBIT c else s.getF .caskEndaTBIT c
  let dev := if endB then s.getF .caskEndbTDEV c else s.getF .caskEndaTDEV c
  if !ten then s else if trem then s.inject (s.tapPacket dev agent bit) else s.ring agent bit

/-- COLLIDE of a cask set; its rise raises event 1017 (R465). -/
def State.caskCollide (s : State) (c : Nat) : State :=
  let t := s.setOn .caskStatCOLLIDE c
  if s.isSet .caskStatCOLLIDE c then t else t.raise 1017 c

/-- A GO write from an end (R463). -/
def State.caskGo (s : State) (c : Nat) (endB : Bool) (a : Agent) : State × Nat :=
  if s.getF .caskCfgMODE c ≠ 1 || !s.endMatches c endB a then s.caskFail c else
  let t := (s.setOn .caskStatGO c).setF .caskStatFROM endB.toNat c
  let u := if s.isSet .caskStatGO c then t.caskCollide c else t
  (u.caskRing c (!endB), stOk)

/-- A TAKE write from an end: from the sending end, or with GO = 0, it is ignored (R463). -/
def State.caskTake (s : State) (c : Nat) (endB : Bool) (a : Agent) : State × Nat :=
  if s.getF .caskCfgMODE c ≠ 1 || !s.endMatches c endB a then s.caskFail c else
  (if s.isSet .caskStatGO c && s.getF .caskStatFROM c != endB.toNat then s.setOff .caskStatGO c else s, stOk)

/-- A write of message register i: m masks the bits of the access (R460, R463). -/
def State.caskMsgWrite (s : State) (c i w m : Nat) (a : Agent) : State × Nat :=
  if s.getF .caskCfgMODE c ≠ 1 || s.caskNreg c ≤ i || !(s.endMatches c false a || s.endMatches c true a) then s.caskFail c
  else
    let t := s.writeFld c i w m .caskMsgDATA
    (if s.isSet .caskStatGO c then t.caskCollide c else t, stOk)

/-- A read of message register i (R460). -/
def State.caskMsgRead (s : State) (c i : Nat) (a : Agent) : State × Nat × Nat :=
  if s.getF .caskCfgMODE c ≠ 1 || s.caskNreg c ≤ i || !(s.endMatches c false a || s.endMatches c true a) then
    ((s.caskFail c).1, 0, stSlvErr)
  else (s, s.getF .caskMsgDATA c i, stOk)

/-- The queue of a cask: towards B (true) or A (false). -/
def State.caskQueue (s : State) (c : Nat) (toB : Bool) : List Nat :=
  SMap.get (fun _ => []) s.caskQ (2 * c + if toB then 0 else 1)

/-- A queue replaced, with its count in CASK_STAT. -/
def State.setCaskQueue (s : State) (c : Nat) (toB : Bool) (q : List Nat) : State :=
  let t := { s with caskQ := SMap.set (fun _ => []) s.caskQ (2 * c + if toB then 0 else 1) q }
  if toB then t.setF .caskStatQAB q.length c else t.setF .caskStatQBA q.length c

/-- A push by an end, towards the other (R464). -/
def State.caskPush (s : State) (c : Nat) (endB : Bool) (w : Nat) (a : Agent) : State × Nat :=
  if s.getF .caskCfgMODE c ≠ 2 || !s.endMatches c endB a then s.caskFail c else
  let q := s.caskQueue c (!endB)
  let t := if q.length < 16 then s.setCaskQueue c (!endB) (q ++ [w])
    else ((s.setCaskQueue c (!endB) (q.drop 1 ++ [w])).count .caskStatDROPS 1 c).caskCollide c
  (t.caskRing c (!endB), stOk)

/-- A pop by an end of the queue towards it: the state, the word and the STATUS (R464). -/
def State.caskPop (s : State) (c : Nat) (endB : Bool) (a : Agent) : State × Nat × Nat :=
  if s.getF .caskCfgMODE c ≠ 2 || !s.endMatches c endB a then ((s.caskFail c).1, 0, stSlvErr) else
  match s.caskQueue c endB with
  | [] => (s.setOn .caskStatEMPTYRD c, 0, stOk)
  | w :: q => (s.setCaskQueue c endB q, w, stOk)

/-- The nodes that may configure casks (R459). -/
def caskConfigurer (a : Agent) : Bool := a.node.toNat == 64 || (72 ≤ a.node.toNat && a.node.toNat ≤ 75)

/-- A write of CASK_CFG: it clears the queues, GO, FROM and every flag and rings no tap (R459, R465). -/
def State.caskCfgWrite (s : State) (c w m : Nat) (a : Agent) : State :=
  if !caskConfigurer a then s.setOn .caskStatACCERR c else
  let t := s.writeReg .caskCfg c 0 w m
  let u := (t.setCaskQueue c true []).setCaskQueue c false []
  [Fld.caskStatGO, .caskStatFROM, .caskStatCOLLIDE, .caskStatACCERR, .caskStatEMPTYRD, .caskStatDROPS].foldl
    (fun v f => v.setF f 0 c) u

/-- A write of CASK_ENDA or CASK_ENDB (R459). -/
def State.caskEndWrite (s : State) (c : Nat) (endB : Bool) (w m : Nat) (a : Agent) : State :=
  if !caskConfigurer a then s.setOn .caskStatACCERR c
  else s.writeReg (if endB then .caskEndb else .caskEnda) c 0 w m

/-- GO (R463). -/
def execGo (c : Cask) (endB : Bool) (a : Agent) (s : State) : Res :=
  .next (s.viaUnit .caskXctl c endB.toNat a fun t => (t.caskGo c endB a).1)

/-- TAKE (R463). -/
def execTake (c : Cask) (endB : Bool) (a : Agent) (s : State) : Res :=
  .next (s.viaUnit .caskXctl c endB.toNat a fun t => (t.caskTake c endB a).1)

/-- MESSAGE_WRITE (R463). -/
def execMessageWrite (c : Cask) (i : Fin 16) (w : W32) (a : Agent) (s : State) : Res :=
  .next (s.viaUnit .caskMsg c i a fun t => (t.caskMsgWrite c i w.toNat full32 a).1)

/-- PUSH (R464). -/
def execPush (c : Cask) (endB : Bool) (w : W32) (a : Agent) (s : State) : Res :=
  .next (s.viaUnit .caskXpush c endB.toNat a fun t => (t.caskPush c endB w.toNat a).1)

/-- POP: the word goes back to the reader (R464). -/
def execPop (c : Cask) (endB : Bool) (a : Agent) (tag : BitVec 12) (s : State) : Res :=
  .next (if s.perst then s else if s.unitOn .cask then
      let r := s.caskPop c endB a
      r.1.emit (.answer a tag.toNat r.2.2 r.2.1)
    else (s.gateHit Unit0.cask.bit (RegName.caskXpop.offset c endB.toNat) a).emit (.answer a tag.toNat stOk 0))

/-- CASK_CFG_WRITE (R465). -/
def execCaskCfgWrite (c : Cask) (w : W32) (a : Agent) (s : State) : Res :=
  .next (s.viaUnit .caskCfg c 0 a fun t => t.caskCfgWrite c w.toNat full32 a)

/-- CASK_END_WRITE (R459). -/
def execCaskEndWrite (c : Cask) (endB : Bool) (w : W32) (a : Agent) (s : State) : Res :=
  .next (s.viaUnit (if endB then .caskEndb else .caskEnda) c 0 a fun t => t.caskEndWrite c endB w.toNat full32 a)

end Sys2Proof.Machine
end

