-- ==== Sys2Proof/Machine/Clocks.lean ====
section
/-! DEFINITION. Clocks (R143–R167): reference qualification, the root PLL, user PLLs, trim oscillators, the frequency meter and
unit gating. -/

namespace Sys2Proof.Machine

/-! ## References and the root PLL -/

/-- The "qualified" bit of a reference input. -/
def refOkFld : RefIn → Fld
  | .refclk => .clkRootstatREF0OK
  | .refclk2 => .clkRootstatREF1OK
  | .trimref => .clkRootstatTRIMOK

/-- The value of REFSEL that names a reference; TRIMREF is never named. -/
def refSel : RefIn → Nat
  | .refclk => 0 | .refclk2 => 1 | .trimref => 2

/-- The count of rising edges in a 10 µs window lies in the band of the input (R145): 100 MHz or 10 MHz, ±0.5 %. -/
def refInBand : RefIn → Nat → Bool
  | .refclk, n => 995 ≤ n && n ≤ 1005
  | .refclk2, n => 995 ≤ n && n ≤ 1005
  | .trimref, n => 1990 ≤ 20 * n && 20 * n ≤ 2010

/-- The qualification of the reference that REFSEL value k names. -/
def State.refOk (s : State) (k : Nat) : Bool :=
  if k = 0 then s.isSet .clkRootstatREF0OK else if k = 1 then s.isSet .clkRootstatREF1OK else false

/-- The root begins to coast (R148): LOCK shows the root locked or switching (DEDUCED, log 60). -/
def State.coast (s : State) : State :=
  (((({ s with root := .coasting }).setOff .clkRootstatLOCK).setOn .clkRootstatCOAST).setOn .clkRootstatCOASTSEEN).raise 976

/-- The active reference is lost (R147): an automatic switch, or a coast. REFSEL names the reference switched to. -/
def State.activeLost (s : State) : State :=
  let alt := 1 - s.getF .clkRootcfgREFSEL
  if s.isSet .clkRootcfgAUTOSW && s.refOk alt then
    ((({ s with root := .switching }).setF .clkRootcfgREFSEL alt).setOn .clkRootstatREFSWSEEN).raise 977
  else s.coast

/-- What the root does when reference r becomes qualified (R146, R149). -/
def State.rootOnQualified (s : State) (r : RefIn) : State :=
  if r = .trimref then s else
  match s.root with
  | .waiting => if s.perst then s else { s.setF .clkRootcfgREFSEL (refSel r) with root := .locking }
  | .coasting =>
    if s.getF .clkRootcfgREFSEL = refSel r || s.isSet .clkRootcfgAUTOSW then
      { s.setF .clkRootcfgREFSEL (refSel r) with root := .relocking }
    else s
  | .locking | .locked | .switching | .relocking => s

/-- A reference lost: the root acts when it was the one in use (R147); a first lock or a relock on it falls back to waiting or
coasting (DEDUCED, log 5). -/
def State.refLost (s : State) (r : RefIn) : State :=
  let t := s.setOff (refOkFld r)
  if s.getF .clkRootcfgREFSEL ≠ refSel r then t else
  match s.root with
  | .locked => t.activeLost
  | .switching => t.coast
  | .relocking => { t with root := .coasting }
  | .locking =>
    if t.refOk (1 - refSel r) then { t.setF .clkRootcfgREFSEL (1 - refSel r) with root := .locking } else { t with root := .waiting }
  | .waiting | .coasting => t

/-- MEASUREMENT_WINDOW_END (R145): the band decides, and continuous edges to qualify. -/
def execMeasurementWindowEnd (r : RefIn) (edges : Nat) (continuous : Bool) (s : State) : Res :=
  .next (if s.isSet (refOkFld r) then (if refInBand r edges then s else s.refLost r)
    else if refInBand r edges && continuous then (s.setOn (refOkFld r)).rootOnQualified r else s)

/-- REFERENCE_LOSS_INTERVAL (R145). -/
def execReferenceLossInterval (r : RefIn) (s : State) : Res :=
  .next (if s.isSet (refOkFld r) then s.refLost r else s)

/-- SWITCH_COMPLETE (R147): the root is locked to the reference it switched to. -/
def execSwitchComplete (s : State) : Res :=
  .next (if s.root = .switching then { s with root := .locked } else s)

/-- ROOT_RELOCK (R149): COAST clears. -/
def execRootRelock (s : State) : Res :=
  .next (if s.root = .relocking then ((({ s with root := .locked }).setOff .clkRootstatCOAST).setOn .clkRootstatLOCK) else s)

/-- REFSEL_WRITE (R150): a write of CLK_ROOTCFG; AUTOSW is stored by its type. -/
def execRefselWrite (w : W32) (s : State) : Res :=
  let t := s.writeFld 0 0 w.toNat full32 .clkRootcfgAUTOSW
  let k := w.toNat % 2
  .next (if s.perst then s else if k = s.getF .clkRootcfgREFSEL || !s.refOk k then t
    else match s.root with
      | .locked => { t.setF .clkRootcfgREFSEL k with root := .switching }
      | .coasting => { t.setF .clkRootcfgREFSEL k with root := .relocking }
      | .waiting | .locking | .switching | .relocking => t)

/-! ## User PLLs -/

/-- A UPLL that is enabled by the image (R151). -/
def State.upllEn (s : State) (n u : Nat) : Bool := (s.getF .grnPllcfgEN (s.phys n) u) != 0

/-- UPLL_REFERENCE_LOSS (R155). -/
def execUpllReferenceLoss (n : Pos) (u : Fin 4) (s : State) : Res :=
  let p := s.phys n
  .next (if s.upllEn n u && !s.bitF .grnPllstatCOASTNOW u p then
    (((s.setBitF .grnPllstatCOASTNOW u true p).setBitF .grnPllstatCOASTSEEN u true p).setBitF .grnPllstatLOCK u false p).raiseG
      n 10
  else s)

/-- UPLL_RELOCK (R156): COASTNOW clears at lock. -/
def execUpllRelock (n : Pos) (u : Fin 4) (s : State) : Res :=
  let p := s.phys n
  .next (if s.upllEn n u && s.bitF .grnPllstatCOASTNOW u p then
    (s.setBitF .grnPllstatCOASTNOW u false p).setBitF .grnPllstatLOCK u true p else s)

/-- UPLL_UNLOCK (R156). -/
def execUpllUnlock (n : Pos) (u : Fin 4) (s : State) : Res :=
  let p := s.phys n
  .next (if s.bitF .grnPllstatLOCK u p then
    ((s.setBitF .grnPllstatLOCK u false p).setBitF .grnPllstatUNLOCKSEEN u true p).raiseG n 10 else s)

/-- UPLL_LOCK: the lock of an enabled UPLL with its reference (R256, R154). -/
def execUpllLock (n : Pos) (u : Fin 4) (s : State) : Res :=
  .next (if s.upllEn n u && !s.bitF .grnPllstatCOASTNOW u (s.phys n) then s.setBitF .grnPllstatLOCK u true (s.phys n) else s)

/-! ## Trim oscillators -/

/-- Nearest integer to a/b for b > 0, ties away from zero (R161). -/
def roundDiv (a : Int) (b : Nat) : Int :=
  if 0 ≤ a then (2 * a + b) / (2 * b) else -((2 * -a + b) / (2 * b))

/-- A 10-bit field as a signed number. -/
def trimInt (n : Nat) : Int := if n < 512 then n else (n : Int) - 1024

/-- A signed trim clamped to −512 … 511, as a 10-bit field. -/
def trimField (t : Int) : Nat := ((max (-512) (min 511 t)) % 1024).toNat

/-- The trim source that CLK_TROCTL names is one of the two (R161). -/
def State.trimSrcOk (s : State) : Bool := s.getF .clkTroctlTSRC = 1 || s.getF .clkTroctlTSRC = 2

/-- The next window starts with the settings as they stand (R161, R162). -/
def State.trimWindowStart (s : State) : State :=
  let on := s.isSet .clkTroctlENABLE && s.trimSrcOk
  { s with trim := { on := on, e := s.getF .clkTroexpE, good := s.trim.good } }

/-- TRIM_WINDOW_END (R161, R162). -/
def execTrimWindowEnd (m : W32) (s : State) : Res :=
  .next (if !s.trim.on then s else
    let e := s.trim.e
    let d : Int := (e : Int) - m.toNat
    let good := if d.natAbs * 10000 ≤ e then min 4 (s.trim.good + 1) else 0
    let t := (s.setF .clkTrocntM m.toNat).setF .clkTrotrimTRIM
      (trimField (trimInt (s.getF .clkTrotrimTRIM) + roundDiv (d * 10000) e))
    let u := if good = 4 then t.setOn .clkTrotrimLOCKED else if good = 0 then t.setOff .clkTrotrimLOCKED else t
    ({ u with trim := { u.trim with good := good } }).trimWindowStart)

/-- TRIM_SOURCE_LOST (R162): the window is discarded and windows resume with the source. -/
def execTrimSourceLost (s : State) : Res :=
  .next (if s.trim.on then (s.setOn .clkTroctlSRCLOST).raise 978 else s)

/-- A trim setting written while the engine is on clears LOCKED (R162). -/
def State.trimRelock (s : State) : State :=
  if s.isSet .clkTroctlENABLE then { s.setOff .clkTrotrimLOCKED with trim := { s.trim with good := 0 } } else s

/-- TROEXP_WRITE (R161): values below 1,024 are ignored. -/
def execTroexpWrite (w : W32) (s : State) : Res :=
  .next (if s.perst || w.toNat < 1024 then s else s.trimRelock.setF .clkTroexpE w.toNat)

/-- TROCTL_WRITE (R162): the settings act from the next window; the engine starts or stops at once when none is counted. -/
def execTroctlWrite (w : W32) (s : State) : Res :=
  let t := s.trimRelock.writeReg .clkTroctl 0 0 w.toNat full32
  .next (if s.perst then s else if s.trim.on && t.isSet .clkTroctlENABLE then t else
    { t with trim := { t.trimWindowStart.trim with good := 0 } })

/-- GRAIN_TRO_TRIMMED (R163). -/
def execGrainTroTrimmed (p : Phys) (s : State) : Res := .next (s.setOn .grnPllstatTROOK p)

/-! ## Frequency meter (R164) -/

/-- FM_START: ignored while BUSY = 1. -/
def execFmStart (w : W32) (s : State) : Res :=
  let t := s.writeReg .clkFmctl 0 0 w.toNat full32
  .next (if s.perst then s else if w.toNat.testBit 28 && !s.isSet .clkFmctlBUSY then
    ((t.setOff .clkFmctlDONE).setOff .clkFmctlOVF).setOn .clkFmctlBUSY else t)

/-- The end of a measurement with its count, which saturates. -/
def State.fmEnd (s : State) (n : Nat) : State :=
  let t := ((s.setF .clkFmcntCOUNT (min n full32)).setOff .clkFmctlBUSY).setOn .clkFmctlDONE
  if full32 < n then t.setOn .clkFmctlOVF else t

/-- The edges counted: sources 7–15 of MSRC give none. -/
def State.fmCount (s : State) (n : Nat) : Nat := if 7 ≤ s.getF .clkFmctlMSRC then 0 else n

/-- FM_MEASUREMENT_DONE. -/
def execFmMeasurementDone (count : Nat) (s : State) : Res :=
  .next (if s.isSet .clkFmctlBUSY then s.fmEnd (s.fmCount count) else s)

/-- FM_GATE_TIMEOUT. -/
def execFmGateTimeout (count : Nat) (s : State) : Res :=
  .next (if s.isSet .clkFmctlBUSY then (s.fmEnd (s.fmCount count)).setOn .clkFmctlGATEERR else s)

/-! ## Unit gating -/

/-- TUN_CLKEN bits that software may clear and set: CASK, EVR, KILN, SPG, CAP, COH, MEMP. -/
def gateableBits : List Nat := [5, 6, 7, 9, 10, 11, 13]

/-- The feature of an option unit's bit is acknowledged: COH by CXLCM, MEMP by MEMP (R5, R165). -/
def State.featAcked (s : State) (b : Nat) : Bool :=
  if b = 11 then s.bitF .tunFeatackACK 1 else if b = 13 then s.bitF .tunFeatackACK 0 else true

/-- A protected region is enabled (R165). -/
def State.anyRegion (s : State) : Bool := (List.range 64).any fun r => s.isSet .mempRgncfgENABLE r

/-- An enable bit is fixed: absent option, or not acknowledged at the lock (R165). -/
def State.clkenFixed (s : State) (b : Nat) : Bool :=
  (b = 11 && !s.part.optX) || (b = 13 && !s.part.optS) || (s.isSet .tunFeatlockLOCK && !s.featAcked b)

/-- Clearing an enable bit is refused (R165). -/
def State.clkenRefused (s : State) (b : Nat) : Bool :=
  (b = 11 && s.featAcked 11) || (b = 13 && s.anyRegion)

/-- CLKEN_WRITE (R165, R166): the bits read their new values at once; gating and ungating follow. -/
def execClkenWrite (w : W32) (s : State) : Res :=
  .next (if s.perst then s else gateableBits.foldl (fun t b =>
    if s.clkenFixed b then t
    else if w.toNat.testBit b then t.setBitF .tunClkenEN b true
    else if s.clkenRefused b then t else t.setBitF .tunClkenEN b false) s)

/-- A load, a rewrite or another Kiln job runs (R165). -/
def State.kilnBusy (s : State) : Bool :=
  (2 ≤ s.getF .kilnStatSTATE && s.getF .kilnStatSTATE ≤ 6) || !s.kilnJobs.isEmpty || (s.getF .kilnPldstatSTATE != 0)

/-- The deferral condition of gating unit bit b holds (R165). -/
def State.gateReady (s : State) (b : Nat) : Bool :=
  if b = 7 then !s.kilnBusy else if b = 10 then !s.isSet .capAccstatBUSY else true

/-- UNIT_GATED (R166). -/
def execUnitGated (b : Fin 17) (s : State) : Res :=
  .next (if !s.bitF .tunClkenEN b && s.bitF .tunClkstatCLOCKED b && s.gateReady b
    then s.setBitF .tunClkstatCLOCKED b false else s)

/-- UNIT_UNGATED (R166): the unit resumes from its kept state. -/
def execUnitUngated (b : Fin 17) (s : State) : Res :=
  .next (if s.bitF .tunClkenEN b && !s.bitF .tunClkstatCLOCKED b then s.setBitF .tunClkstatCLOCKED b true else s)

end Sys2Proof.Machine
end

