-- ==== Sys2Proof/Machine/Memp.lean ====
section
/-! DEFINITION. Inline memory protection (R357–R379): keys, regions, the metadata and the counter tree, line operations, and
re-key walks. -/

namespace Sys2Proof.Machine

/-! ## Layout of a region (R361, R364) -/

/-- The number of data lines of region r. -/
def State.dataLines (s : State) (r : Nat) : Nat := 7 * s.rgnSize r / 512

/-- M, the number of metadata lines. -/
def State.metaLines (s : State) (r : Nat) : Nat := 7 * s.rgnSize r / 4096

/-- The address of metadata line m. -/
def State.metaAddr (s : State) (r m : Nat) : Nat := s.rgnBase r + s.rgnSize r / 8 * 7 + 64 * m

/-- N_k, the nodes of level k over M metadata lines. -/
def levelSize (lines k : Nat) : Nat := (lines + 8 ^ k - 1) / 8 ^ k

/-- O_k, the nodes stored before level k. -/
def levelOff (lines k : Nat) : Nat := (List.range (k - 1)).foldl (fun o t => o + levelSize lines (t + 1)) 0

/-- The top level: the first with one node. -/
def topLevel (lines : Nat) : Nat := ((List.range 13).find? fun k => 1 ≤ k && levelSize lines k == 1).getD 13

/-- The address of node j of level k. -/
def State.nodeAddr (s : State) (r k j : Nat) : Nat :=
  s.rgnBase r + s.rgnSize r / 64 * 63 + 64 * (levelOff (s.metaLines r) k + j)

/-- The lines from metadata line m up to the level beneath the top, each with its slot in its parent. -/
def State.treePath (s : State) (r m : Nat) : List (Nat × Nat) :=
  (List.range (topLevel (s.metaLines r))).map fun k =>
    (if k = 0 then s.metaAddr r m else s.nodeAddr r k (m / 8 ^ k), m / 8 ^ k % 8)

/-- MODE of region r: 0 C, 1 CI, 2 CIF. -/
def State.rgnMode (s : State) (r : Nat) : Nat := s.getF .mempRgncfgMODE r

/-- The lines that an operation on a line of metadata line m reads and updates: the tree path in CIF mode, else the metadata line. -/
def State.metaPath (s : State) (r m : Nat) : List (Nat × Nat) :=
  if s.rgnMode r = 2 then s.treePath r m else [(s.metaAddr r m, 0)]

/-! ## Keys and cryptography (R363, R364, R366) -/

/-- The encryption and MAC key of a key ID. -/
def State.keysOf (s : State) (kid : Nat) : Nat × Nat := (SMap.get (fun _ => none) s.memp.keys kid).getD (0, 0)

/-- The keystream of a line: four blocks in counter mode (R363). -/
def State.lineStream (s : State) (kid a ctr : Nat) : Nat :=
  pack 128 ((List.range 4).map fun b =>
    leNat (Config.aesCtr (toBytes 32 (s.keysOf kid).1) (toBytes 16 (a / 64 % 2 ^ 42 + b * 2 ^ 42 + ctr * 2 ^ 44)) 16))

/-- A line encrypted or decrypted under a key ID and counter. -/
def State.cipher (s : State) (kid a ctr data : Nat) : Nat := data ^^^ s.lineStream kid a ctr

/-- The MAC field of the poison marker (R362). -/
def poisonMac : Nat := 0xFFFFFFFFFF

/-- The MAC field of a line (R362, R363): 0 in mode C. -/
def State.lineMac (s : State) (mode kid a ctr cipher : Nat) : Nat :=
  if mode = 0 then 0 else
  let m := (Config.cmac256 (BitVec.ofNat 256 (s.keysOf kid).2)
    (toBytes 64 cipher ++ toBytes 8 (a / 64 * 64) ++ toBytes 3 ctr ++ toBytes 1 kid ++ toBytes 4 0)).toNat % 2 ^ 40
  if m = poisonMac then 0xFFFFFFFFFE else m

/-- The hash of a child in its parent (R364). -/
def State.treeHash (s : State) (kid child addr : Nat) : Nat :=
  (Config.cmac256 (BitVec.ofNat 256 (s.keysOf kid).2) (toBytes 64 child ++ toBytes 8 addr)).toNat % 2 ^ 64

/-- A key ID is used by a region or a walk other than of region `but` (R366). -/
def State.keyUsed (s : State) (k : Nat) (but : Nat := 64) : Bool :=
  (List.range 64).any fun r =>
    r != but && ((s.getF .mempRgnstatSTATE r != 0 || s.isSet .mempRgncfgENABLE r) && s.getF .mempRgncfgKEYID r == k ||
      SMap.get (fun _ => none) s.memp.walk r == some k)

/-- ALLOC fills both keys from entropy (R366). -/
def State.allocKey (s : State) (k : Nat) : State :=
  let a := s.free
  let b := a.2.free
  { b.2.setKeyState k 1 with memp.keys := SMap.set (fun _ => none) b.2.memp.keys k (some (a.1 % 2 ^ 256, b.1 % 2 ^ 256)) }

/-- A retire begins: RETIRING, and the cache entries made under the key ID are invalidated (R367). -/
def State.retireKey (s : State) (k : Nat) : State :=
  { s.setKeyState k 2 with memp.cache := s.memp.cache.filter fun e => e.2.elim true fun v => v.1 != k }

/-- A write of MEMP_KEYCTL (R366, R367). A command is ignored while BUSY. -/
def State.keyCtlWrite (s : State) (w m : Nat) : State :=
  let t := s.writeReg .mempKeyctl 0 0 w m
  let k := t.getF .mempKeyctlKEYID
  if s.isSet .mempKeystatBUSY then t else
  match bits (w &&& m) 8 2 with
  | 1 => if t.keyState k = 0 then t.allocKey k else t.setOn .mempKeystatERR
  | 2 =>
    if t.keyState k = 1 && !t.keyUsed k then { (t.retireKey k).setOn .mempKeystatBUSY with memp.cmd := some k }
    else t.setOn .mempKeystatERR
  | _ => t

/-- KEY_ALLOC: ALLOC of key ID k through MEMP_KEYCTL (R366). -/
def execKeyAlloc (k : KeyId) (s : State) : Res :=
  .next (s.viaUnit .mempKeyctl 0 0 s.hostAgent fun t => t.keyCtlWrite (k.val + 0x100) full32)

/-- KEY_RETIRE: RETIRE of key ID k through MEMP_KEYCTL (R367). -/
def execKeyRetire (k : KeyId) (s : State) : Res :=
  .next (s.viaUnit .mempKeyctl 0 0 s.hostAgent fun t => t.keyCtlWrite (k.val + 0x200) full32)

/-! ## The cache and the tree (R365, R373) -/

/-- Lines dropped from the cache. -/
def State.evictMeta (s : State) (as : List (BitVec 48)) : State :=
  { s with memp.cache := as.foldl (fun c a => SMap.set (fun _ => none) c (a.toNat / 64) none) s.memp.cache }

/-- A line of a metadata path: its content, and whether the cache holds it. -/
def State.metaRead (s : State) (addr : Nat) : Nat × Bool :=
  match SMap.get (fun _ => none) s.memp.cache (addr / 64) with
  | some e => (e.2, true)
  | none => (s.lineNow (s.chanOf addr) (addr / 64), false)

/-- A metadata line or tree node enters the cache. -/
def State.metaCache (s : State) (kid addr v : Nat) : State :=
  { s with memp.cache := SMap.set (fun _ => none) s.memp.cache (addr / 64) (some (kid, v)) }

/-- The key IDs under which hashes of region r may stand: its own, and that of a walk. -/
def State.hashKeys (s : State) (r : Nat) : List Nat :=
  s.getF .mempRgncfgKEYID r :: (SMap.get (fun _ => none) s.memp.walk r).toList

/-- The content of the parent of the head of a path: the next line, or the top node. -/
def State.parentOf (s : State) (r : Nat) : List (Nat × Nat) → Nat
  | [] => SMap.get (fun _ => 0) s.memp.top r
  | (a, _) :: _ => (s.metaRead a).1

/-- The lines of a path that an operation reads from memory: up to the first cached one, or, for a write, every one not cached. -/
def State.pathReads (s : State) (whole : Bool) : List (Nat × Nat) → List Nat
  | [] => []
  | (a, _) :: rest =>
    if (s.metaRead a).2 then (if whole then s.pathReads whole rest else []) else a :: s.pathReads whole rest

/-- Every line of a path that is read matches its hash in its parent (R364, R365). -/
def State.pathOk (s : State) (r : Nat) (whole : Bool) : List (Nat × Nat) → Bool
  | [] => true
  | (a, slot) :: rest =>
    let v := s.metaRead a
    if v.2 then (if whole then s.pathOk r whole rest else true)
    else (s.hashKeys r).any (fun k => s.treeHash k v.1 a == bits (s.parentOf r rest) (64 * slot) 64) && s.pathOk r whole rest

/-- What opening the metadata of a line gives: the cause of a fault, or the state with the lines in the cache. -/
inductive Opened where
  | fault (cause : Nat)
  | ok (s : State)
  deriving DecidableEq, Repr

/-- The metadata line of line i of region r is read and verified, the whole path for a write; `mdecc` says that a line which had to
be read came back POISON (R365, R373). -/
def State.openMeta (s : State) (r i : Nat) (whole mdecc : Bool) : Opened :=
  let path := s.metaPath r (i / 8)
  let reads := s.pathReads whole path
  if mdecc && !reads.isEmpty then .fault 3
  else if s.rgnMode r = 2 && !s.pathOk r whole path then .fault 2
  else .ok (reads.foldl (fun t a => t.metaCache (s.getF .mempRgncfgKEYID r) a (s.metaRead a).1) s)

/-- The metadata word of line i (R361, R362). -/
def State.metaWord (s : State) (r i : Nat) : Nat := bits (s.metaRead (s.metaAddr r (i / 8))).1 (64 * (i % 8)) 64

/-- A number with a field replaced. -/
def setField (n lo len v : Nat) : Nat := n - bits n lo len * 2 ^ lo + v % 2 ^ len * 2 ^ lo

/-- A line of a path takes a value, and with it each of its parents up to the top (R365). -/
def State.writePath (s : State) (r kid v : Nat) : List (Nat × Nat) → State
  | [] => { s with memp.top := SMap.set (fun _ => 0) s.memp.top r v }
  | (a, slot) :: rest =>
    let t := (s.memWrite a (toBytes 64 v)).metaCache kid a v
    if s.rgnMode r = 2 then t.writePath r kid (setField (s.parentOf r rest) (64 * slot) 64 (s.treeHash kid v a)) rest else t

/-- The key ID of new hashes: that of a walk while one runs. -/
def State.newHashKey (s : State) (r : Nat) : Nat :=
  (SMap.get (fun _ => none) s.memp.walk r).getD (s.getF .mempRgncfgKEYID r)

/-- The metadata word of line i takes a value. -/
def State.putMeta (s : State) (r i w : Nat) : State :=
  let path := s.metaPath r (i / 8)
  s.writePath r (s.newHashKey r) (setField (s.metaRead (s.metaAddr r (i / 8))).1 (64 * (i % 8)) 64 w) path

/-- Line i is written under a key ID and counter: metadata, then data (R371). -/
def State.putLine (s : State) (r i kid ctr data : Nat) : State :=
  let a := s.rgnBase r + 64 * i
  let c := s.cipher kid a ctr data
  (s.putMeta r i (ctr + s.lineMac (s.rgnMode r) kid a ctr c * 2 ^ 24)).memWrite a (toBytes 64 c)

/-- Line i is poisoned with its counter kept (R372). -/
def State.poisonLine (s : State) (r i : Nat) : State := s.putMeta r i (s.metaWord r i % 2 ^ 24 + poisonMac * 2 ^ 24)

/-! ## Walks (R374–R377) -/

/-- Line i of region r is already under the key of the walk (R375). -/
def State.underNew (s : State) (r i : Nat) : Bool :=
  s.getF .mempRgnstatSTATE r == 3 && (i < s.getF .mempRgnwalkWP r || (SMap.get (fun _ => []) s.memp.jump r).contains i)

/-- The key ID that line i of region r is under. -/
def State.lineKey (s : State) (r i : Nat) : Nat := if s.underNew r i then s.newHashKey r else s.getF .mempRgncfgKEYID r

/-- The jump table of region r. -/
def State.setJump (s : State) (r : Nat) (l : List Nat) : State :=
  { s.setF .mempRgnwalkJUMPS l.length r with memp.jump := SMap.set (fun _ => []) s.memp.jump r l }

/-- A walk of region r starts with a new key ID. -/
def State.startWalk (s : State) (r k : Nat) : State :=
  { ((s.setF .mempRgnwalkWP 0 r).setF .mempRgnwalkNEWKEY k r).setF .mempRgnstatSTATE 3 r with
      memp.walk := SMap.set (fun _ => none) s.memp.walk r (some k) }.setJump r []

/-- The automatic start of a walk: the lowest FREE key ID, or REKEYBLK (R374). -/
def State.autoWalk (s : State) (r : Nat) : State :=
  if !s.isSet .mempRgncfgAUTOREKEY r then s
  else match (List.range 64).find? fun k => s.keyState k == 0 with
    | some k => (s.allocKey k).startWalk r k
    | none => s.setOn .mempRgnstatREKEYBLK r

/-- A counter has reached 0xFF_F000 (R374). During a walk the due is held: where REKEYDUE rises, and where the line is already under
the new key, which this walk will not visit again. -/
def State.rekeyDue (s : State) (r : Nat) (newKey : Bool) : State :=
  let was := s.isSet .mempRgnstatREKEYDUE r
  let t := if was then s else (s.setOn .mempRgnstatREKEYDUE r).raise 1003
  if s.getF .mempRgnstatSTATE r = 3 then
    if !was || newKey then { t with memp.due := SMap.set (fun _ => false) t.memp.due r true } else t
  else if was then s else t.autoWalk r

/-- KEY_RETIRE_DONE (R367, R374): a region that waits for a FREE key ID starts its walk. -/
def execKeyRetireDone (k : KeyId) (s : State) : Res :=
  .next (if s.keyState k ≠ 2 then s else
    let t := ({ s.setKeyState k 0 with memp.keys := SMap.set (fun _ => none) s.memp.keys k none }).raise 1004
    let u := if t.memp.cmd = some k.val then { t.setOff .mempKeystatBUSY with memp.cmd := none } else t
    State.each 64 (fun r v =>
      if v.getF .mempRgnstatSTATE r = 2 && v.isSet .mempRgnstatREKEYDUE r && (List.range 64).any (fun j => v.keyState j == 0)
      then v.autoWalk r else v) u)

/-- A write of MEMP_RGNWALKr (R374). -/
def State.rgnWalkWrite (s : State) (r w m : Nat) : State :=
  let t := s.writeReg .mempRgnwalk r 0 w m
  let k := t.getF .mempRgnwalkNEWKEY r
  if !(w &&& m).testBit 41 || t.getF .mempRgnstatSTATE r ≠ 2 then t
  else if t.keyState k ≠ 1 || t.keyUsed k then t.setOn .mempRgnstatERR r
  else t.startWalk r k

/-- WALK_START: a write of MEMP_RGNWALKr with START (R374). -/
def execWalkStart (r : Region) (w : W64) (s : State) : Res :=
  .next (s.viaUnit .mempRgnwalk r 0 s.hostAgent fun t => t.rgnWalkWrite r w.toNat full64)

/-- The walk of region r is complete (R377). -/
def State.walkDone (s : State) (r : Nat) : State :=
  let old := s.getF .mempRgncfgKEYID r
  let t := ((((s.setF .mempRgncfgKEYID (s.newHashKey r) r).setJump r []).setOff .mempRgnstatREKEYDUE r).count .mempRgnstatWALKS 1
    r).setF .mempRgnstatSTATE 2 r
  let u := (({ t with memp.walk := SMap.set (fun _ => none) t.memp.walk r none }).raise 1004).retireKey old
  if SMap.get (fun _ => false) u.memp.due r then
    ({ u with memp.due := SMap.set (fun _ => false) u.memp.due r false }.setOn .mempRgnstatREKEYDUE r).autoWalk r
  else u

/-- The walk moves past line WP. -/
def State.walkPast (s : State) (r : Nat) : State :=
  let i := s.getF .mempRgnwalkWP r
  let t := (s.setF .mempRgnwalkWP (i + 1) r).setJump r ((SMap.get (fun _ => []) s.memp.jump r).erase i)
  if s.dataLines r ≤ i + 1 then t.walkDone r else t

/-- Line i is re-encrypted under the key of the walk at CTR 0; its metadata is open (R375). -/
def State.walkLine (s : State) (r i : Nat) : State :=
  let a := s.rgnBase r + 64 * i
  let old := s.getF .mempRgncfgKEYID r
  let w := s.metaWord r i
  let c := s.lineNow (s.chanOf a) (a / 64)
  if w / 2 ^ 24 = poisonMac then s.putMeta r i w
  else if s.rgnMode r ≠ 0 && w / 2 ^ 24 != s.lineMac (s.rgnMode r) old a (w % 2 ^ 24) c then
    (s.poisonLine r i).mempAlarm 4 r a 70
  else s.putLine r i (s.newHashKey r) 0 (s.cipher old a (w % 2 ^ 24) c)

/-- WALK_STEP (R375–R377): lines of the jump table are skipped. A failed tree hash or metadata read puts the region in FAULT. -/
def execWalkStep (r : Region) (evict : List (BitVec 48)) (mdecc : Bool) (s : State) : Res :=
  let i := s.getF .mempRgnwalkWP r
  .next (if s.getF .mempRgnstatSTATE r ≠ 3 then s
    else if s.underNew r i then s.walkPast r
    else if !s.memUsable (s.rgnBase r + 64 * i) 64 || !s.memUsable (s.metaAddr r (i / 8)) 64 then s
    else match (s.evictMeta evict).openMeta r i true mdecc with
      | .fault c => ((s.evictMeta evict).rgnFault r).mempAlarm c r (s.rgnBase r + 64 * i) 70
      | .ok t =>
        let u := t.walkLine r i
        if u.getF .mempRgnstatSTATE r = 3 then u.walkPast r else u)

/-! ## Enabling and disabling (R368, R369) -/

/-- The cache forgets the lines of region r. -/
def State.dropRgn (s : State) (r : Nat) : State :=
  { s with memp.cache := SMap.clearWhere (fun l => decide (s.rgnBase r ≤ 64 * l ∧ 64 * l < s.rgnBase r + s.rgnSize r)) s.memp.cache }

/-- A region that is being disabled and has no request in flight becomes OFF; what arrived meanwhile goes to the home slices. -/
def State.rgnSettle (s : State) (r : Nat) : State :=
  if s.isSet .mempRgncfgENABLE r || s.getF .mempRgnstatSTATE r = 0 || s.memp.reqs.any (fun q => q.rgn == r) then s
  else
    let mine := fun p : Packet => s.inData r p.addr.toNat
    { (s.dropRgn r).setF .mempRgnstatSTATE 0 r with memp.wait := s.memp.wait.filter fun p => !mine p }.requeue (s.memp.wait.filter mine)

/-- The definition of region r may be enabled (R357, R366, R388). -/
def State.rgnValid (s : State) (r : Nat) : Bool :=
  let n := s.getF .mempRgncfgLOG2S r
  let b := s.rgnBase r
  let sz := s.rgnSize r
  24 ≤ n && n ≤ 41 && b % sz == 0 && b + sz ≤ s.memTop && s.rgnMode r != 3 &&
  s.keyState (s.getF .mempRgncfgKEYID r) == 1 && !s.keyUsed (s.getF .mempRgncfgKEYID r) r &&
  (List.range 64).all fun q => q == r || (s.getF .mempRgnstatSTATE q == 0 && !s.isSet .mempRgncfgENABLE q) ||
    b + sz ≤ s.rgnBase q || s.rgnBase q + s.rgnSize q ≤ b

/-- Region r is enabled: its host-bias pages flip first, and the enable waits for them (R368, R392); or it is refused. -/
def State.rgnEnable (s : State) (r : Nat) : State :=
  if !s.rgnValid r then s.setOn .mempRgnstatERR r else
  let t := (s.setOn .mempRgncfgENABLE r).setOff .mempRgnstatREKEYDUE r
  let pages := (t.hostPages.flatMap (·.2)).filter (t.pageInRgn r)
  (pages.foldl (fun u p => u.startFlip p false) t).rgnGo

/-- A write of MEMP_RGNCFGr (R368, R369). A region that is enabled, or on its way to OFF, takes only ENABLE and ACC. -/
def State.rgnCfgWrite (s : State) (r w m : Nat) : State :=
  let busy := s.isSet .mempRgncfgENABLE r || s.getF .mempRgnstatSTATE r != 0
  if busy then
    let t := s.writeFld r 0 w m .mempRgncfgACC
    if !m.testBit 0 then t
    else if w.testBit 0 then (if s.isSet .mempRgncfgENABLE r then t else t.setOn .mempRgnstatERR r)
    else if s.getF .mempRgnstatSTATE r = 3 then t
    else (t.setOff .mempRgncfgENABLE r).rgnSettle r
  else
    let t := (s.writeReg .mempRgncfg r 0 w m).setOff .mempRgncfgENABLE r
    if (w &&& m).testBit 0 then t.rgnEnable r else t

/-- REGION_ENABLE: a write of MEMP_RGNCFGr (R368). -/
def execRegionEnable (r : Region) (w : W32) (s : State) : Res :=
  .next (s.viaUnit .mempRgncfg r 0 s.hostAgent fun t => t.rgnCfgWrite r w.toNat full32)

/-- REGION_DISABLE: a write of MEMP_RGNCFGr (R369). -/
def execRegionDisable (r : Region) (w : W32) (s : State) : Res :=
  .next (s.viaUnit .mempRgncfg r 0 s.hostAgent fun t => t.rgnCfgWrite r w.toNat full32)

/-- A node over the hashes of eight children; slots without a child hold what the manual leaves open. -/
def State.buildNode (s : State) (r kid open_ k j : Nat) : Nat :=
  (List.range 8).foldl (fun v c =>
    let child := 8 * j + c
    if child < levelSize (s.metaLines r) (k - 1) then
      let a := if k = 1 then s.metaAddr r child else s.nodeAddr r (k - 1) child
      setField v (64 * c) 64 (s.treeHash kid (s.lineNow (s.chanOf a) (a / 64)) a)
    else v) open_

/-- The tree of region r is built over its metadata lines (R364, R368). -/
def State.buildTree (s : State) (r kid : Nat) : State :=
  let top := topLevel (s.metaLines r)
  let f := s.free
  let t := (List.range (top - 1)).foldl (fun u k =>
    State.each (levelSize (s.metaLines r) (k + 1)) (fun j v =>
      v.memWrite (v.nodeAddr r (k + 1) j) (toBytes 64 (v.buildNode r kid (f.1 % 2 ^ 512) (k + 1) j))) u) f.2
  { t with memp.top := SMap.set (fun _ => 0) t.memp.top r (t.buildNode r kid (f.1 % 2 ^ 512) top 0) }

/-- A data line initialised to the encryption of zeros at CTR 0, with its metadata word (R368). -/
def State.initLine (s : State) (r kid i : Nat) : State :=
  let a := s.rgnBase r + 64 * i
  let c := s.cipher kid a 0 0
  (s.memWrite (s.metaAddr r (i / 8) + 8 * (i % 8)) (toBytes 8 (s.lineMac (s.rgnMode r) kid a 0 c * 2 ^ 24))).memWrite a (toBytes 64 c)

/-- REGION_INIT_DONE (R368). -/
def execRegionInitDone (r : Region) (s : State) : Res :=
  let kid := s.getF .mempRgncfgKEYID r
  .next (if s.getF .mempRgnstatSTATE r ≠ 1 then s else
    let t := State.each (s.dataLines r) (fun i u => u.initLine r kid i) (s.dropRgn r)
    let u := if s.rgnMode r = 2 then t.buildTree r kid else t
    (u.setF .mempRgnstatSTATE 2 r).raise 1004)

/-! ## Line operations (R358, R359, R370, R371, R376) -/

/-- The requester class of a node: 0 HOST, 1 DESIGN, 2 GUEST, 3 ENGINE (R359). -/
def accClass (node : Nat) : Nat :=
  if node = 64 then 0 else if node < 60 then 1 else if node = 76 ∨ node = 77 then 2 else 3

/-- A request has the right that region r grants its class (R359). -/
def State.accAllows (s : State) (r : Nat) (p : Packet) : Bool :=
  (s.getF .mempRgncfgACC r).testBit (2 * accClass p.snode.toNat + (isWrite p.opc).toNat)

/-- A posted request in a metadata or tree area is an ACC alarm (R358). -/
def State.shadowHit (s : State) (r : Nat) (p : Packet) : State :=
  if isPosted p.opc then (s.mempAlarm 5 r p.addr.toNat p.snode.toNat).postedFail p else s.respond p 2

/-- Node 70 takes a request (R359, R368, R369, R373). Rights come first; a request for no region goes to its home slice. -/
def State.mempAccept (s : State) (p : Packet) : State :=
  let a := p.addr.toNat
  match (List.range 64).find? fun r => s.rgnLive r && s.inData r a with
  | none => s.homeAccept (s.chanOf a) p
  | some r =>
    if !s.accAllows r p then (s.mempAlarm 5 r a p.snode.toNat).respond p 5
    else match s.getF .mempRgnstatSTATE r with
      | 1 => s.respond p 5
      | 4 => s.respond p 4
      | _ =>
        if !s.isSet .mempRgncfgENABLE r then { s with memp.wait := s.memp.wait ++ [p] }
        else { s with memp.reqs := s.memp.reqs ++ [⟨p, r, List.range (lineCount a (pktLen p)), 0, []⟩] }

/-- The data line of line k of a request. -/
def PReq.line (q : PReq) (k : Nat) : Nat := q.pkt.addr.toNat / 64 + k

/-- The data line index of line k of a request in its region. -/
def State.pIndex (s : State) (q : PReq) (k : Nat) : Nat := q.line k - s.rgnBase q.rgn / 64

/-- What one line operation gives: it waits, or a state with STATUS and the data read. -/
abbrev LineRes := Option (State × Nat × Nat)

/-- A write of a line whose checks have passed, with its new plaintext (R371, R376). -/
def State.pWrite (s : State) (r i data : Nat) : LineRes :=
  let ctr := s.metaWord r i % 2 ^ 24
  if ctr = 0xFFFFFF then
    if s.getF .mempRgnstatSTATE r = 3 then
      let jump := SMap.get (fun _ => []) s.memp.jump r
      if s.underNew r i || 16 ≤ jump.length then none
      else some ((s.setJump r (jump ++ [i])).putLine r i (s.newHashKey r) 1 data, 0, 0)
    else some ((s.setOn .mempRgnstatREKEYBLK r).raise 1003, 5, 0)
  else
    let t := s.putLine r i (s.lineKey r i) (ctr + 1) data
    some (if ctr + 1 = 0xFFF000 then t.rekeyDue r (s.underNew r i) else t, 0, 0)

/-- One line of a request whose metadata is open (R371). -/
def State.pOpened (s : State) (q : PReq) (k : Nat) (dataUe : Bool) : LineRes :=
  let r := q.rgn
  let i := s.pIndex q k
  let a := 64 * q.line k
  let w := s.metaWord r i
  let mask := reqMask q.pkt k
  let write := isWrite q.pkt.opc
  let full := write && mask == fullMask
  let kid := s.lineKey r i
  let c := s.lineNow (s.chanOf a) (a / 64)
  let plain := s.cipher kid a (w % 2 ^ 24) c
  if full then s.pWrite r i (reqData q.pkt k)
  else if w / 2 ^ 24 = poisonMac then some (s.mempAlarm 1 r a q.pkt.snode.toNat, 4, 0)
  else if dataUe then some (s, 4, 0)
  else if s.rgnMode r ≠ 0 && w / 2 ^ 24 != s.lineMac (s.rgnMode r) kid a (w % 2 ^ 24) c then
    some ((s.poisonLine r i).mempAlarm 0 r a q.pkt.snode.toNat, 4, 0)
  else if write then s.pWrite r i (overlay plain mask (reqData q.pkt k))
  else some (s, 0, plain)

/-- One line of a request (R371, R373). -/
def State.pLine (s : State) (q : PReq) (k : Nat) (evict : List (BitVec 48)) (mdecc dataUe : Bool) : LineRes :=
  let r := q.rgn
  let i := s.pIndex q k
  if s.getF .mempRgnstatSTATE r = 4 then some (s, 4, 0)
  else if !s.memUsable (64 * q.line k) 64 || !s.memUsable (s.metaAddr r (i / 8)) 64 then some (s, 5, 0)
  else
    let t := s.evictMeta evict
    match t.openMeta r i (isWrite q.pkt.opc) mdecc with
    | .fault c => some ((t.rgnFault r).mempAlarm c r (64 * q.line k) q.pkt.snode.toNat, 4, 0)
    | .ok u => u.pOpened q k dataUe

/-- An earlier operation on the metadata line of line k has not been done (R370). -/
def State.pBlocked (s : State) (q : PReq) (k : Nat) : Bool :=
  let m := s.pIndex q k / 8
  (s.memp.reqs.takeWhile fun x => x != q).any (fun x => x.rgn == q.rgn && x.todo.any fun j => s.pIndex x j / 8 == m) ||
  q.todo.any fun j => j < k && s.pIndex q j / 8 == m

/-- A request whose lines are all done is answered (R371). -/
def State.pAnswer (s : State) (q : PReq) : State :=
  ((s.respond q.pkt q.status (if q.status = 0 && !isWrite q.pkt.opc then readBytes q.pkt q.got else [])).rgnSettle q.rgn)

/-- PROTECTED_LINE_OPERATION (R370–R373, R376). -/
def execProtectedLineOperation (l : PLine) (s : State) : Res :=
  .next (match s.memp.reqs.find? fun q => q.pkt == l.pkt && q.todo.contains l.k.val with
    | none => s
    | some q =>
      if s.pBlocked q l.k then s else
      match s.pLine q l.k l.evict l.mdecc l.dataUe with
      | none => s
      | some (t, st, d) =>
        let q' : PReq := { q with
          todo := q.todo.erase l.k.val, status := if q.status = 0 then st else q.status
          got := SMap.set (fun _ => 0) q.got l.k.val d }
        let reqs := t.memp.reqs.replace q q'
        if q'.todo.isEmpty then { t with memp.reqs := reqs.erase q' }.pAnswer q' else { t with memp.reqs := reqs })

end Sys2Proof.Machine
end

