-- ==== Sys2Proof/Machine/Coh.lean ====
section
/-! DEFINITION. The COH unit and the host link (R380–R401): operations on device memory under the bias of their page, the coherent
cache, CXL.mem, flushes, and the link going down and up. -/

namespace Sys2Proof.Machine

/-! ## Device memory under bias (R390–R392) -/

/-- The home slice or node 70 takes a request that no bias holds back. -/
def State.memServe (s : State) (p : Packet) : State :=
  if p.dnode = 70 then s.mempAccept p else s.homeAccept (s.chanOf p.addr.toNat) p

/-- A resolve begins: RdShared for a read, RdOwnNoData for a write, one for each line (R390). -/
def State.startResolve (s : State) (p : Packet) : State :=
  let lines := (List.range (lineCount p.addr.toNat (pktLen p))).map (p.addr.toNat / 64 + ·)
  let t := { s with resolves := s.resolves ++ [(⟨p, lines⟩ : Resolve)] }.wakeHome (p.addr.toNat / 4096)
  lines.foldl (fun u l => u.askHost (if isWrite p.opc then .rdOwnNoData else .rdShared) l) t

/-- A request for device memory arrives (R390–R392): it waits while its page changes bias, unless it is the host's write-back of a
flip to device bias; CXL.mem flips a device-bias page; others resolve on a host-bias page. A channel out of service answers at
once (R342). -/
def State.memArrive (s : State) (p : Packet) : State :=
  let page := p.addr.toNat / 4096
  let host := p.snode == 64 && p.sdev.toNat == s.devNum
  if !s.part.optX || (p.dnode != 70 && s.getF .ddrStatSTATE (s.chanOf p.addr.toNat) != 4) then s.memServe p
  else match s.flipping page with
    | some f =>
      if host && isWrite p.opc && !f.toHost then s.memServe p
      else { s with flips := s.flips.replace f { f with wait := f.wait ++ [p] } }
    | none =>
      if host then (if s.hostBias page || !s.pageMapped page then s.memServe p else s.startFlip page true [p])
      else if s.hostBias page then s.startResolve p
      else s.memServe p

/-! ## The coherent cache (R394) -/

/-- A line of the coherent cache. -/
def State.hline (s : State) (l : Nat) : Option HLine := SMap.get (fun _ => none) s.hcache l

/-- A line of the coherent cache takes a state and data, or is invalid. -/
def State.setHline (s : State) (l : Nat) (v : Option HLine) : State := { s with hcache := SMap.set (fun _ => none) s.hcache l v }

/-- A line leaves the cache by eviction (R394). -/
def State.evictLine (s : State) (l : Nat) : State :=
  match s.hline l with
  | none => s
  | some h =>
    (s.emit (match h.st with
      | .m => .hostReq .dirtyEvict (64 * l) fullMask h.data
      | .e | .s => .hostReq .cleanEvictNoData (64 * l) 0 0)).setHline l none

/-- A line enters the cache: a full set of 16 first evicts one of its lines, which one the manual leaves open. -/
def State.fillLine (s : State) (l : Nat) (v : HLine) : State :=
  let set := (s.hcache.filter fun e => e.1 % 8192 == l % 8192 && e.2.isSome).map (·.1)
  if (s.hline l).isSome || set.length < 16 then s.setHline l (some v)
  else
    let f := s.free
    (f.2.evictLine (set.getD (f.1 % set.length) 0)).setHline l (some v)

/-- A line owned and written: in the cache in state M, or, during a flush, written back at once (R395). -/
def State.ownLine (s : State) (l data : Nat) : State :=
  if s.isSet .cohCtlFLUSHBUSY then (s.emit (.hostReq .dirtyEvict (64 * l) fullMask data)).setHline l none
  else s.fillLine l ⟨.m, data⟩

/-- A request of COH. -/
def State.cohReq (s : State) (i : Nat) : Option CohReq := SMap.get (fun _ => none) s.cohReqs i

/-- A line operation of COH is done (R394): the last one answers the request. -/
def State.cohDone (s : State) (op : CohOp) (status data : Nat) : State :=
  let t := { s with cohOps := s.cohOps.erase op }
  match t.cohReq op.req with
  | none => t
  | some q =>
    let w := { q with left := q.left - 1, status := if q.status = 0 then status else q.status
                      got := SMap.set (fun _ => 0) q.got op.k data }
    if w.left = 0 then
      { t with cohReqs := SMap.set (fun _ => none) t.cohReqs op.req none }.respond q.pkt w.status
        (if w.status = 0 && !isWrite q.pkt.opc then readBytes q.pkt w.got else [])
    else { t with cohReqs := SMap.set (fun _ => none) t.cohReqs op.req (some w) }

/-- A line operation asks the host. -/
def State.cohAsk (s : State) (op : CohOp) (h : HostOp) (mask data : Nat) : State :=
  { s with cohOps := s.cohOps.replace op { op with sent := some h } }.emit (.hostReq h (64 * op.line) mask data)

/-- The first operation of a line starts (R394): lines already cached are used; NOALLOC and a flush allocate nothing (R395). -/
def State.cohStart (s : State) (op : CohOp) (q : CohReq) : State :=
  let write := isWrite q.pkt.opc
  let mask := reqMask q.pkt op.k
  let data := reqData q.pkt op.k
  let none_ := s.isSet .cohCtlNOALLOC || s.isSet .cohCtlFLUSHBUSY
  match s.hline op.line with
  | some h =>
    if !write then s.cohDone op 0 h.data
    else match h.st with
      | .m | .e => (s.setHline op.line (some ⟨.m, overlay h.data mask data⟩)).cohDone op 0 0
      | .s => s.cohAsk op .rdOwnNoData 0 0
  | none =>
    if !write then s.cohAsk op (if none_ then .rdCurr else .rdShared) 0 0
    else if none_ then s.cohAsk op .wrCur mask data
    else if mask = fullMask then s.cohAsk op .itoMWr mask data
    else s.cohAsk op .rdOwn 0 0

/-- The operations of a line start in order while they complete at once. -/
def State.cohPump : Nat → Nat → State → State
  | 0, _, s => s
  | n + 1, l, s =>
    match s.cohOps.find? fun o => o.line == l with
    | none => s
    | some op =>
      if op.sent.isSome then s
      else match s.cohReq op.req with
        | none => State.cohPump n l { s with cohOps := s.cohOps.erase op }
        | some q => State.cohPump n l (s.cohStart op q)

/-- What waits on a line of host memory goes on. -/
def State.cohGo (s : State) (l : Nat) : State := State.cohPump s.cohOps.length l s

/-- A host memory address as the window gives it (R393). -/
def State.hostAddr (s : State) (a : Nat) : Nat := s.getF .cohHwinBASE * 2 ^ 30 + (a - 0x20000000000)

/-- Node 65 takes a request for host memory (R393, R394, R399). -/
def State.cohArrive (s : State) (p : Packet) : State :=
  let hpa := s.hostAddr p.addr.toNat
  if !s.isSet .cohHwinEN || 2 ^ 52 ≤ hpa then s.respond p 2
  else if !s.isSet .cxlLnkstatUP || !s.isSet .cxlLnkstatCACHEEN then s.respond p 5
  else
    let n := lineCount hpa (pktLen p)
    let id := s.cohNext
    let ops := (List.range n).map fun k : Nat => (⟨id, k, hpa / 64 + k, none⟩ : CohOp)
    let t := { s with cohNext := id + 1, cohOps := s.cohOps ++ ops
                      cohReqs := SMap.set (fun _ => none) s.cohReqs id (some ⟨p, hpa, n, 0, []⟩) }
    ops.foldl (fun u o => u.cohGo o.line) t

/-- The host answers an operation of the coherent cache: with data where data was asked for, else with GO. -/
def State.cohAnswer (s : State) (op : CohOp) (q : CohReq) (h : HostOp) (a : HostAns) : State :=
  let mask := reqMask q.pkt op.k
  let data := reqData q.pkt op.k
  let line := leNat a.data % 2 ^ 512
  let wants := h == .rdShared || h == .rdCurr || h == .rdOwn
  if wants == a.go then s
  else if wants && a.poison then ((s.herr (64 * op.line) 3).cohDone op 4 0).cohGo op.line
  else
    (match h with
    | .rdShared => (if s.isSet .cohCtlFLUSHBUSY then s else s.fillLine op.line ⟨.s, line⟩).cohDone op 0 line
    | .rdCurr => s.cohDone op 0 line
    | .rdOwn => (s.ownLine op.line (overlay line mask data)).cohDone op 0 0
    | .itoMWr => (s.ownLine op.line data).cohDone op 0 0
    | .rdOwnNoData =>
      match s.hline op.line with
      | some x => (s.ownLine op.line (overlay x.data mask data)).cohDone op 0 0
      | none => { s with cohOps := s.cohOps.replace op { op with sent := none } }
    | .wrCur | .dirtyEvict | .cleanEvictNoData => s.cohDone op 0 0).cohGo op.line

/-- The resolve that waits for a device line. -/
def State.resolveOf (s : State) (line : Nat) : Option Resolve := s.resolves.find? fun r => r.lines.contains line

/-- GO for a line of a resolve: after the last one the operation is accepted (R390). -/
def State.resolveGo (s : State) (r : Resolve) (line : Nat) : State :=
  let rest := r.lines.erase line
  if rest.isEmpty then { s with resolves := s.resolves.erase r }.memServe r.pkt
  else { s with resolves := s.resolves.replace r { r with lines := rest } }

/-- The outstanding operation of a host line. -/
def State.askedOp (s : State) (hpa : Nat) : Option CohOp := s.cohOps.find? fun o => o.line == hpa / 64 && o.sent.isSome

/-- HOST_RESPONSE (R390, R394, R396). -/
def execHostResponse (a : HostAns) (s : State) : Res :=
  let hpa := a.hpa.toNat
  .next (match s.askedOp hpa with
    | some op =>
      match s.cohReq op.req, op.sent with
      | some q, some h => s.cohAnswer op q h a
      | _, _ => s
    | none =>
      match s.hdmDecode hpa with
      | none => s
      | some d =>
        match s.resolveOf (d / 64) with
        | some r => if a.go then s.resolveGo r (d / 64) else s
        | none => s)

/-- HOST_TIMEOUT (R396): the line completes SLVERR, recorded with CAUSE 4; of a resolve, the operation it holds. -/
def execHostTimeout (hpa : BitVec 52) (s : State) : Res :=
  let h := hpa.toNat
  .next (match s.askedOp h with
    | some op => ((s.herr h 4).cohDone op 5 0).cohGo op.line
    | none =>
      match s.hdmDecode h with
      | none => s
      | some d =>
        match s.resolveOf (d / 64) with
        | some r => ({ s with resolves := s.resolves.erase r }.herr h 4).respond r.pkt 5
        | none => if (s.flips.any fun f => !f.toHost && f.page == d / 4096) then s.herr h 4 else s)

/-- HOST_SNOOP (R394), in a COH that Doze does not hold back (R482). The states follow CXL.cache (PRESUMED, log 20). -/
def execHostSnoop (k : Snoop) (hpa : BitVec 52) (s : State) : Res :=
  let l := hpa.toNat / 64
  let t := if s.getF .pwrDstatSTATE 295 = 1 then s.wake 295 2 else s
  .next (if !s.isSet .cxlLnkstatUP then s else
    match t.hline l with
    | none => t.emit (.snoopRsp hpa.toNat none none)
    | some h =>
      let d := match h.st with
        | .m => some h.data
        | .e | .s => none
      match k with
      | .snpInv => (t.setHline l none).emit (.snoopRsp hpa.toNat none d)
      | .snpData => (t.setHline l (some ⟨.s, h.data⟩)).emit (.snoopRsp hpa.toNat (some .s) d)
      | .snpCur => t.emit (.snoopRsp hpa.toNat (some h.st) d))

/-! ## Flushes (R395) -/

/-- A flush starts: every dirty line is written back and the cache is invalid (R395). -/
def State.cohFlush (s : State) : State :=
  let t := s.hcache.foldl (fun u e => match e.2 with
    | some ⟨.m, d⟩ => u.emit (.hostReq .dirtyEvict (64 * e.1) fullMask d)
    | _ => u) s
  { t.setOn .cohCtlFLUSHBUSY with hcache := [] }

/-- A write of COH_CTL. -/
def State.cohCtlWrite (s : State) (w m : Nat) : State :=
  let t := s.writeReg .cohCtl 0 0 w m
  if (w &&& m).testBit 1 && !s.isSet .cohCtlFLUSHBUSY then t.cohFlush else t

/-- FLUSH: COH_CTL.FLUSH is written 1 (R395). -/
def execFlush (s : State) : Res :=
  .next (s.viaUnit .cohCtl 0 0 s.hostAgent fun t => if t.isSet .cohCtlFLUSHBUSY then t else t.cohFlush)

/-- FLUSH_DONE (R395). -/
def execFlushDone (s : State) : Res :=
  .next (if s.isSet .cohCtlFLUSHBUSY then ((s.setOff .cohCtlFLUSHBUSY).setOn .cohCtlFLUSHDONE).raise 1006 else s)

/-! ## CXL.mem (R387, R390, R398) -/

/-- A TAG of node 64 that no packet uses. -/
def State.hostTag (s : State) : Nat := ((List.range 4096).find? fun t => (SMap.get (fun _ => none) s.hostTx t).isNone).getD 0

/-- A packet of node 64 goes out, standing for `x`. -/
def State.hostSend (s : State) (p : Packet) (x : HostTx) : State :=
  let t := s.hostTag
  { s with hostTx := SMap.set (fun _ => none) s.hostTx t (some x) }.inject { p with tag := BitVec.ofNat 12 t }

/-- The answer of CXL.mem to the host (R398). -/
def State.memReply (s : State) (write : Bool) (tag hpa dpa status : Nat) (data : List Byte) : State :=
  if write then
    let t := s.emit (.memCmp tag)
    if status = 0 then t else if status = 2 ∨ status = 3 then t.herr hpa 2 else t.herr dpa 0
  else if status = 0 then s.emit (.memData tag false data)
  else (s.emit (.memData tag true [])).herr dpa 1

/-- A CXL.mem request for a decoded address is sent from node 64; in a metadata or tree area it is answered ADDRERR (R358). -/
def State.memSend (s : State) (write : Bool) (opc : Opc) (tag hpa dpa : Nat) (mask : W64) (data : List Byte) : State :=
  match s.devDecode dpa with
  | .shadowArea _ => s.memReply write tag hpa dpa 2 []
  | _ =>
    match s.engineReq 64 opc (dpa / 64 * 64) 64 data with
    | some p => s.hostSend { p with wmask := mask } (.mem write tag hpa dpa)
    | none => s.memReply write tag hpa dpa 2 []

/-- MEMRD (R390, R398). An undecoded read records CAUSE 1 with an address the manual leaves open. -/
def execMemrd (hpa : BitVec 52) (tag : BitVec 16) (s : State) : Res :=
  .next (match s.hdmDecode hpa.toNat with
    | some d => s.memSend false .rd tag.toNat hpa.toNat d 0 []
    | none =>
      let f := s.free
      f.2.memReply false tag.toNat hpa.toNat (f.1 % 2 ^ 48) 2 [])

/-- MEMWR (R390, R398). -/
def execMemwr (w : MemWrite) (s : State) : Res :=
  .next (match s.hdmDecode w.hpa.toNat with
    | some d =>
      if w.mask.toNat = fullMask then s.memSend true .wr w.tag.toNat w.hpa.toNat d 0 w.data
      else s.memSend true .wrm w.tag.toNat w.hpa.toNat d w.mask w.data
    | none => s.memReply true w.tag.toNat w.hpa.toNat 0 2 [])

/-! ## The link (R380, R399) -/

/-- COH's outstanding host requests complete SLVERR, recorded with CAUSE 5; what waits behind them is answered SLVERR (R399). -/
def State.dropHost (s : State) : State :=
  let t := s.cohOps.foldl (fun u o => (if o.sent.isSome then u.herr (64 * o.line) 5 else u).cohDone o 5 0) s
  let u := t.resolves.foldl (fun v r =>
    (r.lines.foldl (fun w l => w.herr ((w.hdmHpa (64 * l)).getD 0) 5) v).respond r.pkt 5) t
  { u with resolves := [] }

/-- LINK_DOWN (R399, R514): configuration space and HDM decoders take their reset values. -/
def execLinkDown (s : State) : Res :=
  .next (if !s.isSet .cxlLnkstatUP then s else
    let t := ((s.setOff .cxlLnkstatUP).setOn .cxlLnkstatCHGSEEN).raise 1007
    let dirty := (t.hcache.filter fun e => e.2.any fun h => h.st == .m).length
    let u := { (t.count .cohStatLOSTDIRTY dirty).dropHost with hcache := [] }
    let v := if u.part.optX then u.biasClear.setOn .cohStatLINKLOST else u
    { (v.setOff .cxlLnkstatCACHEEN).setOff .cxlLnkstatMEMEN with
        hdm := [], hdmErr := [], hostTx := [], barRds := [], msixEn := false })

/-- LINK_UP (R380, R386, R399): the rate and width reached, and what the host enables. -/
def execLinkUp (speed : Fin 5) (width : BitVec 4) (cxl cacheEn memEn msixEn : Bool) (s : State) : Res :=
  let mode := cxl && s.part.optX
  let change := !s.isSet .cxlLnkstatUP || s.getF .cxlLnkstatSPEED != speed || s.getF .cxlLnkstatWIDTH != width.toNat
  let t := (((s.setOn .cxlLnkstatUP).setF .cxlLnkstatMODE mode.toNat).setF .cxlLnkstatSPEED speed).setF .cxlLnkstatWIDTH width.toNat
  let u := (t.setF .cxlLnkstatCACHEEN (mode && cacheEn && t.unitOn .coh).toNat).setF .cxlLnkstatMEMEN
    (mode && memEn && t.unitOn .coh).toNat
  let v := { u with msixEn := msixEn }
  .next (if s.perst then s else if change then (v.setOn .cxlLnkstatCHGSEEN).raise 1007 else v)

end Sys2Proof.Machine
end

