-- ==== Sys2Proof/Machine/Flits.lean ====
section
/-! DEFINITION. Packets as flits (R306): the header, data in the header flit, data flits. -/

namespace Sys2Proof.Machine

/-- A packet carries data. -/
def hasData (p : Packet) : Bool :=
  match p.opc with
  | .wr | .wrp | .wrm | .wrmp => true
  | .rdata => p.status == 0
  | .rd | .resv | .wcmp | .grant | .evt | .other _ => false

/-- A response whose data the header flit carries (R306). -/
def smallData (p : Packet) : Bool := p.vn == .rsp && pktLen p ≤ 32 && p.addr.toNat % 32 + pktLen p ≤ 32

/-- The header flit of a packet with an age. -/
def headerFlit (p : Packet) (age : Nat) : Nat :=
  p.dnode.toNat + p.dep.toNat * 2 ^ 7 + p.ddev.toNat * 2 ^ 10 + p.snode.toNat * 2 ^ 18 + p.sep.toNat * 2 ^ 25 +
  p.sdev.toNat * 2 ^ 28 + vnCode p.vn * 2 ^ 36 + opcCode p.opc * 2 ^ 38 + p.tag.toNat * 2 ^ 42 + age % 2 ^ 16 * 2 ^ 54 +
  p.addr.toNat * 2 ^ 70 + p.lenm1.toNat * 2 ^ 118 + p.phint.toNat * 2 ^ 130 + p.status.toNat * 2 ^ 132 + p.segno.toNat * 2 ^ 136 +
  p.split.toNat * 2 ^ 138 + p.wmask.toNat * 2 ^ 139 +
  (if p.vn = .evt then leNat (p.data.take 32) * 2 ^ 256
   else if hasData p && smallData p then leNat (p.data.take (pktLen p)) * 2 ^ (256 + 8 * (p.addr.toNat % 32)) else 0)

/-- The flits of a packet: its header flit, then one for each line its data touches. -/
def flitsOf (p : Packet) (age : Nat) : List Nat :=
  headerFlit p age ::
    (if hasData p && !smallData p then
      (List.range (if isMasked p.opc then 1 else lineCount p.addr.toNat (pktLen p))).map (reqData p) else [])

/-- The network that a VN code names. -/
def vnOf (c : Nat) : Vn := match c with | 0 => .req | 1 => .rsp | 2 => .coh | _ => .evt

/-- The opcode that a code names on a network (R307). -/
def opcOf (vn : Vn) (c : Nat) : Opc :=
  match vn, c with
  | .req, 0 => .rd
  | .req, 1 => .wr
  | .req, 2 => .wrp
  | .req, 3 => .wrm
  | .req, 4 => .wrmp
  | .req, 5 => .resv
  | .rsp, 8 => .rdata
  | .rsp, 9 => .wcmp
  | .rsp, 10 => .grant
  | .evt, 12 => .evt
  | _, c => .other (BitVec.ofNat 4 c)

/-- The packet that flits carry; its AGE field as received. -/
def packetOf (h : Nat) (lines : List Nat) : Packet :=
  let vn := vnOf (bits h 36 2)
  let p : Packet :=
    { dnode := BitVec.ofNat 7 h, dep := BitVec.ofNat 3 (h / 2 ^ 7), ddev := BitVec.ofNat 8 (h / 2 ^ 10)
      snode := BitVec.ofNat 7 (h / 2 ^ 18), sep := BitVec.ofNat 3 (h / 2 ^ 25), sdev := BitVec.ofNat 8 (h / 2 ^ 28), vn := vn
      opc := opcOf vn (bits h 38 4), tag := BitVec.ofNat 12 (h / 2 ^ 42), age := BitVec.ofNat 16 (h / 2 ^ 54)
      addr := BitVec.ofNat 48 (h / 2 ^ 70), lenm1 := BitVec.ofNat 12 (h / 2 ^ 118), phint := BitVec.ofNat 2 (h / 2 ^ 130)
      status := BitVec.ofNat 4 (h / 2 ^ 132), segno := BitVec.ofNat 2 (h / 2 ^ 136), split := h.testBit 138
      wmask := BitVec.ofNat 64 (h / 2 ^ 139), data := [] }
  let byteAt := fun x : Nat => BitVec.ofNat 8 (bits (lines.getD (x / 64) 0) (8 * (x % 64)) 8)
  let body :=
    if vn = .evt then toBytes 32 (h / 2 ^ 256)
    else if !hasData p then []
    else if smallData p then toBytes (pktLen p) (h / 2 ^ (256 + 8 * (p.addr.toNat % 32)))
    else if isMasked p.opc then (List.range 64).map byteAt
    else (List.range (pktLen p)).map fun i => byteAt (p.addr.toNat % 64 + i)
  { p with data := body }

end Sys2Proof.Machine
end

