-- ==== Sys2Proof/Machine/Tmu.lean ====
section
/-! DEFINITION. Device time, timestamps and triggers (R402–R429, R525): correction, captures, the ring, timers, windows, and the
TRIG and PPS pins. -/

namespace Sys2Proof.Machine

/-! ## Counting and correction -/

/-- TIME_CLOCK_TICK (R403, R426, R486, R525): TMU_INC is added to device time; pulses shorten by the same advance. -/
def execTimeClockTick (s : State) : Res :=
  let v := s.now + s.incNow
  let carry := v / secUnits ≠ s.now / secUnits
  .next (if !s.crossingRuns then s else
    let t := s.setTime timeFlds (v % timeLimit)
    let u := (t.trigLeft.map (·.1)).foldl (fun w k =>
      { w with trigLeft := SMap.set (fun _ => none) w.trigLeft k ((SMap.get (fun _ => none) w.trigLeft k).map (· - s.incNow)) }) t
    { u with
        adv := u.adv + s.incNow
        ran39 := u.ran39 + (if s.isSet .clkRootstatCOAST then 40 else 39)
        ppsLeft := u.ppsLeft.map (· - s.incNow)
        ppsDue := if carry && s.isSet .tmuPpsctlEN then some (v % secUnits) else u.ppsDue.map (· + s.incNow) })

/-- An accepted correction write ends holdover (R411). -/
def State.corrAccepted (s : State) : State := { s.setOff .tmuHoldoverACTIVE with holdAt := s.ran39 }

/-- INC_WRITE (R408). -/
def execIncWrite (w : W32) (s : State) : Res :=
  .next (s.viaUnit .tmuInc 0 0 s.hostAgent fun t =>
    if 0xC000 ≤ w.toNat ∧ w.toNat ≤ 0x14000 then
      { ((t.setF .tmuIncINC w.toNat).setOn .tmuCorrINCPEND).corrAccepted with incPend := some (w.toNat, t.ran39) }
    else t.setOn .tmuCorrINCERR)

/-- The step offset that TMU_STEPLO and TMU_STEPHI hold, in 2^-16 ns (R409). -/
def State.stepOffset (s : State) : Int :=
  let sec := s.getF .tmuSteploSECLO + 65536 * s.getF .tmuStephiSECHI
  (if sec < 2 ^ 47 then (sec : Int) else (sec : Int) - 2 ^ 48) * secUnits + s.getF .tmuSteploNS * 65536 + s.getF .tmuSteploFRAC

/-- STEPGO: a write of TMU_CORR (R409). -/
def execStepgo (w : W32) (s : State) : Res :=
  .next (s.viaUnit .tmuCorr 0 0 s.hostAgent fun r =>
    let t := r.writeReg .tmuCorr 0 0 w.toNat full32
    if !w.toNat.testBit 0 then t
    else if 999999999 < t.getF .tmuSteploNS then t.setOn .tmuCorrSTEPERR
    else { (t.setOn .tmuCorrSTEPPEND).corrAccepted with stepPend := some (t.stepOffset, t.ran39) })

/-- 6 µs have passed since `ran39` was t (R407). -/
def State.sixUs (s : State) (t : Nat) : Bool := t + 6000 * 39 ≤ s.ran39

/-- Crossing cycles in 5 µs, rounded up. -/
def State.fiveUsCycles (s : State) : Nat := if s.isSet .clkRootstatCOAST then 2438 else 2500

/-- The first crossing cycle whose edge lies at or after device time v (R289, R419). -/
def State.edgeIndex (s : State) (v : Nat) : Nat :=
  s.xidx + (v - s.edgeTime + (2 * s.incNow - 1)) / (2 * s.incNow)

/-- A scheduled instant is within the 5 µs in which it is sent (R289). -/
def State.sendDue (s : State) (v : Nat) : Bool := v ≤ s.now + 5 * usUnits

/-! ## Timer channels -/

/-- A timer channel's state beside its registers. -/
def State.tmrSt (s : State) (c : Nat) : TmrSt := SMap.get (fun _ => TmrSt.idle) s.tmr c

/-- It replaced. -/
def State.setTmr (s : State) (c : Nat) (v : TmrSt) : State := { s with tmr := SMap.set (fun _ => TmrSt.idle) s.tmr c v }

/-- A channel disarms: ARMED and EN clear (R418). -/
def State.disarm (s : State) (c : Nat) : State := ((s.setOff .tmrCtlARMED c).setOff .tmrCtlEN c).setTmr c TmrSt.idle

/-- DEST is a timed line or a pitch: sent 5 µs ahead. -/
def State.tmrSends (s : State) (c : Nat) : Bool := s.getF .tmrCtlDEST c = 1 || s.getF .tmrCtlDEST c = 3

/-- A fire of the channel is still to be sent. -/
def State.tmrUnsent (s : State) (c : Nat) : Bool :=
  let n := (s.tmrSt c).sent.length
  if s.getF .tmrPeriodPERIOD c = 0 then n = 0 else s.getF .tmrCtlCOUNT c = 0 || n < s.getF .tmrCtlCOUNT c

/-- The next fire of the channel is sent with its crossing-cycle index. -/
def State.tmrSent (s : State) (c idx : Nat) : State :=
  let x := s.tmrSt c
  s.setTmr c ⟨(x.next + s.getF .tmrPeriodPERIOD c) % timeLimit, x.sent ++ [(x.next, idx)]⟩

/-- TMR_START shows the next fire time (R418). -/
def State.tmrShow (s : State) (c : Nat) : State :=
  let x := s.tmrSt c
  s.setTime startFlds (match x.sent with | e :: _ => e.1 | [] => x.next) c

/-- Minimum PERIOD of a channel (R419), in 2^-16 ns. -/
def State.minPeriod (s : State) (c : Nat) : Nat :=
  match s.getF .tmrCtlDEST c with
  | 0 => usUnits
  | 1 => 2 * nsUnits
  | 2 => max 4 (max 1 (s.getF .tmuTrigcfgWIDTH (s.getF .tmrCtlSEL c)) + 2) * nsUnits
  | _ => 10 * usUnits

/-- SEL is valid for DEST (R419). -/
def State.selValid (s : State) (c : Nat) : Bool :=
  let sel := s.getF .tmrCtlSEL c
  match s.getF .tmrCtlDEST c with
  | 2 => sel < 16
  | 3 => sel < 16 && [3, 4, 5, 7].contains (sel % 8)
  | _ => true

/-- The ERRCODE of an arm, 0 when it is accepted (R420). -/
def State.armCode (s : State) (c : Nat) : Nat :=
  if s.timeOf startFlds c < s.now + 10 * usUnits then 1
  else if s.getF .tmrPeriodPERIOD c ≠ 0 ∧ s.getF .tmrPeriodPERIOD c < s.minPeriod c then 2
  else if !s.selValid c then 3
  else if s.getF .tmrCtlDEST c = 2 ∧ s.getF .tmuTrigcfgMODE (s.getF .tmrCtlSEL c) ≠ 2 then 4 else 0

/-- A write of TMR_CTLc (R420). -/
def State.tmrCtlWrite (s : State) (c w m : Nat) : State :=
  if s.isSet .tmrCtlARMED c then
    let t := s.writeFld c 0 w m .tmrCtlMISS
    if m.testBit 0 && !w.testBit 0 then t.disarm c else t
  else
    let t := s.writeReg .tmrCtl c 0 w m
    if !t.isSet .tmrCtlEN c then t
    else
      let code := t.armCode c
      if code = 0 then (t.setOn .tmrCtlARMED c).setTmr c ⟨t.timeOf startFlds c, []⟩
      else ((t.setOff .tmrCtlEN c).setOn .tmrCtlERR c).setF .tmrCtlERRCODE code c

/-- TIMER_ARM (R420). -/
def execTimerArm (c : Timer) (w : W32) (s : State) : Res :=
  .next (s.viaUnit .tmrCtl c 0 s.hostAgent fun t => t.tmrCtlWrite c w.toNat full32)

/-- TIMER_DISARM (R420): a pulse or pitch already sent still acts. -/
def execTimerDisarm (c : Timer) (w : W32) (s : State) : Res :=
  .next (s.viaUnit .tmrCtl c 0 s.hostAgent fun t => t.tmrCtlWrite c w.toNat full32)

/-- The EVT action of a fire: the bit in TMU_TMREVT, event 1009 when it goes to 1 (R418). -/
def State.tmrEvt (s : State) (c : Nat) : State :=
  if !s.isSet .tmrCtlEVT c then s
  else
    let t := s.setBitF .tmuTmrevtFIRED (c % 32) true (c / 32)
    if s.bitF .tmuTmrevtFIRED (c % 32) (c / 32) then t else t.raise 1009

/-- What follows a fire: COUNT, the next fire time, or disarming (R418). -/
def State.tmrAdvance (s : State) (c : Nat) : State :=
  let x := s.tmrSt c
  if s.getF .tmrPeriodPERIOD c = 0 then s.disarm c
  else
    let y := if s.tmrSends c then { x with sent := x.sent.drop 1 }
      else { x with next := (x.next + s.getF .tmrPeriodPERIOD c) % timeLimit }
    let t := (s.setTmr c y).tmrShow c
    let n := s.getF .tmrCtlCOUNT c
    if n = 0 then t else if n = 1 then (t.setF .tmrCtlCOUNT 0 c).disarm c else t.setF .tmrCtlCOUNT (n - 1) c

/-- The pin has left its pre-release state (R257, R425). -/
def State.released (s : State) : Bool := s.getF .kilnStatSTATE == 7

/-- A pulse of trigger pin k begins at fire time v, truncated to 1/64 ns; overlapping pulses merge (R419, R425, R525). -/
def State.trigPulse (s : State) (k v : Nat) : State :=
  if s.getF .tmuTrigcfgMODE k ≠ 2 || !s.released then s
  else
    let left := v / 1024 * 1024 + max 1 (s.getF .tmuTrigcfgWIDTH k) * nsUnits - s.now
    let old := SMap.get (fun _ => none) s.trigLeft k
    { s with trigLeft := SMap.set (fun _ => none) s.trigLeft k (some (max left (old.getD 0))) }

/-- TIMER_FIRE (R418, R419): at its fire time, or at the crossing cycle of what was sent ahead. -/
def execTimerFire (c : Timer) (s : State) : Res :=
  let x := s.tmrSt c
  .next (if !s.isSet .tmrCtlARMED c then s
    else if s.tmrSends c then
      match x.sent with
      | [] => s
      | e :: _ => if s.xidx < e.2 then s else (s.tmrEvt c).tmrAdvance c
    else if s.now + s.incNow ≤ x.next then s
    else
      let t := if s.getF .tmrCtlDEST c = 2 then s.trigPulse (s.getF .tmrCtlSEL c) x.next else s
      (t.tmrEvt c).tmrAdvance c)

/-- TIMED_LINE_SEND (R419): fires of several channels on one line in one cycle give one pulse. -/
def execTimedLineSend (c : Timer) (s : State) : Res :=
  let x := s.tmrSt c
  .next (if !s.isSet .tmrCtlARMED c || s.getF .tmrCtlDEST c ≠ 1 || !s.tmrUnsent c || !s.sendDue x.next then s
    else
      let i := s.edgeIndex x.next
      let e := (s.getF .tmrCtlSEL c, i)
      { s.tmrSent c i with lines := if s.lines.contains e then s.lines else s.lines ++ [e] })

/-- TRIGGER_PULSE_END (R525). -/
def execTriggerPulseEnd (k : Fin 16) (s : State) : Res :=
  .next (match SMap.get (fun _ => none) s.trigLeft k.val with
    | some l => if l < s.incNow then { s with trigLeft := SMap.set (fun _ => none) s.trigLeft k.val none } else s
    | none => s)

/-- PPS_OUT_PULSE (R426): WIDTH held to 1–1,000,000 µs. -/
def execPpsOutPulse (s : State) : Res :=
  .next (match s.ppsDue with
    | none => s
    | some a =>
      if s.isSet .tmuPpsctlEN then
        { s with ppsDue := none, ppsLeft := some (max 1 (min 1000000 (s.getF .tmuPpsctlWIDTH)) * usUnits - a) }
      else { s with ppsDue := none })

/-- PPS_OUT_PULSE_END (R525). -/
def execPpsOutPulseEnd (s : State) : Res :=
  .next (match s.ppsLeft with
    | some l => if l < s.incNow then { s with ppsLeft := none } else s
    | none => s)

/-! ## The correction boundary -/

/-- What a forward step to device time v does to an armed channel (R421). -/
def State.tmrStep (s : State) (v c : Nat) : State :=
  if !s.isSet .tmrCtlARMED c then s else
  let x := s.tmrSt c
  let p := s.getF .tmrPeriodPERIOD c
  let count := s.getF .tmrCtlCOUNT c
  let lim := if s.tmrSends c then v + 5 * usUnits else v
  let passed := if !s.tmrUnsent c || lim ≤ x.next then 0 else if p = 0 then 1 else (lim - x.next + p - 1) / p
  let n := if p ≠ 0 ∧ count ≠ 0 then min passed (count - x.sent.length) else passed
  if n = 0 then s else
  let t := s.setOn .tmrCtlMISS c
  if p = 0 then t.disarm c else
  let u := (t.setTmr c { x with next := (x.next + n * p) % timeLimit }).tmrShow c
  if count = 0 then u else if count = n then (u.setF .tmrCtlCOUNT 0 c).disarm c else u.setF .tmrCtlCOUNT (count - n) c

/-- A forward step past the send time of a pitch that is not a timer's: it is sent at the boundary, 5 µs or more ahead (R289). -/
def State.pitchStep (s : State) : State :=
  (s.pitches.map (·.1)).foldl (fun t k =>
    match SMap.get (fun _ => none) t.pitches k with
    | some p =>
      if p.index.isNone && decide (k < 22) && t.sendDue p.time then
        { t with pitches := SMap.set (fun _ => none) t.pitches k
                   (some { p with index := some (max (t.edgeIndex p.time) (t.xidx + t.fiveUsCycles)) }) }
      else t
    | none => t) s

/-- V moves by an offset, in the Tun and in every replica (R407, R409). -/
def State.applyStep (s : State) (off : Int) : State :=
  let moved := fun v : Nat => ((v : Int) + off).toNat
  let t := (s.setTime timeFlds (moved s.now)).mapReplicas moved
  let u := { t with edgeTime := moved t.edgeTime }
  if off ≤ 0 then u else ((List.range 1024).foldl (fun w c => w.tmrStep u.now c) u).pitchStep

/-- CORRECTION_BOUNDARY (R407–R410): the INC first, then the step. -/
def execCorrectionBoundary (s : State) : Res :=
  .next (if !s.crossingRuns || s.xidx % 4096 ≠ 0 then s else
    let t := match s.incPend with
      | some e =>
        if s.sixUs e.2 then { (s.setOff .tmuCorrINCPEND).setOn .tmuCorrAPPLIED with incPend := none, incNow := e.1 } else s
      | none => s
    match t.stepPend with
    | some e =>
      if !t.sixUs e.2 then t else
      let u := { t.setOff .tmuCorrSTEPPEND with stepPend := none }
      let v := (u.now : Int) + e.1
      if v < 0 ∨ (timeLimit : Int) ≤ v then u.setOn .tmuCorrSTEPERR else (u.applyStep e.1).setOn .tmuCorrAPPLIED
    | none => t)

/-- HOLDOVER (R411): INTERVAL ms without an accepted correction. -/
def execHoldover (s : State) : Res :=
  let n := s.getF .tmuHoldoverINTERVAL
  .next (if n ≠ 0 && s.crossingRuns && !s.isSet .tmuHoldoverACTIVE && decide (s.holdAt + n * 39000000 ≤ s.ran39) then
    ((s.setOn .tmuHoldoverACTIVE).setOn .tmuHoldoverSEEN).raise 1011 else s)

/-- REPLICA_CHECK (R406): a replica that differs from the Tun's value is reloaded. -/
def execReplicaCheck (s : State) : Res :=
  .next (if s.crossingRuns && s.xidx % 4096 == 0 then s.mapReplicas fun _ => s.edgeTime else s)

/-! ## Captures -/

/-- A capture takes its SEQ (R417). -/
def State.takeSeq (s : State) : State := { s with tsSeq := (s.tsSeq + 1) % 2 ^ 15 }

/-- A capture is lost (R416). -/
def State.capLost (s : State) : State :=
  let t := (s.count .tmuTsstatLOST).setOn .tmuTsstatOVF
  if s.isSet .tmuTsstatOVF then t else t.raise 1013

/-- A capture of value v lies inside window w's occurrence (R422). -/
def State.inWindow (s : State) (w v : Nat) : Bool := s.timeOf winStartFlds w ≤ v && v < s.timeOf winEndFlds w

/-- An inside capture of window w (R422). -/
def State.windowHit (s : State) (w v : Nat) : State :=
  let t := s.count .winStatINCNT 1 w
  if t.isSet .winStatHIT w then t
  else
    let u := (t.setTime winFirstFlds v w).setOn .winStatHIT w
    if !u.isSet .winCtlEVT w then u
    else
      let x := u.setBitF .tmuWinevtHIT w true
      if u.bitF .tmuWinevtHIT w then x else x.raise 1010

/-- A capture of source code with value v, already truncated to the source's resolution (R412–R414, R422, R424). -/
def State.capture (s : State) (code : Nat) (edge : Bool) (pkind v : Nat) (spaced : Bool) : State :=
  if !spaced then s.takeSeq.capLost else
  let ws := (List.range 64).filter fun w => s.isSet .winCtlEN w && s.getF .winCtlSRC w == code
  let inside := ws.filter fun w => s.inWindow w v
  let t := inside.foldl (fun u w => u.windowHit w v) s
  let gates := ws.filter fun w => s.isSet .winCtlGATE w
  if !gates.isEmpty && !(gates.any fun w => s.inWindow w v) then t
  else { t.takeSeq with ringQ := t.ringQ ++ [⟨v, code, edge, pkind, !inside.isEmpty, t.tsSeq⟩] }

/-- TRIGGER_INPUT_EDGE (R412–R414, R425). -/
def execTriggerInputEdge (k : Fin 16) (falling : Bool) (time : Nat) (spaced : Bool) (s : State) : Res :=
  .next (if s.released && s.getF .tmuTrigcfgMODE k == 1 && s.bitF .tmuTrigcfgEDGE falling.toNat k then
    s.capture k falling 0 (time / 1024 * 1024) spaced else s)

/-- PPS_IN_EDGE (R427). -/
def execPpsInEdge (falling : Bool) (time : Nat) (s : State) : Res :=
  .next (if s.isSet .tmuPpsctlINEN && s.isSet .tmuPpsctlINEDGE == falling then
    s.capture 0x10 falling 0 (time / 1024 * 1024) true else s)

/-- The majority value of a grain's replicas at the latest crossing edge (R406). -/
def State.grainTime (s : State) (p : Nat) : Nat := ((SMap.get (fun _ => none) s.replicas p).map majority).getD s.edgeTime

/-- TSREQ (R412, R413, R429). -/
def execTsreq (pos : Pos) (s : State) : Res :=
  let v := s.grainTime (s.phys pos)
  .next (if s.bitF .tmuDtsenEN pos && !s.portStopped pos then s.capture (0x40 + pos) false 0 (v / 131072 * 131072) true else s)

/-- The capture of a pitch instant (R412, R413): source 0x011 with the pitch's KIND. -/
def State.pitchStamp (s : State) (kind : Nat) : State :=
  if s.isSet .tmuTscfgPITCHTS then s.capture 0x11 false kind (s.edgeTime / 131072 * 131072) true else s

/-- A lane source exists only for a perimeter position (R412). -/
def laneCodeOk (code : Nat) : Bool := 0x400 ≤ code && code < 0x7C0 && !interior ((code - 0x400) / 16)

/-- CAPTURE_PATH_FAIL (R415): one of the two copies of a TRIG, PPS_IN or lane path is retired. -/
def execCapturePathFail (code : BitVec 11) (s : State) : Res :=
  let c := code.toNat
  .next (if c ≤ 0x10 || laneCodeOk c then
    ({ s with pathsOut := SMap.set (fun _ => 0) s.pathsOut c (SMap.get (fun _ => 0) s.pathsOut c + 1) }.setOn
      .tmuTsstatPATHFAIL).raise 1014
  else s)

/-! ## The ring -/

/-- Entries of the ring: LOG2N below 8 acts as 8, above 20 as 20. -/
def State.ringSize (s : State) : Nat := 2 ^ max 8 (min 20 (s.getF .tmuTscfgLOG2N))

/-- The fill (R416). -/
def State.ringFill (s : State) : Nat :=
  (s.getF .tmuTswrWR % s.ringSize + s.ringSize - s.getF .tmuTsrdRD % s.ringSize) % s.ringSize

/-- The watermark after a change of the fill from `before` (R416). -/
def State.ringMark (s : State) (before : Nat) : State :=
  if before < s.getF .tmuTscfgWM ∧ s.getF .tmuTscfgWM ≤ s.ringFill then (s.setOn .tmuTsstatWMSEEN).raise 1012 else s

/-- The 16 bytes of an entry (R417). -/
def RingEnt.bytes (e : RingEnt) : List Byte :=
  toBytes 16 (timeLo e.time + 2 ^ 64 * (timeHi e.time + e.src * 2 ^ 32 + e.edge.toNat * 2 ^ 43 + e.pkind * 2 ^ 44 +
    e.win.toNat * 2 ^ 47 + e.seq * 2 ^ 49))

/-- The write of a ring entry completes (R416). -/
def State.ringComplete (s : State) (status : Nat) : State :=
  match s.ringOut with
  | none => s
  | some i =>
    let t := { s with ringOut := none }
    if status ≠ 0 then t.capLost else (t.setF .tmuTswrWR ((i + 1) % t.ringSize)).ringMark t.ringFill

/-- RING_WRITE (R416): the oldest capture at the ring writer; one entry's write is open at a time (DESIGN CHOICE, log 14). -/
def execRingWrite (s : State) : Res :=
  .next (match s.ringQ with
    | [] => s
    | e :: rest =>
      if s.ringOut.isSome then s else
      let t := { s with ringQ := rest }
      if !t.isSet .tmuTscfgEN || t.ringFill + 1 == t.ringSize then t.capLost
      else
        let i := t.getF .tmuTswrWR % t.ringSize
        match t.engineReq 69 .wr (t.getF .tmuTsbaseBASE * 4096 + 16 * i) 16 e.bytes with
        | some p => { t.inject p with ringOut := some i }
        | none => t.capLost)

/-- A write of TMU_TSCFG (R416). -/
def State.tscfgWrite (s : State) (w m : Nat) : State :=
  let en := s.isSet .tmuTscfgEN
  let t := if en then s else s.writeFld 0 0 w m .tmuTscfgLOG2N
  let u := ((t.writeFld 0 0 w m .tmuTscfgEN).writeFld 0 0 w m .tmuTscfgPITCHTS).writeFld 0 0 w m .tmuTscfgWM
  if !en && u.isSet .tmuTscfgEN then { (u.setF .tmuTswrWR 0).setF .tmuTsrdRD 0 with ringOut := none } else u

/-- RING_ENABLE (R416): a write of TMU_TSCFG. -/
def execRingEnable (w : W32) (s : State) : Res :=
  .next (s.viaUnit .tmuTscfg 0 0 s.hostAgent fun t => t.tscfgWrite w.toNat full32)

/-! ## Windows -/

/-- The bounds of an enable are refused (R423). -/
def State.windowRefused (s : State) (w : Nat) : Bool :=
  let a := s.timeOf winStartFlds w
  let b := s.timeOf winEndFlds w
  let p := s.getF .winPeriodPERIOD w
  b ≤ a || (p != 0 && p < b - a + 2 * usUnits)

/-- A write of WIN_CTLw (R422, R423). -/
def State.winCtlWrite (s : State) (w v m : Nat) : State :=
  if s.isSet .winCtlEN w then
    (((s.writeFld w 0 v m .winCtlEN).writeFld w 0 v m .winCtlGATE).writeFld w 0 v m .winCtlEVT).writeFld w 0 v m .winCtlERR
  else
    let t := s.writeReg .winCtl w 0 v m
    if !t.isSet .winCtlEN w then t
    else if t.windowRefused w then (t.setOff .winCtlEN w).setOn .winCtlERR w
    else t.setF .winStatINCNT 0 w

/-- WINDOW_ENABLE (R423): a write of WIN_CTLw. -/
def execWindowEnable (k : Window) (w : W32) (s : State) : Res :=
  .next (s.viaUnit .winCtl k 0 s.hostAgent fun t => t.winCtlWrite k w.toNat full32)

/-- OCCURRENCE_END (R423): every occurrence whose end lies 1 µs or more behind device time. -/
def execOccurrenceEnd (k : Window) (s : State) : Res :=
  let e := s.timeOf winEndFlds k + usUnits
  let p := s.getF .winPeriodPERIOD k
  .next (if !s.isSet .winCtlEN k || s.now < e then s
    else
      let n := if p = 0 then 1 else 1 + (s.now - e) / p
      let t := s.setF .winStatOCC (s.getF .winStatOCC k + n) k
      if p = 0 then t.setOff .winCtlEN k
      else (t.setTime winStartFlds ((s.timeOf winStartFlds k + n * p) % timeLimit) k).setTime winEndFlds
        ((s.timeOf winEndFlds k + n * p) % timeLimit) k)

/-! ## Registers with rules of their own -/

/-- A write of a time-valued register: one that leaves NS above 999,999,999 is ignored, but in TMU_STEPLO. -/
def State.timeWrite (s : State) (r : RegName) (f : TimeFlds) (i w m : Nat) : State :=
  let t := s.writeReg r i 0 w m
  if f.ns ≠ .tmuSteploNS ∧ 999999999 < t.getF f.ns i then s else t

/-- A write of TMU_HOLDOVER: INTERVAL 0 clears ACTIVE (R411). -/
def State.holdoverWrite (s : State) (w m : Nat) : State :=
  let t := s.writeReg .tmuHoldover 0 0 w m
  if m &&& 0xFFFF ≠ 0 ∧ t.getF .tmuHoldoverINTERVAL = 0 then t.setOff .tmuHoldoverACTIVE else t

/-- A write of TMU_TSRD: the fill follows the value written (R416). -/
def State.tsrdWrite (s : State) (w m : Nat) : State := (s.writeReg .tmuTsrd 0 0 w m).ringMark s.ringFill

end Sys2Proof.Machine
end

