-- ==== Sys2Proof/Machine/Xcvr.lean ====
section
/-! DEFINITION. Transceiver lanes (R430–R446): the quad PLL, the lane port, bring-up, power states, test and timestamps. Lane
8n + i is lane i of Ln; quad 2n + h holds lanes 4h to 4h + 3. -/

namespace Sys2Proof.Machine

/-- The position of a lane. -/
def lanePos (l : Nat) : Nat := l / 8

/-- A lane exists: its position is a perimeter position (R21, R430). -/
def laneExists (l : Nat) : Bool := !interior (lanePos l)

/-- The PWR domain of a lane's quad (R473). -/
def quadDom (l : Nat) : Nat := 128 + l / 4

/-- The lanes of the quad of lane l. -/
def quadLanes (l : Nat) : List Nat := (List.range 4).map (l / 4 * 4 + ·)

/-- A register command for lane l: the windows of L16 hold other registers, those of other interior positions behave as powered-off
blocks (R430, R508). -/
def State.viaLane (s : State) (r : RegName) (l j : Nat) (k : State → State) : State :=
  if s.perst || lanePos l = 16 || (r = .xcvrQpll && l % 4 != 0) then s
  else if !laneExists l then s.gateHit 15 (r.offset l j) s.hostAgent
  else s.viaUnit r l j s.hostAgent k

/-! ## States of a lane -/

/-- MODE of a lane (R435): 0 Off, 1 fabric, 2 test, 3 wort. -/
def State.laneMode (s : State) (l : Nat) : Nat := s.getF .xcvrLcfgMODE l

/-- A receiver leaves UP (R441). -/
def State.leaveUp (s : State) (l : Nat) : State :=
  if s.getF .xcvrLstatRXST l = 3 then
    ((s.setF .xcvrLstatRXST 0 l).setOn .xcvrLstatDOWNSEEN l).raiseG (lanePos l) 15
  else s.setF .xcvrLstatRXST 0 l

/-- A receiver is off: no signal and no lock are seen. -/
def State.rxOff (s : State) (l : Nat) : State := ((s.leaveUp l).setOff .xcvrLstatSIGDET l).setOff .xcvrLstatCDRLOCK l

/-- The injector of a lane that sends does what is pending: the next bit, or the next BURST + 1 (R445). -/
def State.injectNow (s : State) (l : Nat) : State :=
  if s.isSet .xcvrInjBUSY l && s.getF .xcvrLstatPSTATE l == 0 then
    (s.setOff .xcvrInjBUSY l).emit (.inverted l (if s.getF .xcvrInjKIND l = 2 then s.getF .xcvrInjBURST l + 1 else 1))
  else s

/-- All four lanes of a quad in Sleep stop its PLL and take its domain to Doze (R442). -/
def State.quadSettle (s : State) (l : Nat) : State :=
  if (quadLanes l).all fun x => s.getF .xcvrLstatPSTATE x == 2 then
    let t := s.setOff .xcvrQpllLOCK (l / 4 * 4)
    if t.getF .pwrDstatSTATE (quadDom l) = 0 && (t.going (quadDom l)).isNone then t.startTransition (quadDom l) 1 else t
  else s

/-- A lane enters a power state (R442): in Sleep and Off its receiver is off. -/
def State.laneEnter (s : State) (l st : Nat) : State :=
  let t := if 2 ≤ st then s.rxOff l else s
  let u := { t.setF .xcvrLstatPSTATE st l with laneExit := SMap.set (fun _ => false) t.laneExit l false }
  let v := if st = 3 then { u with laneTx := SMap.set (fun _ => []) u.laneTx l [], laneRx := SMap.set (fun _ => []) u.laneRx l [] }
    else u
  (v.injectNow l).quadSettle l

/-- The power state that a lane's settings give it: Off in MODE 0, before release and with its quad off; Active on a wort lane. -/
def State.laneTarget (s : State) (l : Nat) : Nat :=
  if s.laneMode l = 0 || !s.released || s.getF .pwrDstatSTATE (quadDom l) == 3 then 3
  else if s.laneMode l = 3 then 0
  else min 2 (s.getF .xcvrLpmREQ l)

/-- A lane takes the state its settings give it. -/
def State.laneApply (s : State) (l : Nat) : State :=
  if !laneExists l || s.getF .xcvrLstatPSTATE l == s.laneTarget l then s else s.laneEnter l (s.laneTarget l)

/-- Every lane takes the state its settings give it: at release (R435), at a reload (R456), when a quad loses its supply. -/
def State.lanesApply (s : State) : State := State.each 480 (fun l t => t.laneApply l) s

/-- An exit from Standby or Sleep begins; a quad in Doze wakes for it (R442, R482). -/
def State.laneWake (s : State) (l : Nat) : State :=
  if [1, 2].contains (s.getF .xcvrLstatPSTATE l) then
    let t := { s with laneExit := SMap.set (fun _ => false) s.laneExit l true }
    if t.getF .pwrDstatSTATE (quadDom l) = 1 || t.going (quadDom l) = some 1 then t.wake (quadDom l) 1 else t
  else s

/-- LANE_EXIT_DONE (R442). -/
def execLaneExitDone (l : Lane) (s : State) : Res :=
  .next (if SMap.get (fun _ => false) s.laneExit l && s.getF .pwrDstatSTATE (quadDom l) == 0 then s.laneEnter l 0 else s)

/-- A write of XCVR_LPM (R442): REQ moves a lane that is on, but not a wort lane. -/
def State.lpmWrite (s : State) (l w m : Nat) : State :=
  let t := s.writeReg .xcvrLpm l 0 w m
  if m % 4 = 0 || t.getF .xcvrLstatPSTATE l == 3 || t.laneMode l == 3 then t
  else match t.getF .xcvrLpmREQ l with
    | 0 => t.laneWake l
    | 1 => t.laneEnter l 1
    | _ => t.laneEnter l 2

/-- LANE_POWER_REQUEST: a write of XCVR_LPM (R442). -/
def execLanePowerRequest (l : Lane) (w : W32) (s : State) : Res :=
  .next (s.viaLane .xcvrLpm l 0 fun t => t.lpmWrite l w.toNat full32)

/-- STANDBY_TIMEOUT (R442): the transmit FIFO has stayed empty. -/
def execStandbyTimeout (l : Lane) (s : State) : Res :=
  .next (if s.isSet .xcvrLpmAUTO l && s.laneMode l == 1 && s.getF .xcvrLpmSBYUS l != 0 && s.getF .xcvrLstatPSTATE l == 0 then
    { s with laneTx := SMap.set (fun _ => []) s.laneTx l [] }.laneEnter l 1 else s)

/-- SLEEP_TIMEOUT (R442). -/
def execSleepTimeout (l : Lane) (s : State) : Res :=
  .next (if s.isSet .xcvrLpmAUTO l && s.laneMode l == 1 && s.getF .xcvrLpmSLPMS l != 0 && s.getF .xcvrLstatPSTATE l == 1 &&
      !SMap.get (fun _ => false) s.laneExit l then s.laneEnter l 2 else s)

/-! ## Settings -/

/-- f_VCO lies in range (R431): N + F / 2^24 from 14 to 28.125. -/
def vcoOk (n f : Nat) : Bool := 14 * 2 ^ 24 ≤ n * 2 ^ 24 + f && n * 2 ^ 24 + f ≤ 28 * 2 ^ 24 + 2 ^ 21

/-- A write of XCVR_QPLL (R431): N and F out of range are not taken; a new setting, or EN cleared, ends the lock. -/
def State.qpllSet (s : State) (l w m : Nat) : State :=
  let t := s.writeReg .xcvrQpll l 0 w m
  let u := if vcoOk (t.getF .xcvrQpllN l) (t.getF .xcvrQpllF l) then t
    else (t.setF .xcvrQpllN (s.getF .xcvrQpllN l) l).setF .xcvrQpllF (s.getF .xcvrQpllF l) l
  let kept := u.isSet .xcvrQpllEN l && u.getF .xcvrQpllN l == s.getF .xcvrQpllN l && u.getF .xcvrQpllF l == s.getF .xcvrQpllF l
  if kept then u else u.setOff .xcvrQpllLOCK l

/-- QPLL_WRITE (R431). -/
def execQpllWrite (l : Lane) (w : W32) (s : State) : Res :=
  .next (s.viaLane .xcvrQpll l 0 fun t => t.qpllSet l w.toNat full32)

/-- QPLL_LOCK (R431): the PLL of the quad of lane l. -/
def execQpllLock (l : Lane) (s : State) : Res :=
  let q := l.val / 4 * 4
  .next (if laneExists l && s.isSet .xcvrQpllEN q && s.getF .pwrDstatSTATE (quadDom l) == 0 && s.crossingRuns then
    s.setOn .xcvrQpllLOCK q else s)

/-- QPLL_LOSS_OF_LOCK (R431). -/
def execQpllLossOfLock (l : Lane) (s : State) : Res :=
  let q := l.val / 4 * 4
  .next (if s.isSet .xcvrQpllLOCK q then (s.setOff .xcvrQpllLOCK q).setOn .xcvrQpllUNLOCKSEEN q else s)

/-- D of a lane (R431): DIV 5–7 act as 4. -/
def State.laneD (s : State) (l : Nat) : Nat := 2 ^ min 4 (s.getF .xcvrLcfgDIV l)

/-- The lanes of a quad that are bonded. -/
def State.bondLanes (s : State) (l : Nat) : List Nat := (quadLanes l).filter fun x => s.isSet .xcvrLcfgBOND x

/-- The bond of a quad enters a state. -/
def State.setBond (s : State) (l v : Nat) : State := { s with bond := SMap.set (fun _ => 0) s.bond (l / 4) v }

/-- BONDERR on every bonded lane, which run unbonded until BOND is written again (R439). -/
def State.bondFail (s : State) (l : Nat) : State := ((s.bondLanes l).foldl (fun t x => t.setOn .xcvrLstatBONDERR x) s).setBond l 3

/-- BOND has been written: bonded lanes have equal D and WIDTH, or the bond is refused (R439). -/
def State.bondEval (s : State) (l : Nat) : State :=
  match s.bondLanes l with
  | [] => s.setBond l 0
  | x :: xs =>
    if xs.all fun y => s.laneD y == s.laneD x && s.getF .xcvrLcfgWIDTH y == s.getF .xcvrLcfgWIDTH x then s.setBond l 1
    else s.bondFail l

/-- A write of XCVR_LCFG (R435, R439, R456): MODE 3 is not written, and the MODE of a wort lane is kept. -/
def State.lcfgWrite (s : State) (l w m : Nat) : State :=
  let t := s.writeReg .xcvrLcfg l 0 w m
  let u := if s.laneMode l = 3 || t.laneMode l == 3 then t.setF .xcvrLcfgMODE (s.laneMode l) l else t
  let v := if m.testBit 10 then u.bondEval l else u
  if v.laneMode l = s.laneMode l then v else v.laneApply l

/-- BOND_ALIGNED (R439): `within` says that the K28.5 came within 32 symbol times of each other. -/
def execBondAligned (l : Lane) (within : Bool) (s : State) : Res :=
  .next (if SMap.get (fun _ => 0) s.bond (l.val / 4) = 1 then (if within then s.setBond l 2 else s.bondFail l) else s)

/-! ## Bring-up (R441) -/

/-- SIGNAL_DETECTED: receivers are ignored before release, and off in Sleep and Off (R257, R442). -/
def execSignalDetected (l : Lane) (s : State) : Res :=
  .next (if laneExists l && s.getF .xcvrLstatRXST l == 0 && s.getF .xcvrLstatPSTATE l ≤ 1 then
    ((s.setOn .xcvrLstatSIGDET l).setOn .xcvrLstatCDRLOCK l).setF .xcvrLstatRXST 1 l else s)

/-- COMMA_FOUND. -/
def execCommaFound (l : Lane) (s : State) : Res :=
  .next (if s.getF .xcvrLstatRXST l = 1 then s.setF .xcvrLstatRXST 2 l else s)

/-- VALID_SYMBOL_RUN. -/
def execValidSymbolRun (l : Lane) (s : State) : Res :=
  .next (if s.getF .xcvrLstatRXST l = 2 then (s.setF .xcvrLstatRXST 3 l).setOn .xcvrLstatUPSEEN l else s)

/-- INVALID_SYMBOL (R433, R441): a code or a disparity error is counted in CHECK and in UP. -/
def execInvalidSymbol (l : Lane) (disparity : Bool) (s : State) : Res :=
  let st := s.getF .xcvrLstatRXST l
  .next (if st < 2 || s.isSet .xcvrLcfgRAW l then s else
    let t := (s.count (if disparity then .xcvrLerrDISPERR else .xcvrLerrCODEERR) 1 l).setOn .xcvrLstatERRSEEN l
    if st = 2 then t.setF .xcvrLstatRXST 1 l else t)

/-! ## The lane port (R437–R440) -/

/-- The transmit FIFO of a lane. -/
def State.txFifo (s : State) (l : Nat) : List (Nat × Nat) := SMap.get (fun _ => []) s.laneTx l

/-- The design reaches the port: fabric mode, the grain's core in Run, not in die reset and not under global restore (R440, R478). -/
def State.portOpen (s : State) (l : Nat) : Bool :=
  s.laneMode l == 1 && s.released && !s.portStopped (lanePos l) && s.getF .pwrDstatSTATE (lanePos l) == 0

/-- The W bytes of a beat (R437), or its four 10-bit symbols with RAW (R434). -/
def State.beatOf (s : State) (l data k : Nat) : Nat × Nat :=
  if s.isSet .xcvrLcfgRAW l then (data &&& 0x03FF03FF03FF03FF, 0)
  else if s.isSet .xcvrLcfgWIDTH l then (data, k) else (data % 2 ^ 32, k % 16)

/-- TX_BEAT (R437, R442): TXREADY is 0 while 16 beats wait. -/
def execTxBeat (l : Lane) (data : BitVec 64) (k : BitVec 8) (sent : Nat) (s : State) : Res :=
  .next (if !s.portOpen l || s.getF .xcvrLstatPSTATE l == 3 then s else
    let q := if s.getF .xcvrLstatPSTATE l = 0 then (s.txFifo l).drop sent else s.txFifo l
    let r := if q.length < 16 then q ++ [s.beatOf l data.toNat k.toNat] else q
    ({ s with laneTx := SMap.set (fun _ => []) s.laneTx l r }).laneWake l)

/-- A bonded lane whose bond is not aligned yet holds its data (R439). -/
def State.bondHolds (s : State) (l : Nat) : Bool :=
  s.isSet .xcvrLcfgBOND l && SMap.get (fun _ => 0) s.bond (l / 4) == 1

/-- RX_BEAT (R438, R440): each RXCLK edge since the last beat has taken one. -/
def execRxBeat (l : Lane) (data : BitVec 64) (k bv err : BitVec 8) (taken : Nat) (s : State) : Res :=
  .next (if s.laneMode l ≠ 1 || s.getF .xcvrLstatRXST l != 3 then s else
    let old := SMap.get (fun _ => []) s.laneRx l
    let q := if s.bondHolds l then old else old.drop taken
    let b := s.beatOf l data.toNat k.toNat
    let raw := s.isSet .xcvrLcfgRAW l
    if q.length < 16 then
      { s with laneRx := SMap.set (fun _ => []) s.laneRx l
                (q ++ [⟨b.1, b.2, if raw then 0 else bv.toNat, if raw then 0 else err.toNat⟩]) }
    else { s with laneRx := SMap.set (fun _ => []) s.laneRx l q }.setOn .xcvrLstatRXOVF l)

/-! ## Test (R444, R445) -/

/-- A pattern selected in XCVR_PCHK or XCVR_PGEN. -/
def patOn (p : Nat) : Bool := 1 ≤ p && p ≤ 5

/-- CHECKER_LOCK (R444). -/
def execCheckerLock (l : Lane) (s : State) : Res :=
  .next (if laneExists l && s.laneMode l == 2 && patOn (s.getF .xcvrPchkPAT l) then s.setOn .xcvrPchkLOCK l else s)

/-- CHECKER_LOST (R444): the errored and compared bits counted since the lock. -/
def execCheckerLost (l : Lane) (errs bits : Nat) (s : State) : Res :=
  .next (if !s.isSet .xcvrPchkLOCK l then s else
    let n := SMap.get (fun _ => 0) s.chkBits l + bits
    let t := ((s.setOff .xcvrPchkLOCK l).setOn .xcvrPchkLOSTSEEN l).count .xcvrPerrcntERR errs l
    { t.setF .xcvrPbitcntKBITS (min (n / 1024) (2 ^ 48 - 1)) l with chkBits := SMap.set (fun _ => 0) t.chkBits l n })

/-- A write of XCVR_PCHK: another pattern ends the lock. -/
def State.pchkWrite (s : State) (l w m : Nat) : State :=
  let t := s.writeReg .xcvrPchk l 0 w m
  let u := if t.getF .xcvrPchkPAT l = s.getF .xcvrPchkPAT l then t else t.setOff .xcvrPchkLOCK l
  if (w &&& m).testBit 5 then
    { (u.setF .xcvrPerrcntERR 0 l).setF .xcvrPbitcntKBITS 0 l with chkBits := SMap.set (fun _ => 0) u.chkBits l 0 }
  else u

/-- CHECKER_CLEAR: a write of XCVR_PCHK (R444). -/
def execCheckerClear (l : Lane) (w : W32) (s : State) : Res :=
  .next (s.viaLane .xcvrPchk l 0 fun t => t.pchkWrite l w.toNat full32)

/-- A write of XCVR_INJ (R445): an injection waits for a lane that sends. -/
def State.injWrite (s : State) (l w m : Nat) : State :=
  let t := s.writeReg .xcvrInj l 0 w m
  if (w &&& m).testBit 12 && [1, 2].contains (t.getF .xcvrInjKIND l) then (t.setOn .xcvrInjBUSY l).injectNow l else t

/-- INJECT_GO: a write of XCVR_INJ (R445). -/
def execInjectGo (l : Lane) (w : W32) (s : State) : Res :=
  .next (s.viaLane .xcvrInj l 0 fun t => t.injWrite l w.toNat full32)

/-! ## Timestamps (R412, R414, R446) -/

/-- The source code of a lane direction (R412). -/
def laneCode (l : Nat) (tx : Bool) : Nat := 0x400 + 2 * l + tx.toNat

/-- A lane source is enabled (R412). -/
def State.laneEnabled (s : State) (code : Nat) : Bool := s.bitF .tmuLtsenEN ((code - 0x400) % 64) ((code - 0x400) / 64)

/-- LANE_SYMBOL_CAPTURE (R446): a fabric lane counts the symbols that match; a wort lane takes the mark's frame number. -/
def execLaneSymbolCapture (x : LaneSym) (s : State) : Res :=
  let l := x.lane.val
  let dec := 2 ^ min 24 (s.getF .xcvrTscfgTSDEC l)
  let key := 2 * l + x.tx.toNat
  let runs := laneExists l && s.laneEnabled (laneCode l x.tx) &&
    (if x.tx then s.getF .xcvrLstatPSTATE l == 0 else s.getF .xcvrLstatRXST l == 3)
  .next (if !runs then s
    else if s.laneMode l = 3 then
      (if x.isK && x.sym == 0xFB && x.frameNo.toNat % dec == 0 then s.capture (laneCode l x.tx) false 0 x.time x.spaced else s)
    else if s.laneMode l = 1 && x.sym.toNat == s.getF .xcvrTscfgSOFSYM l && x.isK == s.isSet .xcvrTscfgSOFK l then
      let n := SMap.get (fun _ => 0) s.laneCnt key + 1
      let t := { s with laneCnt := SMap.set (fun _ => 0) s.laneCnt key (n % dec) }
      if dec ≤ n then t.capture (laneCode l x.tx) false 0 x.time x.spaced else t
    else s)

end Sys2Proof.Machine
end

