-- ==== Sys2Proof/Machine/Wort.lean ====
section
/-! DEFINITION. Wort links (R447–R456): enabling, frames and lane sets, cells and their replay, credits and reserved buffers,
discovery, and the isolation of a link that stays down. Link k = 2n + h. -/

namespace Sys2Proof.Machine

/-- A wort link beside its register. -/
def State.wortSt (s : State) (k : Nat) : WortSt := SMap.get (fun _ => WortSt.idle) s.wort k

/-- A wort link replaced. -/
def State.setWort (s : State) (k : Nat) (v : WortSt) : State := { s with wort := SMap.set (fun _ => WortSt.idle) s.wort k v }

/-- STATE of a wort link changes: SEEN and event 1016. -/
def State.wortState (s : State) (k st : Nat) : State :=
  if s.getF .wortLinkSTATE k = st then s else ((s.setF .wortLinkSTATE st k).setOn .wortLinkSEEN k).raise 1016

/-- A wort link is up. -/
def State.wortUp (s : State) (k : Nat) : Bool := 2 ≤ s.getF .wortLinkSTATE k

/-- The lanes of link k. -/
def wortLanes (k : Nat) : List Nat := (List.range 4).map (4 * k + ·)

/-! ## Sending (R449, R450, R454) -/

/-- The cell of a flit as it leaves: the last SEQ accepted is acknowledged. -/
def WortSt.outCell (v : WortSt) (seq : Nat) (nak : Bool) (f : WFlit) : WCell :=
  { type := BitVec.ofNat 3 f.type, vn := BitVec.ofNat 2 f.vn, seq := BitVec.ofNat 8 seq, ackseq := BitVec.ofNat 8 (v.rxSeq + 255), nak := nak
    crv := false, crvn := 0, crcnt := 0, crcOk := true, flit := BitVec.ofNat 512 f.flit }

/-- Flits that the far ingress buffers for a virtual network (R311, R454). -/
def vnBuffer (vn : Nat) : Nat := match vn with | 0 => 32 | 1 => 32 | 2 => 16 | _ => 4

/-- The first flit that waits may go: the link is up, the 256-cell buffer has room, and outside a reserved-buffer fabric its
network has credit. -/
def State.wortCanSend (s : State) (k : Nat) (f : WFlit) : Bool :=
  let v := s.wortSt k
  s.wortUp k && v.txBuf.length < 256 && (s.isSet .wortStatRBMODE || SMap.get (fun _ => 0) v.spent f.vn < vnBuffer f.vn)

/-- Flits leave while they may, at most n. -/
def State.wortPump : Nat → Nat → State → State
  | 0, _, s => s
  | n + 1, k, s =>
    let v := s.wortSt k
    match v.txQ with
    | [] => s
    | f :: rest =>
      if !s.wortCanSend k f then s else
      let w := { v with txQ := rest, txSeq := (v.txSeq + 1) % 256, txBuf := v.txBuf ++ [(v.txSeq, f)]
                        spent := SMap.set (fun _ => 0) v.spent f.vn (SMap.get (fun _ => 0) v.spent f.vn + 1) }
      State.wortPump n k ((s.setWort k w).emit (.wortCell k (w.outCell v.txSeq false f)))

/-- What waits at a wort link goes on. -/
def State.wortGo (s : State) (k : Nat) : State := State.wortPump (s.wortSt k).txQ.length k s

/-- The TYPE of flit j of n (R449): head, body, tail, or the flit of a single-flit packet. -/
def flitType (j n : Nat) : Nat := if n = 1 then 4 else if j = 0 then 1 else if j + 1 = n then 3 else 2

/-- A packet joins the flits of a link, its age in the AGE field (R314). -/
def State.wortFlits (s : State) (k : Nat) (p : Packet) : State :=
  let fs := flitsOf p ((s.ageNow + 2 ^ 16 - p.age.toNat) % 2 ^ 16)
  let v := s.wortSt k
  (s.setWort k { v with
    txQ := v.txQ ++ (fs.zipIdx.map fun e : Nat × Nat => (⟨flitType e.2 fs.length, vnCode p.vn, e.1⟩ : WFlit)) }).wortGo k

/-- The reservation of a request (R317): its ADDR, LENM1 and TAG. -/
def resvOf (p : Packet) : Packet := { p with opc := .resv, data := [], wmask := 0 }

/-- A packet takes wort link k (R453): in a reserved-buffer fabric a request first reserves a buffer. -/
def State.wortSend (s : State) (k : Nat) (p : Packet) : State :=
  if s.isSet .wortStatRBMODE && isReq p.opc then
    let v := s.wortSt k
    (s.setWort k { v with await := v.await ++ [p] }).wortFlits k (resvOf p)
  else s.wortFlits k p

/-- A GRANT of the far end sends the request that waits for it. -/
def State.wortGrant (s : State) (k : Nat) (p : Packet) : State :=
  let v := s.wortSt k
  match v.await.find? fun q => q.tag == p.tag && q.snode == p.dnode && q.sep == p.dep with
  | none => s
  | some q => (s.setWort k { v with await := v.await.erase q }).wortFlits k q

/-! ## Receiving -/

/-- The reservation of a far request is granted: the ingress takes the request in at once (R317). -/
def grantOf (p : Packet) (dev : Nat) : Packet :=
  { responseOf p 0 [] with sdev := BitVec.ofNat 8 dev, opc := .grant }

/-- A packet arrives over link k (R314, R454): its age is rewritten. -/
def State.wortIn (s : State) (k : Nat) (p : Packet) : State :=
  match p.opc with
  | .grant => s.wortGrant k p
  | .resv => s.wortFlits k (grantOf p s.devNum)
  | _ => { s with net := s.net ++ [{ p with age := BitVec.ofNat 16 (s.ageNow + 2 ^ 16 - p.age.toNat) }] }

/-- A flit is accepted: its packet enters the network with its last flit. -/
def State.wortFlit (s : State) (k type vn flit : Nat) : State :=
  let v := s.wortSt k
  let part := (if type = 1 ∨ type = 4 then [] else SMap.get (fun _ => []) v.rxPart vn) ++ [flit]
  if type = 3 ∨ type = 4 then
    (s.setWort k { v with rxPart := SMap.set (fun _ => []) v.rxPart vn [] }).wortIn k (packetOf (part.headD 0) part.tail)
  else s.setWort k { v with rxPart := SMap.set (fun _ => []) v.rxPart vn part }

/-- Cells up to an acknowledged SEQ leave the replay buffer. -/
def ackCells (ack : Nat) (b : List (Nat × WFlit)) : List (Nat × WFlit) :=
  match b.findIdx? fun e => e.1 == ack with
  | some i => b.drop (i + 1)
  | none => b

/-- What a good cell says of the other direction: an acknowledgement, credits, and a NAK, on which every cell not acknowledged is sent
again (R449, R450). -/
def State.wortAck (s : State) (k : Nat) (c : WCell) : State :=
  let v := s.wortSt k
  let used := SMap.get (fun _ => 0) v.spent c.crvn.toNat
  let w := { v with
    txBuf := ackCells c.ackseq.toNat v.txBuf
    spent := if c.crv then SMap.set (fun _ => 0) v.spent c.crvn.toNat (used - c.crcnt.toNat) else v.spent }
  let t := s.setWort k w
  (if c.nak then w.txBuf.foldl (fun u e => u.emit (.wortCell k (w.outCell e.1 false e.2))) t else t).wortGo k

/-- CELL (R449, R450): a cell whose CRC fails, and those behind it, are replayed from the failed SEQ; replayed cells are counted. -/
def execCell (k : Fin 120) (c : WCell) (s : State) : Res :=
  let v := s.wortSt k
  .next (if !s.wortUp k then s
    else if !c.crcOk then
      let w := { v with failed := true, lost := v.lost + 1 }
      (s.setWort k w).emit (.wortCell k (w.outCell v.txSeq true ⟨0, 0, 0⟩))
    else
      let t := s.wortAck k c
      let x := t.wortSt k
      if c.type.toNat = 0 ∨ 4 < c.type.toNat then t
      else if c.seq.toNat ≠ x.rxSeq then (if x.failed then t.setWort k { x with lost := x.lost + 1 } else t)
      else
        let left := if x.failed then x.lost else x.replay
        let y := { x with rxSeq := (x.rxSeq + 1) % 256, failed := false, lost := 0, replay := left - 1 }
        let u := t.setWort k y
        (if 0 < left then u.count .wortLinkREPLAYS 1 k else u).wortFlit k c.type.toNat c.vn.toNat c.flit.toNat)

/-- LINK_CELL (R449, R450): the sender's lane set for the next frame, and the set of its receivers that are UP. -/
def execLinkCell (k : Fin 120) (farUp nextSet : BitVec 4) (s : State) : Res :=
  .next (if !s.isSet .wortLinkEN k then s
    else s.setWort k { s.wortSt k with outNext := some farUp.toNat, inNext := some nextSet.toNat })

/-- The STATE of a link on a set of lanes. -/
def laneSetState (set : Nat) : Nat := match popcount 4 set with | 0 => 0 | 4 => 2 | _ => 3

/-- WORT_FRAME (R448, R450): a frame header on an UP lane; the lane sets reported before it take effect. The skip changes no
content. -/
def execWortFrame (k : Fin 120) (lane : Fin 4) (frameNo : BitVec 32) (_skipAdjust : Bool) (s : State) : Res :=
  .next (if !s.isSet .wortLinkEN k || s.getF .xcvrLstatRXST (4 * k + lane) != 3 then s else
    let v := s.wortSt k
    let t := s.setWort k { v with frame := frameNo.toNat, inSet := v.inNext.getD v.inSet, inNext := none, outNext := none }
    match v.outNext with
    | none => t
    | some set => ((t.setF .wortLinkLANES set k).wortState k (laneSetState set)).wortGo k)

/-- A wort link without an UP lane is down (R450). -/
def State.wortSettle (s : State) (k : Nat) : State :=
  if s.isSet .wortLinkEN k && s.wortUp k && (wortLanes k).all (fun l => s.getF .xcvrLstatRXST l != 3) then
    (s.setF .wortLinkLANES 0 k).wortState k 0
  else s

/-- LANE_DOWN (R432, R441): the lane leaves UP; of a wort link, the last lane takes the link down. -/
def execLaneDown (l : Lane) (signal cdr : Bool) (s : State) : Res :=
  .next (if s.getF .xcvrLstatRXST l ≠ 3 then s else
    (((s.leaveUp l).setF .xcvrLstatSIGDET signal.toNat l).setF .xcvrLstatCDRLOCK cdr.toNat l).wortSettle (l.val / 4))

/-! ## Enabling (R447) -/

/-- The lanes of a link take a MODE. -/
def State.wortMode (s : State) (k mode : Nat) : State :=
  (wortLanes k).foldl (fun t l => ((t.setF .xcvrLcfgMODE mode l).setOff .xcvrLcfgRAW l).laneApply l) s

/-- Link k is disabled: its lanes return to MODE 0. -/
def State.wortOff (s : State) (k : Nat) : State :=
  (((s.setOff .wortLinkEN k).wortMode k 0).setF .wortLinkLANES 0 k).wortState k 0 |>.setWort k WortSt.idle

/-- Link k is enabled, or refused at an interior position or with lanes that differ in D. -/
def State.wortOn (s : State) (k : Nat) : State :=
  let d := s.laneD (4 * k)
  if interior (k / 2) || !((wortLanes k).all fun l => s.laneD l == d) then s.setOn .wortLinkERR k
  else (((s.setOn .wortLinkEN k).wortMode k 3).wortState k 1)

/-- A write of WORT_LINKk. -/
def State.wortLinkWrite (s : State) (k w m : Nat) : State :=
  let was := s.isSet .wortLinkEN k
  let t := (s.writeReg .wortLink k 0 w m).setF .wortLinkEN was.toNat k
  if !m.testBit 0 then t
  else if w.testBit 0 && !was then t.wortOn k
  else if !w.testBit 0 && was then t.wortOff k else t

/-- WORT_LINK_ENABLE: WORT_LINKk.EN is written 1 (R447). -/
def execWortLinkEnable (k : Fin 120) (s : State) : Res :=
  .next (s.viaUnit .wortLink k 0 s.hostAgent fun t => t.wortLinkWrite k 1 1)

/-- WORT_LINK_DISABLE: WORT_LINKk.EN is written 0 (R447). -/
def execWortLinkDisable (k : Fin 120) (s : State) : Res :=
  .next (s.viaUnit .wortLink k 0 s.hostAgent fun t => t.wortLinkWrite k 0 1)

/-- WORT_LINK_DOWN_TIMEOUT (R455): recorded as a declaration in the egress router. -/
def execWortLinkDownTimeout (k : Fin 120) (s : State) : Res :=
  .next (if !s.isSet .wortLinkEN k || s.wortUp k || s.wortIso.testBit k then s else
    ({ s with wortIso := setBit s.wortIso k true }.setOn .grnNocisoSEEN (s.phys (k.val / 2))).raiseG (k.val / 2) 2)

/-! ## Discovery (R451, R452, R454) -/

/-- The place of the root: the lowest serial among the candidates, or among all without one. -/
def rootPlace (ds : List WDevice) : Nat :=
  let cand := fun d : WDevice => d.isRoot || !(ds.any fun e => e.isRoot)
  let low := ((ds.filter cand).map fun d => d.serial.toNat).foldl min (2 ^ 64)
  ds.findIdx fun d => cand d && d.serial.toNat == low

/-- New devices in the order of hop distance and then serial. -/
def numberOrder (ds : List (Nat × WDevice)) : List (Nat × WDevice) :=
  ds.mergeSort fun a b => a.2.hops < b.2.hops || (a.2.hops == b.2.hops && a.2.serial.toNat ≤ b.2.serial.toNat)

/-- Each new device in turn takes the lowest free number below 256. -/
def giveNumbers (got : List (Nat × Nat)) : List (Nat × WDevice) → List (Nat × Nat)
  | [] => got
  | d :: rest =>
    match (List.range 256).find? fun n => !got.any fun g => g.2 == n with
    | some n => giveNumbers (got ++ [(d.1, n)]) rest
    | none => giveNumbers got rest

/-- The numbers of the devices, as (place, number): those held are kept, the root takes 0 if it has none (R451). -/
def numbers (ds : List WDevice) : List (Nat × Nat) :=
  let places := ds.zipIdx.map fun e => (e.2, e.1)
  let root := rootPlace ds
  let held := places.filterMap fun e => e.2.held.map fun n => (e.1, n.toNat)
  let start := if held.any fun h => h.1 == root then held else (root, 0) :: held
  giveNumbers start (numberOrder (places.filter fun e => !start.any fun h => h.1 == e.1))

/-- WORT_RT of device d. -/
def State.putRoute (s : State) (d : Nat) (r : Option (BitVec 6 × Bool)) : State :=
  match r with
  | some e => ((s.setF .wortRtPOS e.1.toNat d).setF .wortRtHALF e.2.toNat d).setOn .wortRtVALID d
  | none => ((s.setF .wortRtPOS 0 d).setF .wortRtHALF 0 d).setOff .wortRtVALID d

/-- The far end of link k. -/
def State.putPeer (s : State) (nums : List (Nat × Nat)) (k : Nat) (p : Option WPeer) : State :=
  match p with
  | none => s
  | some e => ((s.setF .wortLinkPEERDEV (((nums.find? fun n => n.1 == e.dev).map (·.2)).getD 0) k).setF .wortLinkPEERPOS e.pos.toNat
      k).setF .wortLinkPEERHALF e.half.toNat k

/-- WORT_DISCOVERY (R451–R454). A number already held here stands, whatever the list says of it. -/
def execWortDiscovery (devs : List WDevice) (self : Nat) (routes : List (Option (BitVec 6 × Bool))) (peers : List (Option WPeer))
    (s : State) : Res :=
  let mine := if s.isSet .wortStatDONE then some (BitVec.ofNat 8 (s.getF .wortStatDEVNUM)) else none
  let ds := devs.modify self fun d => { d with held := mine }
  let nums := numbers ds
  .next (if s.perst || ds.length ≤ self then s else
    match nums.find? fun n => n.1 == self with
    | none => State.each 120 (fun k t => if t.isSet .wortLinkEN k then t.wortOff k else t) (s.setOn .wortStatEXCESS)
    | some n =>
      let t := ((((s.setF .wortStatDEVNUM n.2).setOn .wortStatDONE).setF .wortStatISROOT (self == rootPlace ds).toNat).setF .wortStatRBMODE
        (2 ≤ nums.length && nums.length ≤ 4 : Bool).toNat).setF .wortStatNDEVM1 (nums.length - 1)
      let u := State.each 256 (fun d v => v.putRoute d (routes.getD d none)) t
      ((State.each 120 (fun k v => v.putPeer nums k (peers.getD k none)) u).setOn .wortStatSEEN).raise 1015)

/-- A reload (R456): links drop until the new release. -/
def State.wortReload (s : State) : State :=
  State.each 120 (fun k t =>
    if t.isSet .wortLinkEN k then ((t.setF .wortLinkLANES 0 k).wortState k 0).setWort k WortSt.idle else t) s.lanesApply

end Sys2Proof.Machine
end

