-- ==== Sys2Proof/Machine/Release.lean ====
section
/-! DEFINITION. Shared operations of starting and stopping parts of a position: global restore, the start from INIT (R51, R111,
R138), clearing, and frames of block content, shadows and snapshots as the configuration path moves them (R240, R298). -/

namespace Sys2Proof.Machine

/-! ## Start and clear -/

/-- INIT, or SRVAL where an asynchronous SR is asserted (R50, R53). -/
def State.startQ (s : State) (key fr : Nat) : Nat :=
  maskOf fun c => if s.forced key fr c then (cellCfg fr c).srval else (cellCfg fr c).init

/-- The tile of a key in the tile stores lies in position n and satisfies p. -/
def tileIn (n : Nat) (p : Nat → Nat → Bool) (key : Nat) : Bool := key / 24576 == n && p (key / 128 % 192) (key % 128)

/-- The anchor tile of a block number of a grain: RAM72 0–287, DEEP2M 288–295. -/
def blockAnchorNo (b : Nat) : Nat × Nat := if b < 288 then ram72Anchor b else deep2mAnchor (b - 288)

/-- The slice anchored at a tile, if one is (R117). -/
def sliceAt (col row : Nat) : Option Nat :=
  if sliceCols.contains col && row % 2 == 0 then some (sliceCols.findIdx (· == col) * 64 + row / 2) else none

/-- Flip-flops and slices of the tiles of position n that satisfy p start from their frames, block ports from ORVAL (R51, R111,
R138). -/
def State.startTiles (s : State) (n : Nat) (p : Nat → Nat → Bool) : State :=
  let t := { s with
    q := SMap.clearWhere (tileIn n p) s.q
    bport := SMap.clearWhere (fun k => k / 592 == n && p (blockAnchorNo (k / 2 % 296)).1 (blockAnchorNo (k / 2 % 296)).2) s.bport
    blast := SMap.clearWhere (fun k => k / 296 == n && p (blockAnchorNo (k % 296)).1 (blockAnchorNo (k % 296)).2) s.blast
    slices := SMap.clearWhere (fun k => k / 512 == n && p (sliceAnchor (k % 512)).1 (sliceAnchor (k % 512)).2) s.slices }
  s.cfg.foldl (fun u e =>
    let fa := e.1 % 2 ^ 32
    let col := fa / 128
    let row := fa % 128
    if e.1 / 2 ^ 32 = n ∧ fa < 24576 ∧ p col row then
      let key := tileKey n col row
      let v := { u with q := SMap.set (fun _ => 0) u.q key (s.startQ key e.2.data) }
      match sliceAt col row with
      | some k => v.setSlice n k (sliceStart (sliceAttr e.2.data))
      | none => v
    else u) t

/-- Every tile. -/
def allTiles (_col _row : Nat) : Bool := true

/-- GRN_SHDSRC.FROZEN of position n (R293). -/
def State.updFrozen (s : State) (n : Nat) : State :=
  s.setF .grnShdsrcFROZEN (s.frozen.any fun e => e.1 / 65 == n && e.2).toNat (s.phys n)

/-- A part of position n freezes or thaws. -/
def State.setFrozen (s : State) (n part : Nat) (on : Bool) : State :=
  ({ s with frozen := SMap.set (fun _ => false) s.frozen (n * 65 + part) on }).updFrozen n

/-- The freezes of position n end (R293). -/
def State.thawAll (s : State) (n : Nat) : State :=
  ({ s with frozen := SMap.clearWhere (fun k => k / 65 == n) s.frozen }).updFrozen n

/-- The frames of position n that satisfy p are cleared to all zero, with the content they hold (R247 step 4, R253, R274). -/
def State.clearFrames (s : State) (n : Nat) (p : Nat → Bool) : State :=
  let inBlock := fun (type per k : Nat) => (List.range per).any fun i => p (faddrOf type (k * per + i))
  { s with
    cfg := SMap.clearWhere (fun k => k / 2 ^ 32 == n && p (k % 2 ^ 32)) s.cfg
    ram := SMap.clearWhere (fun k => k / 294912 == n && inBlock 5 36 (k / 1024 % 288)) s.ram
    ramFlip := SMap.clearWhere (fun k => k / 294912 == n && inBlock 5 36 (k / 1024 % 288)) s.ramFlip
    deep := SMap.clearWhere (fun k => k / 262144 == n && inBlock 6 1024 (k / 32768 % 8)) s.deep
    deepFlip := SMap.clearWhere (fun k => k / 262144 == n && inBlock 6 1024 (k / 32768 % 8)) s.deepFlip
    coef := SMap.clearWhere (fun k => k / 524288 == n && inBlock 7 24 (k / 1024 % 512)) s.coef
    coefFlip := SMap.clearWhere (fun k => k / 524288 == n && inBlock 7 24 (k / 1024 % 512)) s.coefFlip }

/-- The configuration and content of position n are cleared. -/
def State.clearPos (s : State) (n : Nat) : State := (s.clearFrames n fun _ => true).updSpanActive n

/-! ## Frames -/

/-- Words first to last of w bits each that bits lo to lo + 2047 of an array touch. -/
def wordsOf (w lo : Nat) : List Nat := (List.range ((lo + 2047) / w + 1 - lo / w)).map (· + lo / w)

/-- 2,048 bits from bit lo of an array of w-bit words. -/
def gather (w lo : Nat) (word : Nat → Nat) : Nat := pack w ((wordsOf w lo).map word) / 2 ^ (lo - lo / w * w) % 2 ^ 2048

/-- A w-bit word r of an array after bits lo to lo + 2047 of the array take a frame's data. -/
def scatter (w lo data r old : Nat) : Nat :=
  let a := max (w * r) lo
  let b := min (w * r + w) (lo + 2048)
  (old &&& (2 ^ w - 1 - maskAt (a - w * r) (b - a))) ||| bits data (a - lo) (b - a) * 2 ^ (a - w * r)

/-- The bits of word r that such a write touches. -/
def scatterMask (w lo r : Nat) : Nat :=
  maskAt (max (w * r) lo - w * r) (min (w * r + w) (lo + 2048) - max (w * r) lo)

/-- A content frame (types 0x5–0x7) written (R111, R139, R240). -/
def State.writeContent (s : State) (n fa data : Nat) : State :=
  let i := bits fa 0 28
  match bits fa 28 4 with
  | 5 =>
    let lo := 2048 * (i % 36)
    (wordsOf 72 lo).foldl (fun t r =>
      t.setRamRow n (i / 36) r (scatter 72 lo data r (t.ramRow n (i / 36) r)) (scatterMask 72 lo r)) s
  | 6 => (List.range 32).foldl (fun t j => t.setDeep n (i / 1024) (32 * (i % 1024) + j) (bits data (64 * j) 64)) s
  | 7 =>
    let lo := 2048 * (i % 24)
    (wordsOf 48 lo).foldl (fun t r =>
      t.coefWrite n (i / 24) r (scatter 48 lo data r (SMap.get (fun _ => 0) t.coef (coefKey n (i / 24) r) % 2 ^ 48))) s
  | _ => s

/-- The bits of a content frame as they stand. -/
def State.readContent (s : State) (n fa : Nat) : Nat :=
  let i := bits fa 0 28
  match bits fa 28 4 with
  | 5 => gather 72 (2048 * (i % 36)) fun r => s.ramRow n (i / 36) r
  | 6 => pack 64 ((List.range 32).map fun j => s.deepWord n (i / 1024) (32 * (i % 1024) + j))
  | 7 => gather 48 (2048 * (i % 24)) fun r => SMap.get (fun _ => 0) s.coef (coefKey n (i / 24) r) % 2 ^ 48
  | _ => 0

/-- A frame of an image written into a grain, its signature kept (R246); content goes to the blocks. -/
def State.writeFrame (s : State) (n fa data : Nat) : State :=
  if bits fa 28 4 = 5 ∨ bits fa 28 4 = 6 ∨ bits fa 28 4 = 7 then s.writeContent n fa data
  else
    let t := s.setFrame n fa ⟨data, data, (s.frame n fa).status⟩
    if bits fa 28 4 = 1 then t.updSpanActive n else t

/-- The 64-bit words of a frame through SECDED (R299): a word with one wrong bit is corrected. -/
def State.frameSecded (s : State) (f : CfgFrame) : Nat × State :=
  (List.range 32).foldl (fun r j =>
    let w := bits f.data (64 * j) 64
    let e := r.2.secded w (w ^^^ bits f.good (64 * j) 64)
    (r.1 + e.1.1 % 2 ^ 64 * 2 ^ (64 * j), e.2)) (0, s)

/-- The key in the snapshot store of the first of the four blocks of a snapshot frame (R298). -/
def snapFrameKey (n idx : Nat) : Nat := n * 1024 + (if idx < 128 then 4 * idx else 512 + 4 * (idx - 128))

/-- The shadow of a tile as a readback sees it: bits a pending capture has still to take are as it will take them (R66). -/
def State.shadowNow (s : State) (n col row : Nat) : Nat :=
  let key := tileKey n col row
  let sh := SMap.get (fun _ => 0) s.shadow key
  match s.capt with
  | none => sh
  | some c =>
    if !s.selected c.sel n col row || c.skipPos.testBit n || (s.floorOf n col row).any c.skipFlr.testBit then sh
    else
      let t := SMap.get (fun _ => 0) c.taken key
      (sh &&& t) ||| (s.tileQ key &&& (0xFFFF - t))

/-- The bits of a shadow or snapshot frame (R298). -/
def State.readState (s : State) (n type idx : Nat) : Nat :=
  if type = 9 then pack 16 ((List.range 128).map fun r => s.shadowNow n idx r)
  else pack 512 ((List.range 4).map fun j => SMap.get (fun _ => 0) s.snap (snapFrameKey n idx + j))

/-- A shadow or snapshot frame written (R297, R298). -/
def State.writeState (s : State) (n type idx data : Nat) : State :=
  if type = 9 then
    ((List.range 128).foldl (fun t r =>
      { t with shadow := SMap.set (fun _ => 0) t.shadow (tileKey n idx r) (bits data (16 * r) 16) }) s).setF .grnShdsrcSRC 3 (s.phys n)
  else (List.range 4).foldl (fun t j =>
    { t with snap := SMap.set (fun _ => 0) t.snap (snapFrameKey n idx + j) (bits data (512 * j) 512) }) s

/-- The flip-flops of position n take their shadows (R64): tile columns that satisfy p. -/
def State.restoreQ (s : State) (n : Nat) (p : Nat → Bool) : State :=
  let here := fun k : Nat => tileIn n (fun col _ => p col) k
  let t := { s with q := SMap.clearWhere here s.q }
  (s.shadow.filter fun e => here e.1).foldl (fun u e => { u with q := SMap.set (fun _ => 0) u.q e.1 e.2 }) t

/-- A slice's state from its snapshot (R140, R298). -/
def sliceUnsnap (c : SliceSt) (v : Nat) : SliceSt :=
  { c with
    acc := bits v 0 64, r := bits v 64 48, dec := bits v 112 4, satf := v.testBit 116, illop := v.testBit 117
    aout := bits v 118 24, base := bits v 142 10, len := agLen (bits v 152 10), stride := bits v 162 10, off := bits v 172 10
    acs := bits v 182 16, idxc := bits v 198 10, empty := v.testBit 208, op1 := bits v 209 12, x1 := bits v 221 24
    ax1 := bits v 245 8, y1 := bits v 253 48, op2 := bits v 301 12, p2 := bits v 313 64, op3 := bits v 377 12
    v1 := v.testBit 389, v2 := v.testBit 390, v3 := v.testBit 391 }

/-- A RAM72 port from its snapshot bits (R298). -/
def ramPortUnsnap (p : BPort) (v : Nat) : BPort :=
  { p with
    dout := bits v 0 72, sbe := v.testBit 72, dbe := v.testBit 73
    arr := bits v 74 72, arrS := v.testBit 146, arrD := v.testBit 147, arrV := v.testBit 148 }

/-- A DEEP2M port from its block's snapshot bits (R298). -/
def deepPortUnsnap (p : BPort) (v : Nat) : BPort :=
  { p with
    dout := bits v 0 64, sbe := v.testBit 64, dbe := v.testBit 65
    cor := bits v 66 64, corS := v.testBit 130, corD := v.testBit 131, raw := bits v 132 72
    arrV := v.testBit 204, corV := v.testBit 205 }

/-- Slices and block ports of position n take their snapshots (R227 step 8). -/
def State.restoreSnaps (s : State) (n : Nat) : State :=
  let snap := fun (t : State) (k : Nat) => SMap.get (fun _ => 0) t.snap (n * 1024 + k)
  let t := (List.range 512).foldl (fun u k => u.setSlice n k (sliceUnsnap (u.slice n k) (snap u k))) s
  (List.range 296).foldl (fun u b =>
    let v := snap u (512 + b)
    if b < 288 then
      (u.setPort n b false (ramPortUnsnap (u.port n b false) (bits v 0 160))).setPort n b true
        (ramPortUnsnap (u.port n b true) (bits v 160 160))
    else
      let side := (u.frame n (faddrOf 2 b)).data.testBit 0
      u.setPort n b side (deepPortUnsnap (u.port n b side) v)) t

end Sys2Proof.Machine
end

