-- ==== Sys2Proof/Machine/Pitch.lean ====
section
/-! DEFINITION. Pitches, freeze and capture, and configuration-path access (R289–R299). The pitches of the Kiln and of a remap
stand in Floors.lean, Kiln.lean and Repair.lean. -/

namespace Sys2Proof.Machine

/-! ## Pitch entries (R289–R291) -/

/-- The key of a pitch entry: 0–15 software, 16 Kiln, 17 firmware, 18–21 CAPSEL, 22 + c timer. -/
def pitchKey : PitchRef → Nat
  | .sw k => k
  | .kiln => 16
  | .fw => 17
  | .capsel k => 18 + k
  | .timer c => 22 + c

/-- A pitch entry. -/
def State.pitchAt (s : State) (k : Nat) : Option Pitch := SMap.get (fun _ => none) s.pitches k

/-- A pitch entry replaced; PEND counts the software entries. -/
def State.setPitch (s : State) (k : Nat) (p : Option Pitch) : State :=
  let t := { s with pitches := SMap.set (fun _ => none) s.pitches k p }
  t.setF .capStatPEND (t.pitches.filter fun e => e.1 < 16 && e.2.isSome).length

/-- The selection that CAP_PITCHFLR and CAP_PITCHPOS hold (R294). -/
def State.curSel (s : State) : Sel := ⟨s.getF .capPitchflrFLOORMASK, s.isSet .capPitchposBASE, s.getF .capPitchposPOSMASK⟩

/-- V of a scheduled-time register: SEC of 34 bits with the upper bits taken at its write (R405). -/
def State.schedTime (s : State) (k sec ns : Nat) : Nat :=
  (SMap.get (fun _ => 0) s.secHi k * 2 ^ 34 + sec) * secUnits + ns * nsUnits

/-- TIME_SEC[47:34] taken at a write of CAP_PITCHTIME (0) or KILN_PLDTIME (1) (R405). -/
def State.takeSecHi (s : State) (k : Nat) : State := { s with secHi := SMap.set (fun _ => 0) s.secHi k (s.nowSec / 2 ^ 34) }

/-- The lowest free software entry. -/
def State.freePitch (s : State) : Option Nat := (List.range 16).find? fun k => (s.pitchAt k).isNone

/-- PITCH_SCHEDULE (R290): the refusals are tried in the order BADKIND, FULL, LATE (DEDUCED, log 15). -/
def State.pitchStart (s : State) : State :=
  let kind := s.getF .capPitchctlKIND
  if kind < 3 ∨ kind = 6 then s.setOn .capStatBADKIND
  else match s.freePitch with
    | none => s.setOn .capStatFULL
    | some k =>
      let v := s.schedTime 0 (s.getF .capPitchtimeSEC) (s.getF .capPitchtimeNS)
      if v < s.now + 10 * usUnits then s.setOn .capStatLATE
      else s.setPitch k (some ⟨kind, s.isSet .capPitchctlDESIGN, v, s.curSel, none⟩)

/-- PITCH_SCHEDULE: a write of CAP_PITCHCTL (R290, R295). -/
def execPitchSchedule (w : W32) (s : State) : Res :=
  .next (s.viaUnit .capPitchctl 0 0 s.hostAgent fun t =>
    let u := t.writeReg .capPitchctl 0 0 w.toNat full32
    if w.toNat.testBit 4 then u.pitchStart else u)

/-- A timer pitch is sent with the selection as it stands (R290, R419). -/
def State.sendTimerPitch (s : State) (c : Nat) : State :=
  let x := s.tmrSt c
  if !s.isSet .tmrCtlARMED c || s.getF .tmrCtlDEST c ≠ 3 || !s.tmrUnsent c || !s.sendDue x.next || (s.pitchAt (22 + c)).isSome then s
  else
    let i := s.edgeIndex x.next
    let sel := s.getF .tmrCtlSEL c
    (s.tmrSent c i).setPitch (22 + c) (some ⟨sel % 8, sel.testBit 3, x.next, s.curSel, some i⟩)

/-- PITCH_SEND (R289). -/
def execPitchSend (r : PitchRef) (s : State) : Res :=
  .next (match r with
    | .timer c => s.sendTimerPitch c
    | .sw _ | .kiln | .fw | .capsel _ =>
      match s.pitchAt (pitchKey r) with
      | some p =>
        if p.index.isNone && s.sendDue p.time then s.setPitch (pitchKey r) (some { p with index := some (s.edgeIndex p.time) }) else s
      | none => s)

/-- The order of kinds on one crossing cycle (R291). -/
def kindRank (kind : Nat) : Nat :=
  match kind with
  | 3 => 0 | 4 => 1 | 1 => 2 | 0 => 3 | 2 => 3 | 5 => 4 | 6 => 5 | _ => 6

/-- No pitch of the same cycle comes before (R291). -/
def State.pitchFirst (s : State) (p : Pitch) : Bool :=
  !s.pitches.any fun e => e.2.any fun q => q.index == p.index && decide (kindRank q.kind < kindRank p.kind)

/-- The entry whose pitch acts now: of this kind, sent, its cycle reached, first of its cycle. The entry is freed, the pitch
input of the design event ports pulses where the entry asks for it or the kind is 0b111 (R290), and the instant is captured
(R412). -/
def State.takePitch (s : State) (key kind : Nat) : Option (Pitch × State) :=
  match s.pitchAt key with
  | none => none
  | some p =>
    match p.index with
    | none => none
    | some i =>
      if p.kind ≠ kind || s.xidx < i || !s.pitchFirst p then none
      else
        let t := s.setPitch key none
        let u := if p.design || kind == 7 then { t with lines := t.lines ++ [(64, i)] } else t
        some (p, u.pitchStamp kind)

/-- DESIGN_PITCH (R290). -/
def execDesignPitch (r : PitchRef) (s : State) : Res :=
  .next (match s.takePitch (pitchKey r) 7 with | some e => e.2 | none => s)

/-! ## Freeze and thaw (R293, R294) -/

/-- The parts of position n that a selection names, steeping floors left out: 0, or 1 + f. -/
def State.selParts (s : State) (sel : Sel) (n : Nat) : List Nat :=
  (if sel.base then [0] else []) ++
  ((List.range 64).filter fun f => sel.floors.testBit f && s.touches f n && !s.steeping f).map (· + 1)

/-- The parts of a selection in every position of its POSMASK freeze or thaw. -/
def State.freezeSel (s : State) (sel : Sel) (on : Bool) : State :=
  (List.range 60).foldl (fun t n =>
    if sel.pos.testBit n then (s.selParts sel n).foldl (fun u k => u.setFrozen n k on) t else t) s

/-- FREEZE_PITCH (R293). -/
def execFreezePitch (r : PitchRef) (s : State) : Res :=
  .next (match s.takePitch (pitchKey r) 4 with | some e => e.2.freezeSel e.1.sel true | none => s)

/-- THAW_PITCH (R293). -/
def execThawPitch (r : PitchRef) (s : State) : Res :=
  .next (match s.takePitch (pitchKey r) 5 with | some e => e.2.freezeSel e.1.sel false | none => s)

/-! ## Capture (R294–R297) -/

/-- A position is skipped by a capture (R295): die reset, Retain or Off, or without its clock. -/
def State.capSkips (s : State) (n : Nat) : Bool :=
  (s.posSt n).inReset || (s.posSt n).restore || 2 ≤ s.getF .pwrDstatSTATE n || s.isOos n ||
  (SMap.get (fun _ => ClkSt.initial) s.clk (s.phys n)).lost

/-- The positions a capture writes. -/
def State.capWrites (s : State) (c : CaptSt) : List Nat :=
  (List.range 60).filter fun n =>
    c.sel.pos.testBit n && !c.skipPos.testBit n &&
    (c.sel.base || (List.range 64).any fun f => c.sel.floors.testBit f && !c.skipFlr.testBit f && s.touches f n)

/-- A read job of shadows or snapshots that meets a capture of its position is torn (R299). -/
def State.tear (s : State) (ns : List Nat) : State :=
  if s.isSet .capAccstatBUSY && s.acc.op == 0 && (s.acc.ftype == 9 || s.acc.ftype == 10) && ns.contains s.acc.lpos then
    s.setOn .capAccstatTORN
  else s

/-- CAPSEL instance k is busy, or no longer (R296). -/
def State.setCapsel (s : State) (k : Nat) (busy : Bool) : State :=
  { s with capselBusy := SMap.set (fun _ => false) s.capselBusy k busy }

/-- The old grain of a remap stops 2 µs after its capture pitch: clocks gated, crossings at rest values
(R227 step 5); the Kiln's write is queued. -/
def State.remapStop (s : State) : State :=
  let n := s.remap.pos
  let rest := fun (u : State) (m d : Nat) => u.setBitF .grnXstatINREST d true (u.phys m)
  let t := (List.range 4).foldl (fun u d =>
    match posNbr n (portOf d) with
    | some m => rest (rest u n d) m (oppNum d)
    | none => u) s
  { t with remap := { t.remap with phase := .writing }, kilnJobs := t.kilnJobs ++ [.remapWrite] }

/-- What a pending capture has still to take is taken, and the capture completes (R65, R295). -/
def State.captureEnd (s : State) : State :=
  match s.capt with
  | none => s
  | some c =>
    let ns := s.capWrites c
    let tiles := ((s.q.map (·.1)) ++ (s.shadow.map (·.1))).filter fun k => ns.contains (k / 24576)
    let t := tiles.foldl (fun u k => u.captureBits (k / 24576) (k / 128 % 192) (k % 128) 0xFFFF) s
    let u := ns.foldl (fun v n =>
      let w := (List.range 512).foldl (fun x k => x.captureSlice n k) v
      (List.range 296).foldl (fun x b =>
        x.captureBlock n (blockAnchorNo b).1 (blockAnchorNo b).2 (blockSnapKey n b) (blockSnapKey n b) (x.blockSnap n b)) w) t
    let seq := (u.getF .capStatCAPSEQ + 1) % 65536
    let v := ns.foldl (fun x n => (x.setF .grnShdsrcSEQ seq (x.phys n)).setF .grnShdsrcSRC 1 (x.phys n)) u
    let w := ((({ v with capt := none }).setF .capStatCAPSEQ seq).setOn .capStatCAPDONE).tear ns
    let x := (c.capsel.elim w fun k => w.setCapsel k false).raise 996
    if c.remap && x.remap.phase = .captured then x.remapStop else x

/-- A capture at its instant (R295): refused while CAP is gated. A capture still open completes first. -/
def State.captureAt (s : State) (sel : Sel) (capsel : Option Nat) (remap : Bool) : State :=
  if !s.unitOn .cap then
    let t := capsel.elim (s.setOn .capStatBADKIND) fun k => (s.setOn .capStatBADKIND).setCapsel k false
    if remap && t.remap.phase = .captured then t.remapStop else t
  else
    let t := s.captureEnd
    let skipPos := (List.range 60).foldl (fun m n => if sel.pos.testBit n && t.capSkips n then m + 2 ^ n else m) 0
    let skipFlr := (List.range 64).foldl (fun m f => if sel.floors.testBit f && t.steeping f then m + 2 ^ f else m) 0
    let c : CaptSt := ⟨sel, skipPos, skipFlr, [], [], capsel, remap⟩
    (({ t with capt := some c }).setF .capCapskipFLOORS skipFlr).setF .capCapskipposPOS skipPos |>.tear (t.capWrites c)

/-- CAPTURE_PITCH (R295, R296, R227 step 4). At a remap's the position's design NoC ports become dead targets (R323). -/
def execCapturePitch (r : PitchRef) (s : State) : Res :=
  .next (match s.takePitch (pitchKey r) 3 with
    | none => s
    | some e =>
      match r with
      | .capsel k => e.2.captureAt e.1.sel (some k) false
      | .fw =>
        let t := e.2.setF .dieRemapstatSTATE 2
        ((t.dnpRest t.remap.pos 0).dnpRest t.remap.pos 1).captureAt e.1.sel none true
      | .sw _ | .kiln | .timer _ => e.2.captureAt e.1.sel none false)

/-- CAPTURE_COMPLETE: 2 µs after the instant (R295). -/
def execCaptureComplete (s : State) : Res := .next s.captureEnd

/-- CAPSEL_REQUEST (R296): LEAD in µs. -/
def execCapselRequest (k : Fin 4) (sel : Selection) (lead : Nat) (s : State) : Res :=
  .next (if SMap.get (fun _ => false) s.capselBusy k.val || !s.released || (s.pitchAt (18 + k)).isSome then s
    else (s.setCapsel k true).setPitch (18 + k)
      (some ⟨3, false, s.edgeTime + lead * usUnits, ⟨sel.floors.toNat, sel.base, sel.pos.toNat⟩, none⟩))

/-! ## Configuration-path access (R298, R299) -/

/-- Frames of a type a grain holds (R240, R298). -/
def accFrames (type : Nat) : Nat :=
  match type with
  | 9 => 192 | 10 => 202 | _ => if type ≤ 8 then frameCount type else 0

/-- The tiles a Write or Restore frame acts on: a tile column, or the anchor tiles of its blocks. -/
def accTiles (type idx : Nat) : List (Nat × Nat) :=
  match type with
  | 5 => [ram72Anchor (idx / 36)]
  | 6 => [deep2mAnchor (idx / 1024)]
  | 7 => [sliceAnchor (idx / 24)]
  | 10 => if idx < 128 then (List.range 4).map fun j => sliceAnchor (4 * idx + j)
          else (List.range 4).map fun j => blockAnchorNo (4 * (idx - 128) + j)
  | _ => (List.range 128).map fun r => (idx, r)

/-- The end of a job (R299): with ERRCODE, or DONE. -/
def State.accEnd (s : State) (code : Nat) : State :=
  let t := s.setOff .capAccstatBUSY
  (if code = 0 then t.setOn .capAccstatDONE else (t.setOn .capAccstatERR).setF .capAccstatERRCODE code).raise 997

/-- A write of CAP_ACCCTL (R299): the registers are taken at START (DEDUCED, log 16); OP 0b11 starts nothing. -/
def State.accCtlWrite (s : State) (w m : Nat) : State :=
  let t := s.writeReg .capAccctl 0 0 w m
  if !(w &&& m).testBit 12 || s.isSet .capAccstatBUSY || t.getF .capAccctlOP = 3 then t
  else
    let job : AccSt :=
      ⟨t.getF .capAccctlOP, t.getF .capAccctlLPOS, t.getF .capAccctlFTYPE, t.getF .capAccidxFIRST, t.getF .capAccidxCOUNT,
        t.getF .capAccaddrADDR * 64, 0⟩
    let u := (((({ t with acc := job }).setOn .capAccstatBUSY).setOff .capAccstatTORN).setF .capAccstatFRAMES 0)
    if job.count = 0 then u.accEnd 0 else u

/-- ACCESS_READ_JOB (R299): a write of CAP_ACCCTL with OP 0. -/
def execAccessReadJob (w : W32) (s : State) : Res :=
  .next (s.viaUnit .capAccctl 0 0 s.hostAgent fun t => t.accCtlWrite w.toNat full32)

/-- ACCESS_WRITE_JOB (R299): a write of CAP_ACCCTL with OP 1. -/
def execAccessWriteJob (w : W32) (s : State) : Res :=
  .next (s.viaUnit .capAccctl 0 0 s.hostAgent fun t => t.accCtlWrite w.toNat full32)

/-- ACCESS_RESTORE_JOB (R299): a write of CAP_ACCCTL with OP 2. -/
def execAccessRestoreJob (w : W32) (s : State) : Res :=
  .next (s.viaUnit .capAccctl 0 0 s.hostAgent fun t => t.accCtlWrite w.toNat full32)

/-- The refusal of the next frame of a job, 0 for none (R299); the order of the checks is DEDUCED (log 16). -/
def State.accRefusal (s : State) (j : AccSt) (memError : Bool) : Nat :=
  let idx := j.first + j.done
  if 60 ≤ j.lpos || s.isOos j.lpos then 4
  else if j.op = 2 then
    let ts := accTiles 9 idx
    if 192 ≤ idx then 3
    else if ts.any fun t => s.tileSteeps j.lpos t.1 t.2 then 4
    else if ts.any fun t => s.restored j.lpos t.1 t.2 then 6
    else if ts.any fun t => s.tileClocked j.lpos t.1 t.2 then 1 else 0
  else if accFrames j.ftype = 0 || (j.op = 1 && !([5, 6, 7, 9, 10].contains j.ftype)) then 2
  else if accFrames j.ftype ≤ idx then 3
  else
    let ts := accTiles j.ftype idx
    if j.op = 1 && ts.any fun t => s.tileSteeps j.lpos t.1 t.2 then 4
    else if j.op = 1 && ts.any fun t => s.tileClocked j.lpos t.1 t.2 then 1
    else if memError || !s.memUsable (j.addr + 272 * j.done) 272 then 5 else 0

/-- The record of a frame (R239, R299). -/
def recordBytes (fa sig status data : Nat) : List Byte := toBytes 272 (fa + sig * 2 ^ 32 + status * 2 ^ 64 + data * 2 ^ 128)

/-- A frame read to device memory. -/
def State.accRead (s : State) (j : AccSt) : State :=
  let n := j.lpos
  let idx := j.first + j.done
  let fa := faddrOf j.ftype idx
  let seq := s.getF .grnShdsrcSEQ (s.phys n) * 2 ^ 16
  let addr := j.addr + 272 * j.done
  if j.ftype ≤ 4 ∨ j.ftype = 8 then
    let f := s.frame n fa
    let r := s.frameSecded f
    r.2.memWrite addr (recordBytes fa (gsig f.good) f.status r.1)
  else if j.ftype ≤ 7 then
    let d := s.readContent n fa
    s.memWrite addr (recordBytes fa (gsig d) 0 d)
  else
    let d := s.readState n j.ftype idx
    s.memWrite addr (recordBytes fa (gsig d) seq d)

/-- A frame written from device memory. -/
def State.accWrite (s : State) (j : AccSt) : State :=
  let idx := j.first + j.done
  let data := leNat ((s.memRead (j.addr + 272 * j.done) 272).drop 16)
  if j.ftype ≤ 7 then s.writeContent j.lpos (faddrOf j.ftype idx) data else s.writeState j.lpos j.ftype idx data

/-- ACCESS_FRAME (R299). -/
def execAccessFrame (memError : Bool) (s : State) : Res :=
  let j := s.acc
  .next (if !s.isSet .capAccstatBUSY || !s.unitOn .cap then s else
    let code := s.accRefusal j memError
    if code ≠ 0 then s.accEnd code
    else
      let t := if j.op = 0 then s.accRead j
        else if j.op = 1 then s.accWrite j
        else s.restoreQ j.lpos fun c => c == j.first + j.done
      let u := ({ t with acc := { j with done := j.done + 1 } }).setF .capAccstatFRAMES (min (j.done + 1) 65535)
      if j.done + 1 = j.count then u.accEnd 0 else u)

end Sys2Proof.Machine
end

