-- ==== Sys2Proof/Machine/Sparge.lean ====
section
/-! DEFINITION. Sparge (R280–R288): the pass, the check of a frame, rewrites by the Kiln, and findings. -/

namespace Sys2Proof.Machine

/-! ## The pass (R282, R283) -/

/-- The frame address of a pass index (R282). -/
def passFrame (i : Nat) : Nat :=
  if i < 24576 then faddrOf 0 i
  else if i < 24960 then faddrOf 1 (i - 24576)
  else if i < 25256 then faddrOf 2 (i - 24960)
  else if i < 25576 then faddrOf 3 (i - 25256)
  else if i = 25576 then faddrOf 4 0
  else faddrOf 8 (i - 25577)

/-- Frames of a pass. -/
def passLen : Nat := 25641

/-- A remap holds Sparge off position n: from its capture pitch to the switchover or abort pitch (R283). -/
def State.remapHolds (s : State) (n : Nat) : Bool :=
  s.remapStops n || (s.remap.pos == n && s.remap.phase == .captured && s.getF .dieRemapstatSTATE == 2)

/-- Sparge runs in the grain of position n (R282, R283). -/
def State.spargeRuns (s : State) (n : Nat) : Bool :=
  s.released && s.unitOn .spg && s.getF .pwrDstatSTATE n ≤ 1 && !s.remapHolds n && !s.isOos n

/-- GRN_SPGPASS.PAUSED of position n (R283). -/
def State.spargePaused (s : State) (n : Nat) : Bool := s.released && !s.spargeRuns n

/-- The pass of a position. -/
def State.spgSt (s : State) (n : Nat) : SpgSt := SMap.get (fun _ => SpgSt.initial) s.spg n

/-- It replaced. -/
def State.setSpg (s : State) (n : Nat) (v : SpgSt) : State := { s with spg := SMap.set (fun _ => SpgSt.initial) s.spg n v }

/-- A pass starts at index 0. -/
def State.passStart (s : State) (n : Nat) : State :=
  (s.setSpg n ⟨true, 0, s.ran39⟩).setF .grnSpgpassFRAME 0 (s.phys n)

/-- The pass in progress is given up; the next starts at index 0 (R283). -/
def State.passDrop (s : State) (n : Nat) : State := (s.setSpg n SpgSt.initial).setF .grnSpgpassFRAME 0 (s.phys n)

/-- SPARGE_PASS_START (R282): the previous pass has ended, and INTERVAL ms have passed since it started. -/
def execSpargePassStart (pos : Pos) (s : State) : Res :=
  let x := s.spgSt pos
  .next (if !s.spargeRuns pos || x.inPass || s.ran39 < x.start + s.getF .spgCtlINTERVAL * 39000000 then s else s.passStart pos)

/-! ## Findings (R286–R288) -/

/-- The lowest wrong bit of a frame. -/
def lowBit (wrong : Nat) : Nat := ((List.range 2048).find? fun b => wrong.testBit b).getD 0

/-- The cell whose fields hold a bit of a tile frame, if it is one of a cell's (R287). -/
def cellOfBit (b : Nat) : Option Nat := if b < 480 then some (b / 30) else if b < 960 then some ((b - 480) / 30) else none

/-- The address word of a finding (R287). -/
def State.findingAddr (s : State) (n cls fa wrong : Nat) : Nat :=
  let i := bits fa 0 28
  let low := lowBit wrong
  let at' := fun (kind col row cell : Nat) => addrWord kind (packAddr s.devNum n col row cell)
  match bits fa 28 4 with
  | 0 =>
    match cellOfBit low with
    | some c =>
      if cls = 1 ∧ wrong &&& (maskAt (30 * c) 30 ||| maskAt (480 + 30 * c) 30) = wrong then at' 0 (i / 128) (i % 128) c
      else at' 1 (i / 128) (i % 128) 0
    | none => at' 1 (i / 128) (i % 128) 0
  | 1 =>
    let t := spanTile (128 * i + low / 16) (if cls = 1 ∧ popcount 2048 wrong = 1 then low % 16 else 0)
    at' 1 t.1 t.2 0
  | 2 => if i < 288 then at' 2 (ram72Anchor i).1 (ram72Anchor i).2 0 else at' 3 (deep2mAnchor (i - 288)).1 (deep2mAnchor (i - 288)).2 0
  | 3 => at' 5 0 0 (6 + i / 80)
  | _ => at' 5 0 0 0

/-- The floor a finding's frame belongs to; of a span-enable frame, the owner of the lowest field in error. -/
def State.findingFloor (s : State) (n fa wrong : Nat) : Option Nat :=
  if bits fa 28 4 = 1 then (List.range 64).find? fun f => s.ownsSpan f n (128 * bits fa 0 28 + lowBit wrong / 16)
  else s.frameFloor n fa

/-- SPG_FINDADDR, SPG_FINDINFO and COUNT show the queue. -/
def State.updFindings (s : State) : State :=
  let h : Finding := (s.findings.head?).getD ⟨0, 0⟩
  let i := h.info
  let t := (s.setF .spgFindstatCOUNT s.findings.length).setF .spgFindaddrADDR h.addr
  let u := ((t.setF .spgFindinfoFADDR (bits i 0 32)).setF .spgFindinfoCLASS (bits i 32 3)).setF .spgFindinfoNBITS (bits i 35 5)
  let v := ((u.setF .spgFindinfoBIT (bits i 40 11)).setF .spgFindinfoINFLOOR (bits i 51 1)).setF .spgFindinfoFLOOR (bits i 52 6)
  v.setF .spgFindinfoPHYS (bits i 58 6)

/-- A finding that finds the queue full (R286). -/
def State.findingOvf (s : State) : State :=
  let t := (s.count .spgFindstatOVFCNT).setOn .spgFindstatOVF
  if s.isSet .spgFindstatOVF then t else t.raise 995

/-- A finding of class cls (R286–R288). -/
def State.finding (s : State) (n cls fa wrong : Nat) : State :=
  let p := s.phys n
  let f := s.findingFloor n fa wrong
  let info := fa + cls * 2 ^ 32 + min 31 (popcount 2048 wrong) * 2 ^ 35 + lowBit wrong * 2 ^ 40 + f.isSome.toNat * 2 ^ 51 +
    f.getD 0 * 2 ^ 52 + p * 2 ^ 58
  let t := if cls = 1 then (s.count .grnSpgstatCORRCNT 1 p).setOn .grnSpgstatSEEN p
    else if cls = 2 then (s.count .grnSpgstatREWCNT 1 p).setOn .grnSpgstatSEEN p
    else (s.count .grnSpgstatFAILCNT 1 p).setOn .grnSpgstatFAILSEEN p
  let u := if t.findings.length < 1024 then ({ t with findings := t.findings ++ [(⟨s.findingAddr n cls fa wrong, info⟩ : Finding)] }).updFindings
    else t.findingOvf
  if 3 ≤ cls then u.raiseG n 0
  else
    let x := u.spgSt n
    let v := u.setSpg n { x with count := x.count + 1 }
    if s.getF .spgCtlBURST ≠ 0 ∧ x.count = s.getF .spgCtlBURST then v.raiseG n 1 else v

/-- FINDING_POP (R286). -/
def execFindingPop (w : W32) (s : State) : Res :=
  .next (s.viaUnit .spgFindpop 0 0 s.hostAgent fun t =>
    if w.toNat.testBit 0 then ({ t with findings := t.findings.drop 1 }).updFindings else t)

/-! ## The check of a frame (R284) -/

/-- The stored bits match the golden signature. -/
def CfgFrame.clean (f : CfgFrame) : Bool := f.data == f.good || gsig f.data == gsig f.good

/-- SECDED corrects the frame: no 64-bit word has more than one wrong bit. -/
def CfgFrame.correctable (f : CfgFrame) : Bool := (List.range 32).all fun j => popcount 64 (bits (f.data ^^^ f.good) (64 * j) 64) ≤ 1

/-- SPANCONT after a correction of frame fa to data (R281). -/
def spanCont (fa data status : Nat) : Nat :=
  if bits fa 28 4 = 1 && !((List.range 128).any (spanFieldBad data)) then setBit status 0 false else status

/-- A frame after a correction or rewrite to its golden content. -/
def State.frameFixed (s : State) (n fa : Nat) : State :=
  let f := s.frame n fa
  (s.setFrame n fa ⟨f.good, f.good, spanCont fa f.good f.status⟩).updSpanActive n

/-- The frame belongs to a steeping floor (R277). -/
def State.frameSteeps (s : State) (n fa : Nat) : Bool := (List.range 64).any fun f => s.steeping f && s.frameOfFloor f n fa

/-- The check of one frame (R281, R284). -/
def State.checkFrame (s : State) (n fa : Nat) : State :=
  let f := s.frame n fa
  let put := fun (u : State) (st : Nat) => u.setFrame n fa { u.frame n fa with status := st }
  if s.frameSteeps n fa then put s (setBit f.status 3 true)
  else if f.status.testBit 1 then s
  else
    let st := setBit f.status 3 false
    let wrong := f.data ^^^ f.good
    if f.clean then put s (setBit st 2 false)
    else if f.correctable then ((put s st).frameFixed n fa).finding n 1 fa wrong
    else ({ put s (setBit st 1 true) with rewrites := s.rewrites ++ [(n, fa)] }).finding n 2 fa wrong

/-- FRAME_CHECK (R282, R284): the frame at the pass index, then the next index or the end of the pass. -/
def execFrameCheck (pos : Pos) (s : State) : Res :=
  let n := pos.val
  let p := s.phys n
  let i := s.getF .grnSpgpassFRAME p
  .next (if !s.spargeRuns n || !(s.spgSt n).inPass then s else
    let t := s.checkFrame n (passFrame i)
    if i + 1 < passLen then t.setF .grnSpgpassFRAME (i + 1) p
    else ((t.setSpg n { t.spgSt n with inPass := false }).setF .grnSpgpassFRAME 0 p).countWrap .grnSpgpassPASSES p)

/-! ## Rewrites (R285) -/

/-- The floor holds partial content (R277). -/
def State.floorPartial (s : State) (f : Nat) : Bool := s.getF .kilnFlrstatSTATE f == 3

/-- What the base image or the shelf holds for a frame (R285): a span-enable frame has its fields from both. -/
def State.sourceFrame (s : State) (n fa : Nat) : Nat :=
  let key := cfgKey n fa
  let b := SMap.get (fun _ => 0) s.base key
  let sh := SMap.get (fun _ => 0) s.shelfF key
  if bits fa 28 4 = 1 then
    (List.range 128).foldl (fun v i =>
      let part := ((List.range 64).find? fun f => s.ownsSpan f n (128 * bits fa 0 28 + i)).any s.floorPartial
      v + bits (if part then sh else b) (16 * i) 16 * 2 ^ (16 * i)) 0
  else if (s.frameFloor n fa).any s.floorPartial then sh else b

/-- FRAME_REWRITE (R284, R285): class 3 when the source cannot be read, does not carry the frame's golden signature or fails the
driver-exclusion check; class 4 when the read-back fails. Without a read-back value the frame reads as written. -/
def execFrameRewrite (pos : Pos) (fa : W32) (sourceOk : Bool) (readBack : Option Frame) (s : State) : Res :=
  let n := pos.val
  let a := fa.toNat
  .next (if !s.rewrites.contains (n, a) || !s.unitOn .kiln then s else
    let t := { s with rewrites := s.rewrites.erase (n, a) }
    let f := t.frame n a
    let wrong := f.data ^^^ f.good
    let src := t.sourceFrame n a
    let u := t.setFrame n a { f with status := setBit f.status 1 false }
    if !sourceOk || !(src == f.good || gsig src == gsig f.good) || exclusionFails a src then u.finding n 3 a wrong
    else
      match readBack with
      | none => u.frameFixed n a
      | some d =>
        if (⟨d.toNat, f.good, 0⟩ : CfgFrame).clean then u.frameFixed n a
        else ((u.setFrame n a ⟨d.toNat, f.good, setBit (u.frame n a).status 2 true⟩).updSpanActive n).finding n 4 a (d.toNat ^^^ f.good))

end Sys2Proof.Machine
end

