-- ==== Sys2Proof/Machine/Die.lean ====
section
/-! DEFINITION. The forwarded clock tree, link start, discovery of the dies, and die reset (R203, R204, R207, R215, R216,
R229–R231). -/

namespace Sys2Proof.Machine

/-! ## The clock tree (R203, R204) -/

/-- A grain in the clock tree. -/
def State.clkSt (s : State) (p : Nat) : ClkSt := SMap.get (fun _ => ClkSt.initial) s.clk p

/-- It replaced. -/
def State.setClk (s : State) (p : Nat) (v : ClkSt) : State := { s with clk := SMap.set (fun _ => ClkSt.initial) s.clk p v }

/-- The depth that the clock arriving at port d of grain p advertises, where one is present and not an orphan's (R203, R204). -/
def State.clockAt (s : State) (p : Nat) (d : GPort) : Option Nat :=
  if !s.crossingRuns || (SMap.get (fun _ => LinkSt.initial) s.link (4 * p + d.num)).ckLost % 4 == 3 then none
  else match physNbr p d with
    | .tun => some 0
    | .grain q => if (s.clkSt q).fwd && !(s.clkSt q).lost && !(s.clkSt q).orphan then some (s.clkSt q).depth else none
    | .none => none

/-- Grain p takes its clock from port d (R203): depth, forwarding, GRN_LNKSTAT.CLKUP. -/
def State.adopt (s : State) (p : Nat) (d : GPort) (depth : Nat) : State :=
  let t := s.setClk p ⟨some d.num, depth + 1, false, true, false⟩
  (List.range 4).foldl (fun u k => u.setF .grnLnkstatCLKUP (k == d.num).toNat p k) t

/-- CLOCK_ADOPTED (R203, R215 step 2): the replicas are loaded (R406) and, before discovery is done, the grain's configuration
memory is cleared (R247 step 4). -/
def execClockAdopted (l : LinkDir) (s : State) : Res :=
  .next (match l with
    | .tun _ => s
    | .grain p d =>
      if (s.clkSt p).up.isSome || (s.clkSt p).lost then s
      else match s.clockAt p d with
        | none => s
        | some depth =>
          let t := (s.adopt p d depth).loadReplicas p
          if t.isSet .dieDiscstatDONE then t else (t.posOf p).elim t t.clearPos)

/-- The port an orphan adopts: the lowest depth, ties in the order W, E, N, S (R204). -/
def State.bestPort (s : State) (p : Nat) : Option (GPort × Nat) :=
  [GPort.w, .e, .n, .s].foldl (fun best d =>
    match s.clockAt p d with
    | none => best
    | some k => if best.any (fun b => decide (b.2 ≤ k)) then best else some (d, k)) none

/-- The upstream clock of grain p is missing or an orphan's (R204). -/
def State.upstreamBad (s : State) (p : Nat) : Bool :=
  match (s.clkSt p).up with
  | some d => (s.clockAt p (portOf d)).isNone
  | none => false

/-- ORPHAN (R204): it adopts another port, or advertises ORPHAN until it finds one. -/
def execOrphan (p : Phys) (s : State) : Res :=
  let c := s.clkSt p
  .next (if c.lost || !(c.orphan || s.upstreamBad p) then s
    else match s.bestPort p with
      | some b =>
        let t := s.adopt p b.1 b.2
        (t.posOf p).elim t fun n => t.raiseG n 14
      | none => s.setClk p { c with orphan := true })

/-! ## Die reset (R229) -/

/-- Position n enters die reset: the event port stops (R472), the ports' outstanding tags are retired (R229). -/
def State.dieReset (s : State) (n : Nat) : State :=
  let t := s.setPos n { s.posSt n with inReset := true }
  let u := { t with evFifo := SMap.set (fun _ => []) t.evFifo n [] }
  (u.setDnp n 0 { u.dnpSt n 0 with tags := [] }).setDnp n 1 { u.dnpSt n 1 with tags := [] }

/-- A link direction stops carrying traffic. -/
def State.linkOff (s : State) (key : Nat) : State :=
  let v := SMap.get (fun _ => LinkSt.initial) s.link key
  { s with link := SMap.set (fun _ => LinkSt.initial) s.link key { v with up := false, moving := [], copying := false } }

/-- The link directions into and out of grain p stop. -/
def State.grainLinksOff (s : State) (p : Nat) : State :=
  (List.range 4).foldl (fun t d =>
    match physNbr p (portOf d) with
    | .grain q => (t.linkOff (4 * p + d)).linkOff (4 * q + oppNum d)
    | .tun => t.linkOff (4 * p + d)
    | .none => t) s

/-- The ports of grain p whose neighbours report CLKMISS, as a mask. -/
def State.clkMissPorts (s : State) (p : Nat) : Nat :=
  (List.range 4).foldl (fun m d =>
    match physNbr p (portOf d) with
    | .grain q => if s.bitF .grnXstatCLKMISS (oppNum d) q then m + 2 ^ d else m
    | .tun => m
    | .none => m) 0

/-- Grain p has lost its clock (R230). -/
def State.grainLost (s : State) (p : Nat) : State :=
  let t := (s.setClk p { s.clkSt p with lost := true, fwd := false, orphan := false }).grainLinksOff p
  let u := (t.posOf p).elim t fun n => (t.setBitF .dieGrstHOLD n true).dieReset n
  let v := ((u.setF .dieClklossPHYS p).setF .dieClklossLPOS ((u.posOf p).getD 0x3F)).setF .dieClklossPORTS (u.clkMissPorts p)
  ((v.setOff .dieClklossCLKBACK).setOn .dieClklossSEEN).raise 984

/-- ORPHAN_TIMEOUT (R204, R230). -/
def execOrphanTimeout (p : Phys) (s : State) : Res :=
  .next (if (s.clkSt p).orphan && !(s.clkSt p).lost then s.grainLost p else s)

/-- GRAIN_CLOCK_LOSS (R230): its own clock-cleaning loop fails. -/
def execGrainClockLoss (p : Phys) (s : State) : Res :=
  .next (if (s.clkSt p).fwd && !(s.clkSt p).lost then s.grainLost p else s)

/-- CLOCK_REGAINED (R230): the grain stays in die reset. -/
def execClockRegained (l : LinkDir) (s : State) : Res :=
  .next (match l with
    | .tun _ => s
    | .grain p d =>
      if !(s.clkSt p).lost then s
      else match s.clockAt p d with
        | none => s
        | some depth =>
          let t := (s.adopt p d depth).loadReplicas p
          if t.getF .dieClklossPHYS = p.val then t.setOn .dieClklossCLKBACK else t)

/-- A write of DIE_GRST with the value v (R229, R231): dropped when it would hold both L29 and L30. -/
def State.grstWrite (s : State) (w m : Nat) : State :=
  let old := s.getF .dieGrstHOLD
  let t := s.writeReg .dieGrst 0 0 w m
  let new := t.getF .dieGrstHOLD
  if new.testBit 29 && new.testBit 30 then s
  else (List.range 60).foldl (fun u n => if new.testBit n && !old.testBit n then u.dieReset n else u) t

/-- HOLD_WRITE (R229): a write of DIE_GRST, of one half or both. -/
def execHoldWrite (w : W64) (lowHalf highHalf : Bool) (s : State) : Res :=
  .next (s.viaUnit .dieGrst 0 0 s.hostAgent fun t =>
    t.grstWrite w.toNat ((if lowHalf then full32 else 0) + (if highHalf then full32 * 2 ^ 32 else 0)))

/-- HOLD_RELEASE (R231): at a crossing cycle that is a multiple of 4,096, from INIT; a grain without its clock waits, and a
position out of service stays (R30). -/
def execHoldRelease (pos : Pos) (s : State) : Res :=
  let n := pos.val
  .next (if !(s.posSt n).inReset || s.bitF .dieGrstHOLD n || s.isOos n || (s.clkSt (s.phys n)).lost || !s.crossingRuns ||
      s.xidx % 4096 != 0 then s
    else
      let t := (s.setPos n { s.posSt n with inReset := false }).thawAll n
      if (t.posSt n).restore then t else t.startTiles n allTiles)

/-! ## Link start (R207) -/

/-- LINK_TRAINING_DONE (R207): lanes with errors are retired, the spares among them first. Retirements are not kept across a link
start (DEDUCED, log 17). -/
def execLinkTrainingDone (l : LinkDir) (bad : List (Fin 104)) (s : State) : Res :=
  .next (
    let exist := match l with
      | .grain p d => match physNbr p d with
        | .none => false
        | .grain _ | .tun => !(s.clkSt p).lost
      | .tun k => s.part.optG || !(k.val == 2 || k.val == 4)
    if !exist || !s.crossingRuns then s else
    let v := s.lnk l
    let lanes := (bad.map (·.val)).eraseDups.filter fun i => i < 100
    let spare := fun i : Nat => decide ((64 ≤ i ∧ i < 72) ∨ (96 ≤ i ∧ i < 100))
    let t := s.setLnk l { LinkSt.initial with up := true, ckLost := v.ckLost }
    let u := (lanes.filter spare ++ lanes.filter (fun i => !spare i)).foldl (fun x i => x.trainedBad l i) t
    let x := (u.updLanes l).evalLink l true
    match l with
    | .grain p d => (x.setBitF .grnXstatCLKMISS d.num false p).setBitF .grnXstatINREST d.num false p
    | .tun _ => x)

/-! ## Discovery (R215, R216) -/

/-- A die's number: grains 0–63, then S0, S1, G0, G1. -/
def dieNo : Die → Nat
  | .grain p => p
  | .store k => 64 + k
  | .guest k => 66 + k

/-- A discovery token may arrive at a port of a die (R9, R19). -/
def State.tokenPort (s : State) (d : Die) (port : GPort) : Bool :=
  match d with
  | .grain p => match physNbr p port with
    | .none => false
    | .grain _ | .tun => true
  | .store _ => true
  | .guest _ => s.part.optG

/-- DISCOVERY_TOKEN (R215 step 4): the die records the port; store and guest dies have the Tun's only. -/
def execDiscoveryToken (d : Die) (port : GPort) (s : State) : Res :=
  .next (if !s.crossingRuns || s.isSet .dieDiscstatDONE || !s.tokenPort d port then s else
    let bit := match d with
      | .grain _ => port.num
      | .store _ | .guest _ => 0
    { s with tokens := SMap.set (fun _ => 0) s.tokens (dieNo d) (setBit (SMap.get (fun _ => 0) s.tokens (dieNo d)) bit true) })

/-- The answer of a die. -/
def State.answerOf (s : State) (k : Nat) : Option AnsSt := SMap.get (fun _ => none) s.answers k

/-- The link of a guest or store port starts: its receiver advertises its buffers, and RXBUF takes effect (R317). -/
def State.portStarts (s : State) (d : Die) (a : Answer) : State :=
  let go := fun k : Nat =>
    let t := (s.setF .nocRbcfgTXBUF a.buf.toNat k).setF .nocRbcfgTXCNT a.cnt.toNat k
    { t with rbRx := SMap.set (fun _ => 2) t.rbRx k (t.getF .nocRbcfgRXBUF k) }
  match d with
  | .grain _ => s
  | .guest k => go k.val
  | .store k => go (2 + k.val)

/-- DISCOVERY_ANSWER (R216): only a die that has a token answers; RXMASK and DEPTH are its own. -/
def execDiscoveryAnswer (d : Die) (a : Answer) (s : State) : Res :=
  let k := dieNo d
  let mask := SMap.get (fun _ => 0) s.tokens k
  .next (if mask = 0 || s.isSet .dieDiscstatDONE then s else
    let depth := match d with
      | .grain p => (s.clkSt p).depth
      | .store _ | .guest _ => 0
    let t := { s with
      answers := SMap.set (fun _ => none) s.answers k (some ⟨a.serial.toNat, a.type.toNat, a.grade.toNat, mask, depth⟩) }
    (t.setF .dieDiscstatANSWERS (t.answers.filter fun e => e.2.isSome).length).portStarts d a)

end Sys2Proof.Machine
end

