-- ==== Sys2Proof/Machine/Images.lean ====
section
/-! DEFINITION. Configuration images (R233–R245): the bytes of a slot or of a partial image in device memory, their fields, the
decryption of records, and the checks that full and partial images share (R248, R249, R252, R272). -/

namespace Sys2Proof.Machine

/-- Where an image is read from. -/
inductive ImgSrc where
  | slot (k : Nat)
  | mem (a : Nat)
  deriving DecidableEq, Repr

/-- A byte of a slot; none where its page is erased (R234). -/
def State.slotByte (s : State) (slot off : Nat) : Option Byte := SMap.get (fun _ => none) s.store (slot * 2 ^ 32 + off)

/-- A byte of an image. -/
def State.imgByte (s : State) (src : ImgSrc) (off : Nat) : Option Byte :=
  match src with
  | .slot k => s.slotByte k off
  | .mem a => some (BitVec.ofNat 8 (s.memByte (a + off)))

/-- n bytes of an image; an erased one reads 0 here. -/
def State.imgBytes (s : State) (src : ImgSrc) (off n : Nat) : List Byte := (List.range n).map fun i => (s.imgByte src (off + i)).getD 0

/-- Some byte of a range is erased. -/
def State.imgErased (s : State) (src : ImgSrc) (off n : Nat) : Bool := (List.range n).any fun i => (s.imgByte src (off + i)).isNone

/-- A numeric field of an image (R12). -/
def State.imgNum (s : State) (src : ImgSrc) (off n : Nat) : Nat := leNat (s.imgBytes src off n)

/-- Bytes of a slot (R233). -/
def slotSize : Nat := 1287651328

/-- LENGTH. -/
def State.imgLength (s : State) (src : ImgSrc) : Nat := s.imgNum src 0x10 8

/-- LPOS, FRAMES and OFFSET of section i (R238). -/
def State.imgSection (s : State) (src : ImgSrc) (i : Nat) : Nat × Nat × Nat :=
  let o := 0x100 + 16 * i
  (s.imgNum src o 1, s.imgNum src (o + 4) 4, s.imgNum src (o + 8) 8)

/-- The sections of an image: at most the 60 of the table. -/
def State.imgSections (s : State) (src : ImgSrc) : List (Nat × Nat × Nat) :=
  (List.range (min 60 (s.imgNum src 0x1A 2))).map (s.imgSection src)

/-- The section of a position. -/
def State.sectionOf (s : State) (src : ImgSrc) (n : Nat) : Option (Nat × Nat × Nat) := (s.imgSections src).find? fun e => e.1 == n

/-- Entry i of the floor table, as a number. -/
def State.imgFloor (s : State) (src : ImgSrc) (i : Nat) : Nat := s.imgNum src (0x500 + 32 * i) 32

/-- IMGDIGEST of the trailer. -/
def State.imgDigest (s : State) (src : ImgSrc) : Nat := s.imgNum src (s.imgLength src - 64 + 32) 32

/-! ## Keys (R244, R245) -/

/-- A fuse row as the Kiln read it. -/
def State.fuseRow (s : State) (r : Nat) : Nat := SMap.get (fun _ => 0) s.fuseNow r

/-- KEYSEL as the Kiln read it. -/
def State.keySel (s : State) : Bool := (s.fuseRow 8).testBit 0

/-- The key is valid. -/
def State.keyValid (s : State) : Bool := !s.keySel || s.keyRam.isSome

/-- The 32 bytes of the key. -/
def State.aesKey (s : State) : List Byte :=
  if s.keySel then toBytes 32 (s.keyRam.getD 0) else (List.range 4).flatMap fun r => toBytes 8 (s.fuseRow r)

/-- The fused public-key hash, 32 bytes. -/
def State.keyHash (s : State) : List Byte := (List.range 4).flatMap fun r => toBytes 8 (s.fuseRow (4 + r))

/-- A 256-bit digest as a byte string. -/
def digestBytes (d : BitVec 256) : List Byte := toBytes 32 d.toNat

/-- An image is authentic (R245): an all-zero fused hash matches no key. -/
def State.authentic (s : State) (src : ImgSrc) : Bool :=
  let pub := s.imgBytes src 0x90 64
  s.keyHash.any (· != 0) && digestBytes (Config.sha256 pub) == s.keyHash &&
  Config.ecdsaVerify pub (Config.sha256 (s.imgBytes src 0 0xFC0)) (s.imgBytes src 0xFC0 64)

/-- A record after decryption (R239, R243): FADDR, GSIG and DATA of the record at an offset of the image. A record is 17 blocks, so
its keystream starts at a block of its own. -/
def State.imgRecord (s : State) (src : ImgSrc) (off : Nat) : Nat × Nat × Nat :=
  let block := (off - 4096) / 16
  let ctr := s.imgBytes src 0x40 12 ++ (toBytes 4 block).reverse
  let plain := leNat (s.imgBytes src off 272) ^^^ leNat ((Config.aesCtr s.aesKey ctr 272).take 272)
  (bits plain 0 32, bits plain 32 32, bits plain 128 2048)

/-! ## Checks -/

/-- TUN_FEAT0–3 word i (R5, R10). -/
def State.featWord (s : State) (i : Nat) : Nat := if i = 0 then s.readReg .tunFeat0 0 0 else 0

/-- FEATREQ lies within the features present (R10). -/
def State.featOk (s : State) (src : ImgSrc) : Bool :=
  (List.range 4).all fun i => s.imgNum src (0x20 + 4 * i) 4 &&& s.featWord i == s.imgNum src (0x20 + 4 * i) 4

/-- The length rules of R236. -/
def State.lengthOk (s : State) (src : ImgSrc) : Bool :=
  let total := ((List.range 60).map fun i => (s.imgSection src i).2.1).foldl (· + ·) 0
  s.imgLength src == 4096 + 272 * total + 64 && decide (s.imgLength src ≤ slotSize)

/-- OFFSET and FRAMES rules of R238 along the section table. -/
def sectionsChain : Nat → List (Nat × Nat × Nat) → Bool
  | _, [] => true
  | off, e :: es => decide (1 ≤ e.2.1 ∧ e.2.1 ≤ 56489) && e.2.2 == off && sectionsChain (off + 272 * e.2.1) es

/-- SECTIONS lies in a range, each LPOS appears once, and R238 holds. -/
def State.sectionsOk (s : State) (src : ImgSrc) (lo : Nat) : Bool :=
  let n := s.imgNum src 0x1A 2
  let t := s.imgSections src
  decide (lo ≤ n ∧ n ≤ 60) && t.all (fun e => decide (e.1 < 60)) && decide ((t.map (·.1)).Nodup) && sectionsChain 0x1000 t

/-- The first checks of R248 and R272, from MAGIC to FEATREQ: the code of the first that fails, 0 for none. -/
def State.headerHead (s : State) (src : ImgSrc) (kind : Nat) : Nat :=
  if s.imgNum src 0 4 ≠ 0x49444B48 ∨ s.imgNum src 4 2 ≠ 1 then 0x01
  else if !s.keyValid then 0x20
  else if !s.authentic src then 0x02
  else if s.imgNum src 6 2 ≠ kind then 0x08
  else if s.imgNum src 8 4 ≠ 0xA5 ∨ s.imgNum src 0xC 4 ≠ 0x60 then 0x03
  else if s.imgNum src 0x18 1 ≠ 60 then 0x04
  else if !s.featOk src then 0x05 else 0

/-- The header check of a full image (R248). -/
def State.headerCode (s : State) (slot : Nat) : Nat :=
  let src := ImgSrc.slot slot
  if s.imgErased src 0 4096 then 0x21
  else if s.headerHead src 0 ≠ 0 then s.headerHead src 0
  else if !s.lengthOk src then 0x06
  else if !s.sectionsOk src 60 || decide (64 < s.imgNum src 0x19 1) then 0x07 else 0

/-- The trailer check (R249). -/
def State.trailerOk (s : State) (src : ImgSrc) : Bool :=
  let o := s.imgLength src - 64
  !s.imgErased src o 64 && s.imgNum src o 4 == 0x54444B48 && s.imgNum src (o + 8) 8 == s.imgLength src

/-- The final checks (R252): BODYDIGEST 0x1A, then IMGDIGEST 0x19. -/
def State.finalCode (s : State) (src : ImgSrc) : Nat :=
  let len := s.imgLength src
  if digestBytes (Config.sha256 (s.imgBytes src 4096 (len - 4160))) ≠ s.imgBytes src 0x70 32 then 0x1A
  else if digestBytes (Config.sha256 (s.imgBytes src 0 (len - 64))) ≠ s.imgBytes src (len - 64 + 32) 32 then 0x19 else 0

end Sys2Proof.Machine
end

