-- ==== Sys2Proof/Machine/Kiln.lean ====
section
/-! DEFINITION. The Kiln (R246–R262): attempts at a load, records, failure and fallback, the release pitch, jobs, slot programming
and attestation. Reload and PERST_N stand in System.lean. -/

namespace Sys2Proof.Machine

/-! ## Time and the load log (R262) -/

/-- Milliseconds from t = 0 of R247, truncated. -/
def State.msNow (s : State) : Nat := (s.lockNs + s.ran39 / 39) / 1000000

/-- An entry of the load log; the next index follows. -/
def State.loadLog (s : State) (code slot lpos frame : Nat) : State :=
  let i := s.getF .kilnLogptrNEXT
  let t := ((s.setF .kilnLoadlogCODE code i).setF .kilnLoadlogSLOT slot i).setF .kilnLoadlogLPOS lpos i
  let u := ((t.setF .kilnLoadlogFRAME frame i).setF .kilnLoadlogTIMEMS s.msNow i).setF .kilnLoadlogATTEMPT s.load.tries i
  (u.setOn .kilnLoadlogVALID i).setF .kilnLogptrNEXT (i + 1)

/-! ## Jobs (R259) -/

/-- The job at the head of the queue starts: the slot is erased first (R235), a partial load is checked (R274), the RESET_n of a
reload falls (R254, R260). -/
def State.jobStart (s : State) : State :=
  match s.kilnJobs with
  | .slotProg slot _ _ :: _ => { s with store := SMap.clearWhere (fun k => k / 2 ^ 32 == slot) s.store }
  | .partialLoad :: _ => s.setF .kilnPldstatSTATE 2
  | .reload _ :: _ => s.ddrReset
  | .remapWrite :: _ | .attest :: _ | [] => s

/-- A job joins the queue; it starts at once when the queue is empty. -/
def State.jobAdd (s : State) (j : KilnJob) : State :=
  let t := { s with kilnJobs := s.kilnJobs ++ [j] }
  if s.kilnJobs.isEmpty then t.jobStart else t

/-- The job at the head ends and the next starts. -/
def State.jobEnd (s : State) : State := ({ s with kilnJobs := s.kilnJobs.drop 1 }).jobStart

/-- The start-up load or a reload is the job the Kiln performs. -/
def State.loadTurn (s : State) : Bool :=
  match s.kilnJobs with
  | [] => true
  | .reload _ :: _ => true
  | .remapWrite :: _ | .partialLoad :: _ | .attest :: _ | .slotProg _ _ _ :: _ => false

/-- The reload at the head of the queue has ended. -/
def State.loadJobEnd (s : State) : State :=
  match s.kilnJobs with
  | .reload _ :: _ => s.jobEnd
  | .remapWrite :: _ | .partialLoad :: _ | .attest :: _ | .slotProg _ _ _ :: _ | [] => s

/-! ## Attempts (R248, R253, R254) -/

/-- State FAILED (R254): event 990; the mapped channels train where firmware runs and built the map. ALARM_N follows STATE. -/
def State.kilnFailed (s : State) : State :=
  let t := ({ s.setF .kilnStatSTATE 9 with baseSlot := none }).raise 990
  (if t.fw = .running && !t.isSet .dieDiscstatPANELBAD then t.ddrStart else t).loadJobEnd

/-- The next slot of the order is tried, or none is left. -/
def State.nextAttempt (s : State) : State :=
  match s.load.order with
  | [] => s.kilnFailed
  | k :: rest =>
    let n := s.load.tries + 1
    let t := { s with load := { LoadSt.none with order := rest, tries := n }, base := [] }
    (((t.setF .kilnStatATTEMPT (min n 15)).setF .kilnStatSLOT k).setF .kilnFramesCOUNT 0).setF .kilnStatSTATE 3

/-- The attempts of an order of slots begin: with an invalid key no image is attempted (R244). -/
def State.beginLoad (s : State) (order : List Nat) : State :=
  let t := { s with load := { LoadSt.none with order := order } }
  if t.keyValid then t.nextAttempt else (t.loadLog 0x20 3 0x3F 0).kilnFailed

/-- The order of slots that BOOTSEL gives (R253). -/
def bootOrder (b : Nat) : List Nat :=
  match b with
  | 0 => [1, 0] | 1 => [2, 0] | 2 => [1, 2, 0] | _ => [0]

/-- The slot of the attempt in progress. -/
def State.loadSrc (s : State) : ImgSrc := .slot (s.getF .kilnStatSLOT)

/-- The attempt fails (R253): logged, event 989; grains written are cleared first. -/
def State.loadFail (s : State) (code lpos frame : Nat) : State :=
  let t := (s.loadLog code (s.getF .kilnStatSLOT) lpos frame).raise 989
  if t.load.written.isEmpty then t.nextAttempt else t.setF .kilnStatSTATE 8

/-- HEADER_CHECK (R248). -/
def execHeaderCheck (s : State) : Res :=
  .next (if s.getF .kilnStatSTATE ≠ 3 || s.load.headed || !s.loadTurn then s else
    let c := s.headerCode (s.getF .kilnStatSLOT)
    if c = 0 then { s with load := { s.load with headed := true } } else s.loadFail c 0x3F 0)

/-- TRAILER_CHECK (R249). -/
def execTrailerCheck (s : State) : Res :=
  .next (if s.getF .kilnStatSTATE ≠ 3 || !s.load.headed then s
    else if s.trailerOk s.loadSrc then s.setF .kilnStatSTATE 4 else s.loadFail 0x18 0x3F 0)

/-! ## Records (R246, R250, R251) -/

/-- GRN_PLLCFG0–3 follow the clock frame of position n (R151, R240). -/
def State.updPllcfg (s : State) (n : Nat) : State :=
  let fr := (s.frame n (faddrOf 4 0)).data
  (List.range 4).foldl (fun t u =>
    RegName.grnPllcfg.fields.foldl (fun v f => v.setF f (bits fr (64 * u + f.info.lo) f.info.len) (s.phys n) u) t) s

/-- A frame written into a position, the clock frame with what it sets. -/
def State.loadFrame (s : State) (n fa data : Nat) : State :=
  let t := s.writeFrame n fa data
  if fa = faddrOf 4 0 then t.updPllcfg n else t

/-- The index of the next record of position n, and whether its section is complete. -/
def LoadSt.idx (l : LoadSt) (n : Nat) : Nat := SMap.get (fun _ => 0) l.next n

/-- Every section of an image has been taken. -/
def State.sectionsDone (s : State) (src : ImgSrc) (next : SMap Nat) : Bool :=
  (s.imgSections src).all fun e => decide (e.2.1 ≤ SMap.get (fun _ => 0) next e.1)

/-- The checks of R250 on a record before it is written: 0x14 where its FADDR bytes cannot be read, FADDR invalid or repeated, 0x14
where the rest cannot be read, driver exclusion. `bad` is the code of a failed read; 0 for none. -/
def recordCode (bad faddrErased erased repeated : Bool) (badCode fa data : Nat) : Nat :=
  if bad || faddrErased then badCode
  else if !faddrValid fa then 0x10
  else if repeated then 0x11
  else if erased then badCode
  else if exclusionFails fa data then 0x12 else 0

/-- FRAME_RECORD (R250): a record of a position's section. Without a read-back value the frame reads back as written. -/
def execFrameRecord (pos : Pos) (readError : Bool) (readBack : Option Frame) (s : State) : Res :=
  let n := pos.val
  let src := s.loadSrc
  .next (if s.getF .kilnStatSTATE ≠ 4 then s
    else match s.sectionOf src n with
      | none => s
      | some e =>
        let i := s.load.idx n
        if e.2.1 ≤ i then s else
        let off := e.2.2 + 272 * i
        let r := s.imgRecord src off
        let fa := r.1
        let seen := SMap.get (fun _ => false) s.load.seen (cfgKey n fa)
        let c := recordCode readError (s.imgErased src off 4) (s.imgErased src off 272) seen 0x14 fa r.2.2
        if c ≠ 0 then s.loadFail c n i
        else
          let l := { s.load with
            next := SMap.set (fun _ => 0) s.load.next n (i + 1)
            seen := SMap.set (fun _ => false) s.load.seen (cfgKey n fa) true }
          let t := { s with load := l, base := SMap.set (fun _ => 0) s.base (cfgKey n fa) r.2.2 }
          let u :=
            if s.isOos n then t
            else
              let v := (t.loadFrame n fa ((readBack.map (·.toNat)).getD r.2.2)).count .kilnFramesCOUNT
              { v with load := { v.load with written := if v.load.written.contains n then v.load.written else v.load.written ++ [n] } }
          if !s.isOos n && gsig ((readBack.map (·.toNat)).getD r.2.2) != r.2.1 then u.loadFail 0x13 n i
          else if u.sectionsDone src u.load.next then u.setF .kilnStatSTATE 5 else u)

/-- GRAIN_NO_PROGRESS (R250): the record it was taking is rejected. -/
def execGrainNoProgress (pos : Pos) (s : State) : Res :=
  let n := pos.val
  .next (if s.getF .kilnStatSTATE ≠ 4 || s.isOos n then s
    else match s.sectionOf s.loadSrc n with
      | none => s
      | some e => if e.2.1 ≤ s.load.idx n then s else s.loadFail 0x15 n (s.load.idx n))

/-- FINAL_CHECKS (R252): the release pitch is scheduled 100 µs later. -/
def execFinalChecks (s : State) : Res :=
  .next (if s.getF .kilnStatSTATE ≠ 5 then s else
    let c := s.finalCode s.loadSrc
    if c ≠ 0 then s.loadFail c 0x3F 0
    else (s.setF .kilnStatSTATE 6).setPitch 16 (some ⟨0, false, s.now + 100 * usUnits, ⟨0, false, 0⟩, none⟩))

/-- GRAIN_CLEAR_DONE (R253). -/
def execGrainClearDone (s : State) : Res :=
  .next (if s.getF .kilnStatSTATE ≠ 8 then s else
    (s.load.written.foldl (fun t n => (t.clearPos n).updPllcfg n) s).nextAttempt)

/-! ## Release (R256) -/

/-- The bank of a position stops driving where its VCCO is absent or not the declared one (R494). -/
def State.bankCheck (s : State) (n : Nat) : State :=
  let p := s.phys n
  if s.isSet .grnIostatDECLVALID p && (!s.isSet .grnIostatVPRES p || s.getF .grnIostatVSENSE p != s.getF .grnIostatVDECL p) then
    s.setOn .grnIostatMISSEEN p
  else s

/-- Position n takes part in the release. A position out of service stays in die reset (R251). -/
def State.releasePos (s : State) (n : Nat) : State :=
  if s.isOos n then s.setPos n ⟨true, false⟩
  else
    let t := (s.setPos n { s.posSt n with restore := false }).thawAll n
    let u := ((if (t.posSt n).inReset then t else t.startTiles n allTiles).dnpUnrest n 0).dnpUnrest n 1
    let v := if interior n then u
      else ((u.setF .grnIostatVDECL (bits (u.frame n (faddrOf 4 0)).data 1080 2) (u.phys n)).setOn .grnIostatDECLVALID
        (u.phys n)).bankCheck n
    (v.passStart n).setF .grnSpgpassPASSES 0 (v.phys n)

/-- The base image that the release puts in force: its version, digest, floors and slot (R265). -/
def State.baseReleased (s : State) : State :=
  let src := s.loadSrc
  let dig := s.imgDigest src
  let t := (s.setF .kilnImgverVERSION (s.imgNum src 0x30 8)).setF .kilnStatRELMS s.msNow
  let u := (List.range 8).foldl (fun v i => v.setF .kilnBasedigDIG (bits dig (32 * i) 32) i) t
  let floors := s.imgNum src 0x19 1
  let v := (List.range 64).foldl (fun w f =>
    ({ w with floorTab := SMap.set (fun _ => 0) w.floorTab f (if f < floors then s.imgFloor src f else 0) }).setF .kilnFlrstatSTATE
      (decide (f < floors)).toNat f) u
  { v with baseSlot := some (s.getF .kilnStatSLOT) }

/-- RELEASE_PITCH (R256); lanes take their settings (R435). -/
def execReleasePitch (s : State) : Res :=
  .next (if s.getF .kilnStatSTATE ≠ 6 then s
    else match s.takePitch 16 0 with
      | none => s
      | some e =>
        let t := ({ e.2 with xr := [], xe := [] }).baseReleased
        let u := (List.range 60).foldl (fun v n => v.releasePos n) t
        let slot := u.getF .kilnStatSLOT
        let v := (List.range 60).foldl (fun w n => if w.isOos n then w.loadLog 0x33 slot n 0 else w) u
        ((((((v.loadLog 0x00 slot 0x3F 0).setF .kilnStatSTATE 7).raise 988).ddrStart).loadJobEnd).lanesApply))

/-! ## Slot programming (R235) -/

/-- The refusal code of a START of slot programming, 0 for none: 5 also where the source is not in trained memory (R254). -/
def State.progCode (s : State) : Nat :=
  let slot := s.getF .kilnProgctlSLOT
  let len := s.getF .kilnProglenLEN
  if slot = 0 ∨ slot = 3 then 1
  else if s.baseSlot = some slot then 2
  else if slotSize < len then 3
  else if !s.memUsable (s.getF .kilnProgsrcADDR * 4096) len then 5 else 0

/-- A write of KILN_PROGCTL; START is ignored while BUSY. -/
def State.progCtlWrite (s : State) (w m : Nat) : State :=
  let t := s.writeReg .kilnProgctl 0 0 w m
  if !(w &&& m).testBit 2 || s.isSet .kilnProgctlBUSY then t
  else if t.progCode ≠ 0 then (t.setOn .kilnProgctlERR).setF .kilnProgctlERRCODE t.progCode
  else (t.setOn .kilnProgctlBUSY).jobAdd (.slotProg (t.getF .kilnProgctlSLOT) (t.getF .kilnProglenLEN) (t.getF .kilnProgsrcADDR * 4096))

/-- SLOT_PROGRAM_START: a write of KILN_PROGCTL. -/
def execSlotProgramStart (w : W32) (s : State) : Res :=
  .next (s.viaUnit .kilnProgctl 0 0 s.hostAgent fun t => t.progCtlWrite w.toNat full32)

/-- Bytes stored in a slot from offset 0. -/
def State.slotWrite (s : State) (slot : Nat) (bs : List Byte) : State :=
  { s with store := bs.zipIdx.foldl (fun m e => SMap.set (fun _ => none) m (slot * 2 ^ 32 + e.2) (some e.1)) s.store }

/-- SLOT_PROGRAM_DONE: a failure leaves the slot erased. -/
def execSlotProgramDone (writeFailed memError : Bool) (s : State) : Res :=
  .next (match s.kilnJobs with
    | .slotProg slot len a :: _ =>
      let t := s.setOff .kilnProgctlBUSY
      (if writeFailed then (t.setOn .kilnProgctlERR).setF .kilnProgctlERRCODE 4
       else if memError || !s.memUsable a len then (t.setOn .kilnProgctlERR).setF .kilnProgctlERRCODE 5
       else ((t.slotWrite slot (s.memRead a len)).setOn .kilnProgctlDONE).raise 992).jobEnd
    | .remapWrite :: _ | .partialLoad :: _ | .attest :: _ | .reload _ :: _ | [] => s)

/-! ## Attestation (R261) -/

/-- The address of the report is aligned and in trained memory. -/
def State.attOk (s : State) : Bool := s.getF .kilnAttaddrADDR % 4096 == 0 && s.memUsable (s.getF .kilnAttaddrADDR) 2304

/-- A write of KILN_ATTCTL; START is ignored while BUSY. -/
def State.attCtlWrite (s : State) (w m : Nat) : State :=
  let t := s.writeReg .kilnAttctl 0 0 w m
  if !(w &&& m).testBit 0 || s.isSet .kilnAttctlBUSY then t
  else if !t.attOk then t.setOn .kilnAttctlERR
  else (t.setOn .kilnAttctlBUSY).jobAdd .attest

/-- ATTESTATION_REQUEST: a write of KILN_ATTCTL. -/
def execAttestationRequest (w : W32) (s : State) : Res :=
  .next (s.viaUnit .kilnAttctl 0 0 s.hostAgent fun t => t.attCtlWrite w.toNat full32)

/-- A shelf entry of floor f. -/
def State.shelfOf (s : State) (f : Nat) : Option ShelfEnt := SMap.get (fun _ => none) s.shelf f

/-- Floor f holds the content of a partial image (R261). -/
def State.floorDigest (s : State) (f : Nat) : Nat := if s.floorPartial f then (s.shelfOf f).elim 0 (·.digest) else 0

/-- Bytes 0x000–0x8BF of the report. -/
def State.attBody (s : State) : List Byte :=
  let words := fun (f : Fld) (n : Nat) => (List.range n).flatMap fun i => toBytes 4 (s.getF f i)
  toBytes 4 0x41444B48 ++ toBytes 2 1 ++ toBytes 2 ((List.range 64).filter s.floorPartial).length ++ toBytes 8 s.part.serial.toNat ++
  words .kilnAttnonceNONCE 8 ++ s.keyHash ++ words .kilnBasedigDIG 8 ++ toBytes 1 (s.baseSlot.getD 0) ++ toBytes 7 0 ++
  (List.range 4).flatMap (fun i => toBytes 4 (s.featWord i)) ++ toBytes 8 (s.getF .kilnImgverVERSION) ++
  digestBytes (Config.sha256 ((List.range 60).map fun n => BitVec.ofNat 8 (s.phys n))) ++
  (List.range 64).flatMap (fun f => toBytes 32 (s.floorDigest f)) ++
  toBytes 8 (timeLo s.now) ++ toBytes 4 (timeHi s.now) ++ toBytes 4 0

/-- The report with its signature. -/
def State.attReport (s : State) : List Byte :=
  s.attBody ++ toBytes 64 (Config.ecdsaSign s.part.attPub (Config.sha256 s.attBody)).toNat

/-- ATTESTATION_REPORT: at its turn in the queue; memory lost meanwhile ends it with ERR. -/
def execAttestationReport (s : State) : Res :=
  .next (match s.kilnJobs with
    | .attest :: _ =>
      let t := s.setOff .kilnAttctlBUSY
      (if s.attOk then ((t.memWrite (s.getF .kilnAttaddrADDR) s.attReport).setOn .kilnAttctlDONE).raise 991
       else t.setOn .kilnAttctlERR).jobEnd
    | .remapWrite :: _ | .partialLoad :: _ | .slotProg _ _ _ :: _ | .reload _ :: _ | [] => s)

end Sys2Proof.Machine
end

