-- ==== Sys2Proof/Machine/Floors.lean ====
section
/-! DEFINITION. Floors (R263–R279): partial loads from START to the floor release pitch, and the return of a failed floor to base
content. -/

namespace Sys2Proof.Machine

/-! ## What a floor owns -/

/-- The positions that floor f touches. -/
def State.floorPos (s : State) (f : Nat) : List Nat := (List.range 60).filter fun n => s.touches f n

/-- The bits of span-enable frame fa of position n that floor f owns (R84, R266). -/
def State.spanMask (s : State) (f n fa : Nat) : Nat :=
  (List.range 128).foldl (fun m i => if s.ownsSpan f n (128 * bits fa 0 28 + i) then m + maskAt (16 * i) 16 else m) 0

/-- Bits under a mask from one frame, the others from another. -/
def mergeBits (mask new old : Nat) : Nat := (new &&& mask) ||| (old &&& (2 ^ 2048 - 1 - mask))

/-- A span-enable frame of position n takes the fields of floor f from v; the others stay as they read through SECDED. -/
def State.mergeSpan (s : State) (f n fa v : Nat) : State :=
  let r := s.frameSecded (s.frame n fa)
  r.2.writeFrame n fa (mergeBits (s.spanMask f n fa) v r.1)

/-- The span-enable frames of a grain. -/
def spanFrames : List Nat := (List.range 384).map (faddrOf 1)

/-- Step 4 of R274: every frame of floor f is cleared, and every owned span field. -/
def State.clearFloor (s : State) (f : Nat) : State :=
  (s.floorPos f).foldl (fun t n =>
    let u := t.clearFrames n fun fa => bits fa 28 4 != 1 && s.frameFloor n fa == some f
    spanFrames.foldl (fun v fa => if s.frameOfFloor f n fa then v.mergeSpan f n fa 0 else v) u) s

/-- What the shelf holds of floor f is dropped. -/
def State.shelfClear (s : State) (f : Nat) : State :=
  let keep := fun (e : Nat × Nat) =>
    let n := e.1 / 2 ^ 32
    let fa := e.1 % 2 ^ 32
    if bits fa 28 4 = 1 then (e.1, mergeBits (s.spanMask f n fa) 0 e.2)
    else (e.1, if s.frameFloor n fa = some f then 0 else e.2)
  { s with shelf := SMap.set (fun _ => none) s.shelf f none, shelfF := (s.shelfF.map keep).filter fun e => e.2 != 0 }

/-- KILN_SHELF.FREE (R275). -/
def State.updShelf (s : State) : State :=
  s.setF .kilnShelfFREE (6528 - (s.shelf.map fun e => (e.2.map (·.stripes)).getD 0).foldl (· + ·) 0)

/-- Stripes of 64 KiB that an image takes. -/
def stripesOf (len : Nat) : Nat := (len + 65535) / 65536

/-! ## The load in progress -/

/-- The floor of the current partial load. -/
def State.pldFloor (s : State) : Nat := s.getF .kilnPldstatFLOOR

/-- Where its image lies. -/
def State.pldSrc (s : State) : ImgSrc := .mem s.pld.src

/-- A partial load for a floor of position n has passed its header check (R274, R479). -/
def State.floorLoading (s : State) (n : Nat) : Bool := s.pld.passed.isSome && s.touches s.pldFloor n

/-- A remap that has started and not yet switched over involves a position the floor touches (R224, R274). -/
def State.remapInvolves (s : State) (f : Nat) : Bool :=
  s.touches f s.remap.pos && match s.remap.phase with
    | .idle | .waiting | .finishing => false
    | .preparing | .captured | .writing | .again | .switching | .aborting => true

/-- A floor of position n is loading or steeping. -/
def State.floorBusy (s : State) (n : Nat) : Bool := s.floorLoading n || (List.range 64).any fun f => s.touches f n && s.steeping f

/-- A register field of the GRAIN windows. -/
def grainFld (f : Fld) : Bool := decide (Fld.grnSpanstatCOUNT.ctorIdx ≤ f.ctorIdx)

/-- Step 2 of a remap begins (R227): every GRAIN register of the spare takes its reset value (R514). -/
def State.remapPrepare (s : State) : State :=
  let p := s.remap.spare
  { s.resetFields fun f i _ => grainFld f && i == p with
      remap := { s.remap with phase := .preparing }, isoHard := SMap.set (fun _ => 0) s.isoHard p 0 }

/-- A remap waiting for a floor begins once no floor of its position is loading or steeping (R224, R277). -/
def State.remapResume (s : State) : State :=
  if s.remap.phase = .waiting && !s.floorBusy s.remap.pos then s.remapPrepare else s

/-- The partial load ends; the Kiln's next job starts. -/
def State.pldEnd (s : State) : State := (({ s with pld := .none }.setF .kilnPldstatSTATE 0).jobEnd).remapResume

/-- It fails before its start pitch (R276): FAIL and CODE only. -/
def State.pldReject (s : State) (code : Nat) : State := ((s.setOn .kilnPldstatFAIL).setF .kilnPldstatCODE code).pldEnd

/-- It fails after its start pitch (R276): the floor is cleared again and returned to base content. -/
def State.pldFail (s : State) (code : Nat) : State :=
  { s with pld := { s.pld with failed := true, cleared := false, code := code } }

/-- A write of KILN_PLDCTL (R272, R277). The image's registers are taken at START (DEDUCED, log 16). -/
def State.pldCtlWrite (s : State) (w m : Nat) : State :=
  let t := s.writeReg .kilnPldctl 0 0 w m
  if !(w &&& m).testBit 0 then t
  else if t.getF .kilnPldstatSTATE ≠ 0 then t.setOn .kilnPldstatIGN
  else if t.getF .kilnStatSTATE ≠ 7 then (t.setOn .kilnPldstatFAIL).setF .kilnPldstatCODE 0x48
  else
    let p : PldSt := { PldSt.none with
      len := t.getF .kilnPldlenLEN, src := t.getF .kilnPldsrcADDR * 4096, timed := t.isSet .kilnPldctlTIMED
      time := t.schedTime 1 (t.getF .kilnPldtimeSEC) (t.getF .kilnPldtimeNS) }
    (({ t with pld := p }).setF .kilnPldstatSTATE 1).jobAdd .partialLoad

/-- PARTIAL_LOAD_START: a write of KILN_PLDCTL. -/
def execPartialLoadStart (w : W32) (s : State) : Res :=
  .next (s.viaUnit .kilnPldctl 0 0 s.hostAgent fun t => t.pldCtlWrite w.toNat full32)

/-- A partial load is the job the Kiln performs. -/
def State.pldTurn (s : State) : Bool :=
  match s.kilnJobs with
  | .partialLoad :: _ => true
  | .remapWrite :: _ | .reload _ :: _ | .attest :: _ | .slotProg _ _ _ :: _ | [] => false

/-! ## The header check (R272) -/

/-- The code of the first check that fails, 0 for none; memory that cannot be read is 0x47 (DEDUCED, log 18). -/
def State.pldCode (s : State) : Nat :=
  let src := s.pldSrc
  let e := s.imgFloor src 0
  let f := entByte e 8 1
  let dig := (List.range 8).foldl (fun v i => v + s.getF .kilnBasedigDIG i * 2 ^ (32 * i)) 0
  if !s.memUsable s.pld.src 4096 then 0x47
  else if s.headerHead src 1 ≠ 0 then s.headerHead src 1
  else if s.imgNum src 0x50 32 ≠ dig then 0x40
  else if !s.lengthOk src || s.imgLength src != s.pld.len then 0x06
  else if s.imgNum src 0x19 1 ≠ 1 || !(decide (f < 64)) || !s.floorDefined f || e != s.floorEntry f then 0x41
  else if !s.sectionsOk src 1 || !(s.imgSections src).all fun x => s.touches f x.1 then 0x07
  else if (s.floorPos f).any s.isOos then 0x45
  else if s.getF .kilnShelfFREE + ((s.shelfOf f).map (·.stripes)).getD 0 < stripesOf (s.imgLength src) then 0x44
  else if !s.memUsable s.pld.src (s.imgLength src) then 0x47
  else if !s.trailerOk src then 0x18 else 0

/-- A touched grain is in Doze or Retain, or on its way between states. -/
def State.floorSleeps (s : State) (f : Nat) : Bool :=
  (s.floorPos f).any fun n => s.getF .pwrDstatSTATE n = 1 || s.getF .pwrDstatSTATE n = 2 || (s.going n).isSome

/-- The start pitch is scheduled 100 µs after the check, or as soon as it can be sent once every touched grain is awake. While a
remap involves a touched position the load goes back into the queue (R274). -/
def State.pldProceed (s : State) (passed : Nat) : State :=
  let f := s.pldFloor
  if s.remapInvolves f then
    ({ s with kilnJobs := s.kilnJobs.drop 1 ++ [KilnJob.partialLoad] }.setF .kilnPldstatSTATE 1).jobStart
  else if s.floorSleeps f then
    (s.floorPos f).foldl (fun t n => if t.getF .pwrDstatSTATE n = 1 || t.getF .pwrDstatSTATE n = 2 then t.wake n 1 else t) s
  else s.setPitch 16 (some ⟨1, false, max (s.now + 5 * usUnits) (passed + 100 * usUnits), ⟨2 ^ f, false, 0⟩, none⟩)

/-- PARTIAL_HEADER_CHECK (R272, R274 step 2). After a check that passed, the command comes again when a sleeping grain has woken or
a remap is over. -/
def execPartialHeaderCheck (s : State) : Res :=
  .next (if !s.pldTurn || s.getF .kilnPldstatSTATE ≠ 2 || (s.pitchAt 16).isSome then s
    else match s.pld.passed with
      | some v => s.pldProceed v
      | none =>
        let t := s.setF .kilnPldstatFLOOR (entByte (s.imgFloor s.pldSrc 0) 8 1)
        let c := t.pldCode
        if c ≠ 0 then t.pldReject c else ({ t with pld := { t.pld with passed := some t.now } }).pldProceed t.now)

/-! ## Steeping -/

/-- The design NoC ports of floor f. -/
def State.floorDnps (s : State) (f : Nat) : List (Nat × Nat) :=
  (s.floorPos f).flatMap fun n => [0, 1].filterMap fun k => if s.dnpFloor n k = some f then some (n, k) else none

/-- FLOOR_START_PITCH (R274 step 3). -/
def execFloorStartPitch (s : State) : Res :=
  .next (match s.takePitch 16 1 with
    | none => s
    | some e =>
      let t := e.2
      let f := t.pldFloor
      let u := ((t.setF .kilnFlrstatSTATE 2 f).setF .kilnPldstatSTATE 3).shelfClear f |>.updShelf
      (u.floorDnps f).foldl (fun v d => v.dnpRest d.1 d.2) u)

/-- FLOOR_CLEAR_DONE (R274 step 4, R276 step 1). -/
def execFloorClearDone (s : State) : Res :=
  .next (if s.getF .kilnPldstatSTATE ≠ 3 || s.pld.cleared then s
    else { s.clearFloor s.pldFloor with pld := { s.pld with cleared := true } })

/-- The code of a record that is rejected before it is written (R250, R273): a record of a forbidden type or outside the floor
before its data are checked, driver exclusion before a foreign span field. -/
def State.partialCode (s : State) (n : Nat) (bad repeated : Bool) (fa data cur : Nat) : Nat :=
  let f := s.pldFloor
  if bad then 0x47
  else if !faddrValid fa then 0x10
  else if repeated then 0x11
  else if bits fa 28 4 = 4 || bits fa 28 4 = 8 || !s.frameOfFloor f n fa then 0x42
  else if exclusionFails fa data then 0x12
  else if bits fa 28 4 = 1 && mergeBits (s.spanMask f n fa) data cur != data then 0x43 else 0

/-- What the shelf holds for a frame of floor f. -/
def State.shelfPut (s : State) (f n fa data : Nat) : State :=
  let key := cfgKey n fa
  let v := if bits fa 28 4 = 1 then mergeBits (s.spanMask f n fa) data (SMap.get (fun _ => 0) s.shelfF key) else data
  { s with shelfF := SMap.set (fun _ => 0) s.shelfF key v }

/-- PARTIAL_RECORD (R273, R274 step 5). -/
def execPartialRecord (pos : Pos) (readError : Bool) (readBack : Option Frame) (s : State) : Res :=
  let n := pos.val
  let src := s.pldSrc
  .next (if s.getF .kilnPldstatSTATE ≠ 3 || !s.pld.cleared || s.pld.failed then s
    else match s.sectionOf src n with
      | none => s
      | some e =>
        let i := SMap.get (fun _ => 0) s.pld.next n
        if e.2.1 ≤ i then s else
        let off := e.2.2 + 272 * i
        let r := s.imgRecord src off
        let fa := r.1
        let cur := s.frameSecded (s.frame n fa)
        let t := if bits fa 28 4 = 1 then cur.2 else s
        let c := t.partialCode n (readError || !s.memUsable (s.pld.src + off) 272)
          (SMap.get (fun _ => false) s.pld.seen (cfgKey n fa)) fa r.2.2 cur.1
        if c ≠ 0 then t.pldFail c
        else
          let p := { t.pld with
            next := SMap.set (fun _ => 0) t.pld.next n (i + 1)
            seen := SMap.set (fun _ => false) t.pld.seen (cfgKey n fa) true }
          let d := (readBack.map (·.toNat)).getD r.2.2
          let u := (({ t with pld := p }).writeFrame n fa d).shelfPut s.pldFloor n fa r.2.2
          if gsig d ≠ r.2.1 then u.pldFail 0x13
          else if u.sectionsDone src u.pld.next then u.setF .kilnPldstatSTATE 4 else u)

/-- PARTIAL_FINAL_CHECKS (R274 steps 6 and 7): the shelf entry is complete and the release pitch is scheduled. -/
def execPartialFinalChecks (s : State) : Res :=
  .next (if s.getF .kilnPldstatSTATE ≠ 4 then s else
    let c := s.finalCode s.pldSrc
    if c ≠ 0 then (s.setF .kilnPldstatSTATE 3).pldFail c
    else
      let f := s.pldFloor
      let ent : ShelfEnt := ⟨stripesOf s.pld.len, s.imgDigest s.pldSrc⟩
      let t := { s with shelf := SMap.set (fun _ => none) s.shelf f (some ent) }.updShelf
      let early := s.now + 100 * usUnits
      let u := (if t.pld.timed && s.pld.time < early then t.setOn .kilnPldstatLATE else t).setF .kilnPldstatSTATE 5
      u.setPitch 16 (some ⟨2, false, if s.pld.timed then max s.pld.time early else early, ⟨2 ^ f, false, 0⟩, none⟩))

/-- What of the base image belongs to floor f, by frame (R276 step 2). -/
def State.baseOfFloor (s : State) (f : Nat) : List (Nat × Nat × Nat) :=
  s.base.filterMap fun e =>
    let n := e.1 / 2 ^ 32
    let fa := e.1 % 2 ^ 32
    if s.touches f n && s.frameOfFloor f n fa then some (n, fa, e.2) else none

/-- FLOOR_BASE_REWRITE_DONE (R276): a rewrite that fails leaves the floor steeping with STATE 5; FAIL, CODE and event 994 come then
(DEDUCED, log 18). -/
def execFloorBaseRewriteDone (ok : Bool) (s : State) : Res :=
  .next (if s.getF .kilnPldstatSTATE ≠ 3 || !s.pld.failed || !s.pld.cleared then s else
    let f := s.pldFloor
    let frames := s.baseOfFloor f
    if !ok || frames.any (fun e => exclusionFails e.2.1 e.2.2) then
      ((((s.setF .kilnFlrstatSTATE 5 f).setOn .kilnPldstatFAIL).setF .kilnPldstatCODE s.pld.code).raise 994).pldEnd
    else
      let t := (frames.foldl (fun u e =>
        if bits e.2.1 28 4 = 1 then u.mergeSpan f e.1 e.2.1 e.2.2 else u.writeFrame e.1 e.2.1 e.2.2) s).shelfClear f |>.updShelf
      (t.setF .kilnPldstatSTATE 5).setPitch 16 (some ⟨2, false, s.now + 100 * usUnits, ⟨2 ^ f, false, 0⟩, none⟩))

/-- FLOOR_RELEASE_PITCH (R274 step 7, R276 step 3). A grain held in die reset keeps its part stopped (R277). -/
def execFloorReleasePitch (s : State) : Res :=
  .next (match s.takePitch 16 2 with
    | none => s
    | some e =>
      let t := e.2
      let f := t.pldFloor
      let u := if t.pld.failed then
          (((t.setF .kilnFlrstatSTATE 4 f).setOn .kilnPldstatFAIL).setF .kilnPldstatCODE t.pld.code).raise 994
        else (((t.setF .kilnFlrstatSTATE 3 f).count .kilnFlrstatLOADS 1 f).setOn .kilnPldstatDONE).raise 993
      let v := (u.floorPos f).foldl (fun x n =>
        let y := x.setFrozen n (f + 1) false
        if (y.posSt n).inReset then y else y.startTiles n fun col row => y.inFloor f n col row) u
      ((v.floorDnps f).foldl (fun x d => x.dnpUnrest d.1 d.2) v).pldEnd)

end Sys2Proof.Machine
end

