-- ==== Sys2Proof/Machine/Jtag.lean ====
section
/-! DEFINITION. The test access port and the JTAG service path (R499–R501), which run while PERST_N is asserted. -/

namespace Sys2Proof.Machine

/-- An instruction is in force. -/
def State.setIr (s : State) (i : JtagIr) : State := { s with jtag := { s.jtag with ir := i } }

/-- A fuse row as programmed. -/
def State.fuse (s : State) (r : Nat) : Nat := SMap.get (fun _ => 0) s.fuses r

/-- Bit b of row 8 as it is in force (R501): 0 KEYSEL, 1 KEYLOCK, 2 SLOTLOCK. -/
def State.lockBit (s : State) (b : Nat) : Bool := (SMap.get (fun _ => 0) s.fuseNow 8).testBit b

/-- The STATUS register (R501). -/
def State.jtagStatus (s : State) : Nat :=
  s.jtag.op.isSome.toNat + 2 * s.jtag.done.toNat + 4 * s.jtag.err.toNat + 8 * (s.lockBit 1).toNat + 16 * (s.lockBit 2).toNat +
  32 * (s.lockBit 0).toNat + 64 * s.keyRam.isSome.toNat + 128 * ((List.range 4).any fun r => s.fuse r != 0).toNat +
  256 * ((List.range 4).any fun r => s.fuse (4 + r) != 0).toNat

/-- An instruction accepted only while PERST_N is asserted; else it acts as BYPASS (R499). -/
def State.irInReset (s : State) (i : JtagIr) : State := s.setIr (if s.perst then i else .bypass)

/-- A private instruction starts its operation, or is refused: outside its condition, locked, or while another operation runs. -/
def State.jtagStart (s : State) (i : JtagIr) (allowed : Bool) (op : JtagOp) : State :=
  if s.perst && allowed && s.jtag.op.isNone then
    { s with jtag := { s.jtag with ir := i, op := some op, done := false, err := false } }
  else { s with jtag := { s.jtag with ir := .bypass, err := true } }

/-- EXTEST. -/
def execExtest (s : State) : Res := .next (s.irInReset .extest)

/-- IDCODE shifts out 0x1006_0A4B. -/
def execIdcode (s : State) : Res := .next { s with jtag := { s.jtag with ir := .idcode, tdo := 0x10060A4B } }

/-- SAMPLE/PRELOAD loads the boundary-scan cells. -/
def execSamplePreload (cells : List Bool) (s : State) : Res := .next { s with jtag := { s.jtag with ir := .sample, cells := cells } }

/-- HIGHZ. -/
def execHighz (s : State) : Res := .next (s.irInReset .highz)

/-- CLAMP. -/
def execClamp (s : State) : Res := .next (s.irInReset .clamp)

/-- FUSEPROG (R500): rows 0–7 are refused after KEYLOCK. -/
def execFuseprog (row : Byte) (data : W64) (s : State) : Res :=
  .next (s.jtagStart .fuseprog (8 ≤ row.toNat || !s.lockBit 1) (.fuseprog row.toNat data.toNat))

/-- KEYRAM (R500): refused after KEYLOCK. -/
def execKeyram (key : BitVec 256) (s : State) : Res := .next (s.jtagStart .keyram (!s.lockBit 1) (.keyram key.toNat))

/-- Slot 0 is erased. -/
def State.eraseSlot0 (s : State) : State := { s with store := SMap.clearWhere (fun k => k / 2 ^ 32 == 0) s.store }

/-- SLOTPROG (R500): refused after SLOTLOCK and above 1,287,651,328 bytes; slot 0 is erased first. -/
def execSlotprog (length : W64) (bytes : List Byte) (s : State) : Res :=
  let ok := !s.lockBit 2 && length.toNat ≤ 1287651328
  .next ((if s.perst && ok && s.jtag.op.isNone then s.eraseSlot0 else s).jtagStart .slotprog ok (.slotprog (bytes.take length.toNat)))

/-- STATUS shifts out the STATUS register. -/
def execStatus (s : State) : Res := .next { s with jtag := { s.jtag with ir := .status, tdo := s.jtagStatus } }

/-- BYPASS. -/
def execBypass (s : State) : Res := .next (s.setIr .bypass)

/-- JTAG_OPERATION_DONE (R500, R501): a fuse never returns to 0, and rows 9–63 are ignored. -/
def execJtagOperationDone (s : State) : Res :=
  .next (match s.jtag.op with
    | none => s
    | some op =>
      let t := { s with jtag := { s.jtag with op := none, done := true } }
      match op with
      | .fuseprog row data => if row ≤ 8 then { t with fuses := SMap.set (fun _ => 0) t.fuses row (t.fuse row ||| data) } else t
      | .keyram key => { t with keyRam := some key }
      | .slotprog bytes => t.slotWrite 0 bytes)

/-- PERST_N deasserts while an operation runs: it is abandoned with ERR (R500). -/
def State.jtagAbandon (s : State) : State :=
  if s.jtag.op.isSome then { s with jtag := { s.jtag with op := none, err := true } } else s

end Sys2Proof.Machine
end

