-- ==== Sys2Proof/Machine/Repair.lean ====
section
/-! DEFINITION. Grain repair (R215–R228): the end of discovery with the repair map and the interleave map, and remaps. -/

namespace Sys2Proof.Machine

/-! ## Requests (R224–R226) -/

/-- A start-up load or a reload is in progress (R224). -/
def State.loading (s : State) : Bool :=
  let st := s.getF .kilnStatSTATE
  (1 ≤ st && st ≤ 6) || st == 8

/-- A physical grain is present and treated as such. -/
def State.present (s : State) (p : Nat) : Bool := s.isSet .dieIdinfoPRESENT p

/-- A spare is free: present, and serving no position (R220). -/
def State.spareFree (s : State) (p : Nat) : Bool := s.present p && !((List.range 60).any fun n => s.phys n == p && !s.isOos n)

/-- The position is interior and covered, so a remap can serve it. -/
def repairable (n : Nat) : Bool := n < 60 && interior n && n != 29 && n != 30 && spares.any fun p => covers p n

/-- Why firmware refuses a remap of n to a spare, 0 for no reason (R226); the order is DEDUCED (log 19). -/
def State.remapReason (s : State) (n spare : Nat) (f : PathFacts) : Nat :=
  if s.loading then 10
  else if !repairable n then 2
  else if !covers spare n then 4
  else if !s.spareFree spare then 3
  else if !mapValid ((List.range 60).map fun k => if k = n then spare else s.phys k) then 1
  else if !f.pathOk then 5
  else if !f.pairOk then 6 else 0

/-- A refusal. -/
def State.remapRefuse (s : State) (n spare reason : Nat) : State :=
  let t := ((s.setF .dieRemapstatSTATE 4).setF .dieRemapstatREASON reason).setF .dieRemapstatLPOS n
  ((t.setF .dieRemapstatSPARE spare).setOff .dieRemapstatNOSTATE).setOn .dieRemapstatSEEN

/-- A remap that passed its checks: it waits for a floor of its position, or its step 2 begins. A position out of service, or a part
without device memory, has no state to carry over (R228, R338). -/
def State.remapAccept (s : State) (n spare : Nat) : State :=
  let nostate := s.isOos n || s.memSize == 0
  let t := ((s.setF .dieRemapstatSTATE 1).setF .dieRemapstatREASON 0).setF .dieRemapstatLPOS n
  let u := (t.setF .dieRemapstatSPARE spare).setF .dieRemapstatNOSTATE nostate.toNat
  { u with remap := ⟨.waiting, n, spare, [spare], nostate, s.phys n, s.remap.queued⟩ }.remapResume

/-- A remap with a position and a spare is asked for. -/
def State.remapTry (s : State) (n spare : Nat) (f : PathFacts) : State :=
  let r := s.remapReason n spare f
  if r = 0 then s.remapAccept n spare else s.remapRefuse n spare r

/-- A write of DIE_REMAPCTL (R224, R226); during a remap only REASON shows the refusal (DEDUCED, log 19). -/
def State.remapCtlWrite (s : State) (w m : Nat) (f : PathFacts) : State :=
  let t := s.writeReg .dieRemapctl 0 0 w m
  if !(w &&& m).testBit 12 then t
  else if t.remap.phase ≠ .idle then t.setF .dieRemapstatREASON 7
  else t.remapTry (t.getF .dieRemapctlLPOS) (t.getF .dieRemapctlSPARE) f

/-- The spare that R221 chooses for position n: free, nearest, lowest number. -/
def State.chooseSpare (s : State) (n : Nat) (tried : List Nat) : Option Nat :=
  let ok := spares.filter fun p => covers p n && s.spareFree p && !tried.contains p
  ok.foldl (fun best p =>
    match best with
    | none => some p
    | some q => if hopDist p n < hopDist q n then some p else some q) none

/-- Lanes retired over the four incoming ports of position n (R225). -/
def State.retiredLanes (s : State) (n : Nat) : Nat :=
  ((List.range 4).map fun d => popcount 104 (SMap.get (fun _ => LinkSt.initial) s.link (4 * s.phys n + d)).retired).foldl (· + ·) 0

/-- A link direction into position n is in the state Fault, or its NoC sub-link has too few lanes (R213, R214, R217). -/
def State.dirFaulty (s : State) (n d : Nat) : Bool :=
  let v := SMap.get (fun _ => LinkSt.initial) s.link (4 * s.phys n + d)
  s.getF .grnLnkstatSTATE (s.phys n) d == 3 || v.inService 2 < 8 || !v.up

/-- The link between two neighbouring positions has a die-link fault. -/
def State.linkFaulty (s : State) (a b : Nat) : Bool :=
  (List.range 4).any fun d => posNbr a (portOf d) == some b && (s.dirFaulty a d || s.dirFaulty b (oppNum d))

/-- The endpoint that firmware remaps on a die-link fault (R225). -/
def State.faultEndpoint (s : State) (a b : Nat) : Option (Nat × Nat) :=
  let cand := fun n => if repairable n then (s.chooseSpare n []).map (n, ·) else none
  match cand a, cand b with
  | none, y => y
  | x, none => x
  | some x, some y =>
    let ra := s.retiredLanes a
    let rb := s.retiredLanes b
    if rb < ra ∨ (ra = rb ∧ a ≤ b) then some x else some y

/-- A die-link fault between two positions (R224, R225): queued while a load or a remap runs. -/
def State.remapFault (s : State) (a b : Nat) (f : PathFacts) : State :=
  if s.getF .dieCtlREMAPPOL < 2 || !s.linkFaulty a b then s
  else
    let e := (min a b, max a b)
    if s.loading || s.remap.phase ≠ .idle then
      if s.remap.queued.contains e then s else { s with remap := { s.remap with queued := s.remap.queued ++ [e] } }
    else
      let t := { s with remap := { s.remap with queued := s.remap.queued.erase e } }
      match t.faultEndpoint a b with
      | none => t
      | some c => t.remapTry c.1 c.2 f

/-- REMAP_REQUEST. A queued die-link fault is taken up by the command once the remap or the load is over. -/
def execRemapRequest (r : RemapReq) (f : PathFacts) (s : State) : Res :=
  .next (match r with
    | .host w => s.viaUnit .dieRemapctl 0 0 s.hostAgent fun t => t.remapCtlWrite w.toNat full32 f
    | .linkFault a b => s.remapFault a b f)

/-! ## Steps 2 to 8 (R227, R228) -/

/-- The core of the position is awake (R485); one out of service has none. -/
def State.remapAwake (s : State) : Bool := s.coreRuns s.remap.pos || s.isOos s.remap.pos

/-- The abort pitch is scheduled; its lead is not given (DEDUCED, log 19: 100 µs). -/
def State.remapAbort (s : State) : State :=
  { s with remap := { s.remap with phase := .aborting } }.setPitch 17 (some ⟨6, false, s.now + 100 * usUnits, ⟨0, false, 0⟩, none⟩)

/-- The load onto the spare failed (R228): the other covering spare within the same stop, or an abort pitch. -/
def State.remapFailed (s : State) : State :=
  match s.chooseSpare s.remap.pos s.remap.tried with
  | none => s.remapAbort
  | some p =>
    let t := { s with remap := { s.remap with spare := p, tried := s.remap.tried ++ [p] } }.remapPrepare
    ({ t with remap := { t.remap with phase := .again } }).setF .dieRemapstatSPARE p

/-- SPARE_PREPARED (R227 steps 2 and 3): a link fault of the spare ends the remap with REASON 9; a sleeping core is woken first, and
the command comes again (R485). The capture pitch lies 200 µs on. -/
def execSparePrepared (linkFault : Bool) (s : State) : Res :=
  .next (match s.remap.phase with
    | .preparing =>
      if linkFault then { s with remap := { s.remap with phase := .idle } }.remapRefuse s.remap.pos s.remap.spare 9
      else if !s.remapAwake then s.wake s.remap.pos 1
      else { s with remap := { s.remap with phase := .captured } }.setPitch 17
        (some ⟨3, false, s.now + 200 * usUnits, ⟨2 ^ 64 - 1, true, 2 ^ s.remap.pos⟩, none⟩)
    | .again =>
      if linkFault then s.remapFailed else { s with remap := { s.remap with phase := .writing } }.jobAdd .remapWrite
    | .idle | .waiting | .captured | .writing | .switching | .finishing | .aborting => s)

/-- REMAP_WRITE_DONE (R227 steps 6 to 8, R228): the switchover pitch follows 500 µs on (DEDUCED, log 19). -/
def execRemapWriteDone (ok oldReadable : Bool) (s : State) : Res :=
  .next (match s.kilnJobs with
    | .remapWrite :: _ =>
      if s.remap.phase ≠ .writing then s
      else if !ok then s.jobEnd.remapFailed
      else
        let nostate := s.remap.nostate || !oldReadable
        let t := ({ s with remap := { s.remap with phase := .switching, nostate := nostate } }).setF .dieRemapstatNOSTATE nostate.toNat
        (t.setPitch 17 (some ⟨6, false, s.now + 500 * usUnits, ⟨0, false, 0⟩, none⟩)).jobEnd
    | .partialLoad :: _ | .attest :: _ | .slotProg _ _ _ :: _ | .reload _ :: _ | [] => s)

/-! ## Switchover, abort, end -/

/-- DIE_IDINFO.DISPLACED and LPOS follow the map (R29). -/
def State.updIdinfo (s : State) : State :=
  (List.range 64).foldl (fun t p =>
    let n := (List.range 60).find? fun k => t.phys k == p && !t.isOos k
    let home := (List.range 60).find? fun k => homeOf k == p
    let moved := n.isNone && t.present p && home.any fun k => t.phys k != p
    (t.setF .dieIdinfoLPOS (n.getD 0x3F) p).setF .dieIdinfoDISPLACED moved.toNat p) s

/-- The configuration of position n as the Kiln writes it anew: the golden bits, no frame status. -/
def State.freshFrames (s : State) (n : Nat) : State :=
  (s.cfg.filter fun e => e.1 / 2 ^ 32 == n).foldl (fun t e =>
    t.setFrame n (e.1 % 2 ^ 32) ⟨e.2.good, e.2.good, 0⟩) s |>.updSpanActive n

/-- The initial content of position n, from the base image and the shelf (R112, R138). -/
def State.initialContent (s : State) (n : Nat) : State :=
  let isContent := fun fa : Nat => bits fa 28 4 == 5 || bits fa 28 4 == 6 || bits fa 28 4 == 7
  let t := s.clearFrames n isContent
  let keys := ((s.base.map (·.1)) ++ (s.shelfF.map (·.1))).filter fun k => k / 2 ^ 32 == n && isContent (k % 2 ^ 32)
  keys.foldl (fun u k => u.writeContent n (k % 2 ^ 32) (s.sourceFrame n (k % 2 ^ 32))) t

/-- The crossings into and out of position n leave their rest values, except where the clock is missing. -/
def State.crossingsResume (s : State) (n : Nat) : State :=
  let clear := fun (u : State) (m d : Nat) =>
    if u.bitF .grnXstatCLKMISS d (u.phys m) then u else u.setBitF .grnXstatINREST d false (u.phys m)
  (List.range 4).foldl (fun u d =>
    match posNbr n (portOf d) with
    | some m => clear (clear u n d) m (oppNum d)
    | none => u) s

/-- What a switchover or abort pitch ends: crossings, ports, Sparge (R227 step 9, R228, R283). -/
def State.remapResumes (s : State) (n : Nat) : State :=
  (((s.crossingsResume n).dnpUnrest n 0).dnpUnrest n 1).passStart n

/-- SWITCHOVER_PITCH (R227 step 9). Without state the position starts from INIT and its initial content. A position that was out of
service leaves its die reset. -/
def execSwitchoverPitch (s : State) : Res :=
  .next (if s.remap.phase ≠ .switching then s
    else match s.takePitch 17 6 with
      | none => s
      | some e =>
        let n := s.remap.pos
        let was := s.isOos n
        let t := (e.2.freshFrames n).setF .dieMapPHYS s.remap.spare n
        let u := { t with oos := SMap.set (fun _ => false) t.oos n false, remap := { t.remap with phase := .finishing } }
        let v := if was then u.setPos n ⟨u.bitF .dieGrstHOLD n, false⟩ else u
        let w := if s.remap.nostate then (v.initialContent n).startTiles n allTiles
          else (v.restoreQ n fun _ => true).restoreSnaps n
        ((w.updPllcfg n).updIdinfo).remapResumes n)

/-- ABORT_PITCH (R228): the old grain resumes from its gated state. -/
def execAbortPitch (s : State) : Res :=
  .next (if s.remap.phase ≠ .aborting then s
    else match s.takePitch 17 6 with
      | none => s
      | some e =>
        let t := { e.2 with remap := { e.2.remap with phase := .idle } }
        (((t.setF .dieRemapstatSTATE 5).setF .dieRemapstatREASON 8).setOn .dieRemapstatSEEN).remapResumes s.remap.pos)

/-- The repair map on the store dies is rewritten with what DIE_MAP holds (R26, R227). -/
def State.writeRepair (s : State) : State :=
  { s with repair := { s.repair with map := (List.range 60).map s.phys, seq := s.repair.seq + 1 } }

/-- REMAP_FINISH (R227 step 10, R29): the old grain's links are disabled and its core is Off. -/
def execRemapFinish (s : State) : Res :=
  .next (if s.remap.phase ≠ .finishing then s else
    let t := ({ s with remap := { s.remap with phase := .idle } }.grainLinksOff s.remap.old).writeRepair
    ((t.setF .dieRemapstatSTATE 3).setOn .dieRemapstatSEEN).raise 985)

/-! ## Discovery (R217, R218) -/

/-- What a die answers is what its site and the repair record ask for (R217): type, the Tun's grade, and the recorded serial. -/
def State.idOk (s : State) (k type : Nat) (a : AnsSt) : Bool :=
  let rec' := SMap.get (fun _ => 0) s.repair.serials k
  a.type == type && a.grade == s.part.grade.toNat && (rec' == 0 || rec' == a.serial)

/-- The registers of grain p's answer. -/
def State.putAnswer (s : State) (p : Nat) : State :=
  match s.answerOf p with
  | none => s
  | some a =>
    let ok := s.idOk p 1 a
    let t := ((s.setF .dieSerialSERIAL a.serial p).setF .dieIdinfoTYPE a.type p).setF .dieIdinfoGRADE a.grade p
    let u := ((t.setF .dieIdinfoRXMASK a.rxmask p).setF .dieIdinfoUPPORT (((s.clkSt p).up).getD 0) p).setF .dieIdinfoDEPTH a.depth p
    let v := u.setF .dieIdinfoPRESENT ok.toNat p
    if ok then v else v.setOn .dieDiscstatIDMIS

/-- The registers of the answer of S0, S1, G0 or G1. -/
def State.putXanswer (s : State) (k : Nat) : State :=
  match s.answerOf (64 + k) with
  | none => s
  | some a =>
    let ok := s.idOk (64 + k) (if k < 2 then 3 else 4) a
    let t := ((s.setF .dieXserialSERIAL a.serial k).setF .dieXidinfoTYPE a.type k).setF .dieXidinfoGRADE a.grade k
    let u := (t.setF .dieXidinfoRXMASK a.rxmask k).setF .dieXidinfoPRESENT ok.toNat k
    if ok then u else u.setOn .dieDiscstatIDMIS

/-- The link directions into present grains that received no token, as (grain, port). -/
def State.missingLinks (s : State) : List (Nat × Nat) :=
  (List.range 64).flatMap fun p => (List.range 4).filterMap fun d =>
    let expected := match physNbr p (portOf d) with
      | .grain q => s.present q
      | .tun => true
      | .none => false
    if s.present p && expected && !((s.answerOf p).any fun a => a.rxmask.testBit d) then some (p, d) else none

/-- Position n served by a grain; its map entry. -/
def State.mapTo (s : State) (n p : Nat) : State := s.setF .dieMapPHYS p n

/-- A position is moved to a spare at start (R218). -/
def State.autoRepair (s : State) (n : Nat) : Option State :=
  if !s.isSet .dieCtlAUTOREP || !repairable n then none
  else (s.chooseSpare n []).map fun p =>
    { (s.mapTo n p).loadLog 0x32 3 n 0 with oos := SMap.set (fun _ => false) s.oos n false }.setOn .dieDiscstatAUTOREPD

/-- A position whose grain is absent is repaired, or is out of service (R217, R30). -/
def State.placePos (s : State) (n : Nat) : State :=
  if s.present (s.phys n) then s
  else
    let t := { s with oos := SMap.set (fun _ => false) s.oos n true }
    (t.autoRepair n).getD t

/-- A link direction without a token: disabled; between positions in service it is a die-link fault, and an endpoint may be repaired
(R217, R218, R225). -/
def State.missingLink (s : State) (e : Nat × Nat) : State :=
  let l : LinkDir := .grain (Fin.ofNat 64 e.1) (portOf e.2)
  let t := (s.linkOff (4 * e.1 + e.2)).setOn .dieDiscstatLINKMIS
  let serves := fun p => (List.range 60).find? fun n => t.phys n == p && !t.isOos n
  match serves e.1, physNbr e.1 (portOf e.2) with
  | some a, .grain q =>
    match serves q with
    | none => t
    | some b =>
      let u := ((t.setF .grnLnkstatSTATE 3 e.1 e.2).dieFault l 0 0 false).raiseG a 13
      match u.faultEndpoint a b with
      | some c => (u.autoRepair c.1).getD u
      | none => u
  | _, _ => t

/-- Capacity of a DIMM in GiB (R335). -/
def spdCapacity (d : Spd) : Nat :=
  let r := if d.ranks2 then 2 else 1
  let g := 16 + 8 * d.density.val
  if d.x8 then r * g else r * 2 * g

/-- A DIMM that R332 supports. -/
def spdUsable (d : Spd) : Bool := d.otherwiseSupported && 16 ≤ spdCapacity d && spdCapacity d ≤ 128

/-- Channel m takes what its SPD says (R332–R335): STATE 0 without a DIMM, 1 unsupported, 2 usable. -/
def State.putDimm (s : State) (m : Nat) (d : Option Spd) : State :=
  match d with
  | none => s.setF .ddrStatSTATE 0 m
  | some x =>
    if !spdUsable x then ({ s with ddr := SMap.set (fun _ => ChanSt.initial) s.ddr m { s.chanSt m with dimm := 1 } }).setF .ddrStatSTATE 1 m
    else
      let t := { s with ddr := SMap.set (fun _ => ChanSt.initial) s.ddr m { s.chanSt m with dimm := 2, rate := x.rate.val } }
      let u := ((t.setF .ddrCfgPAIR x.x8.toNat m).setF .ddrCfgRANKS2 x.ranks2.toNat m).setF .ddrCfgDENS x.density.val m
      let v := (u.setF .ddrCfgCGIB (spdCapacity x) m).setF .ddrCfgSPEED (min x.rate.val (min 2 (s.getF .ddrCtlMAXSPD m))) m
      v.setF .ddrStatSTATE 2 m

/-- The largest K ≤ 4 with 2^K ≤ n. -/
def log2Floor (n : Nat) : Nat := if 16 ≤ n then 4 else if 8 ≤ n then 3 else if 4 ≤ n then 2 else if 2 ≤ n then 1 else 0

/-- The interleave map (R338). -/
def State.buildMap (s : State) (dimms : List (Option Spd)) : State :=
  let t := (List.range 16).foldl (fun u m =>
    if u.isOos (posOfChan m) then u else u.putDimm m (dimms.getD m none)) s
  let ok := (List.range 16).filter fun m => (t.chanSt m).dimm == 2
  if ok.isEmpty then t
  else
    let k := log2Floor ok.length
    let c := ok.foldl (fun v m => min v (t.getF .ddrCfgCGIB m)) 128
    let v := ((t.setF .ddrImap0K k).setOn .ddrImap0VALID).setF .ddrImap0CGIB c
    let u := v.setF .cohBiasbaseADDR (v.memSize - biasSize v.memSize)
    ((ok.take (2 ^ k)).zipIdx).foldl (fun v e =>
      ((v.setF .ddrImap1CH (v.getF .ddrImap1CH + e.1 * 2 ^ (4 * e.2))).setOn .ddrCfgINMAP e.1).setF .ddrCfgSLOT e.2 e.1) u

/-- The stored repair map, or the identity map where it is invalid (R217). -/
def State.applyMap (s : State) : State :=
  let bad := !mapValid s.repair.map
  let m := if bad then identityMap else s.repair.map
  let t := if bad then (s.setOn .dieDiscstatMAPINVAL).loadLog 0x30 3 0x3F 0 else s
  (List.range 60).foldl (fun u n => u.mapTo n (m.getD n (homeOf n))) t

/-- The grains that serve positions: their design NoC ports are isolated until the release pitch (R258, R323). -/
def State.preRelease (s : State) : State :=
  (List.range 60).foldl (fun t n => (t.dnpRest n 0).dnpRest n 1) s

/-- A guest site that has not answered is empty, and its port is isolated as a dead target (R9). -/
def State.emptyGuests (s : State) : State :=
  (List.range 2).foldl (fun t k => if t.part.optG && !t.isSet .dieXidinfoPRESENT (2 + k) then t.isolateExt k else t) s

/-- DISCOVERY_COMPLETE (R9, R217, R218, R338). -/
def execDiscoveryComplete (adjacencyOk : Bool) (dimms : List (Option Spd)) (s : State) : Res :=
  .next (if s.getF .kilnStatSTATE ≠ 2 || s.isSet .dieDiscstatDONE || s.fw ≠ .running then s else
    let t := (List.range 4).foldl (fun u k => u.putXanswer k) ((List.range 64).foldl (fun u p => u.putAnswer p) s)
    if !adjacencyOk then
      let u := { t with oos := SMap.setRange (fun _ => false) t.oos 0 true 60 }
      ((((u.setOn .dieDiscstatPANELBAD).setOn .dieDiscstatDONE).raise 986).loadLog 0x31 3 0x3F 0).kilnFailed
    else
      let m := t.applyMap
      let u := (List.range 60).foldl (fun v n => v.placePos n) m
      let w := u.missingLinks.foldl (fun v e => v.missingLink e) u
      let x := if (List.range 60).any fun n => w.phys n != m.phys n then w.writeRepair else w
      let y := (((x.updIdinfo).buildMap dimms).preRelease).emptyGuests
      ((y.setOn .dieDiscstatDONE).raise 986).beginLoad (bootOrder (y.getF .kilnStatBOOTSEL)))

end Sys2Proof.Machine
end

