-- ==== Sys2Proof/Machine/Power.lean ====
section
/-! DEFINITION. Power management (R473–R486, R526): requests, automatic entries, wakes, the ends of transitions, the wake of a core
from Off, and residency. -/

namespace Sys2Proof.Machine

/-! ## Conditions -/

/-- A region is not OFF. -/
def State.regionsOn (s : State) : Bool := (List.range 64).any fun r => s.getF .mempRgnstatSTATE r != 0

/-- The position of a quad or DDR domain. -/
def domPos (d : Nat) : Nat := if d < 256 then (d - 128) / 2 else posOfChan (d - 256)

/-- What hangs on the PHY of position n is not Off (R477). -/
def State.phyNeeded (s : State) (n : Nat) : Bool :=
  s.getF .pwrDstatSTATE (128 + 2 * n) != 3 || s.getF .pwrDstatSTATE (129 + 2 * n) != 3 ||
  (chanOfPos n).any fun m => s.getF .pwrDstatSTATE (256 + m) != 3

/-- A remap involves position n (R224). -/
def State.inRemap (s : State) (n : Nat) : Bool := s.remap.phase != .idle && s.remap.pos == n

/-- The code of a refusal of state t for domain d, 0 for none, in the order of R479. -/
def State.pwrCode (s : State) (d t : Nat) : Nat :=
  let low := 2 ≤ t
  if !domainAllows d t then 1
  else if d < 60 && low && s.inRemap d then 2
  else if d = 293 && low && s.regionsOn then 3
  else if 256 ≤ d && d < 272 && t = 3 && s.regionsOn then 3
  else if 128 ≤ d && d < 248 && t = 3 && s.isSet .wortLinkEN (d - 128) then 4
  else if 64 ≤ d && d < 124 && t = 3 && s.phyNeeded (d - 64) && !interior (d - 64) then 5
  else if 128 ≤ d && d < 272 && t != 3 && s.getF .pwrDstatSTATE d == 3 && s.phyOff (domPos d) then 5
  else if d = 295 && t = 3 && s.featAcked 11 then 6
  else if d < 60 && low && s.getF .kilnStatSTATE != 7 then 7
  else 0

/-- A request of state t for a core is deferred: a floor that touches it loads, or a configuration-path job runs on it (R479). -/
def State.pwrDefers (s : State) (d t : Nat) : Bool :=
  decide (d < 60 ∧ 2 ≤ t) && (s.floorLoading d || s.isSet .capAccstatBUSY && s.acc.lpos == d)

/-! ## Requests -/

/-- An accepted request of state t: at once, or when the transition in progress has ended (R485). Transitions that R526 makes direct
record LASTWAKE 1. -/
def State.pwrGoTo (s : State) (d t : Nat) : State :=
  let st := s.getF .pwrDstatSTATE d
  match s.going d with
  | some g => if g = t then s else { s with pwrNext := SMap.set (fun _ => none) s.pwrNext d (some (8 + t)) }
  | none =>
    if st = t then s.setOff .pwrDstatBUSY d
    else if t = 0 then s.wake d 1
    else
      let u := if t < st then s.setF .pwrDstatLASTWAKE 1 d else s
      u.startTransition d t

/-- A write of PWR_DCTLd (R479): from the host or Ndoec firmware; refused, deferred, or taken. -/
def State.dctlWrite (s : State) (d w m : Nat) : State :=
  let t := s.writeReg .pwrDctl d 0 w m
  let req := t.getF .pwrDctlREQ d
  let code := s.pwrCode d req
  if m % 4 = 0 then t
  else if code ≠ 0 then (t.setF .pwrDctlREQ (s.getF .pwrDctlREQ d) d).pwrRefuse d code
  else if t.pwrDefers d req && s.getF .pwrDstatSTATE d != req then t.setOn .pwrDstatBUSY d
  else t.pwrGoTo d req

/-- A PWR register of domain d is reached by an agent: an index that names no domain is an absent unit, and only nodes 64 and 72–75
write (R473, R479). -/
def State.viaPwr (s : State) (r : RegName) (d j : Nat) (a : Agent) (k : State → State) : State :=
  let n := a.node.toNat
  if s.perst then s else if !s.domainExists d then s.gateHit 2 (r.offset d j) a
  else if a.dev.toNat = s.devNum ∧ (n = 64 ∨ (72 ≤ n ∧ n ≤ 75)) then k s else s

/-- POWER_REQUEST: a write of PWR_DCTLd (R479). -/
def execPowerRequest (d : Domain) (w : W32) (src : Agent) (s : State) : Res :=
  .next (s.viaPwr .pwrDctl d 0 src fun t => t.dctlWrite d w.toNat full32)

/-- DEFERRED_REQUEST_APPLY (R479). -/
def execDeferredRequestApply (d : Domain) (s : State) : Res :=
  let req := s.getF .pwrDctlREQ d
  .next (if !s.isSet .pwrDstatBUSY d || (s.going d).isSome || s.pwrDefers d req || s.getF .pwrDstatSTATE d == req then s
    else if s.pwrCode d req ≠ 0 then
      ((s.setOff .pwrDstatBUSY d).setF .pwrDctlREQ (s.getF .pwrDstatSTATE d) d).pwrRefuse d (s.pwrCode d req)
    else s.pwrGoTo d req)

/-- A domain is idle as far as its state shows (R480). -/
def State.pwrIdle (s : State) (d : Nat) : Bool :=
  if d < 60 then (List.range 8).all fun i => s.laneMode (8 * d + i) != 1 || 2 ≤ s.getF .xcvrLstatPSTATE (8 * d + i)
  else if 128 ≤ d ∧ d < 248 then (quadLanes (4 * (d - 128))).all fun x => s.getF .xcvrLstatPSTATE x == 2
  else if 256 ≤ d ∧ d < 272 then
    let c := s.chanSt (d - 256)
    s.getF .ddrStatSTATE (d - 256) == 4 && c.inp.isEmpty && c.reads.isEmpty && c.wbuf.isEmpty
  else false

/-- AUTO_DOZE (R480): the idle time has passed. -/
def execAutoDoze (d : Domain) (s : State) : Res :=
  .next (if s.domainExists d && s.isSet .pwrDctlAUTO d && s.getF .pwrDctlREQ d == 0 && s.getF .pwrDstatSTATE d == 0 &&
      (s.going d).isNone && s.released && s.pwrIdle d then s.startTransition d 1 else s)

/-- AUTO_RETAIN (R480). -/
def execAutoRetain (d : Domain) (s : State) : Res :=
  .next (if decide (d.val < 60) && s.isSet .pwrDctlAUTO d && s.isSet .pwrDctlAUTORET d && s.getF .pwrDctlREQ d == 0 &&
      s.getF .pwrDstatSTATE d == 1 && (s.going d).isNone && s.pwrCode d 2 == 0 && !s.pwrDefers d 2 then s.startTransition d 2 else s)

/-! ## Wakes -/

/-- A wake of domain d that an Off domain takes only with WAKE_ON_OFF, and never with its PHY Off (R326, R477, R482). -/
def State.wakeBy (s : State) (d cause : Nat) : State :=
  if s.getF .pwrDstatSTATE d = 3 && (s.going d).isNone then
    if cause ≠ 1 && !s.isSet .pwrDctlWAKE_ON_OFF d then s
    else if 128 ≤ d && d < 272 && s.phyOff (domPos d) then s.pwrRefuse d 5
    else s.wake d cause
  else s.wake d cause

/-- A packet wakes a core, counted in GRN_NOCWAKE (R325). -/
def State.packetWake (s : State) (n : Nat) : State :=
  let sleeps := s.getF .pwrDstatSTATE n != 0 && s.going n != some 0
  let t := s.wakeBy n 2
  if sleeps && (t.going n).isSome then (t.count .grnNocwakeWAKES 1 (t.phys n)).setOn .grnNocwakeSEEN (t.phys n) else t

/-- WAKE (R482). -/
def execWake (d : Domain) (c : WakeCause) (s : State) : Res :=
  .next (if !s.domainExists d || domainAllows d 0 == false then s
    else match c with
      | .request => s.wakeBy d 1
      | .packet => if d.val < 60 then s.packetWake d else s.wakeBy d 2
      | .delivery => if d.val < 60 then s.wakeBy d 3 else s)

/-! ## The wake of a core from Off, and clamps (R483) -/

/-- OFF_WAKE_REWRITE_DONE (R483): the base image's section and each floor's shelf entry, flip-flops from INIT. -/
def execOffWakeRewriteDone (pos : Pos) (s : State) : Res :=
  let n := pos.val
  .next (if s.getF .pwrDstatSTATE n ≠ 3 || (s.going n).isNone || !s.released then s else
    let keys := ((s.base.map (·.1)) ++ (s.shelfF.map (·.1))).filter fun k => k / 2 ^ 32 == n
    let t := keys.foldl (fun u k => u.writeFrame n (k % 2 ^ 32) (s.sourceFrame n (k % 2 ^ 32))) (s.clearPos n)
    { t.startTiles n allTiles with pwrRewr := SMap.set (fun _ => false) t.pwrRewr n true })

/-- A core may leave Off: its rewrite has passed, or a load configures it (R483, R485). -/
def State.coreReady (s : State) (n : Nat) : Bool :=
  s.getF .pwrDstatSTATE n == 2 || SMap.get (fun _ => false) s.pwrRewr n || !s.released

/-- CLAMP_RELEASE (R483 steps 4 and 5): at a crossing cycle whose index is a multiple of 4,096; from Retain, Q is restored first. -/
def execClampRelease (pos : Pos) (s : State) : Res :=
  let n := pos.val
  .next (if !s.isSet .pwrDstatISO n || s.xidx % 4096 ≠ 0 || !s.coreReady n then s
    else match s.going n with
      | some g =>
        if 2 ≤ g && s.getF .pwrDstatSTATE n != 3 then s
        else (if s.getF .pwrDstatSTATE n = 2 then s.restoreQ n (fun _ => true) else s).setOff .pwrDstatISO n
      | none => s)

/-! ## Ends of transitions -/

/-- A core has lost its supply (R475): configuration, contents, shadows. -/
def State.coreLost (s : State) (n : Nat) : State :=
  let t := (s.clearPos n).startTiles n allTiles
  { t.passDrop n with
      q := SMap.clearWhere (fun k => k / 24576 == n) t.q
      srOn := SMap.clearWhere (fun k => k / 24576 == n) t.srOn
      shadow := SMap.clearWhere (fun k => k / 24576 == n) t.shadow
      snap := SMap.clearWhere (fun k => k / 1024 == n) t.snap
      pwrRewr := SMap.set (fun _ => false) t.pwrRewr n false }

/-- The packets held for the endpoints of a position go on (R325). -/
def State.releaseHeld (s : State) (key : Nat) : State :=
  let ps := (SMap.get (fun _ => []) s.held key).map (·.2)
  { s.requeue ps with held := SMap.set (fun _ => []) s.held key [] }

/-- A core has reached Run: the rest isolations of Off end (R326), packets held go on, and Sparge starts over. -/
def State.coreRun (s : State) (n : Nat) : State :=
  let p := s.phys n
  let free := fun (t : State) (k : Nat) =>
    if s.remapHolds n || (s.dnpFloor n k).any s.steeping || !s.released then t else t.dnpUnrest n k
  let t := (free (free s 0) 1).restIso p 6 false
  let u := (List.range 4).foldl (fun v e => v.releaseHeld (4 * n + e)) t
  (u.setF .grnNocwakeHELD 0 p).passDrop n

/-- A channel enters a power state (R475, R484): self-refresh and back, Off with its contents lost, training after Off. -/
def State.ddrPower (s : State) (m st to_ : Nat) : State :=
  let c := s.chanSt m
  match to_ with
  | 3 =>
    let t := (s.dropRequests m).loseContents m
    if c.dimm = 2 then (t.setF .ddrStatSTATE 2 m).closeRows m else t
  | 1 => if s.getF .ddrStatSTATE m = 4 then s.setF .ddrStatSTATE 5 m else s
  | _ =>
    if st = 3 then (if s.isSet .ddrCfgINMAP m && s.released then (s.startTraining m).biasLost else s)
    else
      let t := (if s.getF .ddrStatSTATE m = 5 then s.setF .ddrStatSTATE 4 m else s).releaseHeld (4 * posOfChan m + 3)
      if c.retrainDue then t.retrainPulse m else t

/-- What entering state `to_` from st does in domain d. -/
def State.domEntered (s : State) (d st to_ : Nat) : State :=
  if d < 60 then
    let n := d
    if to_ = 3 then s.coreLost n
    else if to_ = 2 then (if st = 3 then (s.retainCopy n).setOn .pwrDstatISO n else s)
    else if to_ = 0 then s.coreRun n else s
  else if 128 ≤ d ∧ d < 248 then
    let q := 4 * (d - 128)
    (quadLanes q).foldl (fun u l => u.laneApply l) (if to_ = 0 then s else s.setOff .xcvrQpllLOCK q)
  else if 256 ≤ d ∧ d < 272 then
    let n := posOfChan (d - 256)
    let t := s.ddrPower (d - 256) st to_
    if to_ = 0 && t.getF .pwrDstatSTATE n != 3 then t.restIso (t.phys n) 6 false else t
  else if d = 293 then (if to_ = 3 then { s.zeroKeys with memp.cache := [] } else s.releaseHeld 1070)
  else if d = 295 then (if to_ = 3 then { s with hcache := [] } else s.releaseHeld 1065)
  else if d = 292 then s.releaseHeld 1066
  else if 288 ≤ d ∧ d < 292 then s.releaseHeld (1072 + (d - 288))
  else s

/-- The transition of domain d may end: a core that wakes from Retain or Off has had its clamps released, and a channel on the way
from Off to Doze has been trained (R483, R526). -/
def State.mayEnter (s : State) (d st to_ : Nat) : Bool :=
  if d < 60 then
    if st = 3 ∧ to_ = 2 then s.coreReady d
    else if 2 ≤ st ∧ to_ < 2 then s.coreReady d && !s.isSet .pwrDstatISO d else true
  else if 256 ≤ d ∧ d < 272 ∧ st = 3 ∧ to_ = 1 then
    let x := s.getF .ddrStatSTATE (d - 256)
    x != 2 && x != 3 || !s.isSet .ddrCfgINMAP (d - 256)
  else true

/-- TRANSITION_COMPLETE (R475, R481–R485, R526): clamps of other domains than cores release with it. -/
def execTransitionComplete (d : Domain) (s : State) : Res :=
  let st := s.getF .pwrDstatSTATE d
  .next (match s.going d with
    | none => s
    | some g =>
      if 256 ≤ d.val && d.val < 272 && st == 3 && g == 1 && s.getF .ddrStatSTATE (d - 256) == 2 && s.isSet .ddrCfgINMAP (d - 256) then
        (s.startTraining (d - 256)).biasLost
      else if !s.mayEnter d st g then s
      else
        let t := ({ s.setDom d g with pwrGo := SMap.set (fun _ => none) s.pwrGo d none }.setOff .pwrDstatBUSY d).setOn .pwrDstatSEEN d
        let u := (if 60 ≤ d.val && g < 2 then t.setOff .pwrDstatISO d else t).domEntered d st g
        match SMap.get (fun _ => none) u.pwrNext d with
        | none => u
        | some c =>
          let v := { u with pwrNext := SMap.set (fun _ => none) u.pwrNext d none }
          if c < 8 then (if g = 0 then v else v.startTransition d 0) else v.pwrGoTo d (c - 8))

/-! ## Residency and reload -/

/-- Every residency counter is set to 0 (R486). -/
def State.resClear (s : State) : State :=
  { s with resAcc := [], resFrom := (List.range 297).foldl (fun m d => SMap.set (fun _ => 0) m d s.adv) [] }

/-- RESIDENCY_CLEAR: PWR_CTL.RESCLR is written 1 (R486). -/
def execResidencyClear (s : State) : Res := .next (s.viaUnit .pwrCtl 0 0 s.hostAgent fun t => t.resClear)

/-- A reload wakes every domain to Run with LASTWAKE 4 (R485). -/
def State.pwrReload (s : State) : State :=
  State.each 297 (fun d t =>
    if !t.domainExists d || !domainAllows d 0 || (64 ≤ d && d < 124 && interior (d - 64)) then t
    else
      let u := t.setF .pwrDctlREQ 0 d
      if u.getF .pwrDstatSTATE d = 0 && (u.going d).isNone then u else u.wake d 4) s

end Sys2Proof.Machine
end

