-- ==== Sys2Proof/Machine/NetCtl.lean ====
section
/-! DEFINITION. Control of the packet network (R303–R305, R321–R326): route switches, isolation by timeout and declaration and its
end, and wakes that take too long. -/

namespace Sys2Proof.Machine

/-- The agent is a Ndoec firmware core of this device (R300). -/
def State.firmware (s : State) (a : Agent) : Bool :=
  a.dev.toNat == s.devNum && 72 ≤ a.node.toNat && a.node.toNat ≤ 75

/-- A register of the GRAIN window of physical grain p: a grain that serves no position is an absent unit (R509). -/
def State.viaGrain (s : State) (r : RegName) (p j : Nat) (a : Agent) (k : State → State) : State :=
  if s.perst then s else if (s.posOf p).isSome then k s else s.gateHit 16 (r.offset p j) a

/-! ## Route switch (R305) -/

/-- Every router changes its active table and injection resumes. -/
def State.routeFlip (s : State) : State :=
  let t := (s.setF .nocRtctlACTIVE (s.getF .nocRtctlACTIVE + 1)).setOff .nocRtctlDRAINING
  ((t.netWait.foldl State.inject { t with netWait := [] }).setOn .nocRtctlDONE).raise 1000

/-- A write of NOC_RTCTL; SWITCH acts only from Ndoec firmware, and not while a switch is in progress. -/
def State.rtCtlWrite (s : State) (w m : Nat) (a : Agent) : State :=
  let t := s.writeReg .nocRtctl 0 0 w m
  if (w &&& m).testBit 0 && s.firmware a then t.setOn .nocRtctlDRAINING else t

/-- ROUTE_SWITCH: a write of NOC_RTCTL. -/
def execRouteSwitch (w : W32) (a : Agent) (s : State) : Res :=
  .next (s.viaUnit .nocRtctl 0 0 a fun t => t.rtCtlWrite w.toNat full32 a)

/-- ROUTE_SWITCH_DONE: every router buffer is empty. -/
def execRouteSwitchDone (s : State) : Res :=
  .next (if s.isSet .nocRtctlDRAINING && s.net.isEmpty then s.routeFlip else s)

/-- DRAIN_TIMEOUT: packets in flight go on by the new table. -/
def execDrainTimeout (s : State) : Res :=
  .next (if s.isSet .nocRtctlDRAINING then s.routeFlip.setOn .nocRtctlFORCED else s)

/-! ## Isolation by timeout or declaration (R321, R322) -/

/-- The requests that DNP k of position n has accepted are answered by its router (R321, R527). -/
def State.dnpAnswerHeld (s : State) (n k : Nat) : State :=
  let d := s.dnpSt n k
  d.held.foldl (fun t h => t.respond h.pkt 1) (s.setDnp n k { d with held := [] })

/-- The requests that the home slice of channel m has taken are answered by its router; writes in its buffer still drain (R321). -/
def State.homeAnswerAll (s : State) (m : Nat) : State :=
  let mine := s.memReqs.filter fun e => e.2.any fun q => s.chanOf q.pkt.addr.toNat == m
  let t := mine.foldl (fun u e =>
    match e.2 with
    | some q => { u with memReqs := SMap.set (fun _ => none) u.memReqs e.1 none }.respond q.pkt 1
    | none => u) s
  t.setChanSt m { t.chanSt m with inp := [], reads := [] }

/-- Target t of grain p is isolated, with what its endpoint had taken answered. -/
def State.isolateGrain (s : State) (p t : Nat) : State :=
  if (s.hardIso p).testBit t then s else
  let u := s.isolate p t
  match s.posOf p with
  | none => u
  | some n =>
    if t = 4 ∨ t = 5 then u.dnpAnswerHeld n (t - 4)
    else if t = 6 then (chanOfPos n).elim u u.homeAnswerAll
    else u

/-- A guest or store node is isolated, with the requests at its port answered. -/
def State.isolateNode (s : State) (k : Nat) : State :=
  if s.bitF .nocTisoEXT k then s else
  let rs := SMap.get (fun _ => []) s.rb k
  let t := { s with rb := SMap.set (fun _ => []) s.rb k [], rbGrant := SMap.set (fun _ => 0) s.rbGrant k 0 }
  rs.foldl (fun u r => u.respond r.pkt 1) (t.isolateExt k)

/-- The egress port of wort link k is isolated (R455). -/
def State.isolateWort (s : State) (k : Nat) : State :=
  if s.wortIso.testBit k then s else
  ({ s with wortIso := setBit s.wortIso k true }.setOn .grnNocisoSEEN (s.phys (k / 2))).raiseG (k / 2) 2

/-- TARGET_TIMEOUT (R321). -/
def execTargetTimeout (t : Target) (s : State) : Res :=
  .next (match t with
    | .port p d => s.isolateGrain p d.num
    | .dnp p k => s.isolateGrain p (4 + k)
    | .home p => s.isolateGrain p 6
    | .ext k => s.isolateNode k
    | .link k => if s.bitF .nocTisoLINK k then s else s.isolateLink k
    | .wort k => s.isolateWort k)

/-- A write of GRN_NOCISO of grain p: CLR and DECL act only from Ndoec firmware (R322). -/
def State.nocisoWrite (s : State) (p w m : Nat) (a : Agent) : State :=
  let t := s.writeReg .grnNociso p 0 w m
  if !s.firmware a then t
  else
    let v := w &&& m
    (List.range 7).foldl (fun u k =>
      let x := if v.testBit (16 + k) then
          { u with isoHard := SMap.set (fun _ => 0) u.isoHard p (setBit (u.hardIso p) k false) }.updIso p
        else u
      if v.testBit (24 + k) then x.isolateGrain p k else x) t

/-- A write of NOC_TISO: CLREXT and CLRLINK act only from Ndoec firmware. -/
def State.tisoWrite (s : State) (w m : Nat) (a : Agent) : State :=
  let t := s.writeReg .nocTiso 0 0 w m
  if !s.firmware a then t
  else
    let v := w &&& m
    let u := (List.range 4).foldl (fun x k => if v.testBit (16 + k) then x.setBitF .nocTisoEXT k false else x) t
    (List.range 2).foldl (fun x k => if v.testBit (20 + k) then x.setBitF .nocTisoLINK k false else x) u

/-- The bit of a grain target in GRN_NOCISO; none for the others. -/
def grainTarget : Target → Option (Nat × Nat)
  | .port p d => some (p, d.num)
  | .dnp p k => some (p, 4 + k)
  | .home p => some (p, 6)
  | .ext _ | .link _ | .wort _ => none

/-- DECLARE_DEAD (R321): a write of GRN_NOCISO; no register declares a Tun target or a wort port dead. -/
def execDeclareDead (t : Target) (a : Agent) (s : State) : Res :=
  .next (match grainTarget t with
    | some e => s.viaGrain .grnNociso e.1 0 a fun u => u.nocisoWrite e.1 (2 ^ (24 + e.2)) full32 a
    | none => s)

/-- CLEAR_ISOLATION (R322, R455): a write of GRN_NOCISO or NOC_TISO; the port of a wort link is cleared once the link is up. -/
def execClearIsolation (t : Target) (a : Agent) (s : State) : Res :=
  .next (match t with
    | .port p d => s.viaGrain .grnNociso p 0 a fun u => u.nocisoWrite p (2 ^ (16 + d.num)) full32 a
    | .dnp p k => s.viaGrain .grnNociso p 0 a fun u => u.nocisoWrite p (2 ^ (20 + k.val)) full32 a
    | .home p => s.viaGrain .grnNociso p 0 a fun u => u.nocisoWrite p (2 ^ 22) full32 a
    | .ext k => s.viaUnit .nocTiso 0 0 a fun u => u.tisoWrite (2 ^ (16 + k.val)) full32 a
    | .link k => s.viaUnit .nocTiso 0 0 a fun u => u.tisoWrite (2 ^ (20 + k.val)) full32 a
    | .wort k => if s.firmware a && s.wortUp k then { s with wortIso := setBit s.wortIso k false } else s)

/-! ## Sleeping targets (R325) -/

/-- Packets held for an endpoint are handled for its isolation (R321). -/
def State.absorbHeld (s : State) (key p : Nat) : State :=
  let ps := (SMap.get (fun _ => []) s.held key).map (·.2)
  ps.foldl (fun t q => t.absorb p q) { s with held := SMap.set (fun _ => []) s.held key [] }

/-- WAKE_TIMEOUT (R325): the domain on its way to Run is isolated by timeout: the design NoC ports of a core, or the home slice of a
channel. -/
def execWakeTimeout (pos : Pos) (home : Bool) (s : State) : Res :=
  let n := pos.val
  let p := s.phys n
  .next (if home then
      match chanOfPos n with
      | some m =>
        if s.going (256 + m) = some 0 then (s.isolateGrain p 6).absorbHeld (4 * n + 3) p else s
      | none => s
    else if s.going n = some 0 then
      ((((s.isolateGrain p 4).isolateGrain p 5).absorbHeld (4 * n + 1) p).absorbHeld (4 * n + 2) p).setF .grnNocwakeHELD 0 p
    else s)

end Sys2Proof.Machine
end

