-- ==== Sys2Proof/Machine/Reload.lean ====
section
/-! DEFINITION. Reloads (R260): what a reload does to every unit, and a reload held for a remap. -/

namespace Sys2Proof.Machine

/-- Position n at a reload: global restore, nothing configured (R258, R260); freezes end, its event port stops and its design NoC
ports rest. -/
def State.reloadPos (s : State) (n : Nat) : State :=
  let t := ((s.setPos n { s.posSt n with restore := true }).clearPos n).startTiles n allTiles
  let u := (((t.thawAll n).dnpRest n 0).dnpRest n 1).setF .grnSpgpassPASSES 0 (s.phys n)
  { u with evFifo := SMap.set (fun _ => []) u.evFifo n [] }

/-- The floors return to base content and the shelf is empty (R275, R277); a partial load is abandoned with code 0x46. -/
def State.reloadFloors (s : State) : State :=
  let busy := s.getF .kilnPldstatSTATE ≠ 0
  let t := s.resetFields fun f _ _ => [RegName.kilnPldstat, .kilnFlrstat, .kilnShelf, .kilnFrames].contains f.info.reg
  let u := { t with pld := .none, shelf := [], shelfF := [], floorTab := [] }
  if busy then (u.setOn .kilnPldstatFAIL).setF .kilnPldstatCODE 0x46 else u

/-- The jobs that a reload ends: a partial load and rewrites (R260, R277). -/
def State.reloadJobs (s : State) : State :=
  let js := s.kilnJobs.filter fun j => j != .partialLoad && j != .remapWrite
  let t := { s with kilnJobs := js, rewrites := [] }
  if js.head? = s.kilnJobs.head? then t else t.jobStart

/-- The order of slots of a reload (R260). -/
def reloadOrder (slot : Nat) : List Nat := if slot = 0 ∨ slot = 3 then [0] else [slot, 0]

/-- A reload starts (R260, R514): the Kiln takes up the load in its turn (R259). -/
def State.reloadGo (s : State) (slot : Nat) : State :=
  let t := { s.reloadJobs.reloadFloors with baseSlot := none, heldReload := none, spg := [], xr := [], xe := [] }
  let u := ((State.each 60 (fun n v => v.reloadPos n) t).mempReset).biasLost
  let v := if u.part.optX && u.unitOn .coh then u.cohFlush else u
  let w := { v.setF .kilnStatATTEMPT 0 with load := .none }
  let x := if w.keyValid then (w.jobAdd (.reload slot)).beginLoad (reloadOrder slot) else w.ddrReset.beginLoad (reloadOrder slot)
  x.pwrReload.wortReload

/-- A reload would be performed: STATE 7, or 9 with firmware running and the panel in order (R254, R260). -/
def State.reloadable (s : State) : Bool :=
  s.getF .kilnStatSTATE == 7 || (s.getF .kilnStatSTATE == 9 && s.fw == .running && !s.isSet .dieDiscstatPANELBAD)

/-- A write of KILN_CTL (R260). -/
def State.kilnCtlWrite (s : State) (w m : Nat) : State :=
  let t := s.writeReg .kilnCtl 0 0 w m
  if !(w &&& m).testBit 0 then t
  else if !t.reloadable || t.heldReload.isSome then t.setOn .kilnStatRLDIGN
  else
    let slot := t.getF .kilnCtlRSLOT
    if t.getF .dieRemapstatSTATE = 1 ∨ t.getF .dieRemapstatSTATE = 2 then { t with heldReload := some slot } else t.reloadGo slot

/-- RELOAD: a write of KILN_CTL. -/
def execReload (w : W32) (s : State) : Res :=
  .next (s.viaUnit .kilnCtl 0 0 s.hostAgent fun t => t.kilnCtlWrite w.toNat full32)

/-- HELD_RELOAD_START (R260): the remap has completed its step 10. -/
def execHeldReloadStart (s : State) : Res :=
  .next (match s.heldReload with
    | none => s
    | some slot => if s.remap.phase = .idle then s.reloadGo slot else s)

end Sys2Proof.Machine
end

