-- ==== Sys2Proof/Machine/Regs.lean ====
section
/-! DEFINITION. The front door of the register spaces (R6, R7, R385, R386, R504–R513): what an access at a BAR0 offset does, by the
register it reaches, and the commands that are accesses. -/

namespace Sys2Proof.Machine

/-- The state that a meaning leads to. -/
def nextOf (s : State) (r : Res) : State :=
  match r with
  | .next t => t
  | .fault _ | .refused _ => s

/-! ## Features (R7, R385, R386) -/

/-- A write of TUN_FEATACKi: bits of features not offered read 0; dropped once TUN_FEATLOCK is set (R7). -/
def State.featAckWrite (s : State) (i w m : Nat) : State :=
  if s.isSet .tunFeatlockLOCK then s
  else
    let t := s.writeReg .tunFeatack i 0 w m
    t.setF .tunFeatackACK (t.getF .tunFeatackACK i &&& s.featWord i) i

/-- The gated bit of a unit whose feature is not acknowledged at the lock: it reads 0 in TUN_CLKEN and is gated (R6, R165). -/
def State.lockUnit (s : State) (b : Nat) : State :=
  if s.featAcked b then s else (s.setBitF .tunClkenEN b false).setBitF .tunClkstatCLOCKED b false

/-- TUN_FEATLOCK is set: features not acknowledged behave as gated units; without CXLCM the link keeps CXL.io only (R385, R386). -/
def State.featLock (s : State) : State :=
  if s.isSet .tunFeatlockLOCK then s
  else
    let t := ((s.setOn .tunFeatlockLOCK).lockUnit 11).lockUnit 13
    if t.part.optX && !t.featAcked 11 then
      { (t.setOff .cxlLnkstatCACHEEN).setOff .cxlLnkstatMEMEN with hdm := [], hdmErr := [] }
    else t

/-! ## What lies at an offset -/

/-- A piece of an access: a register instance, the bits of it that are reached, the register bit that data bit 0 of the piece stands
for, and the place of the piece in the access. -/
structure Piece where
  at_  : RegAt
  mask : Nat
  bit  : Nat
  pos  : Nat
  deriving DecidableEq, Repr

/-- The pieces of the aligned 32-bit word at BAR0 offset o, which stands at data bit `pos` (R511, R512). -/
def wordPieces (o pos : Nat) : List Piece :=
  match RegAt.ofOffset o with
  | none => []
  | some a =>
    if a.reg.info.width = 16 then
      (⟨a, 0xFFFF, 0, pos⟩ : Piece) :: ((RegAt.ofOffset (o + 2)).map fun b => (⟨b, 0xFFFF, 0, pos + 16⟩ : Piece)).toList
    else [⟨a, full32 * 2 ^ a.bit, a.bit, pos⟩]

/-- The registers that an access of 4 or 8 bytes at offset o reaches. -/
def accessPieces (o len : Nat) : List Piece :=
  if len = 4 then wordPieces o 0
  else match RegAt.ofOffset o with
    | some a =>
      if a.reg.info.width = 64 ∧ a.bit = 0 then [⟨a, full64, 0, 0⟩] else wordPieces o 0 ++ wordPieces (o + 4) 32
    | none => wordPieces (o + 4) 32

/-- The agent may write PWR registers (R479): nodes 64 and 72–75 of this device. -/
def State.pwrWriter (s : State) (a : Agent) : Bool :=
  a.dev.toNat == s.devNum && (a.node == 64 || (72 ≤ a.node.toNat && a.node.toNat ≤ 75))

/-! ## Writes -/

/-- A write of a register that Ndoec firmware alone writes (R304, R453): its read-only fields take the value. -/
def State.fwStore (s : State) (r : RegName) (i j w m : Nat) (a : Agent) : State :=
  if !s.firmware a then s
  else r.fields.foldl (fun t f =>
    let k := bits m f.info.lo f.info.len
    t.setF f ((t.getF f i j &&& (2 ^ f.info.len - 1 - k)) ||| (bits w f.info.lo f.info.len &&& k)) i j) s

/-- A write of TMU registers with rules of their own. -/
def State.tmuWrite (s : State) (p : RegAt) (w m : Nat) : State :=
  match p.reg with
  | .tmuInc => nextOf s (execIncWrite (BitVec.ofNat 32 w) s)
  | .tmuCorr => nextOf s (execStepgo (BitVec.ofNat 32 w) s)
  | .tmuHoldover => s.holdoverWrite w m
  | .tmuSteplo => s.timeWrite .tmuSteplo stepFlds 0 w m
  | .tmuTsbase => if s.isSet .tmuTscfgEN then s else s.writeReg .tmuTsbase 0 0 w m
  | .tmuTscfg => s.tscfgWrite w m
  | .tmuTsrd => s.tsrdWrite w m
  | .tmrCtl => s.tmrCtlWrite p.i w m
  | .tmrStartlo => if s.isSet .tmrCtlARMED p.i then s else s.timeWrite .tmrStartlo startFlds p.i w m
  | .tmrStarthi => if s.isSet .tmrCtlARMED p.i then s else s.writeReg .tmrStarthi p.i 0 w m
  | .tmrPeriod => if s.isSet .tmrCtlARMED p.i then s else s.writeReg .tmrPeriod p.i 0 w m
  | .winCtl => s.winCtlWrite p.i w m
  | .winStartlo => if s.isSet .winCtlEN p.i then s else s.timeWrite .winStartlo winStartFlds p.i w m
  | .winStarthi => if s.isSet .winCtlEN p.i then s else s.writeReg .winStarthi p.i 0 w m
  | .winEndlo => if s.isSet .winCtlEN p.i then s else s.timeWrite .winEndlo winEndFlds p.i w m
  | .winEndhi => if s.isSet .winCtlEN p.i then s else s.writeReg .winEndhi p.i 0 w m
  | .winPeriod => if s.isSet .winCtlEN p.i then s else s.writeReg .winPeriod p.i 0 w m
  | r => s.writeReg r p.i p.j w m

/-- A write of a cask register (R459, R460, R463–R465): the state and the STATUS. -/
def State.caskWrite (s : State) (p : RegAt) (w m : Nat) (a : Agent) : State × Nat :=
  let c := p.i
  let e := p.j == 1
  match p.reg with
  | .caskCfg => (s.caskCfgWrite c w m a, stOk)
  | .caskEnda => (s.caskEndWrite c false w m a, stOk)
  | .caskEndb => (s.caskEndWrite c true w m a, stOk)
  | .caskMsg => s.caskMsgWrite c p.j w m a
  | .caskXctl =>
    if s.getF .caskCfgMODE c = 0 || !s.endMatches c e a then s.caskFail c
    else
      let t := if w.testBit 0 then s.caskGo c e a else (s, stOk)
      if t.2 = stOk && w.testBit 1 then t.1.caskTake c e a else t
  | .caskXpush => s.caskPush c e w a
  | .caskXpop => if s.getF .caskCfgMODE c ≠ 2 || !s.endMatches c e a then s.caskFail c else (s, stOk)
  | r => (s.writeReg r c p.j w m, stOk)

/-- A write of MEMP_ALARMSTAT: COUNT clears with the last SEEN bit. -/
def State.alarmstatWrite (s : State) (w m : Nat) : State :=
  let t := s.writeReg .mempAlarmstat 0 0 w m
  if t.getF .mempAlarmstatSEEN = 0 then t.setF .mempAlarmstatCOUNT 0 else t

/-- A write of DIE_REMAPCTL that comes as an access: whether the paths exist is not in it, so the facts are free (R222–R224). -/
def State.remapAccess (s : State) (w m : Nat) : State :=
  let x := s.free
  let y := x.2.free
  y.2.remapCtlWrite w m ⟨x.1.testBit 0, y.1.testBit 0⟩

/-- A write of a register of the Tun's other units. -/
def State.tunWrite (s : State) (p : RegAt) (w m : Nat) (a : Agent) : State :=
  let w32 : W32 := BitVec.ofNat 32 w
  match p.reg with
  | .tunFeatack => s.featAckWrite p.i w m
  | .tunFeatlock => if (w &&& m).testBit 0 then s.featLock else s
  | .tunClken => nextOf s (execClkenWrite w32 s)
  | .clkRootcfg => nextOf s (execRefselWrite w32 s)
  | .clkTroctl => nextOf s (execTroctlWrite w32 s)
  | .clkTroexp => nextOf s (execTroexpWrite w32 s)
  | .clkTrotrim => if s.isSet .clkTroctlENABLE then s else s.writeReg .clkTrotrim 0 0 w m
  | .clkFmctl => nextOf s (execFmStart w32 s)
  | .pwrCtl => if s.pwrWriter a && w.testBit 0 then s.resClear else s
  | .pwrDctl => if s.pwrWriter a then s.dctlWrite p.i w m else s
  | .pwrDstat => if s.pwrWriter a then s.writeReg .pwrDstat p.i 0 w m else s
  | .nocRtctl => s.rtCtlWrite w m a
  | .nocTiso => s.tisoWrite w m a
  | .nocTrtaba => s.fwStore .nocTrtaba p.i p.j w m a
  | .nocTrtabb => s.fwStore .nocTrtabb p.i p.j w m a
  | .tapPend => s.tapClear p.i (w &&& m)
  | .tapMask => nextOf s (execTapMaskWrite (Fin.ofNat 92 p.i) w32 s)
  | .spgFindpop => nextOf s (execFindingPop w32 s)
  | .capPitchctl => nextOf s (execPitchSchedule w32 s)
  | .capPitchtime => (s.writeReg .capPitchtime 0 0 w m).takeSecHi 0
  | .capAccctl => s.accCtlWrite w m
  | .cohCtl => s.cohCtlWrite w m
  | .cohBiascmd => s.biasCmdWrite w m
  | .mempAlarmstat => s.alarmstatWrite w m
  | .mempKeyctl => s.keyCtlWrite w m
  | .mempRgnbase => if s.isSet .mempRgncfgENABLE p.i then s else s.writeReg .mempRgnbase p.i 0 w m
  | .mempRgncfg => s.rgnCfgWrite p.i w m
  | .mempRgnwalk => s.rgnWalkWrite p.i w m
  | .ddrCtl => s.ddrCtlWrite p.i w
  | r => s.writeReg r p.i p.j w m

/-- A write of a register of the Kiln, of the die controllers, of a lane, of a wort link or of a grain. -/
def State.dieWrite (s : State) (p : RegAt) (w m : Nat) (a : Agent) : State :=
  match p.reg with
  | .kilnCtl => s.kilnCtlWrite w m
  | .kilnProgctl => s.progCtlWrite w m
  | .kilnAttctl => s.attCtlWrite w m
  | .kilnPldctl => s.pldCtlWrite w m
  | .kilnPldtime => (s.writeReg .kilnPldtime 0 0 w m).takeSecHi 1
  | .dieRemapctl => s.remapAccess w m
  | .dieGrst => s.grstWrite w m
  | .xcvrLcfg => s.lcfgWrite p.i w m
  | .xcvrQpll => s.qpllSet p.i w m
  | .xcvrLpm => s.lpmWrite p.i w m
  | .xcvrPchk => s.pchkWrite p.i w m
  | .xcvrPuser => s.writeReg .xcvrPuser p.i p.j w (if p.j = 2 then m &&& 0xFFFF else m)
  | .xcvrInj => s.injWrite p.i w m
  | .wortLink => s.wortLinkWrite p.i w m
  | .grnNociso => s.nocisoWrite p.i w m a
  | .grnRtaba => s.fwStore .grnRtaba p.i p.j w m a
  | .grnRtabb => s.fwStore .grnRtabb p.i p.j w m a
  | .wortRt => s.fwStore .wortRt p.i p.j w m a
  | r => s.writeReg r p.i p.j w m

/-- A write of a register: the state and the STATUS. -/
def State.regWrite (s : State) (p : RegAt) (w m : Nat) (a : Agent) : State × Nat :=
  match p.reg.info.unit with
  | .cask => s.caskWrite p w m a
  | .tmu => (s.tmuWrite p w m, stOk)
  | .kiln | .die | .xcvr | .grain => (s.dieWrite p w m a, stOk)
  | .tun | .clk | .pwr | .noc | .evr | .spg | .cap | .coh | .cxl | .memp | .ddr => (s.tunWrite p w m a, stOk)

/-! ## Reads -/

/-- The HI register of a LO and HI pair of the TMU. -/
def hiOf : RegName → Option RegName
  | .tmuTimelo => some .tmuTimehi
  | .tmuSteplo => some .tmuStephi
  | .tmrStartlo => some .tmrStarthi
  | .winStartlo => some .winStarthi
  | .winEndlo => some .winEndhi
  | .winFirstlo => some .winFirsthi
  | _ => none

/-- A HI register of the TMU. -/
def isHi (r : RegName) : Bool := [RegName.tmuTimehi, .tmuStephi, .tmrStarthi, .winStarthi, .winEndhi, .winFirsthi].contains r

/-- A read of a TMU register: a LO register latches its HI half, and the next HI read returns what was latched. -/
def State.tmuRead (s : State) (p : RegAt) : State × Nat :=
  let key := p.reg.offset p.i p.j
  match hiOf p.reg with
  | some h =>
    ({ s with hiLatch := SMap.set (fun _ => none) s.hiLatch (h.offset p.i 0) (some (s.readReg h p.i 0)) }, s.readReg p.reg p.i 0)
  | none =>
    match (if isHi p.reg then SMap.get (fun _ => none) s.hiLatch key else none) with
    | some v => ({ s with hiLatch := SMap.set (fun _ => none) s.hiLatch key none }, v)
    | none => (s, s.readReg p.reg p.i p.j)

/-- A read of a register: the state, the STATUS and the value. -/
def State.regRead (s : State) (p : RegAt) (a : Agent) : State × Nat × Nat :=
  match p.reg with
  | .caskMsg =>
    let x := s.caskMsgRead p.i p.j a
    (x.1, x.2.2, x.2.1)
  | .caskXpop =>
    let x := s.caskPop p.i (p.j == 1) a
    (x.1, x.2.2, x.2.1)
  | .caskXpush =>
    if s.getF .caskCfgMODE p.i ≠ 2 || !s.endMatches p.i (p.j == 1) a then ((s.caskFail p.i).1, stSlvErr, 0) else (s, stOk, 0)
  | .caskXctl =>
    if s.getF .caskCfgMODE p.i = 0 || !s.endMatches p.i (p.j == 1) a then ((s.caskFail p.i).1, stSlvErr, 0) else (s, stOk, 0)
  | .pwrRes => (s, stOk, s.residency p.i p.j)
  | r =>
    if r.info.unit = .tmu then
      let x := s.tmuRead p
      (x.1, stOk, x.2)
    else (s, stOk, s.readReg r p.i p.j)

/-! ## MSI-X and the CXL component registers -/

/-- The MSI-X table lies here: 32 KiB at CXL + 0x1_0000 (R382). -/
def inMsixTab (o : Nat) : Bool := decide (0xC10000 ≤ o ∧ o < 0xC18000)

/-- The MSI-X pending bits lie here: 256 bytes at CXL + 0x1_8000 (R382). -/
def inMsixPba (o : Nat) : Bool := decide (0xC18000 ≤ o ∧ o < 0xC18100)

/-- The CXL component registers lie here (R382). -/
def inCxlComp (o : Nat) : Bool := decide (0xC00000 ≤ o ∧ o < 0xC10000)

/-- A word of the MSI-X table written; a pending vector goes out when it is unmasked (PRESUMED: PCIe 5.0, log 4). -/
def State.msixTabWrite (s : State) (o w : Nat) : State :=
  let k := (o - 0xC10000) / 4
  let v := k / 4
  let t := { s with msixTab := SMap.set msixDefault s.msixTab k (if k % 4 = 3 then w % 2 else w) }
  if k % 4 = 3 && w % 2 = 0 && SMap.get (fun _ => false) t.msixPba v && t.msixReady then
    { t with msixPba := SMap.set (fun _ => false) t.msixPba v false }.emit (.msix v)
  else t

/-- A word of the MSI-X pending bits: bit b of word k is vector 32k + b. -/
def State.msixPbaWord (s : State) (o : Nat) : Nat :=
  let k := (o - 0xC18000) / 4
  (List.range 32).foldl (fun n b => n + (if SMap.get (fun _ => false) s.msixPba (32 * k + b) then 2 ^ b else 0)) 0

/-- A word of the CXL ranges that hold no register of a chapter: MSI-X, pending bits, and the component registers, whose content
CXL 2.0 gives and the model leaves free. -/
def State.cxlWord (s : State) (o : Nat) : State × Nat :=
  if inMsixTab o then (s, SMap.get msixDefault s.msixTab ((o - 0xC10000) / 4))
  else if inMsixPba o then (s, s.msixPbaWord o)
  else
    let x := s.free
    (x.2, x.1 % 2 ^ 32)

/-- An access in those ranges. -/
def State.cxlAccess (s : State) (a : Access) : State × Nat × Nat :=
  let o := a.offset.toNat
  let words := if a.len = 4 then [0] else [0, 1]
  if a.write then
    (words.foldl (fun t k => if inMsixTab o then t.msixTabWrite (o + 4 * k) (bits a.data.toNat (32 * k) 32) else t) s, stOk, 0)
  else
    let r := words.foldl (fun (x : State × Nat) k =>
      let y := x.1.cxlWord (o + 4 * k)
      (y.1, x.2 + y.2 * 2 ^ (32 * k))) (s, 0)
    (r.1, stOk, r.2)

/-! ## The front door -/

/-- A source reaches every unit: the host, Ndoec firmware and the design; others reach CASK only (R513). -/
def State.fullSource (s : State) (a : Agent) : Bool :=
  let n := a.node.toNat
  a.dev.toNat == s.devNum && (n < 60 || n == 64 || (72 ≤ n && n ≤ 75))

/-- The PWR index that an offset in PWR names (R473). -/
def pwrIndex (o : Nat) : Option Nat :=
  let x := o - 0x200000
  if 0x1000 ≤ x ∧ x < 0x1000 + 0x10 * 297 then some ((x - 0x1000) / 0x10)
  else if 0x80000 ≤ x ∧ x < 0x80000 + 0x20 * 297 then some ((x - 0x80000) / 0x20)
  else none

/-- An access at an offset of unit u is a gated access: the unit is absent, not acknowledged or gated (R6, R165), or what the offset
names is a block powered off, a grain serving no position, a domain that is none, or a Tun domain in Retain or Off (R22, R473,
R478, R509). -/
def State.offsetGated (s : State) (u : Unit0) (o : Nat) : Bool :=
  !s.unitOn u ||
  match u with
  | .cxl => inCxlComp o && !s.part.optX
  | .grain =>
    match s.posOf ((o - 0x3000000) / 0x10000) with
    | none => true
    | some n => interior n && (o - 0x3000000) % 0x10000 / 4 == 0x2A00 / 4
  | .xcvr => decide (o < 0x21E0000) && interior ((o - 0x2000000) / 0x8000) && !wortHole o
  | .pwr => (pwrIndex o).any fun d => !s.domainExists d
  | .coh => decide (2 ≤ s.getF .pwrDstatSTATE 295)
  | .memp => decide (2 ≤ s.getF .pwrDstatSTATE 293)
  | .tun | .clk | .noc | .tmu | .cask | .evr | .kiln | .die | .spg | .cap | .ddr => false

/-- An access has a form a register takes: 4 or 8 bytes, aligned, not masked (R511). -/
def accessForm (a : Access) : Bool :=
  (a.len == 4 || a.len == 8) && a.offset.toNat % a.len == 0 && !a.masked

/-- The pieces of a write, in order; the first failure is the STATUS. -/
def State.writePieces (s : State) (a : Access) : State × Nat :=
  (accessPieces a.offset.toNat a.len).foldl (fun (x : State × Nat) p =>
    let y := x.1.regWrite p.at_ (a.data.toNat / 2 ^ p.pos * 2 ^ p.bit &&& p.mask) p.mask a.src
    (y.1, if x.2 = stOk then y.2 else x.2)) (s, stOk)

/-- The pieces of a read, in order; the first failure is the STATUS. -/
def State.readPieces (s : State) (a : Access) : State × Nat × Nat :=
  (accessPieces a.offset.toNat a.len).foldl (fun (x : State × Nat × Nat) p =>
    let y := x.1.regRead p.at_ a.src
    (y.1, if x.2.1 = stOk then y.2.1 else x.2.1, x.2.2 + (y.2.2 &&& p.mask) / 2 ^ p.bit * 2 ^ p.pos)) (s, stOk, 0)

/-- An access: the state, the STATUS (R308) and the data read (R504–R513). -/
def State.regAccess (s : State) (a : Access) : State × Nat × Nat :=
  let o := a.offset.toNat
  if !accessForm a then (s, stUnsup, 0)
  else match Unit0.ofOffset o with
    | none => (s, stAddrErr, 0)
    | some u =>
      if !s.fullSource a.src && u != .cask then (s, stSlvErr, 0)
      else if s.offsetGated u o then (s.gateHit u.bit o a.src, stOk, 0)
      else if inMsixTab o || inMsixPba o || inCxlComp o then s.cxlAccess a
      else if a.write then
        let x := s.writePieces a
        (x.1, x.2, 0)
      else s.readPieces a

/-- An access is answered: a non-posted one to its requester; of the host's posted ones, failures are recorded (R398). -/
def State.answerAccess (s : State) (a : Access) (status data : Nat) : State :=
  if !a.posted then s.emit (.answer a.src a.tag.toNat status data)
  else if status ≠ 0 ∧ a.src = s.hostAgent then s.herr (0x40000000000 + a.offset.toNat) 0
  else s

/-- REGISTER_WRITE (R11): an access to a register, by the types of its fields or the rules of the register; PERST_N stops the part. -/
def execRegisterWrite (a : Access) (s : State) : Res :=
  .next (if s.perst then s else
    let x := s.regAccess a
    x.1.answerAccess a x.2.1 x.2.2)

/-- A BAR4 access is a gated access: BAR4 is offered and not acknowledged at the lock (R386). -/
def State.bar4Gated (s : State) : Bool := !s.part.optX && s.isSet .tunFeatlockLOCK && !s.bitF .tunFeatackACK 3

/-- The access is a gated access to a BAR0 unit (R6). -/
def State.accessGated (s : State) (a : Access) : Bool :=
  accessForm a && (Unit0.ofOffset a.offset.toNat).any fun u => (s.fullSource a.src || u == .cask) && s.offsetGated u a.offset.toNat

/-- GATED_ACCESS (R6, R167): zeros are read, a write is dropped, the access is counted and recorded and completes OK. -/
def execGatedAccess (t : GateTarget) (s : State) : Res :=
  .next (if s.perst then s else
    match t with
    | .bar0 a =>
      if s.accessGated a then
        match Unit0.ofOffset a.offset.toNat with
        | some u => (s.gateHit u.bit a.offset.toNat a.src).answerAccess a stOk 0
        | none => s
      else s
    | .bar4 off write tag =>
      if s.bar4Gated then
        let u := s.gateHit4 off.toNat
        if write then u else u.emit (.answer s.hostAgent tag.toNat stOk 0)
      else s)

/-- UNMAPPED_ACCESS (R505): answered ADDRERR, or discarded if posted, and not counted. -/
def execUnmappedAccess (a : Access) (s : State) : Res :=
  .next (if s.perst || !accessForm a || (Unit0.ofOffset a.offset.toNat).isSome then s else s.answerAccess a stAddrErr 0)

/-- FEATURE_ACKNOWLEDGE (R7). -/
def execFeatureAcknowledge (i : Fin 4) (w : W32) (s : State) : Res :=
  .next (if s.perst then s else s.featAckWrite i w.toNat full32)

/-- FEATURE_LOCK (R385). -/
def execFeatureLock (s : State) : Res := .next (if s.perst then s else s.featLock)

end Sys2Proof.Machine
end

