-- ==== Sys2Proof/Machine/Packets.lean ====
section
/-! DEFINITION. Packets at their targets (R306–R331, R470, R527): arrival, the reserved-buffer ports and the guest firewall, sleeping
endpoints, the design NoC ports, and host accesses through a BAR. -/

namespace Sys2Proof.Machine

/-! ## Reserved-buffer ports (R316–R319) -/

/-- Bytes of a buffer by its code (NOC_RBCFG). -/
def bufBytes (c : Nat) : Nat := if c = 0 then 1024 else if c = 1 then 2048 else 4096

/-- The segments of len bytes from address a at boundaries that are multiples of buf, as (address, length), at most n (R318). -/
def segList : Nat → Nat → Nat → Nat → List (Nat × Nat)
  | 0, _, _, _ => []
  | n + 1, a, len, buf =>
    if len = 0 then []
    else
      let k := min len (buf - a % buf)
      (a, k) :: segList n (a + k) (len - k) buf

/-- The segments of a request at port k: a write by the far buffer, a read by the Tun's own. -/
def State.rbSegs (s : State) (k : Nat) (p : Packet) : List (Nat × Nat) :=
  let buf := bufBytes (if isWrite p.opc then s.getF .nocRbcfgTXBUF k else SMap.get (fun _ => 2) s.rbRx k)
  segList 5 p.addr.toNat (pktLen p) buf

/-- Requests at port k. -/
def State.rbList (s : State) (k : Nat) : List RbReq := SMap.get (fun _ => []) s.rb k

/-- The requests of port k replaced. -/
def State.setRb (s : State) (k : Nat) (rs : List RbReq) : State := { s with rb := SMap.set (fun _ => []) s.rb k rs }

/-- The packet of the segment that is next. -/
def RbReq.segment (r : RbReq) : Packet :=
  match r.segs with
  | [] => r.pkt
  | e :: rest =>
    { r.pkt with
      addr := BitVec.ofNat 48 e.1, lenm1 := BitVec.ofNat 12 (e.2 - 1), segno := BitVec.ofNat 2 r.done
      split := decide (1 < r.done + (e :: rest).length)
      data := if isMasked r.pkt.opc then r.pkt.data else (r.pkt.data.drop (e.1 - r.pkt.addr.toNat)).take e.2 }

/-- A port takes a request: its first segment asks for a buffer (R317, R318). -/
def State.rbTake (s : State) (k : Nat) (p : Packet) : State :=
  let r : RbReq := ⟨p, s.rbSegs k p, 0, false, 0, []⟩
  let t := if 1 < r.segs.length then s.count .nocRbstatSPLITCNT 1 k else s
  (t.setRb k (t.rbList k ++ [r])).emit (.packet (resvOf r.segment))

/-- A segment is done with a status: the next one asks for a buffer, or the request is answered (R318, R319). -/
def State.rbSegDone (s : State) (k : Nat) (r : RbReq) (status : Nat) (data : List Byte) : State :=
  let q := { r with segs := r.segs.tail, done := r.done + 1, sent := false, got := r.got ++ data }
  if status ≠ 0 then
    let t := s.setRb k ((s.rbList k).erase r)
    let u := if 1 < r.done + r.segs.length then (t.setF .nocRbstatSEGDONE r.done k).setOn .nocRbstatFAILSEEN k else t
    u.respond r.pkt status
  else if q.segs.isEmpty then (s.setRb k ((s.rbList k).erase r)).respond r.pkt 0 q.got
  else (s.setRb k ((s.rbList k).replace r q)).emit (.packet (resvOf q.segment))

/-- The request of port k that a packet of the far end answers, waiting for a grant or for a response. -/
def State.rbFind (s : State) (k : Nat) (p : Packet) (sent : Bool) : Option RbReq :=
  (s.rbList k).find? fun r =>
    r.sent == sent && r.pkt.tag == p.tag && r.pkt.snode == p.dnode && r.pkt.sep == p.dep && r.pkt.sdev == p.ddev

/-- A GRANT of the far end: the segment goes out; a posted one is done with it. -/
def State.rbGranted (s : State) (k : Nat) (r : RbReq) : State :=
  let t := s.emit (.packet r.segment)
  if isPosted r.pkt.opc then t.rbSegDone k r 0 [] else t.setRb k ((t.rbList k).replace r { r with sent := true })

/-! ## Guest firewall (R320) -/

/-- A packet of guest g is a violation: discarded and recorded, and the guest is isolated. -/
def State.violation (s : State) (g : Nat) (p : Packet) (cause : Nat) : State :=
  let t := ((s.setF .nocGfwviolADDR p.addr.toNat g).setF .nocGfwviolOPC (opcCode p.opc) g).setF .nocGfwviolVN (vnCode p.vn) g
  ((((t.setF .nocGfwviolCAUSE cause g).setOn .nocGfwviolSEEN g).raise 998)).isolateNode g

/-- A request lies wholly in a window of guest g that allows its direction. -/
def State.gfwWindow (s : State) (g : Nat) (p : Packet) : Bool :=
  (List.range 8).any fun w =>
    let base := s.getF .nocGfwwinlBASE g w
    let limit := s.getF .nocGfwwinhLIMIT g w
    base ≤ limit && (if isWrite p.opc then s.isSet .nocGfwwinlWR g w else s.isSet .nocGfwwinlRD g w) &&
      base ≤ p.addr.toNat / 4096 && (p.addr.toNat + p.lenm1.toNat) / 4096 ≤ limit

/-- The guest port that a packet from outside comes from. -/
def State.guestOf (s : State) (p : Packet) : Option Nat :=
  if p.sdev.toNat = s.devNum ∧ p.snode = 76 then some 0 else if p.sdev.toNat = s.devNum ∧ p.snode = 77 then some 1 else none

/-- The reserved-buffer port that a packet from outside comes from. -/
def State.portOfPkt (s : State) (p : Packet) : Option Nat :=
  if p.sdev.toNat = s.devNum ∧ 76 ≤ p.snode.toNat ∧ p.snode.toNat ≤ 79 then some (p.snode.toNat - 76) else none

/-- The CAUSE for which the firewall of guest g refuses a packet: class, window; none where it passes. -/
def State.gfwRefuses (s : State) (g : Nat) (p : Packet) : Option Nat :=
  if !(s.getF .nocGfwctlCLASS g).testBit (vnCode p.vn) then some 0
  else if isReq p.opc && p.opc != .resv && !s.gfwWindow g p then some 1
  else none

/-- Nothing of guest g moves: isolated, no guest port, or no rate allowed (R9, R320, R321). -/
def State.guestStopped (s : State) (g : Nat) : Bool :=
  s.bitF .nocTisoEXT g || !s.part.optG || s.getF .nocGfwctlRATE g == 0

/-! ## Registers as targets -/

/-- The access that a request makes at a BAR0 offset. -/
def packetAccess (p : Packet) (o : Nat) : Access :=
  { offset := BitVec.ofNat 26 o, len := pktLen p, write := isWrite p.opc, masked := isMasked p.opc, posted := isPosted p.opc
    data := BitVec.ofNat 64 (leNat (p.data.take 8)), src := ⟨p.snode, p.sdev⟩, tag := p.tag }

/-- The position whose DCTL holds the register at a BAR0 offset, for the windows that are forwarded (R300, R510). -/
def State.windowPos (s : State) (o : Nat) : Option Nat :=
  match Unit0.ofOffset o with
  | some .ddr => some (posOfChan ((o - 0x1000000) / 0x10000))
  | some .xcvr => if o < 0x21E0000 ∧ wortHole o = false then some ((o - 0x2000000) / 0x8000) else none
  | some .grain => s.posOf ((o - 0x3000000) / 0x10000)
  | _ => none

/-- The register block forwards to position n while a route leads to its router (R510). -/
def State.forwards (s : State) (n : Nat) : Bool :=
  match s.walk n 256 69 4 with
  | .local r _ => r == s.phys n
  | .ext _ | .blocked _ => false

/-- A request for a register is performed and answered (R504–R513). -/
def State.regArrive (s : State) (p : Packet) (o : Nat) : State :=
  if p.dnode = 71 && (s.windowPos o).any fun n => !s.forwards n then s.respond p 1
  else
    let x := s.regAccess (packetAccess p o)
    x.1.respond p x.2.1 (if x.2.1 = 0 && !isWrite p.opc then toBytes (pktLen p) x.2.2 else [])

/-! ## Sleeping endpoints (R325, R326) -/

/-- A packet is held at an endpoint that wakes; none where the wake buffer of its router input is full (R325). -/
def State.hold (s : State) (key inPort : Nat) (p : Packet) : Option State :=
  let h := SMap.get (fun _ => []) s.held key
  if 8 ≤ (h.filter fun e => e.1 == inPort).length then none
  else some { s with held := SMap.set (fun _ => []) s.held key (h ++ [(inPort, p)]) }

/-- GRN_NOCWAKE.HELD of position n follows a wake buffer. -/
def State.updHeld (s : State) (n key inPort : Nat) : State :=
  if (((SMap.get (fun _ => []) s.held key).filter fun e => e.1 == inPort).length == 8) then
    s.setBitF .grnNocwakeHELD inPort true (s.phys n)
  else s

/-- Domain d is in Run and makes no transition. -/
def State.domRuns (s : State) (d : Nat) : Bool := s.getF .pwrDstatSTATE d == 0 && (s.going d).isNone

/-- Domain d is Off, and a packet does not wake it (R326). -/
def State.domStaysOff (s : State) (d : Nat) : Bool :=
  s.getF .pwrDstatSTATE d == 3 && (s.going d).isNone && !s.isSet .pwrDctlWAKE_ON_OFF d

/-- A packet at endpoint DEP of position n, through input `i`: absorbed where the target is isolated, held while its domain wakes, else
taken by `k`. `s₀` is the state in which it waits in the network. -/
def State.atGrain (s s₀ : State) (p : Packet) (n dep i : Nat) (k : State → State) : State :=
  let r := s.phys n
  let t := dep + 3
  if s.isIso r t then s.absorb r p
  else if s.domRuns n then k s
  else if s.domStaysOff n then (s.restIso r t true).absorb r p
  else match s.hold (4 * n + dep) i p with
    | none => s₀
    | some u => (u.updHeld n (4 * n + dep) i).packetWake n

/-- A packet wakes the channel of position n, counted there (R325, R326). -/
def State.chanWake (s : State) (n m : Nat) : State :=
  let t := s.wakeBy (256 + m) 2
  if (t.going (256 + m)).isSome && (s.going (256 + m)) != some 0 then
    (t.count .grnNocwakeWAKES 1 (t.phys n)).setOn .grnNocwakeSEEN (t.phys n) else t

/-- A packet at the home slice of channel m (R325, R326, R342, R484). -/
def State.atHome (s s₀ : State) (p : Packet) (n m i : Nat) : State :=
  let d := 256 + m
  let r := s.phys n
  if s.domStaysOff d then (s.restIso r 6 true).absorb r p
  else if s.getF .pwrDstatSTATE d = 3 then (s.chanWake n m).memArrive p
  else if s.domRuns d && s.getF .ddrStatSTATE m != 5 then s.memArrive p
  else match s.hold (4 * n + 3) i p with
    | none => s₀
    | some u => (u.updHeld n (4 * n + 3) i).chanWake n m

/-- The power domain of a Tun node that may sleep (R473). -/
def nodeDomain (node : Nat) : Option Nat :=
  if node = 65 then some 295 else if node = 66 then some 292 else if node = 70 then some 293
  else if 72 ≤ node ∧ node ≤ 75 then some (216 + node) else none

/-- A packet at a Tun node, which may sleep. -/
def State.atTun (s s₀ : State) (p : Packet) (i : Nat) (k : State → State) : State :=
  match nodeDomain p.dnode.toNat with
  | none => k s
  | some d =>
    if s.domRuns d || !s.domainExists d then k s
    else if s.domStaysOff d then s.absorb 69 p
    else match s.hold (1000 + p.dnode.toNat) i p with
      | none => s₀
      | some u => u.wakeBy d 2

/-- A packet through the Tun's routers wakes them (R325). -/
def State.tunRouters (s : State) (p : Packet) : State :=
  if (64 ≤ p.dnode.toNat || 64 ≤ p.snode.toNat) && s.getF .pwrDstatSTATE 294 == 1 then s.wakeBy 294 2 else s

/-! ## Arrival -/

/-- A request or response is handed to a guest or store port, absorbed where the port is isolated or absent (R9, R321). -/
def State.atPort (s : State) (k : Nat) (p : Packet) : State :=
  if s.bitF .nocTisoEXT k || (k < 2 && !s.part.optG) then s.absorb 69 p
  else if isReq p.opc then s.rbTake k p else s.emit (.packet p)

/-- A packet for another device: at the router of its egress position it takes a wort link (R453, R455). -/
def State.egress (s : State) (p : Packet) : State :=
  let d := p.ddev.toNat
  if !s.isSet .wortRtVALID d then (if isReq p.opc then s.respond p 2 else s)
  else match s.routeOf p with
    | .local r _ =>
      let k := 2 * s.getF .wortRtPOS d + s.getF .wortRtHALF d
      if s.wortIso.testBit k then s.absorb r p else s.wortSend k p
    | .ext _ => s.absorb 69 p
    | .blocked r => s.absorb r p

/-- A packet arrives: it leaves the network, goes by its route, and is taken by `k` at its node with the input it came by. A packet
from outside waits while a route switch drains (R305). -/
def State.arrive (s : State) (p : Packet) (k : State → Nat → State) : State :=
  match s.netTake p with
  | none => s
  | some t =>
    if !s.net.contains p && s.isSet .nocRtctlDRAINING && p.vn != .rsp then { s with netWait := s.netWait ++ [p] }
    else
      let u := t.tunRouters p
      if p.ddev.toNat ≠ s.devNum then u.egress p
      else match u.routeOf p with
        | .blocked r => u.absorb r p
        | .ext node => u.atPort (node - 76) p
        | .local r i => if u.routerOf p.dnode.toNat = r then k u i else u.absorb r p

/-- The lowest free T_ID of a DNP (R327, R527). -/
def DnpSt.freeId (d : DnpSt) : Option Nat :=
  (List.range 256).find? fun i => !(d.held.any fun h => h.id == i) && !d.retired.contains i

/-- The target side of DNP k of position n presents a request; with no T_ID free, or held in die reset, the request waits (R321,
R327). -/
def State.dnpTake (s s₀ : State) (n k : Nat) (p : Packet) : State :=
  if (s.posSt n).inReset then s₀
  else if !s.released then s.absorb (s.phys n) p
  else if isPosted p.opc then s.emit (.targetReq n k 256 p)
  else
    let d := s.dnpSt n k
    match d.freeId with
    | none => s₀
    | some i => (s.setDnp n k { d with held := d.held ++ [⟨i, p⟩] }).emit (.targetReq n k i p)

/-- A request at its node: the endpoint serves what its address names; another address has no target there (R307, R308, R330). -/
def State.takeReq (s s₀ : State) (p : Packet) (i : Nat) : State :=
  let node := p.dnode.toNat
  let dep := p.dep.toNat
  if !reqLegal p || p.opc == .resv then s.respond p 3
  else match s.devDecode p.addr.toNat with
    | .bar0 o =>
      if 64 ≤ node && node == regNode o then s.atTun s₀ p i fun t => t.regArrive p o
      else if node < 60 && dep == 0 && s.windowPos o == some node then s.regArrive p o
      else s.respond p 2
    | .dnp n k => if node = n ∧ dep = 1 + k then s.atGrain s₀ p n dep i fun t => t.dnpTake s₀ n k p else s.respond p 2
    | .hostMem =>
      if node ≠ 65 then s.respond p 2
      else s.atTun s₀ p i fun t => if t.unitOn .coh then t.cohArrive p else s₀
    | .shadowArea r => s.shadowHit r p
    | .home _ | .memp _ =>
      if node = 70 then s.atTun s₀ p i fun t => t.memArrive p
      else if dep ≠ 3 then s.respond p 2
      else match chanOfPos node with
        | some m => s.atGrain s₀ p node 3 i fun t => t.atHome s₀ p node m i
        | none => s.respond p 2
    | .nowhere => s.respond p 2

/-- A request packet reaches its target. One of a guest passes the firewall into a buffer granted to it (R317, R320). -/
def State.reqArrive (s : State) (p : Packet) : State :=
  if s.perst then s
  else match s.guestOf p with
    | none => s.arrive p fun t i => t.takeReq s p i
    | some g =>
      if s.net.contains p then s.arrive p fun t i => t.takeReq s p i
      else if s.guestStopped g then s
      else match s.gfwRefuses g p with
        | some c => s.violation g p c
        | none =>
          let n := SMap.get (fun _ => 0) s.rbGrant g
          if n = 0 then s
          else
            let t := { s with rbGrant := SMap.set (fun _ => 0) s.rbGrant g (n - 1) }
            t.arrive p fun u i => u.takeReq s p i

/-- RD (R307). -/
def execRd (p : Packet) (s : State) : Res := .next (if p.opc = .rd then s.reqArrive p else s)

/-- WR (R307). -/
def execWr (p : Packet) (s : State) : Res := .next (if p.opc = .wr then s.reqArrive p else s)

/-- WRP (R307). -/
def execWrp (p : Packet) (s : State) : Res := .next (if p.opc = .wrp then s.reqArrive p else s)

/-- WRM (R307). -/
def execWrm (p : Packet) (s : State) : Res := .next (if p.opc = .wrm then s.reqArrive p else s)

/-- WRMP (R307). -/
def execWrmp (p : Packet) (s : State) : Res := .next (if p.opc = .wrmp then s.reqArrive p else s)

/-- RESV (R317): a guest's reservation is granted once a buffer of the Tun is free, of which there are 16 (DESIGN CHOICE, log 61); a
RESV at any other target is not supported (R307). -/
def execResv (p : Packet) (s : State) : Res :=
  .next (if s.perst || p.opc != .resv then s
    else match s.guestOf p with
      | none => s.arrive p fun t i => t.takeReq s p i
      | some g =>
        if s.guestStopped g then s
        else match s.gfwRefuses g p with
          | some c => s.violation g p c
          | none =>
            let n := SMap.get (fun _ => 0) s.rbGrant g
            if 16 ≤ n then s
            else { s with rbGrant := SMap.set (fun _ => 0) s.rbGrant g (n + 1) }.emit (.packet (responseOf p 0 [])))

/-! ## Responses (R309) -/

/-- A part of a BAR read is answered; the read completes with its last part, in address order, with the status of the first that failed
(R384). -/
def State.barPart (s : State) (rd tag status : Nat) (data : List Byte) : State :=
  match s.barRds.find? fun r => r.tag == rd with
  | none => s
  | some r =>
    let parts := r.parts.map fun e => if e.1 == tag && e.2.isNone then (e.1, some (status, data)) else e
    if parts.all fun (e : Nat × Option (Nat × List Byte)) => e.2.isSome then
      let st := (parts.filterMap fun (e : Nat × Option (Nat × List Byte)) => e.2.map (·.1)).foldl (fun x y => if x = 0 then y else x) 0
      { s with barRds := s.barRds.erase r }.emit
        (.hostCpl rd st (if st = 0 ∨ st = 4 then parts.flatMap fun (e : Nat × Option (Nat × List Byte)) => (e.2.getD (0, [])).2 else []))
    else { s with barRds := s.barRds.replace r { r with parts := parts } }

/-- A response at node 64 (R384, R398). -/
def State.hostRsp (s : State) (p : Packet) : State :=
  let tag := p.tag.toNat
  let t := { s with hostTx := SMap.set (fun _ => none) s.hostTx tag none }
  match SMap.get (fun _ => none) s.hostTx tag with
  | none => s
  | some (.bar rd) => t.barPart rd tag p.status.toNat p.data
  | some (.mem write g hpa dpa) => t.memReply write g hpa dpa p.status.toNat p.data

/-- A response at the initiator side of DNP k of position n: the tag is free again (R327). -/
def State.dnpRsp (s : State) (n k : Nat) (p : Packet) : State :=
  let d := s.dnpSt n k
  match d.tags.find? fun q => q.tag == p.tag with
  | none => s
  | some q => (s.setDnp n k { d with tags := d.tags.erase q }).emit (.initiatorRsp n k (p.tag.toNat % 256) p.status.toNat p.data)

/-- A response at its node. Endpoints always accept it (R312); one that waits for nothing is dropped. -/
def State.takeRsp (s s₀ : State) (p : Packet) (i : Nat) : State :=
  let node := p.dnode.toNat
  let dep := p.dep.toNat
  if node < 60 then
    (if dep = 1 ∨ dep = 2 then s.atGrain s₀ p node dep i fun t => t.dnpRsp node (dep - 1) p else s)
  else if node = 64 then s.hostRsp p
  else if node = 69 then s.ringComplete p.status.toNat
  else if 72 ≤ node ∧ node ≤ 75 then s.atTun s₀ p i fun t => t.emit (.packet p)
  else s

/-- A response of a guest or store port: it must answer what the Tun has outstanding there (R320). -/
def State.portRsp (s : State) (k : Nat) (p : Packet) : State :=
  if s.bitF .nocTisoEXT k || (k < 2 && s.guestStopped k) then s
  else match (if k < 2 then s.gfwRefuses k p else none) with
    | some c => s.violation k p c
    | none =>
      match s.rbFind k p (p.opc != .grant) with
      | none => if k < 2 then s.violation k p 2 else s
      | some r => if p.opc = .grant then s.rbGranted k r else s.rbSegDone k r p.status.toNat p.data

/-- A response packet arrives. -/
def State.rspArrive (s : State) (p : Packet) : State :=
  if s.perst then s
  else match (if s.net.contains p then none else s.portOfPkt p) with
    | some k => s.portRsp k p
    | none => s.arrive p fun t i => t.takeRsp s p i

/-- RDATA (R309). -/
def execRdata (p : Packet) (s : State) : Res := .next (if p.opc = .rdata then s.rspArrive p else s)

/-- WCMP (R309). -/
def execWcmp (p : Packet) (s : State) : Res := .next (if p.opc = .wcmp then s.rspArrive p else s)

/-- GRANT (R317). -/
def execGrant (p : Packet) (s : State) : Res := .next (if p.opc = .grant then s.rspArrive p else s)

/-! ## Event messages (R470) -/

/-- An event message at its node. -/
def State.takeEvt (s : State) (node dep : Nat) (m : EvtMsg) : State :=
  if node = 68 then
    match m.ekind.toNat with
    | 0 => s.raise m.evnum.toNat m.payload.toNat
    | 2 => s.ring m.agent.toNat m.tbit.toNat
    | _ => s
  else if node < 60 ∧ dep = 0 ∧ m.ekind = 1 then s.deliverTo node m.evnum.toNat
  else s

/-- EVT (R470): the packet with the message's bits as its payload. -/
def execEvt (p : Packet) (m : EvtMsg) (s : State) : Res :=
  let q := { p with data := evtBytes m.ekind.toNat m.evnum.toNat m.agent.toNat m.tbit.toNat m.payload.toNat }
  let go := s.arrive q fun t _ => t.takeEvt p.dnode.toNat p.dep.toNat m
  .next (if s.perst || p.opc != .evt || p.vn != .evt then s
    else match (if s.net.contains q then none else s.guestOf q) with
      | none => go
      | some g => if s.guestStopped g then s else match s.gfwRefuses g q with
        | some c => s.violation g q c
        | none => go)

/-! ## Design NoC ports (R327, R527) -/

/-- The opcode that I_OPC names, if the port accepts it. -/
def dnpOpc : Nat → Option Opc
  | 0 => some .rd
  | 1 => some .wr
  | 2 => some .wrp
  | 3 => some .wrm
  | 4 => some .wrmp
  | _ => none

/-- The packet of an initiator request for a node and endpoint. -/
def State.dnpPacket (s : State) (n k : Nat) (r : DnpReq) (opc : Opc) (nd : Nat × Nat) : Packet :=
  { dnode := BitVec.ofNat 7 nd.1, dep := BitVec.ofNat 3 nd.2, ddev := r.ddev, snode := BitVec.ofNat 7 n, sep := BitVec.ofNat 3 (1 + k)
    sdev := BitVec.ofNat 8 s.devNum, vn := .req, opc := opc, tag := r.tag.setWidth 12, age := 0, addr := r.addr, lenm1 := r.lenm1
    phint := r.phint, status := 0, segno := 0, split := false, wmask := r.wmask, data := r.data }

/-- A request of a design is sent, with its tag outstanding if it is non-posted. -/
def State.dnpSend (s : State) (n k : Nat) (p : Packet) : State :=
  let d := s.dnpSt n k
  (if isPosted p.opc then s else s.setDnp n k { d with tags := d.tags ++ [p] }).inject p

/-- A request that the port answers itself. -/
def State.dnpAnswer (s : State) (n k : Nat) (r : DnpReq) (posted : Bool) (status : Nat) : State :=
  if posted then s else s.emit (.initiatorRsp n k r.tag.toNat status [])

/-- DNP_REQUEST (R327, R330). A request waits while the port is stopped, its core sleeps or 256 tags are outstanding. -/
def execDnpRequest (d : DnpRef) (r : DnpReq) (s : State) : Res :=
  let n := d.pos.val
  let k := d.k.val
  .next (if !s.released || s.dnpStopped n k || !s.coreRuns n then s
    else match dnpOpc r.opc.toNat with
      | none => s.emit (.initiatorRsp n k r.tag.toNat 3 [])
      | some opc =>
        if !isPosted opc && 256 ≤ (s.dnpSt n k).tags.length then s
        else
          let dt := s.devDecode r.addr.toNat
          match dt.nodeDep with
          | some nd => s.dnpSend n k (s.dnpPacket n k r opc nd)
          | none =>
            match dt with
            | .shadowArea g =>
              if isPosted opc then s.shadowHit g (s.dnpPacket n k r opc (70, 0)) else s.dnpAnswer n k r false 2
            | _ => s.dnpAnswer n k r (isPosted opc) 2)

/-- DNP_RESPONSE (R327, R527): STATUS 0, 4 or 5; one for a retired T_ID is discarded and counted. -/
def execDnpResponse (d : DnpRef) (r : DnpRsp) (s : State) : Res :=
  let n := d.pos.val
  let k := d.k.val
  let x := s.dnpSt n k
  .next (if !s.released || s.dnpStopped n k || !s.coreRuns n then s
    else if x.retired.contains r.id.toNat then s.count .grnNocabsDISCARD 1 (s.phys n)
    else match x.held.find? fun h => h.id == r.id.toNat with
      | none => s
      | some h =>
        if r.status = 0 ∨ r.status = 4 ∨ r.status = 5 then
          (s.setDnp n k { x with held := x.held.erase h }).respond h.pkt r.status.toNat r.data
        else s)

/-- DNP_RESPONSE_TIMEOUT (R527): SLVERR, and the T_ID is retired; not while the port is isolated. -/
def execDnpResponseTimeout (d : DnpRef) (id : BitVec 8) (s : State) : Res :=
  let n := d.pos.val
  let k := d.k.val
  let x := s.dnpSt n k
  .next (match x.held.find? fun h => h.id == id.toNat with
    | none => s
    | some h =>
      if s.isIso (s.phys n) (4 + k) then s
      else (s.setDnp n k { x with held := x.held.erase h, retired := x.retired ++ [id.toNat] }).respond h.pkt 5)

/-- RETIRED_T_ID_REUSE (R527): a further DRSPTMO has passed. -/
def execRetiredTIdReuse (d : DnpRef) (id : BitVec 8) (s : State) : Res :=
  let x := s.dnpSt d.pos d.k
  .next (s.setDnp d.pos d.k { x with retired := x.retired.erase id.toNat })

/-! ## Host accesses through a BAR (R331, R383, R384, R386) -/

/-- The size of a BAR. -/
def barSize : HostBar → Nat
  | .bar0 => 0x4000000
  | .bar2 => 0x100000000
  | .bar4 => 0x20000000000

/-- The device address of BAR offset 0. -/
def barBase : HostBar → Nat
  | .bar0 => 0x40000000000
  | .bar2 => 0x50000000000
  | .bar4 => 0

/-- The packet of node 64 for a device address; none where nothing is there. -/
def State.hostPacket (s : State) (opc : Opc) (a len : Nat) (data : List Byte) : Option Packet := s.engineReq 64 opc a len data

/-- A part of a host read is sent; without a target it is answered ADDRERR at once. -/
def State.barReadPart (s : State) (rd a len : Nat) : State :=
  let tag := s.hostTag
  let add := fun (t : State) (x : Nat) => { t with
    barRds := t.barRds.map fun r => if r.tag == rd then { r with parts := r.parts ++ [(x, none)] } else r }
  match s.hostPacket .rd a len [] with
  | some p => (add s tag).hostSend p (.bar rd)
  | none => add s 4096

/-- A host write: WRP; without a target it is discarded and recorded (R398). -/
def State.barWrite (s : State) (a len : Nat) (data : List Byte) : State :=
  match s.hostPacket .wrp a len data with
  | some p => s.inject p
  | none =>
    match s.devDecode a with
    | .shadowArea r => (s.mempAlarm 5 r a 64).herr a 0
    | _ => s.herr a 0

/-- BAR_ACCESS (R384, R386): the link is up, the BAR is fitted and the access lies in it. -/
def execBarAccess (b : HostBar) (offset : BitVec 41) (write : Bool) (len : Nat) (data : List Byte) (tag : BitVec 10) (s : State) : Res :=
  let o := offset.toNat
  let a := barBase b + o
  let rd := tag.toNat
  .next (if s.perst || !s.isSet .cxlLnkstatUP || len = 0 || barSize b < o + len || (b = .bar4 && s.part.optX) then s
    else if b = .bar4 && s.bar4Gated then
      let t := s.gateHit4 o
      if write then t else t.emit (.hostCpl rd 0 (List.replicate len 0))
    else if write then s.barWrite a len data
    else
      let t := { s with barRds := s.barRds ++ [(⟨rd, []⟩ : BarRd)] }
      let u := (segList (len / 4096 + 2) a len 4096).foldl (fun v e => v.barReadPart rd e.1 e.2) t
      (u.barRds.flatMap fun r => if r.tag == rd then (r.parts.filter fun e => e.1 == 4096) else []).foldl
        (fun v _ => v.barPart rd 4096 2 []) u)

end Sys2Proof.Machine
end

