-- ==== Sys2Proof/Machine/Pins.lean ====
section
/-! DEFINITION. Pins (R254, R257, R379, R477, R478, R491–R498): supply rails, bank voltage, and what each class of pin shows, as a
function of the state. -/

namespace Sys2Proof.Machine

/-! ## Commands -/

/-- VCCO_CHANGE (R494): VSENSE reads 0 while VCCO is absent. Only perimeter banks have a supply. -/
def execVccoChange (pos : Pos) (present : Bool) (level : BitVec 2) (s : State) : Res :=
  let p := s.phys pos
  .next (if interior pos then s else
    ((s.setF .grnIostatVPRES present.toNat p).setF .grnIostatVSENSE (if present then level.toNat else 0) p).bankCheck pos)

/-- RAIL_OUT_OF_RANGE (R497, R498, R515). -/
def execRailOutOfRange (r : Rail) (s : State) : Res :=
  .next (if s.railsBad.contains r then s else { s with railsBad := s.railsBad ++ [r] })

/-- RAIL_IN_OPERATING_CONDITIONS (R498, R515). -/
def execRailInOperatingConditions (r : Rail) (s : State) : Res := .next { s with railsBad := s.railsBad.erase r }

/-! ## What pins show -/

/-- The drive of a pin. -/
inductive PinDrive where
  /-- a rail is outside its operating conditions: high-impedance, no pull guaranteed; an output is not driven -/
  | unpowered
  /-- high-impedance with the weak pull CFGPULL selects (up: true) -/
  | weakPull (up : Bool)
  | low
  | high
  /-- held as it stood before clamps engaged or steeping began -/
  | held
  /-- transmitter in electrical idle -/
  | electricalIdle
  /-- transmitter sends idles -/
  | idles
  | off
  /-- as the design, the TMU or the channel controller drives it -/
  | live
  /-- as the boundary-scan cells set it -/
  | scan
  deriving DecidableEq, Repr

/-- A boundary-scan instruction that drives pins is in force (R498, R499). -/
def State.scanDrives (s : State) : Bool := [JtagIr.extest, .highz, .clamp].contains s.jtag.ir

/-- No design drives pins: PERST_N asserted, before release, or FAILED (R257, R260). -/
def State.preRelease? (s : State) : Bool := s.perst || !s.released

/-- The weak pull of R257. -/
def State.weak (s : State) : PinDrive := .weakPull (s.isSet .kilnStatCFGPULL)

/-- The floor that owns pin k of position n, if it steeps: its PINREST (R270, R271). -/
def State.pinRest (s : State) (n k : Nat) : Option Nat :=
  (List.range 64).findSome? fun f =>
    let d := (s.frame n (faddrOf 8 f)).data
    if s.touches f n && s.steeping f && d.testBit (336 + k) then some (bits d (376 + 2 * k) 2) else none

/-- The bank does not drive: no VCCO, or another level than declared (R494). -/
def State.bankStopped (s : State) (n : Nat) : Bool :=
  let p := s.phys n
  !s.isSet .grnIostatVPRES p || (s.isSet .grnIostatDECLVALID p && s.getF .grnIostatVSENSE p != s.getF .grnIostatVDECL p)

/-- User I/O pin k of position n (R257, R271, R477, R478, R494, R498). -/
def State.ioPin (s : State) (n k : Nat) : PinDrive :=
  if !s.railsBad.isEmpty then .unpowered
  else if s.scanDrives then .scan
  else if s.preRelease? || s.phyOff n || s.bankStopped n || (s.posSt n).inReset || s.isOos n then s.weak
  else match s.pinRest n k with
    | some 0 => s.weak
    | some 1 => .low
    | some 2 => .high
    | some _ => .held
    | none => if s.isSet .pwrDstatISO n then .held else .live

/-- The transmitter of lane 8n + i (R257, R440, R442, R477, R478, R498). -/
def State.txPin (s : State) (l : Nat) : PinDrive :=
  if !s.railsBad.isEmpty then .unpowered
  else if s.preRelease? || s.phyOff (lanePos l) || 1 ≤ s.getF .xcvrLstatPSTATE l then .electricalIdle
  else if s.laneMode l = 1 && (s.portStopped (lanePos l) || s.isSet .pwrDstatISO (lanePos l)) then .idles
  else .live

/-- RESET_n of channel m (R257, R341, R478, R498): low until training drives it, and while the channel's domain is Off. -/
def State.resetPin (s : State) (m : Nat) : PinDrive :=
  if !s.railsBad.isEmpty then .unpowered
  else if s.scanDrives then .scan
  else if s.perst || s.getF .pwrDstatSTATE (256 + m) = 3 then .low
  else if [3, 4, 5].contains (s.getF .ddrStatSTATE m) then .live else .low

/-- TRIG k (R257, R425, R498). -/
def State.trigPin (s : State) : PinDrive :=
  if !s.railsBad.isEmpty then .unpowered else if s.scanDrives then .scan else if s.preRelease? then .off else .live

/-- PPS_OUT (R257, R426, R525). -/
def State.ppsPin (s : State) : PinDrive :=
  if !s.railsBad.isEmpty then .unpowered else if s.scanDrives then .scan
  else if s.perst || !s.isSet .tmuPpsctlEN then .low else .live

/-- ALARM_N is driven low (R254, R257, R379). -/
def State.alarmLow (s : State) : Bool :=
  !s.perst && (s.getF .kilnStatSTATE == 9 || s.getF .mempAlarmstatSEEN &&& s.getF .mempAlarmctlPINEN != 0)

end Sys2Proof.Machine
end

