-- ==== Sys2Proof/Machine/System.lean ====
section
/-! DEFINITION. Device reset and the start of the part (R146, R247, R254, R255, R514). -/

namespace Sys2Proof.Machine

/-- What a device reset keeps: the part, its fuses, key RAM and store with the repair record, what the test access port holds, the
supplies, and what their sensors show (R255, R501, R514). -/
def State.deviceReset (s : State) : State :=
  let t := { State.reset with
    part := s.part, store := s.store, repair := s.repair, fuses := s.fuses, fuseNow := s.fuseNow, keyRam := s.keyRam, jtag := s.jtag
    railsBad := s.railsBad, pending := s.pending, out := s.out, freeCtr := s.freeCtr }
  State.each 64 (fun p u =>
    (u.setF .grnIostatVPRES (s.getF .grnIostatVPRES p) p).setF .grnIostatVSENSE (s.getF .grnIostatVSENSE p) p) t

/-- PERST_N_ASSERT (R255): every die stops; a load in progress is abandoned. -/
def execPerstNAssert (s : State) : Res := .next s.deviceReset

/-- The root starts on a reference that is qualified already, REFCLK first (R146). -/
def State.rootStart (s : State) : State :=
  if s.isSet .clkRootstatREF0OK then s.rootOnQualified .refclk
  else if s.isSet .clkRootstatREF1OK then s.rootOnQualified .refclk2 else s

/-- PERST_N_DEASSERT (R244, R247 step 1, R496, R500): straps and fuses are latched; a JTAG operation in progress is abandoned. -/
def execPerstNDeassert (bootsel : BitVec 2) (cfgpull : Bool) (s : State) : Res :=
  .next (if !s.perst then s else
    let erase := match s.jtag.op with
      | some (.slotprog _) => true
      | some (.fuseprog _ _) | some (.keyram _) | none => false
    let t := ({ (if erase then s.eraseSlot0 else s) with perst := false, fuseNow := s.fuses }).jtagAbandon
    let u := ((t.setF .kilnStatBOOTSEL bootsel.toNat).setF .kilnStatCFGPULL cfgpull.toNat).setF .kilnStatKEYSEL t.keySel.toNat
    (u.setF .kilnStatSTATE 1).rootStart)

/-- ROOT_LOCK (R146, R247 steps 2 and 3, R254): device time starts at 0, firmware copy A or B is started, or the Kiln stops in state
FAILED. No command carries the time from t = 0 to this lock, which is free. -/
def execRootLock (fwA fwB : Bool) (s : State) : Res :=
  .next (if s.perst || s.root != .locking then s else
    let x := s.free
    let t := { x.2 with root := .locked, lockNs := x.1, ran39 := 0, fw := if fwA || fwB then .running else .failed }
    let u := (t.setOn .clkRootstatLOCK).setF .kilnStatSTATE 2
    if fwA || fwB then u else (u.loadLog 0x22 3 0x3F 0).kilnFailed)

end Sys2Proof.Machine
end

