-- ==== Sys2Proof/Machine/Dispatch.lean ====
section
/-! DEFINITION. What each command does: one arm per constructor of Instr, each a direct call of its meaning. -/

namespace Sys2Proof.Machine

def exec (i : Instr) (s : State) : Host.Outcome State Fault Refusal :=
  match i with
  | .registerWrite a => Sys2Proof.Machine.execRegisterWrite a s
  | .gatedAccess t => Sys2Proof.Machine.execGatedAccess t s
  | .unmappedAccess a => Sys2Proof.Machine.execUnmappedAccess a s
  | .featureAcknowledge idx w => Sys2Proof.Machine.execFeatureAcknowledge idx w s
  | .featureLock => Sys2Proof.Machine.execFeatureLock s
  | .perstNAssert => Sys2Proof.Machine.execPerstNAssert s
  | .perstNDeassert bootsel cfgpull => Sys2Proof.Machine.execPerstNDeassert bootsel cfgpull s
  | .measurementWindowEnd r edges continuous => Sys2Proof.Machine.execMeasurementWindowEnd r edges continuous s
  | .referenceLossInterval r => Sys2Proof.Machine.execReferenceLossInterval r s
  | .rootLock fwA fwB => Sys2Proof.Machine.execRootLock fwA fwB s
  | .switchComplete => Sys2Proof.Machine.execSwitchComplete s
  | .rootRelock => Sys2Proof.Machine.execRootRelock s
  | .refselWrite w => Sys2Proof.Machine.execRefselWrite w s
  | .upllReferenceLoss pos u => Sys2Proof.Machine.execUpllReferenceLoss pos u s
  | .upllRelock pos u => Sys2Proof.Machine.execUpllRelock pos u s
  | .upllUnlock pos u => Sys2Proof.Machine.execUpllUnlock pos u s
  | .trimWindowEnd m => Sys2Proof.Machine.execTrimWindowEnd m s
  | .trimSourceLost => Sys2Proof.Machine.execTrimSourceLost s
  | .troexpWrite w => Sys2Proof.Machine.execTroexpWrite w s
  | .troctlWrite w => Sys2Proof.Machine.execTroctlWrite w s
  | .grainTroTrimmed p => Sys2Proof.Machine.execGrainTroTrimmed p s
  | .fmStart w => Sys2Proof.Machine.execFmStart w s
  | .fmMeasurementDone count => Sys2Proof.Machine.execFmMeasurementDone count s
  | .fmGateTimeout count => Sys2Proof.Machine.execFmGateTimeout count s
  | .clkenWrite w => Sys2Proof.Machine.execClkenWrite w s
  | .unitGated b => Sys2Proof.Machine.execUnitGated b s
  | .unitUngated b => Sys2Proof.Machine.execUnitUngated b s
  | .clockAdopted l => Sys2Proof.Machine.execClockAdopted l s
  | .linkTrainingDone l bad => Sys2Proof.Machine.execLinkTrainingDone l bad s
  | .discoveryToken d port => Sys2Proof.Machine.execDiscoveryToken d port s
  | .discoveryAnswer d a => Sys2Proof.Machine.execDiscoveryAnswer d a s
  | .discoveryComplete adjacencyOk dimms => Sys2Proof.Machine.execDiscoveryComplete adjacencyOk dimms s
  | .headerCheck => Sys2Proof.Machine.execHeaderCheck s
  | .trailerCheck => Sys2Proof.Machine.execTrailerCheck s
  | .frameRecord pos readError readBack => Sys2Proof.Machine.execFrameRecord pos readError readBack s
  | .grainNoProgress pos => Sys2Proof.Machine.execGrainNoProgress pos s
  | .finalChecks => Sys2Proof.Machine.execFinalChecks s
  | .grainClearDone => Sys2Proof.Machine.execGrainClearDone s
  | .reload w => Sys2Proof.Machine.execReload w s
  | .heldReloadStart => Sys2Proof.Machine.execHeldReloadStart s
  | .slotProgramStart w => Sys2Proof.Machine.execSlotProgramStart w s
  | .slotProgramDone writeFailed memError => Sys2Proof.Machine.execSlotProgramDone writeFailed memError s
  | .attestationRequest w => Sys2Proof.Machine.execAttestationRequest w s
  | .attestationReport => Sys2Proof.Machine.execAttestationReport s
  | .pitchSchedule w => Sys2Proof.Machine.execPitchSchedule w s
  | .pitchSend r => Sys2Proof.Machine.execPitchSend r s
  | .releasePitch => Sys2Proof.Machine.execReleasePitch s
  | .floorStartPitch => Sys2Proof.Machine.execFloorStartPitch s
  | .floorReleasePitch => Sys2Proof.Machine.execFloorReleasePitch s
  | .capturePitch r => Sys2Proof.Machine.execCapturePitch r s
  | .freezePitch r => Sys2Proof.Machine.execFreezePitch r s
  | .thawPitch r => Sys2Proof.Machine.execThawPitch r s
  | .switchoverPitch => Sys2Proof.Machine.execSwitchoverPitch s
  | .abortPitch => Sys2Proof.Machine.execAbortPitch s
  | .designPitch r => Sys2Proof.Machine.execDesignPitch r s
  | .captureComplete => Sys2Proof.Machine.execCaptureComplete s
  | .capselRequest k sel lead => Sys2Proof.Machine.execCapselRequest k sel lead s
  | .spargePassStart pos => Sys2Proof.Machine.execSpargePassStart pos s
  | .frameCheck pos => Sys2Proof.Machine.execFrameCheck pos s
  | .frameRewrite pos faddr sourceOk readBack => Sys2Proof.Machine.execFrameRewrite pos faddr sourceOk readBack s
  | .findingPop w => Sys2Proof.Machine.execFindingPop w s
  | .configUpset pos faddr flips => Sys2Proof.Machine.execConfigUpset pos faddr flips s
  | .spanGateEvent pos sp => Sys2Proof.Machine.execSpanGateEvent pos sp s
  | .accessReadJob w => Sys2Proof.Machine.execAccessReadJob w s
  | .accessWriteJob w => Sys2Proof.Machine.execAccessWriteJob w s
  | .accessRestoreJob w => Sys2Proof.Machine.execAccessRestoreJob w s
  | .accessFrame memError => Sys2Proof.Machine.execAccessFrame memError s
  | .partialLoadStart w => Sys2Proof.Machine.execPartialLoadStart w s
  | .partialHeaderCheck => Sys2Proof.Machine.execPartialHeaderCheck s
  | .floorClearDone => Sys2Proof.Machine.execFloorClearDone s
  | .partialRecord pos readError readBack => Sys2Proof.Machine.execPartialRecord pos readError readBack s
  | .partialFinalChecks => Sys2Proof.Machine.execPartialFinalChecks s
  | .floorBaseRewriteDone ok => Sys2Proof.Machine.execFloorBaseRewriteDone ok s
  | .remapRequest r f => Sys2Proof.Machine.execRemapRequest r f s
  | .sparePrepared linkFault => Sys2Proof.Machine.execSparePrepared linkFault s
  | .remapWriteDone ok oldReadable => Sys2Proof.Machine.execRemapWriteDone ok oldReadable s
  | .remapFinish => Sys2Proof.Machine.execRemapFinish s
  | .holdWrite w lowHalf highHalf => Sys2Proof.Machine.execHoldWrite w lowHalf highHalf s
  | .holdRelease pos => Sys2Proof.Machine.execHoldRelease pos s
  | .grainClockLoss p => Sys2Proof.Machine.execGrainClockLoss p s
  | .clockRegained l => Sys2Proof.Machine.execClockRegained l s
  | .orphan p => Sys2Proof.Machine.execOrphan p s
  | .orphanTimeout p => Sys2Proof.Machine.execOrphanTimeout p s
  | .clockLaneLoss l noc => Sys2Proof.Machine.execClockLaneLoss l noc s
  | .missingClockDetect l => Sys2Proof.Machine.execMissingClockDetect l s
  | .marginWindowEnd l lane count => Sys2Proof.Machine.execMarginWindowEnd l lane count s
  | .spareCopyRequest l => Sys2Proof.Machine.execSpareCopyRequest l s
  | .spareQualified l => Sys2Proof.Machine.execSpareQualified l s
  | .spareCompareTimeout l spareHadMargin => Sys2Proof.Machine.execSpareCompareTimeout l spareHadMargin s
  | .laneDeath l lane => Sys2Proof.Machine.execLaneDeath l lane s
  | .deadLaneMoved l lane => Sys2Proof.Machine.execDeadLaneMoved l lane s
  | .foldChange l => Sys2Proof.Machine.execFoldChange l s
  | .nocFlitReplay l => Sys2Proof.Machine.execNocFlitReplay l s
  | .groupCrcFailure l group seq => Sys2Proof.Machine.execGroupCrcFailure l group seq s
  | .xePush x word => Sys2Proof.Machine.execXePush x word s
  | .xePop x => Sys2Proof.Machine.execXePop x s
  | .creditReturn x n => Sys2Proof.Machine.execCreditReturn x n s
  | .wordLanded x => Sys2Proof.Machine.execWordLanded x s
  | .xeResync x => Sys2Proof.Machine.execXeResync x s
  | .asyncSetReset t line => Sys2Proof.Machine.execAsyncSetReset t line s
  | .blockRead pos b pins => Sys2Proof.Machine.execBlockRead pos b pins s
  | .blockWrite pos b pins => Sys2Proof.Machine.execBlockWrite pos b pins s
  | .outputReset pos b portB => Sys2Proof.Machine.execOutputReset pos b portB s
  | .nop r p => Sys2Proof.Machine.execNop r p s
  | .mul r p => Sys2Proof.Machine.execMul r p s
  | .mac r p => Sys2Proof.Machine.execMac r p s
  | .macc r p => Sys2Proof.Machine.execMacc r p s
  | .lda r p => Sys2Proof.Machine.execLda r p s
  | .cwr r p => Sys2Proof.Machine.execCwr r p s
  | .agset r p => Sys2Proof.Machine.execAgset r p s
  | .acs r p => Sys2Proof.Machine.execAcs r p s
  | .minmax r p => Sys2Proof.Machine.execMinmax r p s
  | .illegalOperation r opc p => Sys2Proof.Machine.execIllegalOperation r opc p s
  | .sliceReset r => Sys2Proof.Machine.execSliceReset r s
  | .rd p => Sys2Proof.Machine.execRd p s
  | .wr p => Sys2Proof.Machine.execWr p s
  | .wrp p => Sys2Proof.Machine.execWrp p s
  | .wrm p => Sys2Proof.Machine.execWrm p s
  | .wrmp p => Sys2Proof.Machine.execWrmp p s
  | .resv p => Sys2Proof.Machine.execResv p s
  | .rdata p => Sys2Proof.Machine.execRdata p s
  | .wcmp p => Sys2Proof.Machine.execWcmp p s
  | .grant p => Sys2Proof.Machine.execGrant p s
  | .evt p m => Sys2Proof.Machine.execEvt p m s
  | .routeSwitch w src => Sys2Proof.Machine.execRouteSwitch w src s
  | .routeSwitchDone => Sys2Proof.Machine.execRouteSwitchDone s
  | .drainTimeout => Sys2Proof.Machine.execDrainTimeout s
  | .targetTimeout t => Sys2Proof.Machine.execTargetTimeout t s
  | .declareDead t src => Sys2Proof.Machine.execDeclareDead t src s
  | .clearIsolation t src => Sys2Proof.Machine.execClearIsolation t src s
  | .wakeTimeout pos home => Sys2Proof.Machine.execWakeTimeout pos home s
  | .dnpRequest d r => Sys2Proof.Machine.execDnpRequest d r s
  | .dnpResponse d r => Sys2Proof.Machine.execDnpResponse d r s
  | .dnpResponseTimeout d id => Sys2Proof.Machine.execDnpResponseTimeout d id s
  | .barAccess b offset write len data tag => Sys2Proof.Machine.execBarAccess b offset write len data tag s
  | .trainingStepDone m => Sys2Proof.Machine.execTrainingStepDone m s
  | .trainingAttemptFail m => Sys2Proof.Machine.execTrainingAttemptFail m s
  | .trainingTimeout m => Sys2Proof.Machine.execTrainingTimeout m s
  | .retrain m w => Sys2Proof.Machine.execRetrain m w s
  | .retrainPulseEnd m => Sys2Proof.Machine.execRetrainPulseEnd m s
  | .refresh m => Sys2Proof.Machine.execRefresh m s
  | .dramCommandIssue m sub c => Sys2Proof.Machine.execDramCommandIssue m sub c s
  | .dramReadData m err => Sys2Proof.Machine.execDramReadData m err s
  | .writeDrain m rmwUncorrectable => Sys2Proof.Machine.execWriteDrain m rmwUncorrectable s
  | .pageTimeout m bank rank => Sys2Proof.Machine.execPageTimeout m bank rank s
  | .spdTemperatureRead m reading => Sys2Proof.Machine.execSpdTemperatureRead m reading s
  | .keyAlloc k => Sys2Proof.Machine.execKeyAlloc k s
  | .keyRetire k => Sys2Proof.Machine.execKeyRetire k s
  | .keyRetireDone k => Sys2Proof.Machine.execKeyRetireDone k s
  | .regionEnable r w => Sys2Proof.Machine.execRegionEnable r w s
  | .regionInitDone r => Sys2Proof.Machine.execRegionInitDone r s
  | .regionDisable r w => Sys2Proof.Machine.execRegionDisable r w s
  | .protectedLineOperation l => Sys2Proof.Machine.execProtectedLineOperation l s
  | .walkStart r w => Sys2Proof.Machine.execWalkStart r w s
  | .walkStep r evict mdecc => Sys2Proof.Machine.execWalkStep r evict mdecc s
  | .memrd hpa tag => Sys2Proof.Machine.execMemrd hpa tag s
  | .memwr m => Sys2Proof.Machine.execMemwr m s
  | .biasFlipToHostDone page => Sys2Proof.Machine.execBiasFlipToHostDone page s
  | .biasCommand w => Sys2Proof.Machine.execBiasCommand w s
  | .biasQuery w => Sys2Proof.Machine.execBiasQuery w s
  | .biasFlipToDeviceDone page => Sys2Proof.Machine.execBiasFlipToDeviceDone page s
  | .hostSnoop k hpa => Sys2Proof.Machine.execHostSnoop k hpa s
  | .hostResponse a => Sys2Proof.Machine.execHostResponse a s
  | .hostTimeout hpa => Sys2Proof.Machine.execHostTimeout hpa s
  | .flush => Sys2Proof.Machine.execFlush s
  | .flushDone => Sys2Proof.Machine.execFlushDone s
  | .linkDown => Sys2Proof.Machine.execLinkDown s
  | .linkUp speed width cxl cacheEn memEn msixEn => Sys2Proof.Machine.execLinkUp speed width cxl cacheEn memEn msixEn s
  | .hdmCommit k base size skip ways granule way => Sys2Proof.Machine.execHdmCommit k base size skip ways granule way s
  | .incWrite w => Sys2Proof.Machine.execIncWrite w s
  | .stepgo w => Sys2Proof.Machine.execStepgo w s
  | .correctionBoundary => Sys2Proof.Machine.execCorrectionBoundary s
  | .holdover => Sys2Proof.Machine.execHoldover s
  | .replicaCheck => Sys2Proof.Machine.execReplicaCheck s
  | .triggerInputEdge k falling time spaced => Sys2Proof.Machine.execTriggerInputEdge k falling time spaced s
  | .ppsInEdge falling time => Sys2Proof.Machine.execPpsInEdge falling time s
  | .tsreq pos => Sys2Proof.Machine.execTsreq pos s
  | .laneSymbolCapture x => Sys2Proof.Machine.execLaneSymbolCapture x s
  | .ringWrite => Sys2Proof.Machine.execRingWrite s
  | .ringEnable w => Sys2Proof.Machine.execRingEnable w s
  | .capturePathFail code => Sys2Proof.Machine.execCapturePathFail code s
  | .windowEnable k w => Sys2Proof.Machine.execWindowEnable k w s
  | .occurrenceEnd k => Sys2Proof.Machine.execOccurrenceEnd k s
  | .timerArm c w => Sys2Proof.Machine.execTimerArm c w s
  | .timerDisarm c w => Sys2Proof.Machine.execTimerDisarm c w s
  | .timerFire c => Sys2Proof.Machine.execTimerFire c s
  | .timedLineSend c => Sys2Proof.Machine.execTimedLineSend c s
  | .triggerPulseEnd k => Sys2Proof.Machine.execTriggerPulseEnd k s
  | .ppsOutPulse => Sys2Proof.Machine.execPpsOutPulse s
  | .ppsOutPulseEnd => Sys2Proof.Machine.execPpsOutPulseEnd s
  | .qpllWrite l w => Sys2Proof.Machine.execQpllWrite l w s
  | .signalDetected l => Sys2Proof.Machine.execSignalDetected l s
  | .commaFound l => Sys2Proof.Machine.execCommaFound l s
  | .validSymbolRun l => Sys2Proof.Machine.execValidSymbolRun l s
  | .invalidSymbol l disparity => Sys2Proof.Machine.execInvalidSymbol l disparity s
  | .laneDown l signal cdr => Sys2Proof.Machine.execLaneDown l signal cdr s
  | .txBeat l data k sent => Sys2Proof.Machine.execTxBeat l data k sent s
  | .rxBeat l data k bv err taken => Sys2Proof.Machine.execRxBeat l data k bv err taken s
  | .bondAligned l within => Sys2Proof.Machine.execBondAligned l within s
  | .lanePowerRequest l w => Sys2Proof.Machine.execLanePowerRequest l w s
  | .standbyTimeout l => Sys2Proof.Machine.execStandbyTimeout l s
  | .sleepTimeout l => Sys2Proof.Machine.execSleepTimeout l s
  | .laneExitDone l => Sys2Proof.Machine.execLaneExitDone l s
  | .checkerLock l => Sys2Proof.Machine.execCheckerLock l s
  | .checkerLost l errs bits => Sys2Proof.Machine.execCheckerLost l errs bits s
  | .checkerClear l w => Sys2Proof.Machine.execCheckerClear l w s
  | .injectGo l w => Sys2Proof.Machine.execInjectGo l w s
  | .wortLinkEnable k => Sys2Proof.Machine.execWortLinkEnable k s
  | .wortLinkDisable k => Sys2Proof.Machine.execWortLinkDisable k s
  | .wortFrame k lane frameNo skipAdjust => Sys2Proof.Machine.execWortFrame k lane frameNo skipAdjust s
  | .cell k c => Sys2Proof.Machine.execCell k c s
  | .linkCell k farUp nextSet => Sys2Proof.Machine.execLinkCell k farUp nextSet s
  | .wortDiscovery devs self routes peers => Sys2Proof.Machine.execWortDiscovery devs self routes peers s
  | .wortLinkDownTimeout k => Sys2Proof.Machine.execWortLinkDownTimeout k s
  | .go c endB src => Sys2Proof.Machine.execGo c endB src s
  | .take c endB src => Sys2Proof.Machine.execTake c endB src s
  | .messageWrite c idx w src => Sys2Proof.Machine.execMessageWrite c idx w src s
  | .push c endB w src => Sys2Proof.Machine.execPush c endB w src s
  | .pop c endB src tag => Sys2Proof.Machine.execPop c endB src tag s
  | .caskCfgWrite c w src => Sys2Proof.Machine.execCaskCfgWrite c w src s
  | .caskEndWrite c endB w src => Sys2Proof.Machine.execCaskEndWrite c endB w src s
  | .eventRaise e payload => Sys2Proof.Machine.execEventRaise e payload s
  | .eventDelivery e => Sys2Proof.Machine.execEventDelivery e s
  | .msixSend v => Sys2Proof.Machine.execMsixSend v s
  | .tapClear a bits tapclrPin => Sys2Proof.Machine.execTapClear a bits tapclrPin s
  | .tapMaskWrite a w => Sys2Proof.Machine.execTapMaskWrite a w s
  | .evtake pos => Sys2Proof.Machine.execEvtake pos s
  | .powerRequest d w src => Sys2Proof.Machine.execPowerRequest d w src s
  | .deferredRequestApply d => Sys2Proof.Machine.execDeferredRequestApply d s
  | .autoDoze d => Sys2Proof.Machine.execAutoDoze d s
  | .autoRetain d => Sys2Proof.Machine.execAutoRetain d s
  | .wake d c => Sys2Proof.Machine.execWake d c s
  | .transitionComplete d => Sys2Proof.Machine.execTransitionComplete d s
  | .offWakeRewriteDone pos => Sys2Proof.Machine.execOffWakeRewriteDone pos s
  | .clampRelease pos => Sys2Proof.Machine.execClampRelease pos s
  | .residencyClear => Sys2Proof.Machine.execResidencyClear s
  | .extest => Sys2Proof.Machine.execExtest s
  | .idcode => Sys2Proof.Machine.execIdcode s
  | .samplePreload cells => Sys2Proof.Machine.execSamplePreload cells s
  | .highz => Sys2Proof.Machine.execHighz s
  | .clamp => Sys2Proof.Machine.execClamp s
  | .fuseprog row data => Sys2Proof.Machine.execFuseprog row data s
  | .keyram key => Sys2Proof.Machine.execKeyram key s
  | .slotprog length bytes => Sys2Proof.Machine.execSlotprog length bytes s
  | .status => Sys2Proof.Machine.execStatus s
  | .bypass => Sys2Proof.Machine.execBypass s
  | .jtagOperationDone => Sys2Proof.Machine.execJtagOperationDone s
  | .vccoChange pos present level => Sys2Proof.Machine.execVccoChange pos present level s
  | .railOutOfRange r => Sys2Proof.Machine.execRailOutOfRange r s
  | .activeClockEdge t line a recoveryViolated => Sys2Proof.Machine.execActiveClockEdge t line a recoveryViolated s
  | .asyncSetResetRelease t line a removalViolated => Sys2Proof.Machine.execAsyncSetResetRelease t line a removalViolated s
  | .crossingClockEdge ds => Sys2Proof.Machine.execCrossingClockEdge ds s
  | .timeClockTick => Sys2Proof.Machine.execTimeClockTick s
  | .upllLock pos u => Sys2Proof.Machine.execUpllLock pos u s
  | .clockLaneReturn l noc => Sys2Proof.Machine.execClockLaneReturn l noc s
  | .qpllLock l => Sys2Proof.Machine.execQpllLock l s
  | .qpllLossOfLock l => Sys2Proof.Machine.execQpllLossOfLock l s
  | .railInOperatingConditions r => Sys2Proof.Machine.execRailInOperatingConditions r s
  | .retiredTIdReuse d id => Sys2Proof.Machine.execRetiredTIdReuse d id s
  | .storedBitFlip pos w flips => Sys2Proof.Machine.execStoredBitFlip pos w flips s

end Sys2Proof.Machine
end

