-- ==== Sys2Proof/WellFormed.lean ====
section
/-! DEFINITION. Well-formed commands: the terms of `Instr` that something outside the part can be. A term that fails the check stands
for no command; its meaning leaves the state unchanged or is never asked for. -/

namespace Sys2Proof

/-- The data of a packet has the length its header gives: the 64 bytes of the line for a masked write, LENM1 + 1 for a write or RDATA,
none otherwise (R306, R307). -/
def Packet.dataOk (p : Packet) : Bool :=
  match p.opc with
  | .wr | .wrp => p.data.length == p.lenm1.toNat + 1
  | .wrm | .wrmp => p.data.length == 64 && p.lenm1 == 63
  | .rdata => p.data.length == p.lenm1.toNat + 1 || p.data.isEmpty
  | .rd | .resv | .wcmp | .grant => p.data.isEmpty
  | .evt | .other _ => true

/-- A packet of an opcode on the virtual network that carries it (R307). -/
def Packet.is (p : Packet) (o : Opc) (v : Vn) : Bool := p.opc == o && p.vn == v && p.dataOk

/-- A register access moves at least one byte and at most a packet's 4,096; only a write is masked (R306, R511). -/
def Access.wf (a : Access) : Bool := 0 < a.len && a.len ≤ 4096 && (a.write || !a.masked)

/-- An initiator request of a design carries the bytes it writes (R327). -/
def DnpReq.wf (r : DnpReq) : Bool :=
  if r.opc = 1 ∨ r.opc = 2 then r.data.length == r.lenm1.toNat + 1
  else if r.opc = 3 ∨ r.opc = 4 then r.data.length == 64
  else r.data.isEmpty

/-- A compiled crossing takes one to fifteen link directions (R171, R177, R185). -/
def hopsWf (h : List Hop) : Bool := 0 < h.length && h.length ≤ 15

/-- The 64 bytes of a line. -/
def lineBytes (d : List Byte) : Bool := d.length == 64

/-- The command is one that something outside the part can be. -/
def Instr.wf : Instr → Bool
  | .registerWrite a | .unmappedAccess a => a.wf
  | .gatedAccess (.bar0 a) => a.wf
  | .rd p => p.is .rd .req
  | .wr p => p.is .wr .req
  | .wrp p => p.is .wrp .req
  | .wrm p => p.is .wrm .req
  | .wrmp p => p.is .wrmp .req
  | .resv p => p.is .resv .req
  | .rdata p => p.is .rdata .rsp
  | .wcmp p => p.is .wcmp .rsp
  | .grant p => p.is .grant .rsp
  | .evt p _ => p.is .evt .evt
  | .dnpRequest _ r => r.wf
  | .barAccess _ _ write len data _ => 0 < len && (if write then data.length == len else data.isEmpty)
  | .memwr m => lineBytes m.data
  | .hostResponse a => a.go || lineBytes a.data
  | .linkTrainingDone _ bad => decide bad.Nodup
  | .xePush x _ | .xePop x | .creditReturn x _ | .wordLanded x | .xeResync x => hopsWf x.hops
  | .crossingClockEdge ds => ds.all fun d => hopsWf d.1.hops
  | .wortDiscovery devs self routes peers => decide (self < devs.length) && routes.length ≤ 256 && peers.length ≤ 120
  | _ => true

end Sys2Proof
end

