-- ==== Sys2Proof/Safety.lean ====
section
/-! DEFINITION. What a safe run is, in the terms the claims use: a step has a next state, every sparse map of the state stays in its one
canonical form, and every stored register field fits its width. -/

namespace Sys2Proof.Machine

/-- The outcome is a next state. -/
def Answers (o : Res) : Prop := ∃ t, o = .next t

/-- The register store is in canonical form. -/
def State.regsCanonical (s : State) : Bool := SMap.wf (regDefault s.part) s.regs

/-- Every register value that is stored fits the width of its field (R11). -/
def State.regsFit (s : State) : Bool :=
  s.regs.all fun e => decide (e.2 < 2 ^ (Fld.ofNat (e.1 / 0x10000000000)).info.len)

/-- Canonical form of the fabric: frames, flip-flops, shadows, blocks, slices and snapshots. -/
def State.fabricCanonical (s : State) : Bool :=
  SMap.wf (fun _ => CfgFrame.zero) s.cfg && SMap.wf (fun _ => 0) s.base && SMap.wf (fun _ => 0) s.shelfF &&
  SMap.wf (fun _ => 0) s.q && SMap.wf (fun _ => 0) s.srOn && SMap.wf (fun _ => 0) s.shadow &&
  SMap.wf (fun _ => false) s.frozen && SMap.wf (fun _ => 0) s.ram && SMap.wf (fun _ => 0) s.ramFlip &&
  SMap.wf (fun _ => 0) s.deep && SMap.wf (fun _ => 0) s.deepFlip && SMap.wf (fun _ => 0) s.coef &&
  SMap.wf (fun _ => 0) s.coefFlip && SMap.wf (fun _ => none) s.bport && SMap.wf (fun _ => none) s.blast &&
  SMap.wf (fun _ => SliceSt.zero) s.slices && SMap.wf (fun _ => 0) s.snap

/-- Canonical form of crossings, die links, discovery, the store and the Kiln. -/
def State.linksCanonical (s : State) : Bool :=
  SMap.wf (fun _ => PosSt.initial) s.pos && SMap.wf (fun _ => XrSt.initial) s.xr && SMap.wf (fun _ => XeSt.idle) s.xe &&
  SMap.wf (fun _ => 0) s.xfail && SMap.wf (fun _ => LinkSt.initial) s.link && SMap.wf (fun _ => ClkSt.initial) s.clk &&
  SMap.wf (fun _ => 0) s.tokens && SMap.wf (fun _ => none) s.answers && SMap.wf (fun _ => false) s.oos &&
  SMap.wf (fun _ => none) s.store && SMap.wf (fun _ => 0) s.floorTab && SMap.wf (fun _ => none) s.shelf &&
  SMap.wf (fun _ => none) s.pitches && SMap.wf (fun _ => SpgSt.initial) s.spg && SMap.wf (fun _ => false) s.capselBusy &&
  SMap.wf (fun _ => none) s.pwrGo && SMap.wf (fun _ => false) s.pwrRewr && SMap.wf (fun _ => none) s.pwrNext

/-- Canonical form of device memory, its channels, the packet network and inline protection. -/
def State.memoryCanonical (s : State) : Bool :=
  SMap.wf (fun _ => 0) s.mem && SMap.wf (fun _ => ChanSt.initial) s.ddr && SMap.wf (fun _ => none) s.memReqs &&
  SMap.wf (fun _ => none) s.rows && SMap.wf (fun _ => 0) s.devCnt && SMap.wf (fun _ => []) s.held &&
  SMap.wf (fun _ => DnpSt.idle) s.dnp && SMap.wf (fun _ => []) s.rb && SMap.wf (fun _ => 0) s.rbGrant &&
  SMap.wf (fun _ => 2) s.rbRx && SMap.wf (fun _ => 0) s.isoHard && SMap.wf (fun _ => none) s.memp.keys &&
  SMap.wf (fun _ => 0) s.memp.top && SMap.wf (fun _ => none) s.memp.cache && SMap.wf (fun _ => none) s.memp.walk &&
  SMap.wf (fun _ => []) s.memp.jump && SMap.wf (fun _ => false) s.memp.due

/-- Canonical form of events, casks, time, the host link, lanes and wort links. -/
def State.hostCanonical (s : State) : Bool :=
  SMap.wf (fun _ => 0) s.evDone && SMap.wf msixDefault s.msixTab && SMap.wf (fun _ => false) s.msixPba &&
  SMap.wf (fun _ => []) s.evFifo && SMap.wf (fun _ => []) s.caskQ && SMap.wf (fun _ => none) s.replicas &&
  SMap.wf (fun _ => none) s.hiLatch && SMap.wf (fun _ => none) s.trigLeft && SMap.wf (fun _ => 0) s.pathsOut &&
  SMap.wf (fun _ => TmrSt.idle) s.tmr && SMap.wf (fun _ => 0) s.resAcc && SMap.wf (fun _ => 0) s.resFrom &&
  SMap.wf (fun _ => 0) s.secHi && SMap.wf (fun _ => 0) s.fuses && SMap.wf (fun _ => 0) s.fuseNow &&
  SMap.wf (fun _ => []) s.hostPages && SMap.wf (fun _ => none) s.hcache && SMap.wf (fun _ => none) s.cohReqs &&
  SMap.wf (fun _ => none) s.hdm && SMap.wf (fun _ => false) s.hdmErr && SMap.wf (fun _ => none) s.hostTx &&
  SMap.wf (fun _ => []) s.laneTx && SMap.wf (fun _ => []) s.laneRx && SMap.wf (fun _ => false) s.laneExit &&
  SMap.wf (fun _ => 0) s.bond && SMap.wf (fun _ => 0) s.laneCnt && SMap.wf (fun _ => 0) s.chkBits &&
  SMap.wf (fun _ => WortSt.idle) s.wort

/-- Every sparse map of the state is in canonical form: equal contents are equal data. -/
def State.canonical (s : State) : Bool :=
  s.regsCanonical && s.fabricCanonical && s.linksCanonical && s.memoryCanonical && s.hostCanonical

/-! ## How the claims speak of a command's effect -/

/-- The command answers a next state, of which `post` holds. -/
def Gives (c : Instr) (s : State) (post : State → Prop) : Prop := ∃ t, exec c s = .next t ∧ post t

/-- An instance of a register field; instances are numbered below 2^20. -/
abbrev FKey := Fld × Nat × Nat

/-- Instance (i, j) of a field. -/
def fk (f : Fld) (i j : Nat := 0) : FKey := (f, i % 0x100000, j % 0x100000)

/-- Every instance of every register field outside the list reads as before. -/
def SameBut (ks : List FKey) (s t : State) : Prop := ∀ f i j, fk f i j ∉ ks → t.getF f i j = s.getF f i j

/-- The register fields that a raise of source e writes (R468). -/
def evKeys (e : Nat) : List FKey :=
  [fk .evrPayPAYLOAD e, fk .evrRouteCNT e, fk .evrRouteSEEN e, fk .evrRoutePEND e]

/-- Source e has been raised with a payload: it is recorded and counted, PEND is set if a route is enabled, and Ndoec firmware is told
(R468). -/
def Raised (e payload : Nat) (s t : State) : Prop :=
  t.getF .evrPayPAYLOAD e = payload % 2 ^ 64 ∧ t.getF .evrRouteCNT e = min (s.getF .evrRouteCNT e + 1) 0x7FFF ∧
  t.getF .evrRouteSEEN e = 1 ∧ t.getF .evrRoutePEND e = (if s.routed e then 1 else s.getF .evrRoutePEND e) ∧
  t.out = s.out ++ [.fwEvent e payload]

/-- Nothing but register fields of the list changes. -/
def RegsOnly (ks : List FKey) (s t : State) : Prop := SameBut ks s t ∧ { t with regs := s.regs } = s

/-- Nothing but register fields of the list changes, and a message may leave the part. -/
def RegsAndOut (ks : List FKey) (s t : State) : Prop := SameBut ks s t ∧ { t with regs := s.regs, out := s.out } = s

end Sys2Proof.Machine
end

