-- ==== Sys2Proof/Certificates/Slice0/Obligations.lean ====
section
/-! DEFINITION. The statements about the model, for the provers. Each cites the rules of the manual it rests on. -/

open Sys2Proof Sys2Proof.Machine

/-! ## The queue and the whole machine -/

/-- The block takes the command at the front of its queue: a step is that command's effect on the state with the queue's rest; with
nothing in the queue the part idles (the model's choice, log entry 2). -/
def Obligations.StepRunsTheFrontCommand : Prop :=
  (∀ (c : Instr) (rest : List Instr) (s : State), s.pending = c :: rest → step s = exec c { s with pending := rest }) ∧
  (∀ s : State, s.pending = [] → step s = .next s)

/-- No command stops the part: every command has a next state in every state. None changes the queue or the part (its fuses, grade and
options): a step takes exactly the front command away. -/
def Obligations.EveryCommandAnswersAndStepsConsumeOne : Prop :=
  (∀ (c : Instr) (s : State), Answers (exec c s)) ∧
  (∀ s t : State, step s = .next t → t.pending = s.pending.tail ∧ t.part = s.part)

/-- Every step keeps every sparse map of the state, device memory and the register store among them, in its one canonical form. -/
def Obligations.EveryStepKeepsTheCanonicalForm : Prop :=
  ∀ s t : State, s.canonical = true → step s = .next t → t.canonical = true

/-- Every step keeps every stored register value within the width of its field (R11). -/
def Obligations.EveryStepKeepsRegistersInTheirWidth : Prop :=
  ∀ s t : State, s.regsFit = true → step s = .next t → t.regsFit = true

/-- The state after reset meets both invariants, and the reset value of every field fits the field. -/
def Obligations.ResetMeetsTheInvariants : Prop :=
  State.reset.canonical = true ∧ State.reset.regsFit = true ∧
  ∀ (p : Part) (f : Fld) (i : Nat), f.reset p i < 2 ^ f.info.len

/-- Every field reads its Reset column right after reset: TUN_ID spells the family and the part; the home map serves every position; the
clock, power and memory defaults of their tables hold; PERST_N is asserted and nothing waits. -/
def Obligations.ResetValuesOfTheRegisters : Prop :=
  (∀ (f : Fld) (i j : Nat), State.reset.getF f i j = f.reset State.reset.part (i % 0x100000)) ∧
  State.reset.getF .tunIdFAMILY = 0xA5 ∧ State.reset.getF .tunIdPART = 0x60 ∧
  (∀ n : Pos, State.reset.phys n = homeOf n) ∧ (∀ n : Pos, State.reset.posOf (homeOf n) = some n.val) ∧
  State.reset.getF .clkRootcfgAUTOSW = 1 ∧ State.reset.getF .clkTroctlWINLOG = 6 ∧ State.reset.getF .clkTroexpE = 0x10000 ∧
  (∀ d : Domain, State.reset.getF .pwrDstatSTATE d = (if domainHeldOff d then 3 else 0) ∧
    State.reset.getF .pwrDctlIDLE d = 100 ∧ State.reset.getF .pwrDctlRETIDLE d = 100) ∧
  State.reset.getF .nocCtlTMO = 8 ∧ State.reset.getF .nocCtlDRSPTMO = 1000 ∧
  State.reset.perst = true ∧ State.reset.pending = [] ∧ State.reset.out = []

/-- TUN_FEATLOCK, once set, stays set until device reset: no step but the one that asserts PERST_N clears it (R7, R385). -/
def Obligations.FeatureLockHoldsUntilDeviceReset : Prop :=
  ∀ s t : State, s.isSet .tunFeatlockLOCK = true → s.pending.head? ≠ some .perstNAssert → step s = .next t →
    t.isSet .tunFeatlockLOCK = true

/-! ## Registers and features (R5–R7, R11, R167, R385, R504–R513) -/

/-- Registers that a write reaches by the types of their fields alone: every register of a unit other than CASK that no rule gives a
write of its own. -/
def Sys2Proof.plainReg (r : RegName) : Bool :=
  r.info.unit != .cask &&
  !([RegName.tunFeatack, .tunFeatlock, .tunClken, .clkRootcfg, .clkTroctl, .clkTroexp, .clkTrotrim, .clkFmctl, .pwrCtl, .pwrDctl,
    .pwrDstat, .nocRtctl, .nocTiso, .nocTrtaba, .nocTrtabb, .tapPend, .tapMask, .spgFindpop, .capPitchctl, .capPitchtime, .capAccctl,
    .cohCtl, .cohBiascmd, .mempAlarmstat, .mempKeyctl, .mempRgnbase, .mempRgncfg, .mempRgnwalk, .ddrCtl, .tmuInc, .tmuCorr,
    .tmuHoldover, .tmuSteplo, .tmuTsbase, .tmuTscfg, .tmuTsrd, .tmrCtl, .tmrStartlo, .tmrStarthi, .tmrPeriod, .winCtl, .winStartlo,
    .winStarthi, .winEndlo, .winEndhi, .winPeriod, .kilnCtl, .kilnProgctl, .kilnAttctl, .kilnPldctl, .kilnPldtime, .dieRemapctl,
    .dieGrst, .xcvrLcfg, .xcvrQpll, .xcvrLpm, .xcvrPchk, .xcvrPuser, .xcvrInj, .wortLink, .grnNociso, .grnRtaba, .grnRtabb,
    .wortRt] : List RegName).contains r

/-- An access that is performed: of 4 or 8 aligned bytes and not masked, from a source that reaches every unit, at an offset of a unit
that is present, acknowledged and clocked and not powered off there. -/
def Sys2Proof.performed (s : State) (a : Access) : Prop :=
  s.perst = false ∧ accessForm a = true ∧ s.fullSource a.src = true ∧
  ∃ u, Unit0.ofOffset a.offset.toNat = some u ∧ s.offsetGated u a.offset.toNat = false

/-- R11, R511, R512: a 4-byte write of a register without a rule of its own writes each field the access reaches by its type, and a
non-posted one is answered OK; a 4-byte read of a register outside CASK, TMU and PWR_RES changes no register and is answered with the
value of the fields. -/
def Obligations.RegisterAccessGoesByFieldTypes : Prop :=
  ∀ (a : Access) (s : State) (p : RegAt), performed s a → a.posted = false → a.len = 4 →
    RegAt.ofOffset a.offset.toNat = some p → p.reg.info.width ≠ 16 →
    inMsixTab a.offset.toNat = false → inMsixPba a.offset.toNat = false → inCxlComp a.offset.toNat = false →
    (a.write = true → plainReg p.reg = true →
      Gives (.registerWrite a) s fun t =>
        t = (s.writeReg p.reg p.i p.j (a.data.toNat * 2 ^ p.bit &&& 0xFFFFFFFF * 2 ^ p.bit) (0xFFFFFFFF * 2 ^ p.bit)).emit
          (.answer a.src a.tag.toNat 0 0)) ∧
    (a.write = false → p.reg.info.unit ≠ .cask → p.reg.info.unit ≠ .tmu → p.reg ≠ .pwrRes →
      Gives (.registerWrite a) s fun t =>
        t = s.emit (.answer a.src a.tag.toNat 0 (s.readReg p.reg p.i p.j / 2 ^ p.bit % 2 ^ 32)))

/-- R11: what a write of value w, reaching the bits of mask m, leaves in each field of a register: an RW field takes the written bits, a
W1C field loses the bits written 1, a W1S field gains them, RO and WO fields keep what they hold; a field that clears with a W1C bit
is 0 when that bit is written 1. Fields of other registers and other instances stay. -/
def Obligations.WriteByFieldType : Prop :=
  ∀ (s : State) (r : RegName) (i j w m : Nat),
    (∀ f ∈ r.fields,
      let v := w / 2 ^ f.info.lo % 2 ^ f.info.len
      let k := m / 2 ^ f.info.lo % 2 ^ f.info.len
      let old := s.getF f i j % 2 ^ f.info.len
      let new := (s.writeReg r i j w m).getF f i j % 2 ^ f.info.len
      (f.info.type = .rw → new = (old &&& (2 ^ f.info.len - 1 - k)) ||| (v &&& k)) ∧
      (f.info.type = .w1c → new = old &&& (2 ^ f.info.len - 1 - (v &&& k))) ∧
      (f.info.type = .w1s → new = old ||| (v &&& k)) ∧
      ((f.info.type = .ro ∨ f.info.type = .wo) →
        new = old ∨ (new = 0 ∧ ∃ g ∈ r.fields, f ∈ g.info.clears ∧
          (w / 2 ^ g.info.lo % 2 ^ g.info.len) &&& (m / 2 ^ g.info.lo % 2 ^ g.info.len) ≠ 0))) ∧
    (∀ f a b, (f ∉ r.fields ∧ (∀ g ∈ r.fields, f ∉ g.info.clears)) ∨ a % 0x100000 ≠ i % 0x100000 ∨ b % 0x100000 ≠ j % 0x100000 →
      (s.writeReg r i j w m).getF f a b = s.getF f a b) ∧
    { s.writeReg r i j w m with regs := s.regs } = s

/-- R6, R167: a gated access changes no register but the gate record: TUN_GATEHIT counts it (up to its width) and names the unit, and
TUN_GATEADDR holds its offset and source; a non-posted one is answered OK with zeros. A gated BAR4 access records UNIT 31, offset
0x3FF_FFFF with SRC 0, and its BAR4 offset. -/
def Obligations.GatedAccessIsCountedAndReadsZeros : Prop :=
  (∀ (a : Access) (u : Unit0) (s : State), s.perst = false → Unit0.ofOffset a.offset.toNat = some u → s.accessGated a = true →
    ∀ c ∈ [Instr.gatedAccess (.bar0 a), .registerWrite a], Gives c s fun t =>
      t.getF .tunGatehitCOUNT = min (s.getF .tunGatehitCOUNT + 1) 0xFFFFFF ∧ t.getF .tunGatehitUNIT = u.bit ∧
      t.getF .tunGatehitSEEN = 1 ∧ t.getF .tunGateaddrOFFSET = a.offset.toNat ∧ t.getF .tunGateaddrSRC = s.srcCode a.src ∧
      t.out = s.out ++ (if a.posted then [] else [.answer a.src a.tag.toNat 0 0]) ∧
      RegsAndOut [fk .tunGatehitCOUNT, fk .tunGatehitUNIT, fk .tunGatehitSEEN, fk .tunGateaddrOFFSET, fk .tunGateaddrSRC] s t) ∧
  (∀ (off : BitVec 41) (w : Bool) (tag : BitVec 12) (s : State), s.perst = false → s.bar4Gated = true →
    Gives (.gatedAccess (.bar4 off w tag)) s fun t =>
      t.getF .tunGatehitCOUNT = min (s.getF .tunGatehitCOUNT + 1) 0xFFFFFF ∧ t.getF .tunGatehitUNIT = 31 ∧
      t.getF .tunGatehitSEEN = 1 ∧ t.getF .tunGateaddrOFFSET = 0x3FFFFFF ∧ t.getF .tunGateaddrSRC = 0 ∧
      t.getF .tunGateaddr4OFFSET = off.toNat ∧
      t.out = s.out ++ (if w then [] else [.answer s.hostAgent tag.toNat 0 0]) ∧
      RegsAndOut [fk .tunGatehitCOUNT, fk .tunGatehitUNIT, fk .tunGatehitSEEN, fk .tunGateaddrOFFSET, fk .tunGateaddrSRC,
        fk .tunGateaddr4OFFSET] s t)

/-- R505: an access to a range of BAR0 that holds no unit is answered ADDRERR (STATUS 2) if non-posted, and a posted write there is
discarded; TUN_GATEHIT does not count it. (The host's posted write that fails is recorded by R398 on a part with option X.) -/
def Obligations.UnmappedRangesAnswerAddrerr : Prop :=
  ∀ (a : Access) (s : State), s.perst = false → accessForm a = true →
    (0xE00000 ≤ a.offset.toNat ∧ a.offset.toNat < 0x1000000 ∨ 0x1100000 ≤ a.offset.toNat ∧ a.offset.toNat < 0x2000000 ∨
      0x2200000 ≤ a.offset.toNat ∧ a.offset.toNat < 0x3000000 ∨ 0x3400000 ≤ a.offset.toNat) →
    ∀ c ∈ [Instr.unmappedAccess a, .registerWrite a],
      (a.posted = false → Gives c s fun t => t = s.emit (.answer a.src a.tag.toNat 2 0)) ∧
      (a.posted = true → Gives c s fun t =>
        (∀ f ∈ [Fld.tunGatehitCOUNT, .tunGatehitUNIT, .tunGatehitSEEN, .tunGateaddrOFFSET], t.getF f = s.getF f) ∧
        RegsAndOut ([fk .cohHerrADDR, fk .cohHerrCAUSE, fk .cohHerrSEEN, fk .cohHerrCOUNT] ++ evKeys 1008) s t ∧
        ((a.src ≠ s.hostAgent ∨ s.part.optX = false) → t = s))

/-- R7: a write of TUN_FEATACKi accepts the offered features it names, and bits of features not offered read 0; once TUN_FEATLOCK is set
such writes are dropped, until device reset clears the lock. -/
def Obligations.FeatureAcknowledgeTakesOfferedBits : Prop :=
  (∀ (i : Fin 4) (w : W32) (s : State), s.perst = false →
    Gives (.featureAcknowledge i w) s fun t =>
      (s.isSet .tunFeatlockLOCK = false → t.getF .tunFeatackACK i = w.toNat &&& s.featWord i) ∧
      (s.isSet .tunFeatlockLOCK = true → t = s) ∧ RegsOnly [fk .tunFeatackACK i] s t) ∧
  (∀ s : State, Gives .perstNAssert s fun t => t.isSet .tunFeatlockLOCK = false ∧ ∀ i : Fin 4, t.getF .tunFeatackACK i = 0)

/-- R385, R386, R165: setting TUN_FEATLOCK fixes the enable bits of COH and MEMP at 0 and shows them gated if their features were not
acknowledged, and leaves every other unit alone; without CXLCM on a part that offers it the link keeps CXL.io only. Setting it again
does nothing. -/
def Obligations.FeatureLockFreezesTheChoice : Prop :=
  ∀ s : State, s.perst = false →
    (s.isSet .tunFeatlockLOCK = true → Gives .featureLock s fun t => t = s) ∧
    (s.isSet .tunFeatlockLOCK = false → Gives .featureLock s fun t =>
      t.getF .tunFeatlockLOCK = 1 ∧
      (∀ b : Fin 17, ∀ f ∈ [Fld.tunClkenEN, .tunClkstatCLOCKED], t.bitF f b =
        if (b = 11 ∧ s.bitF .tunFeatackACK 1 = false) ∨ (b = 13 ∧ s.bitF .tunFeatackACK 0 = false) then false else s.bitF f b) ∧
      (s.part.optX = true → s.bitF .tunFeatackACK 1 = false →
        t.getF .cxlLnkstatCACHEEN = 0 ∧ t.getF .cxlLnkstatMEMEN = 0 ∧ t.hdm = []) ∧
      SameBut [fk .tunFeatlockLOCK, fk .tunClkenEN, fk .tunClkstatCLOCKED, fk .cxlLnkstatCACHEEN, fk .cxlLnkstatMEMEN] s t ∧
      { t with regs := s.regs, hdm := s.hdm, hdmErr := s.hdmErr } = s)

/-! ## Clocks (R145–R167) -/

/-- What the root PLL's rules may change: the qualified bits, REFSEL, the bits of CLK_ROOTSTAT, events 976 and 977, and what the root is
doing. -/
def Sys2Proof.rootFrame (s t : State) : Prop :=
  SameBut ([fk .clkRootstatREF0OK, fk .clkRootstatREF1OK, fk .clkRootstatTRIMOK, fk .clkRootcfgREFSEL, fk .clkRootstatLOCK,
    fk .clkRootstatCOAST, fk .clkRootstatCOASTSEEN, fk .clkRootstatREFSWSEEN] ++ evKeys 976 ++ evKeys 977) s t ∧
  { t with regs := s.regs, out := s.out, root := s.root } = s

/-- R145: a reference is qualified at the end of the first window with continuous edges and a frequency in its band (the count of edges
in 10 µs), and lost at the end of a window outside the band or of its loss interval; nothing else happens at the end of a window. -/
def Sys2Proof.ReferencesQualifyAndAreLost : Prop :=
  ∀ (r : RefIn) (s : State) (n : Nat) (c inBand : Bool),
    inBand = (match r with
      | .trimref => decide (199 ≤ 2 * n ∧ 2 * n ≤ 201)
      | .refclk | .refclk2 => decide (995 ≤ n ∧ n ≤ 1005)) →
    (s.isSet (refOkFld r) = false → inBand = true → c = true →
      Gives (.measurementWindowEnd r n c) s fun t => t.isSet (refOkFld r) = true ∧ rootFrame s t) ∧
    (s.isSet (refOkFld r) = true → inBand = false →
      Gives (.measurementWindowEnd r n c) s fun t => t.isSet (refOkFld r) = false ∧ rootFrame s t) ∧
    (s.isSet (refOkFld r) = inBand →
      Gives (.measurementWindowEnd r n c) s fun t => t = s) ∧
    (s.isSet (refOkFld r) = false → c = false → Gives (.measurementWindowEnd r n c) s fun t => t = s) ∧
    (s.isSet (refOkFld r) = true →
      Gives (.referenceLossInterval r) s fun t => t.isSet (refOkFld r) = false ∧ rootFrame s t) ∧
    (s.isSet (refOkFld r) = false → Gives (.referenceLossInterval r) s fun t => t = s)

/-- R147, R148: the loss of the reference a locked root is on starts a switch, with REFSWSEEN and event 977, if AUTOSW is 1 and the
other reference is qualified; otherwise the root coasts, with COAST, COASTSEEN and event 976. -/
def Sys2Proof.LossOfTheActiveReferenceSwitchesOrCoasts : Prop :=
  ∀ (r alt : RefIn) (s : State), (r = .refclk ∧ alt = .refclk2 ∨ r = .refclk2 ∧ alt = .refclk) →
    s.root = .locked → s.getF .clkRootcfgREFSEL = refSel r → s.isSet (refOkFld r) = true →
    (s.isSet .clkRootcfgAUTOSW = true ∧ s.isSet (refOkFld alt) = true →
      Gives (.referenceLossInterval r) s fun t =>
        t.root = .switching ∧ t.getF .clkRootcfgREFSEL = refSel alt ∧ t.getF .clkRootstatREFSWSEEN = 1 ∧ Raised 977 0 s t ∧
        (∀ f ∈ [Fld.clkRootstatCOAST, .clkRootstatCOASTSEEN, .clkRootstatLOCK], t.getF f = s.getF f) ∧ rootFrame s t) ∧
    (¬(s.isSet .clkRootcfgAUTOSW = true ∧ s.isSet (refOkFld alt) = true) →
      Gives (.referenceLossInterval r) s fun t =>
        t.root = .coasting ∧ t.getF .clkRootstatCOAST = 1 ∧ t.getF .clkRootstatCOASTSEEN = 1 ∧ Raised 976 0 s t ∧
        (∀ f ∈ [Fld.clkRootcfgREFSEL, .clkRootstatREFSWSEEN], t.getF f = s.getF f) ∧ rootFrame s t)

/-- R147, R149, R150: a switch or relock that completes leaves the root locked (COAST clears at a relock); a write of CLK_ROOTCFG starts a
switch of a locked root, or a relock of a coasting one, when it names the other reference while that is qualified, and leaves REFSEL
alone otherwise. No such write sets REFSWSEEN or raises 977. AUTOSW is stored. -/
def Sys2Proof.RootSwitchesAndRelocks : Prop :=
  ∀ s : State,
    (s.root = .switching → Gives .switchComplete s fun t => t = { s with root := .locked }) ∧
    (s.root = .relocking → Gives .rootRelock s fun t =>
      t.root = .locked ∧ t.getF .clkRootstatCOAST = 0 ∧ t.getF .clkRootstatLOCK = 1 ∧
      SameBut [fk .clkRootstatCOAST, fk .clkRootstatLOCK] s t ∧ { t with regs := s.regs, root := s.root } = s) ∧
    (∀ w : W32, s.perst = false → Gives (.refselWrite w) s fun t =>
      let k := w.toNat % 2
      let other : Bool := k != s.getF .clkRootcfgREFSEL && s.isSet (if k = 0 then .clkRootstatREF0OK else .clkRootstatREF1OK)
      let next := match s.root with
        | .locked => if other then (Root.switching, true) else (.locked, false)
        | .coasting => if other then (.relocking, true) else (.coasting, false)
        | x => (x, false)
      t.root = next.1 ∧ t.getF .clkRootcfgREFSEL = (if next.2 then k else s.getF .clkRootcfgREFSEL) ∧
      t.getF .clkRootcfgAUTOSW = w.toNat / 2 % 2 ∧
      SameBut [fk .clkRootcfgREFSEL, fk .clkRootcfgAUTOSW] s t ∧ { t with regs := s.regs, root := s.root } = s)

/-- R145, R147–R150: references are qualified and lost by their windows; the root switches or coasts when its reference goes, and relocks. -/
def Obligations.RootFollowsItsReferences : Prop :=
  ReferencesQualifyAndAreLost ∧ LossOfTheActiveReferenceSwitchesOrCoasts ∧ RootSwitchesAndRelocks

/-- R155, R156: an enabled UPLL that loses its reference shows COASTNOW and COASTSEEN and raises 16n + 10; COASTNOW clears when it locks
again; a loss of lock sets UNLOCKSEEN and raises the same event. The other UPLLs of the grain keep their bits. -/
def Obligations.UserPllCoastsRelocksAndUnlocks : Prop :=
  ∀ (n : Pos) (u : Fin 4) (s : State), let p := s.phys n
    let keys := [fk .grnPllstatCOASTNOW p, fk .grnPllstatCOASTSEEN p, fk .grnPllstatLOCK p, fk .grnPllstatUNLOCKSEEN p]
    let others := fun t : State => ∀ v : Fin 4, v ≠ u → ∀ f ∈ [Fld.grnPllstatCOASTNOW, .grnPllstatCOASTSEEN, .grnPllstatLOCK,
      .grnPllstatUNLOCKSEEN], t.bitF f v p = s.bitF f v p
    (s.upllEn n u = true → s.bitF .grnPllstatCOASTNOW u p = false → Gives (.upllReferenceLoss n u) s fun t =>
      t.bitF .grnPllstatCOASTNOW u p = true ∧ t.bitF .grnPllstatCOASTSEEN u p = true ∧ Raised (16 * n + 10) 0 s t ∧ others t ∧
      RegsAndOut (keys ++ evKeys (16 * n + 10)) s t) ∧
    (s.upllEn n u = true → s.bitF .grnPllstatCOASTNOW u p = true → Gives (.upllRelock n u) s fun t =>
      t.bitF .grnPllstatCOASTNOW u p = false ∧ t.bitF .grnPllstatLOCK u p = true ∧
      t.bitF .grnPllstatCOASTSEEN u p = s.bitF .grnPllstatCOASTSEEN u p ∧ others t ∧ RegsOnly keys s t) ∧
    (s.bitF .grnPllstatLOCK u p = true → Gives (.upllUnlock n u) s fun t =>
      t.bitF .grnPllstatLOCK u p = false ∧ t.bitF .grnPllstatUNLOCKSEEN u p = true ∧ Raised (16 * n + 10) 0 s t ∧ others t ∧
      RegsAndOut (keys ++ evKeys (16 * n + 10)) s t) ∧
    (s.upllEn n u = true → s.bitF .grnPllstatCOASTNOW u p = false → Gives (.upllLock n u) s fun t =>
      t.bitF .grnPllstatLOCK u p = true ∧ others t ∧ RegsOnly [fk .grnPllstatLOCK p] s t)

/-- R161–R163: at the end of a window TRIM moves by the rounded correction and is clamped, CLK_TROCNT takes the count, and LOCKED is set
by the fourth qualifying window in a row and cleared by one that does not qualify; a lost source sets SRCLOST, raises 978 and keeps TRIM
and LOCKED; CLK_TROEXP ignores values below 1,024; a setting written while the engine is on clears LOCKED; TROOK reports a trimmed
grain. -/
def Obligations.TrimEngineFollowsItsWindows : Prop :=
  ∀ s : State,
    (∀ m : W32, s.trim.on = true → 1024 ≤ s.trim.e → Gives (.trimWindowEnd m) s fun t =>
      ∃ corr : Int,
        let e : Int := s.trim.e
        let d : Int := e - m.toNat
        (2 * (d * 10000 - corr * e)).natAbs ≤ s.trim.e ∧ (2 * (d * 10000 - corr * e).natAbs = s.trim.e → d.natAbs * 10000 ≤ corr.natAbs * s.trim.e) ∧
        trimInt (t.getF .clkTrotrimTRIM) = max (-512) (min 511 (trimInt (s.getF .clkTrotrimTRIM) + corr)) ∧
        t.getF .clkTrocntM = m.toNat ∧
        t.trim.good = (if d.natAbs * 10000 ≤ s.trim.e then min 4 (s.trim.good + 1) else 0) ∧
        t.getF .clkTrotrimLOCKED = (if t.trim.good = 4 then 1 else if t.trim.good = 0 then 0 else s.getF .clkTrotrimLOCKED) ∧
        SameBut [fk .clkTrotrimTRIM, fk .clkTrocntM, fk .clkTrotrimLOCKED] s t ∧ { t with regs := s.regs, trim := s.trim } = s) ∧
    (s.trim.on = true → Gives .trimSourceLost s fun t =>
      t.getF .clkTroctlSRCLOST = 1 ∧ Raised 978 0 s t ∧ RegsAndOut (fk .clkTroctlSRCLOST :: evKeys 978) s t) ∧
    (∀ w : W32, s.perst = false → Gives (.troexpWrite w) s fun t =>
      (w.toNat < 1024 → t = s) ∧
      (1024 ≤ w.toNat → t.getF .clkTroexpE = w.toNat ∧
        t.getF .clkTrotrimLOCKED = (if s.isSet .clkTroctlENABLE then 0 else s.getF .clkTrotrimLOCKED) ∧
        SameBut [fk .clkTroexpE, fk .clkTrotrimLOCKED] s t ∧ { t with regs := s.regs, trim := s.trim } = s)) ∧
    (∀ w : W32, s.perst = false → Gives (.troctlWrite w) s fun t =>
      t.getF .clkTroctlENABLE = w.toNat % 2 ∧ t.getF .clkTroctlTSRC = w.toNat / 2 % 4 ∧ t.getF .clkTroctlWINLOG = w.toNat / 8 % 32 ∧
      t.getF .clkTroctlLPOS = w.toNat / 256 % 64 ∧ t.getF .clkTroctlLANE = w.toNat / 16384 % 8 ∧
      t.getF .clkTrotrimLOCKED = (if s.isSet .clkTroctlENABLE then 0 else s.getF .clkTrotrimLOCKED) ∧
      SameBut [fk .clkTroctlENABLE, fk .clkTroctlTSRC, fk .clkTroctlWINLOG, fk .clkTroctlLPOS, fk .clkTroctlLANE,
        fk .clkTroctlSRCLOST, fk .clkTrotrimLOCKED] s t ∧ { t with regs := s.regs, trim := s.trim } = s) ∧
    (∀ p : Phys, Gives (.grainTroTrimmed p) s fun t =>
      t.getF .grnPllstatTROOK p = 1 ∧ RegsOnly [fk .grnPllstatTROOK p] s t)

/-- R164: START while BUSY = 0 clears DONE and OVF and sets BUSY; START while BUSY = 1 leaves BUSY and DONE alone; the end of a measurement
writes the count, which saturates and sets OVF, clears BUSY and sets DONE; a gate timeout sets GATEERR too; MSRC 7 to 15 count 0. -/
def Obligations.FrequencyMeterMeasures : Prop :=
  ∀ s : State,
    (∀ w : W32, s.perst = false → Gives (.fmStart w) s fun t =>
      (w.toNat.testBit 28 = true → s.isSet .clkFmctlBUSY = false →
        t.getF .clkFmctlDONE = 0 ∧ t.getF .clkFmctlOVF = 0 ∧ t.getF .clkFmctlBUSY = 1) ∧
      (w.toNat.testBit 28 = false ∨ s.isSet .clkFmctlBUSY = true →
        t.getF .clkFmctlBUSY = s.getF .clkFmctlBUSY ∧ t.getF .clkFmctlOVF = s.getF .clkFmctlOVF) ∧
      t.getF .clkFmctlMSRC = w.toNat % 16 ∧ t.getF .clkFmctlGSRC = w.toNat / 16 % 16 ∧ t.getF .clkFmctlGLOG = w.toNat / 256 % 32 ∧
      RegsOnly [fk .clkFmctlMSRC, fk .clkFmctlGSRC, fk .clkFmctlGLOG, fk .clkFmctlGATEERR, fk .clkFmctlBUSY, fk .clkFmctlOVF,
        fk .clkFmctlDONE] s t) ∧
    (∀ (c : Instr) (n k : Nat), (c = .fmMeasurementDone n ∨ c = .fmGateTimeout n) → s.isSet .clkFmctlBUSY = true →
      k = (if 7 ≤ s.getF .clkFmctlMSRC then 0 else n) → Gives c s fun t =>
        t.getF .clkFmcntCOUNT = min k 0xFFFFFFFF ∧ t.getF .clkFmctlBUSY = 0 ∧ t.getF .clkFmctlDONE = 1 ∧
        t.getF .clkFmctlOVF = (if 0xFFFFFFFF < k then 1 else s.getF .clkFmctlOVF) ∧
        t.getF .clkFmctlGATEERR = (if c = .fmGateTimeout n then 1 else s.getF .clkFmctlGATEERR) ∧
        RegsOnly [fk .clkFmcntCOUNT, fk .clkFmctlBUSY, fk .clkFmctlDONE, fk .clkFmctlOVF, fk .clkFmctlGATEERR] s t)

/-- R165, R166: a write of TUN_CLKEN changes the bits of the seven units that can be gated, less those that are fixed and the clears of
COH and MEMP that are refused, and leaves TUN_CLKSTAT alone; a unit is shown gated once its bit is 0 and its deferral condition holds,
and shown clocked again once its bit is 1. -/
def Obligations.UnitGatingFollowsTunClken : Prop :=
  ∀ (s : State),
    (∀ w : W32, s.perst = false → Gives (.clkenWrite w) s fun t =>
      (∀ b : Fin 17, t.bitF .tunClkenEN b =
        if b.val ∈ [5, 6, 7, 9, 10, 11, 13] ∧ s.clkenFixed b = false ∧ ¬(w.toNat.testBit b = false ∧ s.clkenRefused b = true)
        then w.toNat.testBit b else s.bitF .tunClkenEN b) ∧
      RegsOnly [fk .tunClkenEN] s t) ∧
    (∀ b : Fin 17, s.bitF .tunClkenEN b = false → s.bitF .tunClkstatCLOCKED b = true → s.gateReady b = true →
      Gives (.unitGated b) s fun t => t.bitF .tunClkstatCLOCKED b = false ∧
        (∀ c : Fin 17, c ≠ b → t.bitF .tunClkstatCLOCKED c = s.bitF .tunClkstatCLOCKED c) ∧ RegsOnly [fk .tunClkstatCLOCKED] s t) ∧
    (∀ b : Fin 17, s.bitF .tunClkenEN b = true → s.bitF .tunClkstatCLOCKED b = false →
      Gives (.unitUngated b) s fun t => t.bitF .tunClkstatCLOCKED b = true ∧
        (∀ c : Fin 17, c ≠ b → t.bitF .tunClkstatCLOCKED c = s.bitF .tunClkstatCLOCKED c) ∧ RegsOnly [fk .tunClkstatCLOCKED] s t)


/-! ## Reset, start-up and loads (R30, R203, R207, R215–R217, R244–R262, R496, R500, R501, R514) -/

/-- Every field of every register outside the list reads as before. -/
def Sys2Proof.sameRegs (rs : List RegName) (s t : State) : Prop := ∀ f i j, f.info.reg ∉ rs → t.getF f i j = s.getF f i j

/-- R262: the next entry of the load log is written and the index moves on; nothing else changes. -/
def Sys2Proof.logged (code slot lpos frame : Nat) (s t : State) : Prop :=
  let i := s.getF .kilnLogptrNEXT
  t.getF .kilnLogptrNEXT = (i + 1) % 16 ∧ t.getF .kilnLoadlogCODE i = code % 256 ∧ t.getF .kilnLoadlogSLOT i = slot % 4 ∧
  t.getF .kilnLoadlogLPOS i = lpos % 64 ∧ t.getF .kilnLoadlogFRAME i = frame % 65536 ∧
  t.getF .kilnLoadlogTIMEMS i = s.msNow % 65536 ∧ t.getF .kilnLoadlogATTEMPT i = s.load.tries % 256 ∧ t.getF .kilnLoadlogVALID i = 1 ∧
  RegsOnly [fk .kilnLogptrNEXT, fk .kilnLoadlogCODE i, fk .kilnLoadlogSLOT i, fk .kilnLoadlogLPOS i, fk .kilnLoadlogFRAME i,
    fk .kilnLoadlogTIMEMS i, fk .kilnLoadlogATTEMPT i, fk .kilnLoadlogVALID i] s t

/-- R253: an attempt that fails is logged with its slot and raises 989; the next attempt follows at once when no frame was written,
and after the clear of the grains (STATE 8) otherwise. -/
def Sys2Proof.attemptFails (code lpos frame : Nat) (s t : State) : Prop :=
  ∃ u v, logged code (s.getF .kilnStatSLOT) lpos frame s u ∧ Raised 989 0 u v ∧ RegsAndOut (evKeys 989) u v ∧
    (s.load.written = [] → t = v.nextAttempt) ∧
    (s.load.written ≠ [] → t.getF .kilnStatSTATE = 8 ∧ RegsOnly [fk .kilnStatSTATE] v t)

/-- R255, R501, R514: asserting PERST_N returns every register to its reset value but for what the VCCO sensors show, and empties every
FIFO, buffer and engine; the store with its slots, the repair record, the fuses, the key RAM, the test access port and the supplies
stay as they are. -/
def Obligations.DeviceResetKeepsTheStoreAndTheFuses : Prop :=
  ∀ s : State, Gives .perstNAssert s fun t =>
    t.perst = true ∧ t.store = s.store ∧ t.repair = s.repair ∧ t.fuses = s.fuses ∧ t.fuseNow = s.fuseNow ∧ t.keyRam = s.keyRam ∧
    t.jtag = s.jtag ∧ t.railsBad = s.railsBad ∧ t.out = s.out ∧
    (∀ p : Phys, t.getF .grnIostatVPRES p = s.getF .grnIostatVPRES p % 2 ∧ t.getF .grnIostatVSENSE p = s.getF .grnIostatVSENSE p % 4) ∧
    (∀ f i j, f ≠ .grnIostatVPRES → f ≠ .grnIostatVSENSE → t.getF f i j = f.reset s.part (i % 0x100000)) ∧
    { State.reset with part := s.part, store := s.store, repair := s.repair, fuses := s.fuses, fuseNow := s.fuseNow, keyRam := s.keyRam, jtag := s.jtag,
                       railsBad := s.railsBad, pending := s.pending, out := s.out, freeCtr := s.freeCtr, regs := t.regs } = t

/-- R244, R247 steps 1 to 3, R496, R500: PERST_N deasserts: straps and fuses are latched, STATE becomes 1, a test-port operation in progress
ends with ERR, and the root begins to lock if a reference is qualified. With the root locked device time has begun, and the load state
is discovery (2) when a firmware copy passed, or FAILED (9), logged 0x22, with event 990. -/
def Obligations.StartUpRunsFromPerstToTheRootLock : Prop :=
  ∀ s : State,
    (∀ (b : BitVec 2) (c : Bool), s.perst = true → Gives (.perstNDeassert b c) s fun t =>
      t.perst = false ∧ t.getF .kilnStatBOOTSEL = b.toNat ∧ t.getF .kilnStatCFGPULL = c.toNat ∧
      t.getF .kilnStatKEYSEL = ((SMap.get (fun _ => 0) s.fuses 8).testBit 0).toNat ∧ t.getF .kilnStatSTATE = 1 ∧ t.fuseNow = s.fuses ∧
      (s.root = .waiting →
        (s.isSet .clkRootstatREF0OK = true → t.root = .locking ∧ t.getF .clkRootcfgREFSEL = 0) ∧
        (s.isSet .clkRootstatREF0OK = false → s.isSet .clkRootstatREF1OK = true → t.root = .locking ∧ t.getF .clkRootcfgREFSEL = 1) ∧
        (s.isSet .clkRootstatREF0OK = false → s.isSet .clkRootstatREF1OK = false → t.root = .waiting)) ∧
      (s.jtag.op = none → t.jtag = s.jtag ∧ t.store = s.store) ∧
      (s.jtag.op ≠ none → t.jtag = { s.jtag with op := none, err := true }) ∧
      (∀ k, 2 ^ 32 ≤ k → SMap.get (fun _ => none) t.store k = SMap.get (fun _ => none) s.store k) ∧
      SameBut [fk .kilnStatBOOTSEL, fk .kilnStatCFGPULL, fk .kilnStatKEYSEL, fk .kilnStatSTATE, fk .clkRootcfgREFSEL] s t ∧
      { t with regs := s.regs, perst := s.perst, fuseNow := s.fuseNow, jtag := s.jtag, store := s.store, root := s.root } = s) ∧
    (∀ a b : Bool, s.perst = false → s.root = .locking → Gives (.rootLock a b) s fun t =>
      t.root = .locked ∧ t.getF .clkRootstatLOCK = 1 ∧ t.ran39 = 0 ∧
      ((a = true ∨ b = true) → t.fw = .running ∧ t.getF .kilnStatSTATE = 2 ∧ SameBut [fk .clkRootstatLOCK, fk .kilnStatSTATE] s t ∧
        { t with regs := s.regs, root := s.root, lockNs := s.lockNs, ran39 := s.ran39, fw := s.fw, freeCtr := s.freeCtr } = s) ∧
      (a = false → b = false → s.kilnJobs = [] →
        t.fw = .failed ∧ t.getF .kilnStatSTATE = 9 ∧ t.baseSlot = none ∧
        t.getF .kilnLoadlogCODE (s.getF .kilnLogptrNEXT) = 0x22 ∧ Raised 990 0 s t ∧
        sameRegs [.clkRootstat, .kilnStat, .kilnLogptr, .kilnLoadlog, .evrPay, .evrRoute] s t))

/-- R203, R206, R215, R216, R247 step 4, R317: before discovery a grain without a clock adopts one at depth + 1, forwards it, and its
configuration memory is clear; a token is recorded by port; a die that has a token answers with the ports it recorded, and the link of a
guest or store port takes over the buffers its receiver advertises. -/
def Sys2Proof.DiscoveryFollowsClocksAndTokens : Prop :=
  ∀ s : State,
    (∀ (p : Phys) (d : GPort) (depth : Nat), (s.clkSt p).up = none → (s.clkSt p).lost = false → s.clockAt p d = some depth →
      Gives (.clockAdopted (.grain p d)) s fun t =>
        t.clkSt p = ⟨some d.num, depth + 1, false, true, false⟩ ∧ (∀ q : Phys, q ≠ p → t.clkSt q = s.clkSt q) ∧
        (∀ g : GPort, t.getF .grnLnkstatCLKUP p g.num = if g = d then 1 else 0) ∧
        SMap.get (fun _ => none) t.replicas p = some (s.edgeTime, s.edgeTime, s.edgeTime) ∧
        (s.isSet .dieDiscstatDONE = false → ∀ n, s.posOf p = some n → ∀ fa < 2 ^ 32, t.frame n fa = CfgFrame.zero) ∧
        SameBut [fk .grnLnkstatCLKUP p 0, fk .grnLnkstatCLKUP p 1, fk .grnLnkstatCLKUP p 2, fk .grnLnkstatCLKUP p 3,
          fk .grnSpanstatACTIVE (s.phys ((s.posOf p).getD 0))] s t ∧
        { t with regs := s.regs, clk := s.clk, replicas := s.replicas, cfg := s.cfg, ram := s.ram, ramFlip := s.ramFlip, deep := s.deep, deepFlip := s.deepFlip,
                 coef := s.coef, coefFlip := s.coefFlip } = s) ∧
    (∀ (d : Die) (port : GPort), s.crossingRuns = true → s.isSet .dieDiscstatDONE = false → s.tokenPort d port = true →
      Gives (.discoveryToken d port) s fun t =>
        (SMap.get (fun _ => 0) t.tokens (dieNo d)).testBit (match d with | .grain _ => port.num | .store _ | .guest _ => 0) = true ∧
        (∀ k, k ≠ dieNo d → SMap.get (fun _ => 0) t.tokens k = SMap.get (fun _ => 0) s.tokens k) ∧
        { t with tokens := s.tokens } = s) ∧
    (∀ (d : Die) (a : Answer), SMap.get (fun _ => 0) s.tokens (dieNo d) ≠ 0 → s.isSet .dieDiscstatDONE = false →
      Gives (.discoveryAnswer d a) s fun t =>
        t.answerOf (dieNo d) = some ⟨a.serial.toNat, a.type.toNat, a.grade.toNat, SMap.get (fun _ => 0) s.tokens (dieNo d),
          match d with | .grain p => (s.clkSt p).depth | .store _ | .guest _ => 0⟩ ∧
        (∀ k, k ≠ dieNo d → t.answerOf k = s.answerOf k) ∧
        t.getF .dieDiscstatANSWERS = (t.answers.filter fun e => e.2.isSome).length % 128 ∧
        (∀ k : Fin 4, (match d with | .grain _ => False | .guest g => k.val = g.val | .store g => k.val = 2 + g.val) →
          t.getF .nocRbcfgTXBUF k = a.buf.toNat ∧ t.getF .nocRbcfgTXCNT k = a.cnt.toNat ∧
          SMap.get (fun _ => 2) t.rbRx k = s.getF .nocRbcfgRXBUF k) ∧
        sameRegs [.dieDiscstat, .nocRbcfg] s t ∧ { t with regs := s.regs, answers := s.answers, rbRx := s.rbRx } = s)

/-- R206, R207, R211, R213: a link direction that has trained is up, retires exactly the lanes that trained with errors, shows the state that
its surviving lanes give, and no longer reports its clock missing or its crossings at rest. -/
def Sys2Proof.LinkTrainingRetiresBadLanes : Prop :=
  ∀ (l : LinkDir) (bad : List (Fin 104)) (s : State), s.crossingRuns = true →
    (match l with
      | .grain p d => physNbr p d ≠ .none ∧ (s.clkSt p).lost = false
      | .tun k => s.part.optG = true ∨ (k.val ≠ 2 ∧ k.val ≠ 4)) →
    Gives (.linkTrainingDone l bad) s fun t =>
      (t.lnk l).up = true ∧ (∀ i : Fin 104, (t.lnk l).isRetired i = decide (i.val < 100 ∧ i ∈ bad)) ∧
      (t.lnk l).ckLost = (s.lnk l).ckLost ∧
      (∀ k, k ≠ linkKey l → SMap.get (fun _ => LinkSt.initial) t.link k = SMap.get (fun _ => LinkSt.initial) s.link k) ∧
      (∀ p d, l = .grain p d → t.getF .grnLnkstatSTATE p d.num = (t.foldQ l).state ∧
        t.bitF .grnXstatCLKMISS d.num p = false ∧ t.bitF .grnXstatINREST d.num p = false) ∧
      sameRegs [.grnLnkstat, .dieTlnkstat, .grnXstat, .grnLanecnt, .dieFault, .evrPay, .evrRoute] s t ∧
      { t with regs := s.regs, out := s.out, link := s.link } = s

/-- R203, R206, R207, R215, R216: how links start and dies are discovered. -/
def Obligations.LinksStartAndDiesAreDiscovered : Prop := DiscoveryFollowsClocksAndTokens ∧ LinkTrainingRetiresBadLanes

/-- R217, R253, R30: discovery ends with DONE and event 986. Without a usable panel no position is in service and the load stops in FAILED;
otherwise each die's registers hold what it answered, and the load begins with the slots in the order BOOTSEL gives. -/
def Obligations.DiscoveryEndsInALoadOrFailure : Prop :=
  ∀ (s : State) (dimms : List (Option Spd)), s.getF .kilnStatSTATE = 2 → s.isSet .dieDiscstatDONE = false → s.fw = .running →
    (Gives (.discoveryComplete false dimms) s fun t =>
      t.getF .dieDiscstatDONE = 1 ∧ t.getF .dieDiscstatPANELBAD = 1 ∧ (∀ n : Pos, t.isOos n = true) ∧ t.getF .kilnStatSTATE = 9 ∧
      t.baseSlot = none ∧ OutMsg.fwEvent 986 0 ∈ t.out ∧ t.part = s.part) ∧
    (Gives (.discoveryComplete true dimms) s fun t =>
      ∃ u : State, t = u.beginLoad (bootOrder (s.getF .kilnStatBOOTSEL)) ∧ u.getF .dieDiscstatDONE = 1 ∧
        OutMsg.fwEvent 986 0 ∈ u.out ∧
        (∀ (p : Phys) (a : AnsSt), s.answerOf p = some a →
          u.getF .dieSerialSERIAL p = a.serial % 2 ^ 64 ∧ u.getF .dieIdinfoTYPE p = a.type % 16 ∧
          u.getF .dieIdinfoRXMASK p = a.rxmask % 16 ∧ u.getF .dieIdinfoDEPTH p = a.depth % 64))

/-- R248–R253: an attempt runs header check, trailer check, records, final checks and the release pitch 100 µs on; a check that fails ends it
with its code; after a failed attempt the grains written are cleared; the next slot of the order is tried in STATE 3, and when none is
left the load stops in STATE 9 with no base image. -/
def Obligations.AttemptsAreCheckedInOrder : Prop :=
  ∀ s : State,
    (s.getF .kilnStatSTATE = 3 → s.load.headed = false → s.loadTurn = true → Gives .headerCheck s fun t =>
      (s.headerCode (s.getF .kilnStatSLOT) = 0 → t = { s with load := { s.load with headed := true } }) ∧
      (s.headerCode (s.getF .kilnStatSLOT) ≠ 0 → attemptFails (s.headerCode (s.getF .kilnStatSLOT)) 0x3F 0 s t)) ∧
    (s.getF .kilnStatSTATE = 3 → s.load.headed = true → Gives .trailerCheck s fun t =>
      (s.trailerOk s.loadSrc = true → t.getF .kilnStatSTATE = 4 ∧ RegsOnly [fk .kilnStatSTATE] s t) ∧
      (s.trailerOk s.loadSrc = false → attemptFails 0x18 0x3F 0 s t)) ∧
    (∀ (n : Pos) (lpos frames off : Nat), s.getF .kilnStatSTATE = 4 → s.isOos n = false → s.sectionOf s.loadSrc n = some (lpos, frames, off) →
      s.load.idx n < frames → Gives (.grainNoProgress n) s fun t => attemptFails 0x15 n (s.load.idx n) s t) ∧
    (s.getF .kilnStatSTATE = 5 → Gives .finalChecks s fun t =>
      (s.finalCode s.loadSrc = 0 → t.getF .kilnStatSTATE = 6 ∧
        t.pitchAt 16 = some ⟨0, false, s.now + 100 * usUnits, ⟨0, false, 0⟩, none⟩ ∧ (∀ k, k ≠ 16 → t.pitchAt k = s.pitchAt k) ∧
        SameBut [fk .kilnStatSTATE, fk .capStatPEND] s t ∧ { t with regs := s.regs, pitches := s.pitches } = s) ∧
      (s.finalCode s.loadSrc ≠ 0 → attemptFails (s.finalCode s.loadSrc) 0x3F 0 s t)) ∧
    (s.getF .kilnStatSTATE = 8 → Gives .grainClearDone s fun t =>
      ∃ u : State, t = u.nextAttempt ∧ (∀ n ∈ s.load.written, ∀ fa < 2 ^ 32, u.frame n fa = CfgFrame.zero) ∧
        (∀ n, n ∉ s.load.written → ∀ fa < 2 ^ 32, u.frame n fa = s.frame n fa) ∧ sameRegs [.grnPllcfg, .grnSpanstat] s u ∧
        u.load = s.load ∧ u.store = s.store) ∧
    (∀ k rest, s.load.order = k :: rest →
      let t := s.nextAttempt
      t.getF .kilnStatSTATE = 3 ∧ t.getF .kilnStatSLOT = k % 4 ∧ t.getF .kilnStatATTEMPT = min (s.load.tries + 1) 15 ∧
      t.getF .kilnFramesCOUNT = 0 ∧ t.load = { LoadSt.none with order := rest, tries := s.load.tries + 1 } ∧
      SameBut [fk .kilnStatSTATE, fk .kilnStatSLOT, fk .kilnStatATTEMPT, fk .kilnFramesCOUNT] s t ∧
      { t with regs := s.regs, load := s.load, base := s.base } = s) ∧
    (s.load.order = [] → s.nextAttempt.getF .kilnStatSTATE = 9 ∧ s.nextAttempt.baseSlot = none ∧
      OutMsg.fwEvent 990 0 ∈ s.nextAttempt.out)

/-- R250, R251: a record of a full image that passes its checks is written to its frame of a position in service and counted, and the load
goes to the final checks with the last record of the last section; a record that fails one ends the attempt with its code and index. -/
def Obligations.RecordsAreWrittenOrFailTheAttempt : Prop :=
  ∀ (n : Pos) (bad : Bool) (rb : Option Frame) (s : State) (lpos frames off : Nat),
    s.getF .kilnStatSTATE = 4 → s.sectionOf s.loadSrc n = some (lpos, frames, off) → s.load.idx n < frames →
    let i := s.load.idx n
    let o := off + 272 * i
    let fa := (s.imgRecord s.loadSrc o).1
    let data := (s.imgRecord s.loadSrc o).2.2
    let seen := SMap.get (fun _ => false) s.load.seen (cfgKey n fa)
    let code := recordCode bad (s.imgErased s.loadSrc o 4) (s.imgErased s.loadSrc o 272) seen 0x14 fa data
    Gives (.frameRecord n bad rb) s fun t =>
      (code ≠ 0 → attemptFails code n i s t) ∧
      (code = 0 → rb = none → gsig data = (s.imgRecord s.loadSrc o).2.1 → s.isOos n = false → 5 ≠ bits fa 28 4 → 6 ≠ bits fa 28 4 →
        7 ≠ bits fa 28 4 →
        t.frame n fa = ⟨data, data, (s.frame n fa).status⟩ ∧ (∀ m g, cfgKey m g ≠ cfgKey n fa → t.frame m g = s.frame m g) ∧
        t.getF .kilnFramesCOUNT = min (s.getF .kilnFramesCOUNT + 1) (2 ^ Fld.kilnFramesCOUNT.info.len - 1) ∧
        t.load.idx n = i + 1 ∧ n.val ∈ t.load.written ∧ (t.getF .kilnStatSTATE = 4 ∨ t.getF .kilnStatSTATE = 5) ∧
        sameRegs [.kilnFrames, .kilnStat, .grnSpanstat, .grnPllcfg] s t ∧
        { t with regs := s.regs, cfg := s.cfg, load := s.load, base := s.base } = s) ∧
      (code = 0 → s.isOos n = true →
        t.load.idx n = i + 1 ∧ (∀ m g, t.frame m g = s.frame m g) ∧ (t.getF .kilnStatSTATE = 4 ∨ t.getF .kilnStatSTATE = 5) ∧
        SameBut [fk .kilnStatSTATE] s t ∧ { t with regs := s.regs, load := s.load, base := s.base } = s)

/-- R235, R259, R261: a START of slot programming is refused with its code, or becomes a job; at its end the slot holds the bytes, with DONE and
event 992, or stays erased with ERR. A START of attestation is refused when the report does not fit trained memory; the report is written
to memory with DONE and event 991. Each job that ends lets the next begin. -/
def Obligations.KilnJobsEndInDoneOrError : Prop :=
  ∀ s : State,
    (∀ w : W32, s.perst = false → s.unitOn .kiln = true → w.toNat.testBit 2 = true → s.isSet .kilnProgctlBUSY = false →
      Gives (.slotProgramStart w) s fun t =>
        let slot := w.toNat % 4
        let len := s.getF .kilnProglenLEN
        let code := if slot = 0 ∨ slot = 3 then 1 else if s.baseSlot = some slot then 2 else if slotSize < len then 3
          else if s.memUsable (s.getF .kilnProgsrcADDR * 4096) len = false then 5 else 0
        t.getF .kilnProgctlSLOT = slot ∧
        (code ≠ 0 → t.getF .kilnProgctlERR = 1 ∧ t.getF .kilnProgctlERRCODE = code ∧ sameRegs [.kilnProgctl] s t ∧
          { t with regs := s.regs } = s) ∧
        (code = 0 → t.getF .kilnProgctlBUSY = 1 ∧ t.kilnJobs = s.kilnJobs ++ [.slotProg slot len (s.getF .kilnProgsrcADDR * 4096)] ∧
          (s.kilnJobs = [] → ∀ o < 2 ^ 32, t.slotByte slot o = none) ∧ sameRegs [.kilnProgctl] s t ∧
          { t with regs := s.regs, kilnJobs := s.kilnJobs, store := s.store } = s)) ∧
    (∀ (wf me : Bool) (slot len a : Nat) (rest : List KilnJob), s.kilnJobs = .slotProg slot len a :: rest → Gives (.slotProgramDone wf me) s fun t =>
      ∃ u : State, t = u.jobEnd ∧ u.kilnJobs = s.kilnJobs ∧ u.getF .kilnProgctlBUSY = 0 ∧
        (wf = true → u.getF .kilnProgctlERR = 1 ∧ u.getF .kilnProgctlERRCODE = 4 ∧ sameRegs [.kilnProgctl] s u ∧
          { u with regs := s.regs } = s) ∧
        (wf = false → (me = true ∨ s.memUsable a len = false) → u.getF .kilnProgctlERR = 1 ∧ u.getF .kilnProgctlERRCODE = 5 ∧
          sameRegs [.kilnProgctl] s u ∧ { u with regs := s.regs } = s) ∧
        (wf = false → me = false → s.memUsable a len = true →
          u.getF .kilnProgctlDONE = 1 ∧ u.store = (s.slotWrite slot (s.memRead a len)).store ∧ Raised 992 0 s u ∧
          sameRegs [.kilnProgctl, .evrPay, .evrRoute] s u ∧ { u with regs := s.regs, out := s.out, store := s.store } = s)) ∧
    (∀ w : W32, s.perst = false → s.unitOn .kiln = true → w.toNat.testBit 0 = true → s.isSet .kilnAttctlBUSY = false →
      Gives (.attestationRequest w) s fun t =>
        (s.attOk = false → t.getF .kilnAttctlERR = 1 ∧ t.kilnJobs = s.kilnJobs) ∧
        (s.attOk = true → t.getF .kilnAttctlBUSY = 1 ∧ t.kilnJobs = s.kilnJobs ++ [.attest]) ∧
        sameRegs [.kilnAttctl] s t ∧ { t with regs := s.regs, kilnJobs := s.kilnJobs } = s) ∧
    (∀ rest : List KilnJob, s.kilnJobs = .attest :: rest → Gives .attestationReport s fun t =>
      ∃ u : State, t = u.jobEnd ∧ u.kilnJobs = s.kilnJobs ∧ u.getF .kilnAttctlBUSY = 0 ∧
        (s.attOk = false → u.getF .kilnAttctlERR = 1 ∧ sameRegs [.kilnAttctl] s u ∧ { u with regs := s.regs } = s) ∧
        (s.attOk = true → u.getF .kilnAttctlDONE = 1 ∧ u.mem = (s.memWrite (s.getF .kilnAttaddrADDR) s.attReport).mem ∧
          u.ddr = (s.memWrite (s.getF .kilnAttaddrADDR) s.attReport).ddr ∧ Raised 991 0 s u ∧ sameRegs [.kilnAttctl, .evrPay, .evrRoute] s u ∧
          { u with regs := s.regs, out := s.out, mem := s.mem, ddr := s.ddr } = s))

/-- R254, R260: a reload outside STATE 7 and 9 is ignored with RLDIGN; one asked for during a remap waits for its end; a reload drops the base image,
puts every position under global restore with its frames clear, empties the shelf, the crossings and the caches, and begins its slots. A
held reload begins once the remap is over. -/
def Obligations.ReloadsClearThePartAndLoadAgain : Prop :=
  ∀ s : State,
    (∀ w : W32, s.perst = false → s.unitOn .kiln = true → w.toNat.testBit 0 = true → Gives (.reload w) s fun t =>
      (s.reloadable = false ∨ s.heldReload ≠ none → t.getF .kilnStatRLDIGN = 1 ∧ sameRegs [.kilnCtl, .kilnStat] s t ∧ { t with regs := s.regs } = s) ∧
      (s.reloadable = true → s.heldReload = none → (s.getF .dieRemapstatSTATE = 1 ∨ s.getF .dieRemapstatSTATE = 2) →
        t.heldReload = some (w.toNat / 2 % 4) ∧ sameRegs [.kilnCtl] s t ∧ { t with regs := s.regs, heldReload := s.heldReload } = s) ∧
      (s.reloadable = true → s.heldReload = none → s.getF .dieRemapstatSTATE ≠ 1 → s.getF .dieRemapstatSTATE ≠ 2 →
        ∃ u : State, t = u.reloadGo (w.toNat / 2 % 4) ∧ sameRegs [.kilnCtl] s u ∧ { u with regs := s.regs } = s)) ∧
    (∀ slot, s.heldReload = some slot → s.remap.phase = .idle → Gives .heldReloadStart s fun t => t = s.reloadGo slot) ∧
    (∀ slot, let t := s.reloadGo slot
      t.baseSlot = none ∧ t.heldReload = none ∧ t.xr = [] ∧ t.xe = [] ∧ t.shelf = [] ∧ t.floorTab = [] ∧
      (∀ n : Pos, ∀ fa < 2 ^ 32, t.frame n fa = CfgFrame.zero) ∧ (∀ n : Pos, (t.posSt n).restore = true) ∧ t.part = s.part)

/-! ## Pitches, freezes, captures (R63–R66, R256, R274, R289–R297) -/

/-- Registers that the capture of a pitch instant may change (R412, R416, R422), with CAP_STAT. -/
def Sys2Proof.pitchRegs : List RegName :=
  [.capStat, .winStat, .winFirstlo, .winFirsthi, .tmuWinevt, .tmuTsstat, .evrPay, .evrRoute]

/-- The serving grains of the positions are all different (R25). -/
def Sys2Proof.oneGrainEach (s : State) : Prop := ∀ a b : Pos, s.phys a % 0x100000 = s.phys b % 0x100000 → a = b

/-- R289–R291: a START with a KIND that software may not send, with no free entry, or for an instant less than 10 µs ahead is refused and
says which; otherwise the lowest free entry holds the pitch. It is sent, with the crossing cycle it acts on, within 5 µs of its instant;
when it acts its entry is free again, and the design's pitch line pulses where it asks for it. -/
def Obligations.PitchesAreScheduledSentAndTaken : Prop :=
  ∀ s : State,
    (∀ w : W32, s.perst = false → s.unitOn .cap = true → w.toNat.testBit 4 = true → Gives (.pitchSchedule w) s fun t =>
      let kind := w.toNat % 8
      let v := s.schedTime 0 (s.getF .capPitchtimeSEC) (s.getF .capPitchtimeNS)
      let code : Option Fld := if kind < 3 ∨ kind = 6 then some .capStatBADKIND else if s.freePitch = none then some .capStatFULL
        else if v < s.now + 10 * usUnits then some .capStatLATE else none
      t.getF .capPitchctlKIND = kind ∧ t.getF .capPitchctlDESIGN = w.toNat / 8 % 2 ∧
      (∀ f, code = some f → t.getF f = 1 ∧
        SameBut [fk .capPitchctlKIND, fk .capPitchctlDESIGN, fk f] s t ∧ { t with regs := s.regs } = s) ∧
      (∀ k, code = none → s.freePitch = some k →
        t.pitchAt k = some ⟨kind, w.toNat.testBit 3, v, s.curSel, none⟩ ∧ (∀ j, j ≠ k → t.pitchAt j = s.pitchAt j) ∧
        SameBut [fk .capPitchctlKIND, fk .capPitchctlDESIGN, fk .capStatPEND] s t ∧
        { t with regs := s.regs, pitches := s.pitches } = s)) ∧
    (∀ (r : PitchRef) (p : Pitch), (∀ c, r ≠ .timer c) → s.pitchAt (pitchKey r) = some p → p.index = none → s.sendDue p.time = true →
      Gives (.pitchSend r) s fun t =>
        t.pitchAt (pitchKey r) = some { p with index := some (s.edgeIndex p.time) } ∧
        (∀ j, j ≠ pitchKey r → t.pitchAt j = s.pitchAt j) ∧
        SameBut [fk .capStatPEND] s t ∧ { t with regs := s.regs, pitches := s.pitches } = s) ∧
    (∀ c : Timer, s.isSet .tmrCtlARMED c = true → s.getF .tmrCtlDEST c = 3 → s.tmrUnsent c = true → s.sendDue (s.tmrSt c).next = true →
      s.pitchAt (22 + c) = none → Gives (.pitchSend (.timer c)) s fun t =>
        let i := s.edgeIndex (s.tmrSt c).next
        t.pitchAt (22 + c) = some ⟨s.getF .tmrCtlSEL c % 8, (s.getF .tmrCtlSEL c).testBit 3, (s.tmrSt c).next, s.curSel, some i⟩ ∧
        (t.tmrSt c).sent = (s.tmrSt c).sent ++ [((s.tmrSt c).next, i)] ∧ (∀ j, j ≠ 22 + c.val → t.pitchAt j = s.pitchAt j) ∧
        SameBut [fk .capStatPEND] s t ∧ { t with regs := s.regs, pitches := s.pitches, tmr := s.tmr } = s) ∧
    (∀ key kind p u, s.takePitch key kind = some (p, u) →
      s.pitchAt key = some p ∧ p.kind = kind ∧ u.pitchAt key = none ∧ (∀ j, j ≠ key → u.pitchAt j = s.pitchAt j) ∧
      (∃ i, p.index = some i ∧ i ≤ s.xidx ∧
        u.lines = s.lines ++ (if p.design = true ∨ kind = 7 then [(64, i)] else [])) ∧
      sameRegs pitchRegs s u ∧
      { u with regs := s.regs, out := s.out, pitches := s.pitches, lines := s.lines, ringQ := s.ringQ, tsSeq := s.tsSeq } = s) ∧
    (∀ r p u, s.takePitch (pitchKey r) 7 = some (p, u) → Gives (.designPitch r) s fun t => t = u)

/-- R293, R294: a freeze stops the parts its selection names in the positions of its mask, FROZEN shows it, and a thaw lets them run again; no
other part changes. -/
def Sys2Proof.FreezeAndThawActOnTheSelection : Prop :=
  ∀ (s : State) (r : PitchRef) (p : Pitch) (u : State) (on : Bool) (c : Instr), oneGrainEach u →
    (on = true ∧ c = .freezePitch r ∨ on = false ∧ c = .thawPitch r) → s.takePitch (pitchKey r) (if on then 4 else 5) = some (p, u) →
    Gives c s fun t =>
      (∀ (n : Pos) (k : Nat), k < 65 → SMap.get (fun _ => false) t.frozen (n * 65 + k) =
        if p.sel.pos.testBit n = true ∧ k ∈ u.selParts p.sel n then on else SMap.get (fun _ => false) u.frozen (n * 65 + k)) ∧
      (∀ n : Pos, on = true → p.sel.pos.testBit n = true → u.selParts p.sel n ≠ [] → t.getF .grnShdsrcFROZEN (s.phys n) = 1) ∧
      (∀ f i j, f ≠ .grnShdsrcFROZEN → t.getF f i j = u.getF f i j) ∧ { t with regs := u.regs, frozen := u.frozen } = u

/-- R227 step 4, R295, R296: at a capture pitch the capture of its selection begins, and CAP_CAPSKIP and CAP_CAPSKIPPOS show what it skips;
with CAP gated it is refused with BADKIND. The pitch of a remap also makes the remap's state 2. -/
def Sys2Proof.CapturesBeginAtTheirPitch : Prop :=
  ∀ (s : State) (r : PitchRef) (p : Pitch) (u : State), s.takePitch (pitchKey r) 3 = some (p, u) →
    Gives (.capturePitch r) s fun t =>
      (s.unitOn .cap = true → ∃ c, t.capt = some c ∧ c.sel = p.sel ∧ c.taken = [] ∧ c.remap = decide (r = .fw) ∧
        c.capsel = (match r with | .capsel k => some k.val | .sw _ | .kiln | .fw | .timer _ => none) ∧
        (∀ n : Pos, c.skipPos.testBit n = (p.sel.pos.testBit n && u.capSkips n)) ∧
        t.getF .capCapskipposPOS = c.skipPos % 2 ^ 60 ∧ t.getF .capCapskipFLOORS = c.skipFlr % 2 ^ 64) ∧
      (s.unitOn .cap = false → t.getF .capStatBADKIND = 1 ∧ t.capt = s.capt) ∧
      (r = .fw → t.getF .dieRemapstatSTATE = 2) ∧ t.q = s.q ∧ t.cfg = s.cfg ∧ t.part = s.part

/-- R293–R296: what freeze, thaw and capture pitches do at their instant. -/
def Obligations.PitchesFreezeThawAndCapture : Prop := FreezeAndThawActOnTheSelection ∧ CapturesBeginAtTheirPitch

/-- R65, R66, R295, R296: a capture that completes has taken every selected flip-flop that no edge took before, counts CAPSEQ, marks the
shadows of the positions it wrote with it, sets CAPDONE, raises 996 and frees its CAPSEL instance; a CAPSEL request that is idle holds a
capture pitch LEAD µs on. -/
def Obligations.CapturesCompleteWithTheirSequence : Prop :=
  ∀ s : State,
    (∀ c : CaptSt, s.capt = some c → (∀ k, SMap.get (fun _ => 0) c.taken k ≤ 0xFFFF) → c.remap = false → Gives .captureComplete s fun t =>
      t.capt = none ∧ t.getF .capStatCAPSEQ = (s.getF .capStatCAPSEQ + 1) % 65536 ∧ t.getF .capStatCAPDONE = 1 ∧
      OutMsg.fwEvent 996 0 ∈ t.out ∧ (∀ k, c.capsel = some k → SMap.get (fun _ => false) t.capselBusy k = false) ∧
      (∀ n ∈ s.capWrites c, t.getF .grnShdsrcSEQ (s.phys n) = (s.getF .capStatCAPSEQ + 1) % 65536 ∧ t.getF .grnShdsrcSRC (s.phys n) = 1) ∧
      (∀ tl : Tile, SMap.get (fun _ => 0) t.shadow (tileKey tl.pos tl.col tl.row) =
        if tl.pos.val ∈ s.capWrites c then s.shadowNow tl.pos tl.col tl.row
        else SMap.get (fun _ => 0) s.shadow (tileKey tl.pos tl.col tl.row)) ∧
      sameRegs [.capStat, .grnShdsrc, .capAccstat, .evrPay, .evrRoute] s t ∧
      { t with regs := s.regs, out := s.out, capt := s.capt, capselBusy := s.capselBusy, shadow := s.shadow, snap := s.snap, freeCtr := s.freeCtr } = s) ∧
    (∀ (k : Fin 4) (sel : Selection) (lead : Nat), SMap.get (fun _ => false) s.capselBusy k.val = false → s.getF .kilnStatSTATE = 7 →
      s.pitchAt (18 + k) = none → Gives (.capselRequest k sel lead) s fun t =>
        SMap.get (fun _ => false) t.capselBusy k.val = true ∧
        t.pitchAt (18 + k) = some ⟨3, false, s.edgeTime + lead * usUnits, ⟨sel.floors.toNat, sel.base, sel.pos.toNat⟩, none⟩ ∧
        (∀ j, j ≠ 18 + k.val → t.pitchAt j = s.pitchAt j) ∧ SameBut [fk .capStatPEND] s t ∧
        { t with regs := s.regs, capselBusy := s.capselBusy, pitches := s.pitches } = s)

/-- R256, R262, R265: the release pitch puts the image in force: STATE 7 with event 988 and a log entry 0x00, its version, digest and
slot in the registers, the defined floors steeped in base content, and every position in service out of global restore, while a position
out of service stays in die reset. -/
def Obligations.ReleasePutsTheImageInForce : Prop :=
  ∀ (s : State) (p : Pitch) (u : State), s.getF .kilnStatSTATE = 6 → s.takePitch 16 0 = some (p, u) →
    Gives .releasePitch s fun t =>
      t.getF .kilnStatSTATE = 7 ∧ t.baseSlot = some (s.getF .kilnStatSLOT) ∧ OutMsg.fwEvent 988 0 ∈ t.out ∧
      t.getF .kilnImgverVERSION = s.imgNum s.loadSrc 0x30 8 % 2 ^ Fld.kilnImgverVERSION.info.len ∧
      (∀ i : Fin 8, t.getF .kilnBasedigDIG i = bits (s.imgDigest s.loadSrc) (32 * i) 32) ∧
      (∀ f : Fin 64, t.getF .kilnFlrstatSTATE f = if f.val < s.imgNum s.loadSrc 0x19 1 then 1 else 0) ∧
      (∀ n : Pos, (t.posSt n).restore = false ∧ (s.isOos n = true → (t.posSt n).inReset = true)) ∧
      t.xr = [] ∧ t.xe = [] ∧ t.cfg = s.cfg ∧ t.part = s.part

/-! ## Floors (R263–R279) -/

/-- R272, R274 steps 1 to 3: a START is ignored with IGN during a partial load and fails with 0x48 outside STATE 7; otherwise it becomes a job. A
header check that fails rejects the image with its code and no more; one that passes is followed by the start pitch, at which the floor
steeps and its shelf entry goes. -/
def Sys2Proof.PartialLoadsBegin : Prop :=
  ∀ s : State,
    (∀ w : W32, s.perst = false → s.unitOn .kiln = true → w.toNat.testBit 0 = true → Gives (.partialLoadStart w) s fun t =>
      t.getF .kilnPldctlTIMED = w.toNat / 2 % 2 ∧
      (s.getF .kilnPldstatSTATE ≠ 0 → t.getF .kilnPldstatIGN = 1 ∧ SameBut [fk .kilnPldctlTIMED, fk .kilnPldstatIGN] s t ∧
        { t with regs := s.regs } = s) ∧
      (s.getF .kilnPldstatSTATE = 0 → s.getF .kilnStatSTATE ≠ 7 → t.getF .kilnPldstatFAIL = 1 ∧ t.getF .kilnPldstatCODE = 0x48 ∧
        SameBut [fk .kilnPldctlTIMED, fk .kilnPldstatFAIL, fk .kilnPldstatCODE] s t ∧ { t with regs := s.regs } = s) ∧
      (s.getF .kilnPldstatSTATE = 0 → s.getF .kilnStatSTATE = 7 →
        t.kilnJobs = s.kilnJobs ++ [.partialLoad] ∧ t.getF .kilnPldstatSTATE = (if s.kilnJobs = [] then 2 else 1) ∧
        t.pld.src = s.getF .kilnPldsrcADDR * 4096 ∧ t.pld.len = s.getF .kilnPldlenLEN ∧
        SameBut [fk .kilnPldctlTIMED, fk .kilnPldstatSTATE] s t ∧
        { t with regs := s.regs, kilnJobs := s.kilnJobs, pld := s.pld } = s)) ∧
    (s.pldTurn = true → s.getF .kilnPldstatSTATE = 2 → s.pitchAt 16 = none → s.pld.passed = none → Gives .partialHeaderCheck s fun t =>
      ∃ u : State, u.getF .kilnPldstatFLOOR = entByte (s.imgFloor s.pldSrc 0) 8 1 % 64 ∧ SameBut [fk .kilnPldstatFLOOR] s u ∧
        { u with regs := s.regs } = s ∧
        (u.pldCode ≠ 0 → ∃ v, t = v.pldEnd ∧ v.getF .kilnPldstatFAIL = 1 ∧ v.getF .kilnPldstatCODE = u.pldCode ∧
          SameBut [fk .kilnPldstatFAIL, fk .kilnPldstatCODE] u v ∧ { v with regs := u.regs } = u) ∧
        (u.pldCode = 0 → u.remapInvolves u.pldFloor = false → u.floorSleeps u.pldFloor = false →
          t.pld.passed = some s.now ∧ (t.pitchAt 16).map (fun p => (p.kind, p.time)) = some (1, s.now + 100 * usUnits) ∧
          (t.pitchAt 16).map (·.sel) = some ⟨2 ^ u.pldFloor, false, 0⟩ ∧
          SameBut [fk .kilnPldstatFLOOR, fk .capStatPEND] s t ∧ { t with regs := s.regs, pld := s.pld, pitches := s.pitches } = s)) ∧
    (∀ p u, s.takePitch 16 1 = some (p, u) → s.pldFloor < 64 → Gives .floorStartPitch s fun t =>
      t.getF .kilnFlrstatSTATE s.pldFloor = 2 ∧ t.getF .kilnPldstatSTATE = 3 ∧ t.shelfOf s.pldFloor = none ∧
      (∀ f, f ≠ s.pldFloor → f < 64 → t.getF .kilnFlrstatSTATE f = s.getF .kilnFlrstatSTATE f ∧ t.shelfOf f = s.shelfOf f) ∧
      t.cfg = s.cfg ∧ t.q = s.q ∧ t.part = s.part)

/-- R273, R274 steps 4 to 7, R276: the floor's frames are cleared; a record that passes its checks goes to its frame and the shelf; the final
checks lead to the release pitch. A record or check that fails marks the load failed, and the floor then returns to base content. -/
def Obligations.PartialRecordsAndChecks : Prop :=
  ∀ s : State,
    (s.getF .kilnPldstatSTATE = 3 → s.pld.cleared = false → Gives .floorClearDone s fun t =>
      t.pld = { s.pld with cleared := true } ∧
      (∀ n ∈ s.floorPos s.pldFloor, ∀ fa < 2 ^ 32, bits fa 28 4 ≠ 1 → s.frameFloor n fa = some s.pldFloor →
        t.frame n fa = CfgFrame.zero) ∧
      sameRegs [.grnSpanstat] s t) ∧
    (∀ (n : Pos) (bad : Bool) (lpos frames off : Nat), s.getF .kilnPldstatSTATE = 3 → s.pld.cleared = true → s.pld.failed = false →
      s.sectionOf s.pldSrc n = some (lpos, frames, off) → SMap.get (fun _ => 0) s.pld.next n < frames →
      let o := off + 272 * SMap.get (fun _ => 0) s.pld.next n
      let fa := (s.imgRecord s.pldSrc o).1
      let data := (s.imgRecord s.pldSrc o).2.2
      let code := s.partialCode n (bad || !s.memUsable (s.pld.src + o) 272) (SMap.get (fun _ => false) s.pld.seen (cfgKey n fa)) fa data 0
      bits fa 28 4 ≠ 1 → Gives (.partialRecord n bad none) s fun t =>
        (code ≠ 0 → t.pld = { s.pld with failed := true, cleared := false, code := code } ∧ { t with pld := s.pld } = s) ∧
        (code = 0 → gsig data = (s.imgRecord s.pldSrc o).2.1 → bits fa 28 4 < 5 →
          t.frame n fa = ⟨data, data, (s.frame n fa).status⟩ ∧ SMap.get (fun _ => 0) t.shelfF (cfgKey n fa) = data ∧
          SMap.get (fun _ => 0) t.pld.next n = SMap.get (fun _ => 0) s.pld.next n + 1 ∧
          (t.getF .kilnPldstatSTATE = 3 ∨ t.getF .kilnPldstatSTATE = 4) ∧ SameBut [fk .kilnPldstatSTATE] s t ∧
          { t with regs := s.regs, cfg := s.cfg, shelfF := s.shelfF, pld := s.pld } = s)) ∧
    (s.getF .kilnPldstatSTATE = 4 → Gives .partialFinalChecks s fun t =>
      (s.finalCode s.pldSrc ≠ 0 → t.getF .kilnPldstatSTATE = 3 ∧ t.pld.failed = true ∧ t.pld.code = s.finalCode s.pldSrc ∧
        SameBut [fk .kilnPldstatSTATE] s t ∧ { t with regs := s.regs, pld := s.pld } = s) ∧
      (s.finalCode s.pldSrc = 0 →
        let early := s.now + 100 * usUnits
        t.getF .kilnPldstatSTATE = 5 ∧ t.shelfOf s.pldFloor = some ⟨stripesOf s.pld.len, s.imgDigest s.pldSrc⟩ ∧
        t.pitchAt 16 = some ⟨2, false, if s.pld.timed = true then max s.pld.time early else early, ⟨2 ^ s.pldFloor, false, 0⟩, none⟩ ∧
        (s.pld.timed = true → s.pld.time < early → t.getF .kilnPldstatLATE = 1) ∧
        SameBut [fk .kilnPldstatSTATE, fk .kilnPldstatLATE, fk .kilnShelfFREE, fk .capStatPEND] s t ∧
        { t with regs := s.regs, shelf := s.shelf, pitches := s.pitches } = s)) ∧
    (s.getF .kilnPldstatSTATE = 3 → s.pld.failed = true → s.pld.cleared = true → Gives (.floorBaseRewriteDone false) s fun t =>
      ∃ u : State, t = u.pldEnd ∧ u.getF .kilnFlrstatSTATE s.pldFloor = 5 ∧ u.getF .kilnPldstatFAIL = 1 ∧
        u.getF .kilnPldstatCODE = s.pld.code % 256 ∧ Raised 994 0 s u ∧
        sameRegs [.kilnFlrstat, .kilnPldstat, .evrPay, .evrRoute] s u ∧ { u with regs := s.regs, out := s.out } = s) ∧
    (s.getF .kilnPldstatSTATE = 3 → s.pld.failed = true → s.pld.cleared = true →
      (s.baseOfFloor s.pldFloor).any (fun e => exclusionFails e.2.1 e.2.2) = false → Gives (.floorBaseRewriteDone true) s fun t =>
        t.getF .kilnPldstatSTATE = 5 ∧ t.shelfOf s.pldFloor = none ∧
        t.pitchAt 16 = some ⟨2, false, s.now + 100 * usUnits, ⟨2 ^ s.pldFloor, false, 0⟩, none⟩ ∧ t.pld = s.pld ∧
        sameRegs [.kilnPldstat, .kilnShelf, .capStat, .grnSpanstat] s t)

/-- R274 step 7, R276 step 3: at its release pitch the floor runs: with partial content (STATE 3, LOADS counted, DONE, event 993), or with base
content after a failure (STATE 4, FAIL with its code, event 994); its parts thaw, and the partial load is over. -/
def Sys2Proof.FloorReleaseEndsThePartialLoad : Prop :=
  ∀ (s : State) (p : Pitch) (u : State), s.takePitch 16 2 = some (p, u) →
    Gives .floorReleasePitch s fun t =>
      (s.pld.failed = false → t.getF .kilnFlrstatSTATE s.pldFloor = 3 ∧ t.getF .kilnPldstatDONE = 1 ∧
        t.getF .kilnFlrstatLOADS s.pldFloor = min (s.getF .kilnFlrstatLOADS s.pldFloor + 1) (2 ^ Fld.kilnFlrstatLOADS.info.len - 1) ∧
        OutMsg.fwEvent 993 0 ∈ t.out) ∧
      (s.pld.failed = true → t.getF .kilnFlrstatSTATE s.pldFloor = 4 ∧ t.getF .kilnPldstatFAIL = 1 ∧
        t.getF .kilnPldstatCODE = s.pld.code % 256 ∧ OutMsg.fwEvent 994 0 ∈ t.out) ∧
      (∀ n ∈ s.floorPos s.pldFloor, SMap.get (fun _ => false) t.frozen (n * 65 + s.pldFloor + 1) = false) ∧
      (s.kilnJobs.drop 1 = [] → t.getF .kilnPldstatSTATE = 0) ∧ t.kilnJobs = s.kilnJobs.drop 1 ∧ t.pld = .none ∧
      t.cfg = s.cfg ∧ t.part = s.part

/-- R272, R274, R276: how a partial load begins, up to its start pitch, and how its release pitch ends it. -/
def Obligations.PartialLoadsBeginAndEnd : Prop := PartialLoadsBegin ∧ FloorReleaseEndsThePartialLoad

/-! ## Sparge and the configuration path (R82, R83, R280–R288, R298, R299) -/

/-- R286, R287: a finding is counted in GRN_SPGSTAT by its class and joins the queue, or with the queue full is counted as lost; SPG_FINDSTAT
shows how many wait. -/
def Sys2Proof.found (n cls fa wrong : Nat) (s t : State) : Prop :=
  let p := s.phys n
  (cls = 1 → t.getF .grnSpgstatCORRCNT p = min (s.getF .grnSpgstatCORRCNT p + 1) 0xFFF ∧ t.getF .grnSpgstatSEEN p = 1) ∧
  (cls = 2 → t.getF .grnSpgstatREWCNT p = min (s.getF .grnSpgstatREWCNT p + 1) 0x3FF ∧ t.getF .grnSpgstatSEEN p = 1) ∧
  (3 ≤ cls → t.getF .grnSpgstatFAILCNT p = min (s.getF .grnSpgstatFAILCNT p + 1) 0x3F ∧ t.getF .grnSpgstatFAILSEEN p = 1 ∧
    OutMsg.fwEvent (16 * n) 0 ∈ t.out) ∧
  (s.findings.length < 1024 → ∃ info, t.findings = s.findings ++ [⟨s.findingAddr n cls fa wrong, info⟩] ∧
    bits info 0 32 = fa % 2 ^ 32 ∧ t.getF .spgFindstatCOUNT = s.findings.length + 1) ∧
  (1024 ≤ s.findings.length → t.findings = s.findings ∧ t.getF .spgFindstatOVF = 1 ∧
    t.getF .spgFindstatOVFCNT = min (s.getF .spgFindstatOVFCNT + 1) 0xFFFF) ∧
  sameRegs [.grnSpgstat, .spgFindstat, .spgFindaddr, .spgFindinfo, .evrPay, .evrRoute] s t ∧
  { t with regs := s.regs, out := s.out, findings := s.findings, spg := s.spg } = s

/-- R281–R284, R286: a pass begins once the previous one has ended and INTERVAL has passed; the frame at the pass index is left alone if it is clean,
corrected to its golden content with a finding of class 1 if SECDED can, and otherwise asked to be rewritten, with class 2; the index moves
on, and after the last frame the pass ends and is counted. A pop drops the oldest finding. -/
def Obligations.SpargeChecksFramesInPasses : Prop :=
  ∀ s : State,
    (∀ n : Pos, s.spargeRuns n = true → (s.spgSt n).inPass = false → (s.spgSt n).start + s.getF .spgCtlINTERVAL * 39000000 ≤ s.ran39 →
      Gives (.spargePassStart n) s fun t => (t.spgSt n).inPass = true ∧ t.getF .grnSpgpassFRAME (s.phys n) = 0 ∧
        SameBut [fk .grnSpgpassFRAME (s.phys n)] s t ∧ { t with regs := s.regs, spg := s.spg } = s) ∧
    (∀ n : Pos, s.spargeRuns n = true → (s.spgSt n).inPass = true → Gives (.frameCheck n) s fun t =>
      let i := s.getF .grnSpgpassFRAME (s.phys n)
      let fa := passFrame i
      let f := s.frame n fa
      let active := s.frameSteeps n fa = false ∧ f.status.testBit 1 = false
      ∃ u : State,
        (active → f.clean = true → (u.frame n fa).data = f.data ∧ (u.frame n fa).status.testBit 2 = false ∧ { u with cfg := s.cfg } = s) ∧
        (active → f.clean = false → f.correctable = true → (u.frame n fa).data = f.good ∧
          ∃ v, found n 1 fa (f.data ^^^ f.good) v u ∧ SameBut [fk .grnSpanstatACTIVE (s.phys n)] s v ∧
            { v with regs := s.regs, cfg := s.cfg } = s) ∧
        (active → f.clean = false → f.correctable = false → (u.frame n fa).status.testBit 1 = true ∧ (u.frame n fa).data = f.data ∧
          ∃ v, found n 2 fa (f.data ^^^ f.good) v u ∧ v.rewrites = s.rewrites ++ [(n.val, fa)] ∧
            { v with cfg := s.cfg, rewrites := s.rewrites } = s) ∧
        (s.frameSteeps n fa = false → f.status.testBit 1 = true → u = s) ∧
        (s.frameSteeps n fa = true → (u.frame n fa).status.testBit 3 = true ∧ (u.frame n fa).data = f.data ∧ { u with cfg := s.cfg } = s) ∧
        (i + 1 < 25641 → t.getF .grnSpgpassFRAME (s.phys n) = i + 1 ∧ RegsOnly [fk .grnSpgpassFRAME (s.phys n)] u t) ∧
        (25641 ≤ i + 1 → t.getF .grnSpgpassFRAME (s.phys n) = 0 ∧ (t.spgSt n).inPass = false ∧
          t.getF .grnSpgpassPASSES (s.phys n) = (s.getF .grnSpgpassPASSES (s.phys n) + 1) % 65536 ∧
          SameBut [fk .grnSpgpassFRAME (s.phys n), fk .grnSpgpassPASSES (s.phys n)] u t ∧ { t with regs := u.regs, spg := u.spg } = u)) ∧
    (∀ w : W32, s.perst = false → s.unitOn .spg = true → w.toNat.testBit 0 = true → Gives (.findingPop w) s fun t =>
      t.findings = s.findings.drop 1 ∧ t.getF .spgFindstatCOUNT = (s.findings.length - 1) % 2048 ∧
      t.getF .spgFindaddrADDR = ((s.findings.drop 1).head?.elim 0 (·.addr)) % 2 ^ 64 ∧
      sameRegs [.spgFindstat, .spgFindaddr, .spgFindinfo] s t ∧ { t with regs := s.regs, findings := s.findings } = s)

/-- R82, R83, R284, R285: an upset flips bits of a stored frame, not of its golden content; a first-driver gate that finds two drivers enabled marks
its frame, counts and records the segment, and raises 16n + 6 with its address. A rewrite from a good source restores the golden content;
a bad source is a finding of class 3, a bad read-back one of class 4. -/
def Obligations.UpsetsAndRewritesOfFrames : Prop :=
  ∀ (n : Pos) (s : State),
    (∀ (fa : W32) (flips : Frame), faddrChecked fa.toNat = true → Gives (.configUpset n fa flips) s fun t =>
      t.frame n fa.toNat = { s.frame n fa.toNat with data := (s.frame n fa.toNat).data ^^^ flips.toNat } ∧
      (∀ m g, cfgKey m g ≠ cfgKey n fa.toNat → t.frame m g = s.frame m g) ∧
      t.getF .grnSpanstatACTIVE (s.phys n) = (t.spanActive n).toNat ∧
      SameBut [fk .grnSpanstatACTIVE (s.phys n)] s t ∧ { t with regs := s.regs, cfg := s.cfg } = s) ∧
    (∀ sp : Span, (if sp.vert then sp.seg.val < 8 else sp.line.val < 128) → 2 ≤ popcount 16 (s.spanField n (spanFieldNo sp)) →
      Gives (.spanGateEvent n sp) s fun t =>
        let p := s.phys n
        let k := spanFieldNo sp
        let tile := spanTile k ((conducting (s.spanField n k)).getD 0)
        let addr := addrWord 1 (packAddr s.devNum n tile.1 tile.2 0)
        t.getF .grnSpanstatCOUNT p = min (s.getF .grnSpanstatCOUNT p + 1) 0xFFFF ∧ t.getF .grnSpanstatSEEN p = 1 ∧
        t.getF .grnSpanaddrADDR p = addr % 2 ^ 64 ∧ t.getF .grnSpantrkTRACK p = sp.track ∧ t.getF .grnSpantrkVERT p = sp.vert.toNat ∧
        t.getF .grnSpantrkSEG p = sp.seg ∧ t.getF .grnSpantrkENMASK p = s.spanField n k % 65536 ∧
        (t.frame n (faddrOf 1 (k / 128))).status.testBit 0 = true ∧ Raised (16 * n + 6) addr s t ∧
        sameRegs [.grnSpanstat, .grnSpanaddr, .grnSpantrk, .evrPay, .evrRoute] s t ∧
        { t with regs := s.regs, out := s.out, cfg := s.cfg } = s) ∧
    (∀ (fa : W32) (ok : Bool) (rb : Option Frame), (n.val, fa.toNat) ∈ s.rewrites → s.unitOn .kiln = true →
      Gives (.frameRewrite n fa ok rb) s fun t =>
        let f := s.frame n fa.toNat
        let src := s.sourceFrame n fa.toNat
        let good := ok && (src == f.good || gsig src == gsig f.good) && !exclusionFails fa.toNat src
        t.rewrites = s.rewrites.erase (n.val, fa.toNat) ∧
        (good = false → ∃ v, found n 3 fa.toNat (f.data ^^^ f.good) v t ∧ { v with rewrites := s.rewrites, cfg := s.cfg } = s ∧
          v.frame n fa.toNat = { f with status := setBit f.status 1 false }) ∧
        (good = true → rb = none → (t.frame n fa.toNat).data = f.good ∧ (t.frame n fa.toNat).good = f.good ∧
          (t.frame n fa.toNat).status.testBit 1 = false ∧ SameBut [fk .grnSpanstatACTIVE (s.phys n)] s t ∧
          { t with regs := s.regs, cfg := s.cfg, rewrites := s.rewrites } = s) ∧
        (∀ d, good = true → rb = some d → (⟨d.toNat, f.good, 0⟩ : CfgFrame).clean = false →
          (t.frame n fa.toNat).data = d.toNat ∧ (t.frame n fa.toNat).status.testBit 2 = true ∧
          ∃ v, found n 4 fa.toNat (d.toNat ^^^ f.good) v t))

/-- R299: a START of a read, write or restore job sets BUSY and clears TORN and FRAMES, and one of no frames is DONE at once; a START while BUSY is
ignored. Each frame is refused with an ERRCODE that ends the job with event 997, or moved, counted in FRAMES, and the last one sets DONE. -/
def Obligations.ConfigurationPathMovesFrames : Prop :=
  ∀ s : State,
    (∀ (w : W32) (op : Nat) (c : Instr), (op, c) ∈ [(0, Instr.accessReadJob w), (1, .accessWriteJob w), (2, .accessRestoreJob w)] →
      w.toNat % 4 = op → w.toNat.testBit 12 = true → s.perst = false → s.unitOn .cap = true → s.isSet .capAccstatBUSY = false →
      Gives c s fun t =>
        t.acc = ⟨op, w.toNat / 4 % 64, w.toNat / 256 % 16, s.getF .capAccidxFIRST, s.getF .capAccidxCOUNT, s.getF .capAccaddrADDR * 64, 0⟩ ∧
        t.getF .capAccstatTORN = 0 ∧ t.getF .capAccstatFRAMES = 0 ∧
        (s.getF .capAccidxCOUNT ≠ 0 → t.getF .capAccstatBUSY = 1 ∧ sameRegs [.capAccctl, .capAccstat] s t ∧
          { t with regs := s.regs, acc := s.acc } = s) ∧
        (s.getF .capAccidxCOUNT = 0 → t.getF .capAccstatBUSY = 0 ∧ t.getF .capAccstatDONE = 1 ∧ Raised 997 0 s t ∧
          sameRegs [.capAccctl, .capAccstat, .evrPay, .evrRoute] s t ∧ { t with regs := s.regs, out := s.out, acc := s.acc } = s)) ∧
    (∀ w : W32, s.perst = false → s.unitOn .cap = true → s.isSet .capAccstatBUSY = true →
      ∀ c ∈ [Instr.accessReadJob w, .accessWriteJob w, .accessRestoreJob w], Gives c s fun t =>
        t.acc = s.acc ∧ SameBut [fk .capAccctlOP, fk .capAccctlLPOS, fk .capAccctlFTYPE] s t ∧ { t with regs := s.regs } = s) ∧
    (∀ me : Bool, s.isSet .capAccstatBUSY = true → s.unitOn .cap = true → Gives (.accessFrame me) s fun t =>
      let code := s.accRefusal s.acc me
      (code ≠ 0 → t.getF .capAccstatBUSY = 0 ∧ t.getF .capAccstatERR = 1 ∧ t.getF .capAccstatERRCODE = code ∧ Raised 997 0 s t ∧
        sameRegs [.capAccstat, .evrPay, .evrRoute] s t ∧ { t with regs := s.regs, out := s.out } = s) ∧
      (code = 0 → t.getF .capAccstatFRAMES = min (s.acc.done + 1) 65535 ∧ t.acc = { s.acc with done := s.acc.done + 1 } ∧
        (s.acc.done + 1 = s.acc.count → t.getF .capAccstatBUSY = 0 ∧ t.getF .capAccstatDONE = 1 ∧ OutMsg.fwEvent 997 0 ∈ t.out) ∧
        (s.acc.done + 1 ≠ s.acc.count → t.isSet .capAccstatBUSY = true ∧ t.out = s.out) ∧
        (s.acc.op = 0 → t.cfg = s.cfg ∧ t.q = s.q ∧ t.ram = s.ram) ∧ (s.acc.op = 1 → t.cfg = s.cfg ∧ t.mem = s.mem) ∧
        (s.acc.op = 2 → t.cfg = s.cfg ∧ t.mem = s.mem ∧ t.shadow = s.shadow ∧
          ∀ r : Fin 128, SMap.wf (fun _ => 0) s.shadow = true → t.tileQ (tileKey s.acc.lpos (s.acc.first + s.acc.done) r) =
            SMap.get (fun _ => 0) s.shadow (tileKey s.acc.lpos (s.acc.first + s.acc.done) r)) ∧
        sameRegs [.capAccstat, .grnShdsrc, .evrPay, .evrRoute] s t))

/-! ## Repair (R25, R26, R221–R228) -/

/-- R224–R226: a START during a remap shows REASON 7 and no more; a request that a check refuses ends in STATE 4 with its reason, and one that passes
begins with STATE 1, waiting for a floor of its position if need be. A die-link fault is queued while a load or a remap runs. -/
def Obligations.RemapsAreAcceptedRefusedOrQueued : Prop :=
  ∀ (f : PathFacts) (s : State),
    (∀ w : W32, s.perst = false → s.unitOn .die = true → w.toNat.testBit 12 = true → Gives (.remapRequest (.host w) f) s fun t =>
      let n := w.toNat % 64
      let p := w.toNat / 64 % 64
      let r := s.remapReason n p f
      t.getF .dieRemapctlLPOS = n ∧ t.getF .dieRemapctlSPARE = p ∧
      (s.remap.phase ≠ .idle → t.getF .dieRemapstatREASON = 7 ∧
        SameBut [fk .dieRemapctlLPOS, fk .dieRemapctlSPARE, fk .dieRemapstatREASON] s t ∧ { t with regs := s.regs } = s) ∧
      (s.remap.phase = .idle → r ≠ 0 → t.getF .dieRemapstatSTATE = 4 ∧ t.getF .dieRemapstatREASON = r % 32 ∧
        t.getF .dieRemapstatLPOS = n ∧ t.getF .dieRemapstatSPARE = p ∧ t.getF .dieRemapstatNOSTATE = 0 ∧ t.getF .dieRemapstatSEEN = 1 ∧
        sameRegs [.dieRemapctl, .dieRemapstat] s t ∧ { t with regs := s.regs } = s) ∧
      (s.remap.phase = .idle → r = 0 → t.getF .dieRemapstatSTATE = 1 ∧ t.getF .dieRemapstatREASON = 0 ∧
        t.getF .dieRemapstatLPOS = n ∧ t.getF .dieRemapstatSPARE = p ∧
        t.getF .dieRemapstatNOSTATE = (s.isOos n || s.memSize == 0).toNat ∧ t.remap.pos = n ∧ t.remap.spare = p ∧ t.remap.old = s.phys n ∧
        t.remap.phase = (if s.floorBusy n then .waiting else .preparing) ∧
        (∀ g i j, grainFld g = false → g.info.reg ∉ [.dieRemapctl, .dieRemapstat] → t.getF g i j = s.getF g i j) ∧
        { t with regs := s.regs, remap := s.remap, isoHard := s.isoHard } = s)) ∧
    (∀ a b : Pos, s.getF .dieCtlREMAPPOL = 2 → s.linkFaulty a b = true → Gives (.remapRequest (.linkFault a b) f) s fun t =>
      let e := (min a.val b.val, max a.val b.val)
      let u := { s with remap := { s.remap with queued := s.remap.queued.erase e } }
      ((s.loading = true ∨ s.remap.phase ≠ .idle) → e ∈ t.remap.queued ∧ { t with remap := s.remap } = s) ∧
      (s.loading = false → s.remap.phase = .idle → u.faultEndpoint a b = none → t = u) ∧
      (∀ c, s.loading = false → s.remap.phase = .idle → u.faultEndpoint a b = some c →
        t.getF .dieRemapstatSTATE = (if u.remapReason c.1 c.2 f = 0 then 1 else 4) ∧
        t.getF .dieRemapstatREASON = u.remapReason c.1 c.2 f % 32 ∧ t.getF .dieRemapstatLPOS = c.1 % 64))

/-- R227 steps 2, 3, 6 to 8, R228, R485: with the spare prepared the capture pitch follows 200 µs on, or the write of a second spare; a spare with a link
fault ends the remap with REASON 9. A write that passes leads to the switchover pitch; one that fails to the other covering spare, or
without one to the abort pitch. -/
def Sys2Proof.RemapsPrepareAndWriteTheSpare : Prop :=
  ∀ s : State,
    (s.remap.phase = .preparing → Gives (.sparePrepared true) s fun t =>
      t.getF .dieRemapstatSTATE = 4 ∧ t.getF .dieRemapstatREASON = 9 ∧ t.getF .dieRemapstatSEEN = 1 ∧ t.remap.phase = .idle ∧
      sameRegs [.dieRemapstat] s t ∧ { t with regs := s.regs, remap := s.remap } = s) ∧
    (s.remap.phase = .preparing → s.remapAwake = true → Gives (.sparePrepared false) s fun t =>
      t.remap = { s.remap with phase := .captured } ∧
      t.pitchAt 17 = some ⟨3, false, s.now + 200 * usUnits, ⟨2 ^ 64 - 1, true, 2 ^ s.remap.pos⟩, none⟩ ∧
      (∀ j, j ≠ 17 → t.pitchAt j = s.pitchAt j) ∧ SameBut [fk .capStatPEND] s t ∧
      { t with regs := s.regs, remap := s.remap, pitches := s.pitches } = s) ∧
    (s.remap.phase = .again → Gives (.sparePrepared false) s fun t =>
      t.remap.phase = .writing ∧ t.kilnJobs = s.kilnJobs ++ [.remapWrite] ∧ t.regs = s.regs ∧ t.cfg = s.cfg) ∧
    (∀ (readable : Bool) (rest : List KilnJob), s.kilnJobs = .remapWrite :: rest → s.remap.phase = .writing →
      (Gives (.remapWriteDone true readable) s fun t => ∃ u : State, t = u.jobEnd ∧ u.remap.phase = .switching ∧
        u.remap.nostate = (s.remap.nostate || !readable) ∧ u.getF .dieRemapstatNOSTATE = (s.remap.nostate || !readable).toNat ∧
        u.pitchAt 17 = some ⟨6, false, s.now + 500 * usUnits, ⟨0, false, 0⟩, none⟩ ∧
        SameBut [fk .dieRemapstatNOSTATE, fk .capStatPEND] s u ∧ { u with regs := s.regs, remap := s.remap, pitches := s.pitches } = s) ∧
      (Gives (.remapWriteDone false readable) s fun t =>
        let u := s.jobEnd
        (u.chooseSpare s.remap.pos s.remap.tried = none → t.remap = { s.remap with phase := .aborting } ∧
          (t.pitchAt 17).map (fun p => (p.kind, p.time)) = some (6, u.now + 100 * usUnits)) ∧
        (∀ p, u.chooseSpare s.remap.pos s.remap.tried = some p →
          t.remap = { s.remap with phase := .again, spare := p, tried := s.remap.tried ++ [p] } ∧ t.getF .dieRemapstatSPARE = p % 64)))

/-- R25, R26, R227 steps 9 and 10, R228: at the switchover pitch the spare serves the position with golden frames, in service; an abort pitch leaves the map as
it is, with STATE 5 and REASON 8; a remap that has switched over ends with STATE 3 and event 985, the repair map on the store dies
rewritten and the old grain's links down. -/
def Sys2Proof.RemapsSwitchOverOrAbort : Prop :=
  ∀ s : State,
    (∀ p u, s.remap.phase = .switching → s.remap.pos < 60 → SMap.wf (fun _ => CfgFrame.zero) s.cfg = true → s.takePitch 17 6 = some (p, u) →
      Gives .switchoverPitch s fun t =>
        t.phys s.remap.pos = s.remap.spare % 64 ∧ (∀ m : Pos, m.val ≠ s.remap.pos → t.phys m = s.phys m) ∧
        t.isOos s.remap.pos = false ∧ (∀ m : Pos, m.val ≠ s.remap.pos → t.isOos m = s.isOos m) ∧ t.remap.phase = .finishing ∧
        (∀ fa < 2 ^ 32, bits fa 28 4 < 5 → t.frame s.remap.pos fa = ⟨(s.frame s.remap.pos fa).good, (s.frame s.remap.pos fa).good, 0⟩) ∧
        (∀ (m : Pos) (fa : Nat), m.val ≠ s.remap.pos → fa < 2 ^ 32 → t.frame m fa = s.frame m fa) ∧ t.part = s.part) ∧
    (∀ p u, s.remap.phase = .aborting → s.takePitch 17 6 = some (p, u) → Gives .abortPitch s fun t =>
      t.getF .dieRemapstatSTATE = 5 ∧ t.getF .dieRemapstatREASON = 8 ∧ t.getF .dieRemapstatSEEN = 1 ∧ t.remap.phase = .idle ∧
      (∀ m : Pos, t.phys m = s.phys m) ∧ t.cfg = s.cfg ∧ t.q = s.q ∧ t.oos = s.oos) ∧
    (s.remap.phase = .finishing → Gives .remapFinish s fun t =>
      t.getF .dieRemapstatSTATE = 3 ∧ t.getF .dieRemapstatSEEN = 1 ∧ t.remap.phase = .idle ∧ Raised 985 0 s t ∧
      t.repair.map = (List.range 60).map s.phys ∧ t.repair.seq = s.repair.seq + 1 ∧
      (∀ d : Fin 4, physNbr s.remap.old (portOf d) ≠ .none →
        (SMap.get (fun _ => LinkSt.initial) t.link (4 * s.remap.old + d)).up = false) ∧
      sameRegs [.dieRemapstat, .evrPay, .evrRoute] s t ∧
      { t with regs := s.regs, out := s.out, remap := s.remap, repair := s.repair, link := s.link } = s)

/-- R25, R26, R227, R228: the steps of a remap, from the prepared spare to the switchover or abort and the end. -/
def Obligations.RemapsRunTheirSteps : Prop := RemapsPrepareAndWriteTheSpare ∧ RemapsSwitchOverOrAbort

/-! ## Die reset, clocks and lanes (R202–R214, R229–R232) -/

/-- R229, R231: a write of DIE_GRST holds positions in die reset, unless it would hold both L29 and L30; a position that enters it loses its events and
its ports' tags. A position not held leaves it at a crossing cycle that is a multiple of 4,096, its flip-flops from INIT. -/
def Obligations.DieResetHoldsAndReleases : Prop :=
  ∀ s : State,
    (∀ (w : W64) (lo hi : Bool), s.perst = false → s.unitOn .die = true → Gives (.holdWrite w lo hi) s fun t =>
      let m := ((if lo then 0xFFFFFFFF else 0) + (if hi then 0xFFFFFFFF * 2 ^ 32 else 0)) % 2 ^ 60
      let new := (s.getF .dieGrstHOLD &&& (2 ^ 60 - 1 - m)) ||| (w.toNat % 2 ^ 60 &&& m)
      (new.testBit 29 = true → new.testBit 30 = true → t = s) ∧
      (¬(new.testBit 29 = true ∧ new.testBit 30 = true) →
        t.getF .dieGrstHOLD = new ∧
        (∀ n : Pos, new.testBit n = true → s.bitF .dieGrstHOLD n = false →
          (t.posSt n).inReset = true ∧ SMap.get (fun _ => []) t.evFifo n = [] ∧ (t.dnpSt n 0).tags = [] ∧ (t.dnpSt n 1).tags = []) ∧
        (∀ n : Pos, (new.testBit n = false ∨ s.bitF .dieGrstHOLD n = true) → t.posSt n = s.posSt n) ∧
        SameBut [fk .dieGrstHOLD] s t ∧ { t with regs := s.regs, pos := s.pos, evFifo := s.evFifo, dnp := s.dnp } = s)) ∧
    (∀ n : Pos, (s.posSt n).inReset = true → s.bitF .dieGrstHOLD n = false → s.isOos n = false → (s.clkSt (s.phys n)).lost = false →
      s.crossingRuns = true → s.xidx % 4096 = 0 → SMap.wf (fun _ => CfgFrame.zero) s.cfg = true → Gives (.holdRelease n) s fun t =>
        (t.posSt n).inReset = false ∧ (t.posSt n).restore = (s.posSt n).restore ∧ (∀ m : Pos, m ≠ n → t.posSt m = s.posSt m) ∧
        ((s.posSt n).restore = false → ∀ (c : Fin 192) (r : Fin 128),
          t.tileQ (tileKey n c r) = s.startQ (tileKey n c r) (s.tileFrame n c r)) ∧
        (∀ m : Pos, m ≠ n → ∀ (c : Fin 192) (r : Fin 128), t.tileQ (tileKey m c r) = s.tileQ (tileKey m c r)) ∧
        SameBut [fk .grnShdsrcFROZEN (s.phys n)] s t ∧
        { t with regs := s.regs, pos := s.pos, frozen := s.frozen, q := s.q, bport := s.bport, blast := s.blast, slices := s.slices } = s)

/-- R204, R230: a grain whose clock fails, or that stays an orphan, is lost: its links stop, its position is held in die reset, DIE_CLKLOSS names it and
event 984 is raised. An orphan adopts the port of lowest depth, or advertises itself. A lost grain that hears a clock again adopts it and
CLKBACK is set; it stays in die reset. -/
def Obligations.LostAndOrphanedGrains : Prop :=
  ∀ (p : Phys) (s : State),
    (∀ c : Instr, (c = .grainClockLoss p ∧ (s.clkSt p).fwd = true ∨ c = .orphanTimeout p ∧ (s.clkSt p).orphan = true) →
      (s.clkSt p).lost = false → Gives c s fun t =>
        (t.clkSt p).lost = true ∧ (t.clkSt p).fwd = false ∧ t.getF .dieClklossPHYS = p ∧
        t.getF .dieClklossLPOS = (s.posOf p).getD 0x3F ∧ t.getF .dieClklossPORTS = s.clkMissPorts p % 16 ∧
        t.getF .dieClklossCLKBACK = 0 ∧ t.getF .dieClklossSEEN = 1 ∧ Raised 984 0 s t ∧
        (∀ n, s.posOf p = some n → t.bitF .dieGrstHOLD n = true ∧ (t.posSt n).inReset = true) ∧
        (∀ d : Fin 4, physNbr p (portOf d) ≠ .none → (SMap.get (fun _ => LinkSt.initial) t.link (4 * p + d)).up = false) ∧
        sameRegs [.dieGrst, .dieClkloss, .evrPay, .evrRoute] s t ∧
        { t with regs := s.regs, out := s.out, clk := s.clk, link := s.link, pos := s.pos, evFifo := s.evFifo, dnp := s.dnp } = s) ∧
    ((s.clkSt p).lost = false → ((s.clkSt p).orphan = true ∨ s.upstreamBad p = true) → Gives (.orphan p) s fun t =>
      (∀ b, s.bestPort p = some b → t.clkSt p = ⟨some b.1.num, b.2 + 1, false, true, false⟩ ∧
        (∀ n, s.posOf p = some n → OutMsg.fwEvent (16 * n + 14) 0 ∈ t.out)) ∧
      (s.bestPort p = none → t.clkSt p = { s.clkSt p with orphan := true } ∧ t.regs = s.regs) ∧
      sameRegs [.grnLnkstat, .evrPay, .evrRoute] s t ∧ { t with regs := s.regs, out := s.out, clk := s.clk } = s) ∧
    (∀ (d : GPort) (depth : Nat), (s.clkSt p).lost = true → s.clockAt p d = some depth → Gives (.clockRegained (.grain p d)) s fun t =>
      t.clkSt p = ⟨some d.num, depth + 1, false, true, false⟩ ∧ (s.getF .dieClklossPHYS = p → t.getF .dieClklossCLKBACK = 1) ∧
      t.pos = s.pos ∧ sameRegs [.grnLnkstat, .dieClkloss] s t ∧
      { t with regs := s.regs, clk := s.clk, replicas := s.replicas } = s)

/-- What a lane's rules may change: the state of its link direction, its registers, DIE_FAULT, and events. -/
def Sys2Proof.laneFrame (l : LinkDir) (s t : State) : Prop :=
  (∀ k, k ≠ linkKey l → SMap.get (fun _ => LinkSt.initial) t.link k = SMap.get (fun _ => LinkSt.initial) s.link k) ∧
  sameRegs [.grnLnkstat, .dieTlnkstat, .grnLanecnt, .dieFault, .grnXstat, .grnXpair, .evrPay, .evrRoute] s t ∧
  { t with regs := s.regs, out := s.out, link := s.link } = s

/-- R208, R209: a margin count is shown, and a lane over DIE_LTHR begins to move to the lowest free spare, or leaves service; once the copy qualifies, or
times out without a margin event of the spare, the spare carries the lane and the lane is retired; a spare with margin events is retired
itself. -/
def Obligations.LanesAreRetiredToSpares : Prop :=
  ∀ (l : LinkDir) (s : State), let v := s.lnk l
    (∀ (lane : Fin 104) (count : Nat), v.up = true → v.isRetired lane = false → Gives (.marginWindowEnd l lane count) s fun t =>
      let tooMany := s.retireThr < count ∧ lane.val < 100 ∧ ∀ e ∈ v.moving, e.2.1 ≠ lane.val
      (¬tooMany → t.lnk l = v ∧ (∀ p d, l = .grain p d → t.getF .grnLanecntCOUNT p (128 * d.num + lane) = min count 0xFFFF)) ∧
      (∀ logical spare, tooMany → v.carried lane = some logical → v.freeSpare (laneHalf lane) = some spare →
        t.lnk l = { v with moving := v.moving ++ [(logical, lane.val, spare)] }) ∧
      (tooMany → (v.carried lane = none ∨ v.freeSpare (laneHalf lane) = none) → (t.lnk l).isRetired lane = true ∧
        (∀ logical, v.carried lane = some logical → (t.lnk l).laneDown logical = true)) ∧ laneFrame l s t) ∧
    (v.up = true → v.moving ≠ [] → v.copying = false → Gives (.spareCopyRequest l) s fun t =>
      t.lnk l = { v with copying := true } ∧ laneFrame l s t) ∧
    (∀ (c : Instr) (logical old spare : Nat) (rest : List (Nat × Nat × Nat)),
      (c = .spareQualified l ∨ c = .spareCompareTimeout l false) → v.copying = true → v.moving = (logical, old, spare) :: rest →
      Gives c s fun t =>
        (t.lnk l).hostOf logical = spare ∧ (t.lnk l).isRetired old = true ∧ (t.lnk l).moving = rest ∧ (t.lnk l).copying = false ∧
        (t.lnk l).laneDown logical = false ∧ t.getLink l .grnLnkstatLASTRET .dieTlnkstatLASTRET = old % 128 ∧
        t.getLink l .grnLnkstatRETSEEN .dieTlnkstatRETSEEN = 1 ∧ laneFrame l s t) ∧
    (∀ (logical old spare : Nat) (rest : List (Nat × Nat × Nat)), v.copying = true → v.moving = (logical, old, spare) :: rest →
      Gives (.spareCompareTimeout l true) s fun t => (t.lnk l).isRetired spare = true ∧ (t.lnk l).copying = false ∧ laneFrame l s t)

/-- R175, R202, R210–R214: a dead lane is out of service at once and shown, and what it carried is without a host until it has moved to a spare; a dead clock
lane is a lost one. A fold takes the layout of its surviving lanes. CKB tells a lost CKA. A flit that is replayed changes nothing. A
missing clock sets CLKMISS and INREST of its port. -/
def Obligations.LanesDieAndLinksFold : Prop :=
  ∀ (l : LinkDir) (s : State), let v := s.lnk l
    (∀ lane : Fin 104, v.up = true → v.isRetired lane = false → Gives (.laneDeath l lane) s fun t =>
      (lane.val < 100 → (t.lnk l).isRetired lane = true ∧ (∀ logical, v.carried lane = some logical → (t.lnk l).laneDown logical = true) ∧
        t.getLink l .grnLnkstatLASTRET .dieTlnkstatLASTRET = lane ∧ t.getLink l .grnLnkstatRETSEEN .dieTlnkstatRETSEEN = 1) ∧
      (100 ≤ lane.val → (t.lnk l).ckLost.testBit (lane - 100) = true) ∧ laneFrame l s t) ∧
    (∀ (lane : Fin 104) (e : Nat × Nat × Nat), v.moving.find? (fun x => x.2.1 == lane.val) = some e → v.isRetired lane = true →
      Gives (.deadLaneMoved l lane) s fun t =>
        (t.lnk l).hostOf e.1 = e.2.2 ∧ (t.lnk l).laneDown e.1 = false ∧ (t.lnk l).moving = v.moving.erase e ∧ laneFrame l s t) ∧
    (∀ p d n, l = .grain p d → s.posOf p = some n → Gives (.foldChange l) s fun t =>
      let q := s.foldQ l
      t.getF .grnLnkstatFOLDA p d.num = foldCycles q.sA q.kA q.nA ∧ t.getF .grnLnkstatFOLDB p d.num = foldCycles q.sB q.kB q.nB ∧
      (t.lnk l).retired = v.retired ∧ laneFrame l s t) ∧
    (∀ noc : Bool, let b := if noc then 2 else 0
      (Gives (.clockLaneLoss l noc) s fun t => (t.lnk l).ckLost.testBit b = true ∧ t.getLink l .grnLnkstatCKB .dieTlnkstatCKB = 1 ∧
        laneFrame l s t) ∧
      (Gives (.clockLaneReturn l noc) s fun t => (t.lnk l).ckLost.testBit b = false ∧
        t.getLink l .grnLnkstatCKB .dieTlnkstatCKB = (v.ckLost.testBit (2 - b)).toNat ∧ laneFrame l s t)) ∧
    (Gives (.nocFlitReplay l) s fun t => t = s) ∧
    (∀ p d, l = .grain p d → s.clockMissing p d = true → Gives (.missingClockDetect l) s fun t =>
      t.bitF .grnXstatCLKMISS d.num p = true ∧ t.bitF .grnXstatINREST d.num p = true ∧
      (∀ q, physNbr p d = .grain q → s.isSet .dieClklossSEEN = true → s.getF .dieClklossPHYS = q →
        t.bitF .dieClklossPORTS (oppNum d.num) = true) ∧
      SameBut [fk .grnXstatCLKMISS p, fk .grnXstatINREST p, fk .dieClklossPORTS] s t ∧ { t with regs := s.regs } = s)

/-! ## Crossings (R168–R198) -/

/-- R154, R173, R187, R191, R406: at a crossing-clock edge the index and the time of the edge move on; a rigid crossing of k hops whose links carry it shows on Q
what was launched 6k edges before; a source under a rest condition launches the rest value; a destination under one shows it. -/
def Obligations.RigidCrossingsDelaySixCyclesAHop : Prop :=
  ∀ (s : State), s.crossingRuns = true →
    (∀ ds : List (XrRef × Bool), Gives (.crossingClockEdge ds) s fun t =>
      t.xidx = s.xidx + 1 ∧ t.edgeTime = (s.edgeTime + 2 * s.incNow) % timeLimit ∧ sameRegs [.grnXstat] s t ∧
      { t with regs := s.regs, xr := s.xr, xe := s.xe, xidx := s.xidx, edgeTime := s.edgeTime, replicas := s.replicas, lines := s.lines } = s) ∧
    (∀ (x : XrRef) (d : Bool), let e := s.xrEntry x
      let c := SMap.get (fun _ => XrSt.initial) s.xr (pathKey x.hops)
      let src := s.xrSourceTile x
      let dst := edgeTile (lastHop x.hops).2.1 (bits e 0 12)
      let sent := if s.sourceRests x.src src.1 src.2 then restValue (bits e 12 2) c.last else d
      x.hops ≠ [] → e.testBit 14 = true → c.pipe.length = 6 * x.hops.length →
      (∀ h ∈ x.hops, s.hopRests h.pos h.port.num = false ∧ s.hopPairDown h.pos h.port.num h.idx = false ∧
        s.hopHolds h.pos h.port.num = false) →
      Gives (.crossingClockEdge [(x, d)]) s fun t =>
        let r := SMap.get (fun _ => XrSt.initial) t.xr (pathKey x.hops)
        r.pipe = c.pipe.drop 1 ++ [sent] ∧
        r.q = (if s.restored (lastHop x.hops).1 dst.1 dst.2 then restValue (bits e 12 2) c.q else c.pipe.headD c.q) ∧
        (∀ k, k ≠ pathKey x.hops → SMap.get (fun _ => XrSt.initial) t.xr k = SMap.get (fun _ => XrSt.initial) s.xr k))

/-- R177, R181–R183, R190: a push enters the source FIFO while it has room, a word that has landed stands in the destination FIFO, a pop takes it and
owes its credit, and a returned credit frees the source; a launch takes a credit. Frozen credits are restored from the destination's
free space once both ends run. A failed group cycle is counted and replayed, and the fifth failure in a row is handed to the lanes. -/
def Obligations.ElasticChannelsKeepTheirCredits : Prop :=
  ∀ (s : State),
    (∀ (x : XeRef) (word : BitVec 512), let key := pathKey x.hops
      let c := s.openChan x
      let tile := s.xeSourceTile c
      x.hops ≠ [] → (s.xeEntry key).testBit 41 = true → s.tileClocked x.src tile.1 tile.2 = true → c.srcF.length < 16 →
      Gives (.xePush x word) s fun t => t.chan key = { c with srcF := c.srcF ++ [word.toNat % 2 ^ xeW (s.xeEntry key)] } ∧
        (∀ k, k ≠ key → t.chan k = s.chan k) ∧ { t with xe := s.xe } = s) ∧
    (∀ x : XeRef, let key := pathKey x.hops
      let c := s.chan key
      let tile := s.xeDestTile key
      (∀ w f, s.tileClocked (key / 4096) tile.1 tile.2 = true → c.dstF = w :: f → Gives (.xePop x) s fun t =>
        t.chan key = { c with dstF := f, owed := c.owed + 1 } ∧ (∀ k, k ≠ key → t.chan k = s.chan k) ∧ { t with xe := s.xe } = s) ∧
      (∀ n : BitVec 6, c.frozen = false → n.toNat ≤ c.owed → Gives (.creditReturn x n) s fun t =>
        t.chan key = { c with spent := c.spent - n.toNat, owed := c.owed - n.toNat } ∧ (∀ k, k ≠ key → t.chan k = s.chan k) ∧
        { t with xe := s.xe } = s) ∧
      (∀ w f, c.fly = w :: f → Gives (.wordLanded x) s fun t =>
        t.chan key = { c with fly := f, dstF := if s.xeDestRests key then c.dstF else c.dstF ++ [w] } ∧
        (∀ k, k ≠ key → t.chan k = s.chan k) ∧ { t with xe := s.xe } = s) ∧
      (c.frozen = true → s.xeSourceRests c = false → s.xeDestRests key = false → Gives (.xeResync x) s fun t =>
        t.chan key = { c with frozen := false, spent := c.dstF.length, owed := 0 } ∧ (∀ k, k ≠ key → t.chan k = s.chan k) ∧
        SameBut [fk .grnXstatCREDFROZEN (s.phys c.src)] s t ∧ { t with regs := s.regs, xe := s.xe } = s) ∧
      (∀ w f, let e := s.xeEntry key
        s.xeSourceRests c = false → s.xeDestRests key = false → s.xeStalled key = false → c.slots = 0 → c.srcF = w :: f → c.frozen = false →
        c.spent < xeDepth e → ((s.xeEdge key).chan key).spent = c.spent + 1 ∧
          (xeW e ≤ xeSw e → (s.xeEdge key).chan key = { c with spent := c.spent + 1, slots := 0, srcF := f, fly := c.fly ++ [w] }))) ∧
    (∀ (p : Phys) (d : GPort) (g : Fin 8) (seq : BitVec 7), let key := linkKey (.grain p d) * 8 + g.val
      let old := SMap.get (fun _ => 0) s.xfail key
      let n := if old % 128 = seq.toNat ∧ old ≠ 0 then old / 128 + 1 else 1
      Gives (.groupCrcFailure (.grain p d) g seq) s fun t =>
        (n ≠ 5 → t.getF (replayFld d.num) p = min (s.getF (replayFld d.num) p + 1) 0xFFFF ∧ t.bitF .grnXstatREPLAYSEEN d.num p = true ∧
          SMap.get (fun _ => 0) t.xfail key = seq.toNat + 128 * n ∧ SameBut [fk (replayFld d.num) p, fk .grnXstatREPLAYSEEN p] s t ∧
          { t with regs := s.regs, xfail := s.xfail } = s) ∧
        (∀ k, n = 5 → s.posOf p = some k → Raised (16 * k + 11) 0 s t ∧ SMap.get (fun _ => 0) t.xfail key = 0 ∧
          sameRegs [.evrPay, .evrRoute] s t ∧ { t with regs := s.regs, out := s.out, xfail := s.xfail } = s))

/-! ## Tiles, blocks and slices (R47–R59, R93–R142) -/

/-- The flip-flops of every other tile stay as they are. -/
def Sys2Proof.otherTiles (tl : Tile) (s t : State) : Prop :=
  ∀ k, k ≠ tileKey tl.pos tl.col tl.row → t.tileQ k = s.tileQ k

/-- R47, R50, R53: at an active edge each flip-flop on the line takes, in this order, SRVAL under an asserted asynchronous SR, SRVAL under a synchronous
one, its own value with CE = 0, else D; those of the other line hold. Where a recovery time is violated each flip-flop with an asynchronous
SR takes SRVAL or that value. Asserting an asynchronous SR line sets its flip-flops to SRVAL at once; releasing it changes none. -/
def Obligations.FlipFlopsFollowTheirPriorities : Prop :=
  ∀ (tl : Tile) (line : Fin 2) (s : State),
    let key := tileKey tl.pos tl.col tl.row
    let fr := s.tileFrame tl.pos tl.col tl.row
    let q := s.tileQ key
    (∀ (a : Arrivals) (v : Bool), s.tileClocked tl.pos tl.col tl.row = true →
      s.clockSelLive tl.pos tl.col tl.row (bits fr (996 + 5 * line) 5) = true → s.capt = none → Gives (.activeClockEdge tl line a v) s fun t =>
        (∀ c : Fin 16, let cc := cellCfg fr c
          let rule (b : Bool) : Prop :=
            (s.forced key fr c = true → b = cc.srval) ∧
            (∀ k, s.forced key fr c = false → cc.sr = some k → srAsync fr k = false → srLine fr a q k = true → b = cc.srval) ∧
            (s.forced key fr c = false → (∀ k, cc.sr = some k → srAsync fr k = true ∨ srLine fr a q k = false) →
              b = if cellCe fr a q c then cellD fr a q tl.row c else q.testBit c)
          (cc.cksel ≠ line → (t.tileQ key).testBit c = q.testBit c) ∧
          (cc.cksel = line → (v = false ∨ ∀ k, cc.sr = some k → srAsync fr k = false) → rule ((t.tileQ key).testBit c)) ∧
          (cc.cksel = line → v = true → rule ((t.tileQ key).testBit c) ∨ (t.tileQ key).testBit c = cc.srval)) ∧
        otherTiles tl s t ∧ { t with q := s.q, freeCtr := s.freeCtr } = s) ∧
    (srAsync fr line = true → Gives (.asyncSetReset tl line) s fun t =>
      (∀ c : Fin 16, (t.tileQ key).testBit c = if (cellCfg fr c).sr = some line.val then (cellCfg fr c).srval else q.testBit c) ∧
      t.asyncOn key line = true ∧ otherTiles tl s t ∧ { t with q := s.q, srOn := s.srOn } = s) ∧
    (∀ (a : Arrivals) (v : Bool), s.asyncOn key line = true → Gives (.asyncSetResetRelease tl line a v) s fun t =>
      t.asyncOn key line = false ∧ (v = false → t.q = s.q) ∧
      (∀ c : Fin 16, (cellCfg fr c).sr ≠ some line.val → (t.tileQ key).testBit c = q.testBit c) ∧
      otherTiles tl s t ∧ { t with q := s.q, srOn := s.srOn, freeCtr := s.freeCtr } = s)

/-- R98, R99, R101, R102, R104, R128: a write stores the enabled bits of its word and leaves every other row; a read returns its word at the next edge
that loads DO, or a cycle later with the output register, and changes no stored word; a reset of the output shows ORVAL. (Blocks without
a cascade, ports that do not collide, and no capture pending.) An upset flips stored bits. -/
def Sys2Proof.BlocksReadAndWriteTheirWords : Prop :=
  ∀ (n : Pos) (s : State), s.capt = none →
    (∀ (k : Fin 288) (p : BPins) (w : Nat), let at0 := s.ramAttrOf n k
      let row := (ramPlace w p.addr.toNat).1
      let lo := (ramPlace w p.addr.toNat).2
      let cur := s.ramRow n k row
      at0.cascLen = 0 → widthOf (if p.portB then at0.widthB else at0.widthA) = some w →
      s.tileClocked n (ram72Anchor k).1 (ram72Anchor k).2 = true → p.en = true → p.coll = .none → at0.ecc = false →
      (¬(at0.sdp = true ∧ p.portB = true) → Gives (.blockWrite n (.ram72 k) p) s fun t =>
        let m := writeMask false w lo p.be.toNat
        t.ramRow n k row = (cur &&& (2 ^ 72 - 1 - m)) ||| (bits p.di.toNat 0 w * 2 ^ lo &&& m) ∧
        (∀ x, x ≠ ramKey n k row → SMap.get (fun _ => 0) t.ram x = SMap.get (fun _ => 0) s.ram x) ∧
        { t with ram := s.ram, ramFlip := s.ramFlip, blast := s.blast, bport := s.bport } = s) ∧
      (¬(at0.sdp = true ∧ p.portB = false) → p.rsto = false → Gives (.blockRead n (.ram72 k) p) s fun t =>
        let oreg := if p.portB then at0.oregB else at0.oregA
        (oreg = false → (t.port n k p.portB).dout = bits cur lo w) ∧
        (oreg = true → (t.port n k p.portB).arr = bits cur lo w ∧ (t.port n k p.portB).arrV = true ∧
          (t.port n k p.portB).dout = if p.oce = true ∧ (s.port n k p.portB).arrV = true then (s.port n k p.portB).arr
            else (s.port n k p.portB).dout) ∧
        { t with blast := s.blast, bport := s.bport } = s)) ∧
    (∀ (k : Fin 8) (p : BPins), let fr := (s.frame n (faddrOf 2 (288 + k))).data
      let word := p.addr.toNat % 32768
      bits fr 70 4 = 0 → s.tileClocked n (deep2mAnchor k).1 (deep2mAnchor k).2 = true → p.en = true → p.coll = .none →
      (¬(fr.testBit 0 = true ∧ p.portB = true) → (fr.testBit 0 = true ∨ fr.testBit 1 = true) →
        Gives (.blockWrite n (.deep2m k) p) s fun t =>
          t.deepWord n k word = p.di.toNat % 2 ^ 64 ∧ t.deepBad n k word = 0 ∧
          (∀ x, x ≠ deepKey n k word → SMap.get (fun _ => 0) t.deep x = SMap.get (fun _ => 0) s.deep x) ∧
          { t with deep := s.deep, deepFlip := s.deepFlip, blast := s.blast, bport := s.bport } = s) ∧
      (p.portB = fr.testBit 0 → s.deepBad n k word = 0 → p.rsto = false → p.oce = true → Gives (.blockRead n (.deep2m k) p) s fun t =>
        let x := t.port n (288 + k) p.portB
        let y := s.port n (288 + k) p.portB
        x.arr = s.deepWord n k word % 2 ^ 64 ∧ x.arrV = true ∧ x.cor = y.arr ∧ x.dout = (if y.corV = true then y.cor else y.dout) ∧
        { t with blast := s.blast, bport := s.bport } = s)) ∧
    (∀ (k : Fin 288) (b : Bool), let at0 := s.ramAttrOf n k
      at0.cascLen = 0 → (widthOf (if b then at0.widthB else at0.widthA)).isSome = true → s.tileClocked n (ram72Anchor k).1 (ram72Anchor k).2 = true →
      Gives (.outputReset n (.ram72 k) b) s fun t =>
        (t.port n k b).dout = (if b then at0.orvalB else at0.orvalA) ∧ (t.port n k b).sbe = false ∧ (t.port n k b).dbe = false ∧
        { t with bport := s.bport } = s) ∧
    (∀ flips : BitVec 72,
      (∀ (k : Fin 288) (r : Fin 1024), Gives (.storedBitFlip n (.ram72 k r) flips) s fun t =>
        t.ramRow n k r = s.ramRow n k r ^^^ flips.toNat ∧ t.ramBad n k r = s.ramBad n k r ^^^ flips.toNat ∧
        { t with ram := s.ram, ramFlip := s.ramFlip } = s) ∧
      (∀ (k : Fin 8) (r : Fin 32768), Gives (.storedBitFlip n (.deep2m k r) flips) s fun t =>
        t.deepWord n k r = s.deepWord n k r ^^^ (flips.toNat % 2 ^ 64) ∧ t.deepBad n k r = s.deepBad n k r ^^^ flips.toNat ∧
        { t with deep := s.deep, deepFlip := s.deepFlip } = s) ∧
      (∀ (k : Fin 512) (r : Fin 1024), Gives (.storedBitFlip n (.coeff k r) flips) s fun t =>
        SMap.get (fun _ => 0) t.coef (coefKey n k r) = SMap.get (fun _ => 0) s.coef (coefKey n k r) ^^^ (flips.toNat % 2 ^ 48) ∧
        { t with coef := s.coef, coefFlip := s.coefFlip } = s))

/-- The commands of the slice operations by OPC (R122). -/
def Sys2Proof.sliceOps (r : SliceRef) (p : SPins) : List (Nat × Instr) :=
  [(0, .nop r p), (1, .mul r p), (2, .mac r p), (3, .macc r p), (4, .lda r p), (5, .cwr r p), (6, .agset r p), (7, .acs r p), (8, .minmax r p)]

/-- R119, R121–R124, R128, R129, R137, R141: at an edge with CE = 1 a slice takes its operation word and operands, its operations in flight each move on
one step, and AOUT shows X; a CWR writes the coefficient at PTR, an AGSET the address generator, and an access with AGADV moves PTR on. An
illegal word, whichever its OPC, is counted and recorded, and does none of that. A reset clears all but the generator's settings. -/
def Sys2Proof.SlicesTakeAndMoveOperations : Prop :=
  ∀ (r : SliceRef) (p : SPins) (s : State), let n := r.pos.val
    let k := r.idx.val
    let a := s.sliceAttrOf n k
    let c := s.slice n k
    let south := s.southSlice n k
    let x := if p.asrc then south.aout else p.a.toNat
    let adv := sliceAdvance a south.acc 0 c
    s.sliceClocked n k = true → s.capt = none →
    (p.ce = true → decOpen a c = false → ∀ o ∈ sliceOps r p, let op := opWord o.1 p
      Gives o.2 s fun t =>
        let d := t.slice n k
        d.v1 = true ∧ d.op1 = op ∧ d.x1 = x ∧ d.ax1 = p.ax.toNat ∧ d.aout = x ∧
        d.v2 = c.v1 ∧ d.v3 = c.v2 ∧ (c.v1 = true → d.op2 = c.op1 ∧ d.p2 = sliceMul c) ∧ (c.v2 = true → d.op3 = c.op2) ∧
        d.acc = adv.acc ∧ d.r = adv.r ∧ d.satf = adv.satf ∧ d.dec = adv.dec ∧ d.illop = adv.illop ∧
        (p.ysrc = false → d.y1 = p.b.toNat + p.bx.toNat * 2 ^ 24) ∧
        (opIllegal a.mode op = false → o.1 = 5 →
          SMap.get (fun _ => 0) t.coef (coefKey n k c.ptr) = (x + p.b.toNat * 2 ^ 24) % 2 ^ 48 ∧
          SMap.get (fun _ => 0) t.coefFlip (coefKey n k c.ptr) = 0) ∧
        (opIllegal a.mode op = false → o.1 ≠ 5 → t.coef = s.coef) ∧
        (opIllegal a.mode op = false → o.1 = 6 → d.base = p.a.toNat % 1024 ∧ d.len = agLen (bits p.a.toNat 10 10) ∧
          d.stride = p.b.toNat % 1024 ∧ d.off = bits p.b.toNat 10 10 % agLen (bits p.a.toNat 10 10)) ∧
        (opIllegal a.mode op = false → o.1 ≠ 6 → d.base = c.base ∧ d.len = c.len ∧ d.stride = c.stride ∧
          d.off = if p.agadv = true ∧ (o.1 = 5 ∨ (p.ysrc = true ∧ o.1 ≠ 0)) then (c.off + c.stride) % c.len else c.off) ∧
        (∀ j, j ≠ sliceKey n k → SMap.get (fun _ => SliceSt.zero) t.slices j = SMap.get (fun _ => SliceSt.zero) s.slices j) ∧
        (opIllegal a.mode op = false → p.ysrc = false → t.regs = s.regs ∧ t.out = s.out) ∧
        sameRegs [.grnSlcstat, .grnSlcaddr, .grnSlccaddr, .grnSlcinfo, .evrPay, .evrRoute] s t ∧
        { t with regs := s.regs, out := s.out, slices := s.slices, coef := s.coef, coefFlip := s.coefFlip, freeCtr := s.freeCtr } = s) ∧
    (∀ opc : BitVec 4, p.ce = true → decOpen a c = false → opIllegal a.mode (opWord opc.toNat p) = true →
      Gives (.illegalOperation r opc p) s fun t =>
        (t.slice n k).op1 = opWord opc.toNat p ∧ (t.slice n k).v1 = true ∧ (t.slice n k).off = c.off ∧ t.coef = s.coef ∧
        t.getF .grnSlcstatILLCNT (s.phys n) = min (s.getF .grnSlcstatILLCNT (s.phys n) + 1) 0x3FF ∧
        t.getF .grnSlcstatILLSEEN (s.phys n) = 1 ∧ t.getF .grnSlcinfoOPW (s.phys n) = opWord opc.toNat p ∧
        t.getF .grnSlcaddrADDR (s.phys n) = s.sliceAddr n k % 2 ^ 64 ∧
        (s.isSet .grnSlcstatILLSEEN (s.phys n) = false → Raised (16 * n + 8) (s.sliceAddr n k) s t) ∧
        sameRegs [.grnSlcstat, .grnSlcaddr, .grnSlcinfo, .evrPay, .evrRoute] s t ∧
        { t with regs := s.regs, out := s.out, slices := s.slices } = s) ∧
    (Gives (.sliceReset r) s fun t => t.slice n k = { SliceSt.zero with base := c.base, len := c.len, stride := c.stride } ∧
      (∀ j, j ≠ sliceKey n k → SMap.get (fun _ => SliceSt.zero) t.slices j = SMap.get (fun _ => SliceSt.zero) s.slices j) ∧
      { t with slices := s.slices } = s)

/-- R122, R125–R127, R131, R133: what the accumulate step of each legal operation makes of the accumulator (shown for SPLIT 0), of LDA, ACS and MINMAX. -/
def Sys2Proof.AccumulatorsComputeExactly : Prop :=
  ∀ (a : SliceAttr) (acin : Nat) (c : SliceSt), opIllegal a.mode c.op2 = false →
    let d := sliceAcc a acin c
    let base : Nat := if c.op2 % 16 = 1 then 0 else if c.op2 % 16 = 2 then c.acc else acin
    let sum : Int := if c.op2.testBit 9 then signed 64 base - signed 48 c.p2 else signed 64 base + signed 48 c.p2
    (bits c.op2 4 2 = 0 → (c.op2 % 16 = 1 ∨ c.op2 % 16 = 2 ∨ c.op2 % 16 = 3) →
      (c.op2.testBit 6 = false → signed 64 d.acc = (sum + 2 ^ 63) % 2 ^ 64 - 2 ^ 63 ∧ d.sat3 = false) ∧
      (c.op2.testBit 6 = true → signed 64 d.acc = max (-(2 ^ 63)) (min (2 ^ 63 - 1) sum) ∧
        d.sat3 = decide (sum < -(2 ^ 63) ∨ 2 ^ 63 - 1 < sum))) ∧
    (bits c.op2 4 2 = 0 → c.op2 % 16 = 4 → signed 64 d.acc = signed 48 c.p2 ∧ d.acs = 0 ∧ d.idxc = 0 ∧ d.empty = true) ∧
    (c.op2 % 16 = 8 → d.empty = false ∧ d.idxc = min 1023 (c.idxc + 1) ∧
      (c.empty = true → d.acc = bits c.p2 0 24 + c.idxc * 2 ^ 24) ∧
      (c.empty = false → c.op2.testBit 9 = false → signed 24 (bits c.p2 0 24) < signed 24 (bits c.acc 0 24) →
        d.acc = bits c.p2 0 24 + c.idxc * 2 ^ 24) ∧
      (c.empty = false → c.op2.testBit 9 = false → signed 24 (bits c.acc 0 24) ≤ signed 24 (bits c.p2 0 24) → d.acc = bits c.acc 0 34)) ∧
    ((c.op2 % 16 = 0 ∨ c.op2 % 16 = 5 ∨ c.op2 % 16 = 6) → d.acc = c.acc)

/-- R98–R104, R119–R142: block ports and slices at their active edges, upsets of stored words, and what slices compute. -/
def Obligations.BlocksAndSlicesActAtTheirEdges : Prop :=
  BlocksReadAndWriteTheirWords ∧ SlicesTakeAndMoveOperations ∧ AccumulatorsComputeExactly


/-! ## Packets (R300–R331, R384, R470, R527) -/

/-- Packet p heads its flow in the network, no sleeping Tun router holds it, and its route leads to its destination's own router, which it
enters by input i. -/
def Sys2Proof.arrives (s : State) (p : Packet) (i : Nat) : Prop :=
  s.perst = false ∧ s.net.find? (sameFlow p) = some p ∧ p.ddev.toNat = s.devNum ∧ s.getF .pwrDstatSTATE 294 ≠ 1 ∧
  s.routeOf p = .local (s.routerOf p.dnode.toNat) i

/-- A packet as it enters the network, stamped with its age (R313). -/
def Sys2Proof.stamped (s : State) (p : Packet) : Packet := { p with age := BitVec.ofNat 16 s.ageNow }

/-- The network after p left it and its response entered it (R309). -/
def Sys2Proof.answered (s : State) (p : Packet) (status : Nat) (data : List Byte) : List Packet :=
  s.net.erase p ++ [stamped s (responseOf p status data)]

/-- The commands of the request opcodes. -/
def Sys2Proof.reqCmds (p : Packet) : List (Opc × Instr) := [(.rd, .rd p), (.wr, .wr p), (.wrp, .wrp p), (.wrm, .wrm p), (.wrmp, .wrmp p)]

/-- R307, R308, R321, R327, R330: a request of this device at the endpoint its address names: a DNP in Run presents it to its design, with a T_ID that is
neither held nor retired if it wants a response; a register is accessed and answered. A malformed request is answered UNSUPPORTED, one
whose address names nothing ADDRERR, one for an isolated DNP TGT_ISOLATED, or it is counted if posted. -/
def Sys2Proof.RequestsReachTheirTargets : Prop :=
  ∀ (p : Packet) (i : Nat) (s : State), arrives s p i → ∀ c ∈ reqCmds p, p.opc = c.1 →
    let posted := isPosted p.opc
    let gone := { s with net := s.net.erase p }
    (reqLegal p = false → posted = false → Gives c.2 s fun t => t = { s with net := answered s p 3 [] }) ∧
    (reqLegal p = true → posted = false → s.devDecode p.addr.toNat = .nowhere →
      Gives c.2 s fun t => t = { s with net := answered s p 2 [] }) ∧
    (∀ o, reqLegal p = true → s.devDecode p.addr.toNat = .bar0 o → p.dnode.toNat = regNode o → nodeDomain p.dnode.toNat = none →
      ((s.windowPos o).all fun n => s.forwards n) = true →
      Gives c.2 s fun t =>
        let x := gone.regAccess (packetAccess p o)
        t = x.1.respond p x.2.1 (if x.2.1 = 0 ∧ p.opc = .rd then toBytes (pktLen p) x.2.2 else [])) ∧
    (∀ (n : Pos) (k : Fin 2), let r := s.phys n
      reqLegal p = true → s.devDecode p.addr.toNat = .dnp n k → p.dnode.toNat = n.val → p.dep.toNat = 1 + k.val →
      (s.isIso r (4 + k) = true →
        (posted = false → Gives c.2 s fun t => t = { s with net := answered s p 1 [] }) ∧
        (posted = true → p.snode ≠ 64 → r < 64 → Gives c.2 s fun t =>
          t.getF .grnNocabsABSORBED r = min (s.getF .grnNocabsABSORBED r + 1) 0xFFFFFFFF ∧ t.net = s.net.erase p ∧
          SameBut [fk .grnNocabsABSORBED r] s t ∧ { t with regs := s.regs, net := s.net } = s)) ∧
      (s.isIso r (4 + k) = false → s.domRuns n = true → (s.posSt n).inReset = false → s.released = true →
        (posted = true → Gives c.2 s fun t => t = gone.emit (.targetReq n k 256 p)) ∧
        (posted = false → (s.dnpSt n k).held.length + (s.dnpSt n k).retired.length < 256 → Gives c.2 s fun t =>
          ∃ id < 256, (∀ h ∈ (s.dnpSt n k).held, h.id ≠ id) ∧ id ∉ (s.dnpSt n k).retired ∧
            t = (gone.setDnp n k { s.dnpSt n k with held := (s.dnpSt n k).held ++ [⟨id, p⟩] }).emit (.targetReq n k id p))))

/-- A request at reserved-buffer port k is done: it is gone from the port. -/
def Sys2Proof.portDone (s : State) (k : Nat) (r : RbReq) : State := s.setRb k ((s.rbList k).erase r)

/-- R309, R317–R320, R327: a guest's RESV is granted while a buffer is free; a GRANT sends the segment that waits for it; the response of
its last segment answers the request, with the bytes of all, one that is not OK ends it, and another asks for the next buffer. A response
at a DNP is presented with its tag, which is free again. A packet that the firewall refuses is recorded and isolates the guest. -/
def Sys2Proof.ResponsesReachTheirRequesters : Prop :=
  ∀ (p : Packet) (s : State), s.perst = false →
    (∀ g < 2, p.opc = .resv → s.guestOf p = some g → s.guestStopped g = false → s.gfwRefuses g p = none →
      SMap.get (fun _ => 0) s.rbGrant g < 16 → Gives (.resv p) s fun t =>
        t = { s with rbGrant := SMap.set (fun _ => 0) s.rbGrant g (SMap.get (fun _ => 0) s.rbGrant g + 1)
                     out := s.out ++ [.packet (responseOf p 0 [])] }) ∧
    (∀ (k : Nat) (r : RbReq), p ∉ s.net → s.portOfPkt p = some k → s.bitF .nocTisoEXT k = false →
      (k < 2 → s.guestStopped k = false ∧ s.gfwRefuses k p = none) →
      (p.opc = .grant → s.rbFind k p false = some r →
        (isPosted r.pkt.opc = false → Gives (.grant p) s fun t =>
          t = (s.setRb k ((s.rbList k).replace r { r with sent := true })).emit (.packet r.segment)) ∧
        (isPosted r.pkt.opc = true → r.segs.length ≤ 1 → Gives (.grant p) s fun t => t = (portDone s k r).emit (.packet r.segment))) ∧
      (∀ c ∈ [(Opc.rdata, Instr.rdata p), (.wcmp, .wcmp p)], p.opc = c.1 → s.rbFind k p true = some r → isPosted r.pkt.opc = false →
        (p.status = 0 → r.segs.length ≤ 1 → Gives c.2 s fun t =>
          t = { portDone s k r with net := s.net ++ [stamped s (responseOf r.pkt 0 (r.got ++ p.data))] }) ∧
        (p.status = 0 → 1 < r.segs.length → Gives c.2 s fun t =>
          let q := { r with segs := r.segs.tail, done := r.done + 1, sent := false, got := r.got ++ p.data }
          t = (s.setRb k ((s.rbList k).replace r q)).emit (.packet (resvOf q.segment))) ∧
        (p.status ≠ 0 → Gives c.2 s fun t =>
          t.net = s.net ++ [stamped s (responseOf r.pkt p.status.toNat [])] ∧ t.rbList k = (s.rbList k).erase r ∧
          (1 < r.done + r.segs.length → t.getF .nocRbstatSEGDONE k = r.done % 8 ∧ t.getF .nocRbstatFAILSEEN k = 1) ∧
          SameBut (if 1 < r.done + r.segs.length then [fk .nocRbstatSEGDONE k, fk .nocRbstatFAILSEEN k] else []) s t ∧
          { t with regs := s.regs, net := s.net, rb := s.rb } = s))) ∧
    (∀ (i : Nat) (n : Pos) (k : Fin 2) (q : Packet), arrives s p i → p.dnode.toNat = n.val → p.dep.toNat = 1 + k.val →
      s.isIso (s.phys n) (4 + k) = false → s.domRuns n = true → ((s.dnpSt n k).tags.find? fun x => x.tag == p.tag) = some q →
      ∀ c ∈ [(Opc.rdata, Instr.rdata p), (.wcmp, .wcmp p)], p.opc = c.1 → Gives c.2 s fun t =>
        t = ({ s with net := s.net.erase p }.setDnp n k { s.dnpSt n k with tags := (s.dnpSt n k).tags.erase q }).emit
          (.initiatorRsp n k (p.tag.toNat % 256) p.status.toNat p.data)) ∧
    (∀ (g cause : Nat), p ∉ s.net → s.guestOf p = some g → s.guestStopped g = false → s.gfwRefuses g p = some cause → s.rbList g = [] →
      ∀ c ∈ (Opc.resv, Instr.resv p) :: reqCmds p, p.opc = c.1 → Gives c.2 s fun t =>
        t.getF .nocGfwviolADDR g = p.addr.toNat ∧ t.getF .nocGfwviolOPC g = opcCode p.opc ∧ t.getF .nocGfwviolVN g = vnCode p.vn ∧
        t.getF .nocGfwviolCAUSE g = cause ∧ t.getF .nocGfwviolSEEN g = 1 ∧ t.bitF .nocTisoEXT g = true ∧ t.getF .nocTisoSEEN = 1 ∧
        SMap.get (fun _ => 0) t.rbGrant g = 0 ∧ t.rbList g = [] ∧ t.out = s.out ++ [.fwEvent 998 0, .fwEvent 999 0] ∧
        sameRegs [.nocGfwviol, .nocTiso, .evrPay, .evrRoute] s t ∧
        { t with regs := s.regs, out := s.out, rb := s.rb, rbGrant := s.rbGrant } = s)

/-- R470, R471: an event message at node 68 raises its source with its payload, and at DEP 0 of a position is a delivery to the event port. -/
def Sys2Proof.EventMessagesReachTheRouterOfEvents : Prop :=
  ∀ (p : Packet) (m : EvtMsg) (i : Nat) (s : State), p.opc = .evt → p.vn = .evt →
    p.data = evtBytes m.ekind.toNat m.evnum.toNat m.agent.toNat m.tbit.toNat m.payload.toNat → arrives s p i →
    (p.dnode = 68 → m.ekind = 0 → evSource m.evnum.toNat = true → Gives (.evt p m) s fun t =>
      Raised m.evnum.toNat m.payload.toNat s t ∧ t.net = s.net.erase p ∧ SameBut (evKeys m.evnum.toNat) s t ∧
      { t with regs := s.regs, out := s.out, net := s.net } = s) ∧
    (∀ n : Pos, p.dnode.toNat = n.val → p.dep = 0 → m.ekind = 1 → s.portStopped n = false → (SMap.get (fun _ => []) s.evFifo n).length < 16 →
      Gives (.evt p m) s fun t =>
        t = { s with net := s.net.erase p
                     evFifo := SMap.set (fun _ => []) s.evFifo n (SMap.get (fun _ => []) s.evFifo n ++ [m.evnum.toNat]) })

/-- R307–R320, R327, R470: requests, responses and event messages at their targets, and what the ports of guests and store dies do. -/
def Obligations.PacketsReachTheirTargets : Prop :=
  RequestsReachTheirTargets ∧ ResponsesReachTheirRequesters ∧ EventMessagesReachTheRouterOfEvents

/-- R327, R330, R384, R527: a design's request enters the network with its tag outstanding, or is answered ADDRERR where its address names nothing
and UNSUPPORTED where its opcode is none; a design's response answers the request with its T_ID, one in time limits SLVERR, which retires
the T_ID until a further limit. A host write through a BAR is one posted write and a read waits for its answers. -/
def Sys2Proof.DesignPortsAndBarsSendRequests : Prop :=
  ∀ s : State,
    (∀ (d : DnpRef) (r : DnpReq), let n := d.pos.val
      let k := d.k.val
      let x := s.dnpSt n k
      s.released = true → s.dnpStopped n k = false → s.coreRuns n = true →
      (∀ opc nd, dnpOpc r.opc.toNat = some opc → (s.devDecode r.addr.toNat).nodeDep = some nd → s.isSet .nocRtctlDRAINING = false →
        let p := s.dnpPacket n k r opc nd
        (isPosted opc = true → Gives (.dnpRequest d r) s fun t => t = { s with net := s.net ++ [stamped s p] }) ∧
        (isPosted opc = false → x.tags.length < 256 → Gives (.dnpRequest d r) s fun t =>
          t = { s.setDnp n k { x with tags := x.tags ++ [p] } with net := s.net ++ [stamped s p] })) ∧
      (dnpOpc r.opc.toNat = none → Gives (.dnpRequest d r) s fun t => t = s.emit (.initiatorRsp n k r.tag.toNat 3 [])) ∧
      (∀ opc, dnpOpc r.opc.toNat = some opc → isPosted opc = false → x.tags.length < 256 → s.devDecode r.addr.toNat = .nowhere →
        Gives (.dnpRequest d r) s fun t => t = s.emit (.initiatorRsp n k r.tag.toNat 2 []))) ∧
    (∀ (d : DnpRef) (r : DnpRsp) (h : TReq), let n := d.pos.val
      let k := d.k.val
      let x := s.dnpSt n k
      s.released = true → s.dnpStopped n k = false → s.coreRuns n = true →
      (r.id.toNat ∉ x.retired → (x.held.find? fun y => y.id == r.id.toNat) = some h → isPosted h.pkt.opc = false →
        (r.status = 0 ∨ r.status = 4 ∨ r.status = 5) → Gives (.dnpResponse d r) s fun t =>
          t = { s.setDnp n k { x with held := x.held.erase h } with net := s.net ++ [stamped s (responseOf h.pkt r.status.toNat r.data)] }) ∧
      (r.id.toNat ∈ x.retired → Gives (.dnpResponse d r) s fun t =>
        t.getF .grnNocabsDISCARD (s.phys n) = min (s.getF .grnNocabsDISCARD (s.phys n) + 1) 0xFFFFFFFF ∧
        RegsOnly [fk .grnNocabsDISCARD (s.phys n)] s t)) ∧
    (∀ (d : DnpRef) (id : BitVec 8) (h : TReq), let n := d.pos.val
      let k := d.k.val
      let x := s.dnpSt n k
      (x.held.find? fun y => y.id == id.toNat) = some h → isPosted h.pkt.opc = false → s.isIso (s.phys n) (4 + k) = false →
      Gives (.dnpResponseTimeout d id) s fun t =>
        t = { s.setDnp n k { x with held := x.held.erase h, retired := x.retired ++ [id.toNat] } with
                net := s.net ++ [stamped s (responseOf h.pkt 5 [])] }) ∧
    (∀ (d : DnpRef) (id : BitVec 8), let x := s.dnpSt d.pos d.k
      Gives (.retiredTIdReuse d id) s fun t => t = s.setDnp d.pos d.k { x with retired := x.retired.erase id.toNat }) ∧
    (∀ (b : HostBar) (off : BitVec 41) (len : Nat) (data : List Byte) (tag : BitVec 10), let a := barBase b + off.toNat
      s.perst = false → s.isSet .cxlLnkstatUP = true → 0 < len → off.toNat + len ≤ barSize b → (b = .bar4 → s.part.optX = false ∧ s.bar4Gated = false) →
      s.isSet .nocRtctlDRAINING = false →
      (∀ p, s.engineReq 64 .wrp a len data = some p →
        Gives (.barAccess b off true len data tag) s fun t => t = { s with net := s.net ++ [stamped s p] }) ∧
      (∀ p, s.engineReq 64 .rd a len [] = some p → a % 4096 + len ≤ 4096 → (∀ r ∈ s.barRds, r.tag ≠ tag.toNat) →
        Gives (.barAccess b off false len data tag) s fun t =>
          t = { s with barRds := s.barRds ++ [⟨tag.toNat, [(s.hostTag, none)]⟩]
                       hostTx := SMap.set (fun _ => none) s.hostTx s.hostTag (some (.bar tag.toNat))
                       net := s.net ++ [stamped s { p with tag := BitVec.ofNat 12 s.hostTag }] }))

/-- R304, R305: a write of SWITCH by Ndoec firmware stops the injection of requests, and no other agent's does; when every buffer is
empty, or after DRAINMAX, the other table is active, what waited is injected, and event 1000 is raised. -/
def Sys2Proof.RoutesSwitch : Prop :=
  ∀ s : State,
    (∀ (w : W32) (a : Agent), s.perst = false → s.unitOn .noc = true → Gives (.routeSwitch w a) s fun t =>
      (w.toNat.testBit 0 = true → s.firmware a = true → t.getF .nocRtctlDRAINING = 1) ∧
      ((w.toNat.testBit 0 = false ∨ s.firmware a = false) → t.getF .nocRtctlDRAINING = s.getF .nocRtctlDRAINING) ∧
      t.getF .nocRtctlACTIVE = s.getF .nocRtctlACTIVE ∧ sameRegs [.nocRtctl] s t ∧ { t with regs := s.regs } = s) ∧
    (s.isSet .nocRtctlDRAINING = true →
      ∀ c ∈ [Instr.routeSwitchDone, .drainTimeout], (c = .routeSwitchDone → s.net = []) → Gives c s fun t =>
        t.getF .nocRtctlACTIVE = (s.getF .nocRtctlACTIVE + 1) % 2 ∧ t.getF .nocRtctlDRAINING = 0 ∧ t.getF .nocRtctlDONE = 1 ∧
        t.getF .nocRtctlFORCED = (if c = .drainTimeout then 1 else s.getF .nocRtctlFORCED) ∧ Raised 1000 0 s t ∧
        t.netWait = [] ∧ t.net = s.net ++ s.netWait.map (stamped s) ∧
        SameBut ([fk .nocRtctlACTIVE, fk .nocRtctlDRAINING, fk .nocRtctlDONE, fk .nocRtctlFORCED] ++ evKeys 1000) s t ∧
        { t with regs := s.regs, out := s.out, net := s.net, netWait := s.netWait } = s)

/-- The registers that an isolation writes. -/
def Sys2Proof.isoRegs : List RegName := [.grnNociso, .nocIsosum, .nocTiso, .evrPay, .evrRoute]

/-- R321, R322, R325, R455, R527: a target that times out, is declared dead by Ndoec firmware, or does not wake, is isolated: ISO, SEEN and the
event, and the requests it had taken are answered TGT_ISOLATED. Only Ndoec firmware ends the isolation, and a rest condition stays. -/
def Sys2Proof.TargetsAreIsolatedAndCleared : Prop :=
  ∀ s : State,
    (∀ (x : Target) (p : Phys) (b : Nat) (n : Pos), grainTarget x = some (p.val, b) → (s.hardIso p).testBit b = false → s.posOf p = some n.val →
      (∀ q, (b = 4 ∨ b = 5) → q ∈ (s.dnpSt n (b - 4)).held → isPosted q.pkt.opc = false) → (b = 6 → s.memReqs = []) →
      (∀ c : Instr, (c = .targetTimeout x ∨ ∃ a, s.perst = false ∧ s.firmware a = true ∧ c = .declareDead x a) → Gives c s fun t =>
        t.isIso p b = true ∧ (t.hardIso p).testBit b = true ∧ t.getF .grnNocisoSEEN p = 1 ∧ t.bitF .nocIsosumPOS n = true ∧
        Raised (16 * n + 2) 0 s t ∧
        (b < 4 → t.net = s.net ∧ t.dnp = s.dnp) ∧
        ((b = 4 ∨ b = 5) → (t.dnpSt n (b - 4)).held = [] ∧
          t.net = s.net ++ (s.dnpSt n (b - 4)).held.map fun q => stamped s (responseOf q.pkt 1 [])) ∧
        (∀ m, b = 6 → chanOfPos n = some m → (t.chanSt m).inp = [] ∧ (t.chanSt m).reads = [] ∧ (t.chanSt m).wbuf = (s.chanSt m).wbuf) ∧
        sameRegs (.ddrStat :: isoRegs) s t ∧
        { t with regs := s.regs, out := s.out, net := s.net, dnp := s.dnp, ddr := s.ddr, isoHard := s.isoHard } = s)) ∧
    (∀ (x : Target) (p : Phys) (b : Nat) (n : Pos) (a : Agent), grainTarget x = some (p.val, b) → s.posOf p = some n.val → s.perst = false →
      (s.firmware a = false → ∀ c ∈ [Instr.declareDead x a, .clearIsolation x a], Gives c s fun t =>
        t.getF .grnNocisoSEEN p % 2 = s.getF .grnNocisoSEEN p % 2 ∧ RegsOnly [fk .grnNocisoSEEN p] s t) ∧
      (s.firmware a = true → Gives (.clearIsolation x a) s fun t =>
        (t.hardIso p).testBit b = false ∧ t.isIso p b = s.bitF .grnNocisoRESTH b p ∧ t.bitF .nocIsosumPOS n = (t.hardIso p ||| s.getF .grnNocisoRESTH p != 0) ∧
        sameRegs [.grnNociso, .nocIsosum] s t ∧ { t with regs := s.regs, isoHard := s.isoHard } = s)) ∧
    (∀ k : Fin 4, s.bitF .nocTisoEXT k = false → (∀ r ∈ s.rbList k, isPosted r.pkt.opc = false) → Gives (.targetTimeout (.ext k)) s fun t =>
      t.bitF .nocTisoEXT k = true ∧ t.getF .nocTisoSEEN = 1 ∧ Raised 999 0 s t ∧ t.rbList k = [] ∧
      t.net = s.net ++ (s.rbList k).map (fun r => stamped s (responseOf r.pkt 1 [])) ∧ sameRegs isoRegs s t ∧
      { t with regs := s.regs, out := s.out, net := s.net, rb := s.rb, rbGrant := s.rbGrant } = s) ∧
    (∀ k : Fin 2, s.bitF .nocTisoLINK k = false → Gives (.targetTimeout (.link k)) s fun t =>
      t.bitF .nocTisoLINK k = true ∧ t.getF .nocTisoSEEN = 1 ∧ Raised 999 0 s t ∧ sameRegs isoRegs s t ∧
      { t with regs := s.regs, out := s.out } = s) ∧
    (∀ k : Fin 120, s.wortIso.testBit k = false → Gives (.targetTimeout (.wort k)) s fun t =>
      t.wortIso.testBit k = true ∧ t.getF .grnNocisoSEEN (s.phys (k / 2)) = 1 ∧ Raised (16 * (k / 2) + 2) 0 s t ∧ sameRegs isoRegs s t ∧
      { t with regs := s.regs, out := s.out, wortIso := s.wortIso } = s) ∧
    (∀ a : Agent, s.perst = false → s.unitOn .noc = true → s.firmware a = true →
      (∀ k : Fin 4, Gives (.clearIsolation (.ext k) a) s fun t => t.bitF .nocTisoEXT k = false ∧
        (∀ j : Fin 4, j ≠ k → t.bitF .nocTisoEXT j = s.bitF .nocTisoEXT j) ∧ t.getF .nocTisoLINK = s.getF .nocTisoLINK ∧
        sameRegs [.nocTiso] s t ∧ { t with regs := s.regs } = s) ∧
      (∀ k : Fin 2, Gives (.clearIsolation (.link k) a) s fun t => t.bitF .nocTisoLINK k = false ∧
        (∀ j : Fin 2, j ≠ k → t.bitF .nocTisoLINK j = s.bitF .nocTisoLINK j) ∧ t.getF .nocTisoEXT = s.getF .nocTisoEXT ∧
        sameRegs [.nocTiso] s t ∧ { t with regs := s.regs } = s) ∧
      (∀ k : Fin 120, s.wortUp k = true → Gives (.clearIsolation (.wort k) a) s fun t =>
        t.wortIso.testBit k = false ∧ { t with wortIso := s.wortIso } = s)) ∧
    (∀ n : Pos, s.going n = some 0 → s.posOf (s.phys n) = some n.val →
      (∀ j < 2, (∀ q ∈ (s.dnpSt n j).held, isPosted q.pkt.opc = false) ∧
        ∀ e ∈ SMap.get (fun _ => []) s.held (4 * n.val + 1 + j), isReq e.2.opc = true ∧ isPosted e.2.opc = false) →
      Gives (.wakeTimeout n false) s fun t =>
        (t.hardIso (s.phys n)).testBit 4 = true ∧ (t.hardIso (s.phys n)).testBit 5 = true ∧ t.getF .grnNocwakeHELD (s.phys n) = 0 ∧
        (∀ j < 2, SMap.get (fun _ => []) t.held (4 * n.val + 1 + j) = []) ∧ sameRegs (.grnNocwake :: isoRegs) s t ∧
        { t with regs := s.regs, out := s.out, net := s.net, dnp := s.dnp, held := s.held, isoHard := s.isoHard } = s) ∧
    (∀ (n : Pos) (m : Nat), chanOfPos n = some m → s.going (256 + m) = some 0 → s.posOf (s.phys n) = some n.val → s.memReqs = [] →
      (∀ e ∈ SMap.get (fun _ => []) s.held (4 * n.val + 3), isReq e.2.opc = true ∧ isPosted e.2.opc = false) →
      Gives (.wakeTimeout n true) s fun t =>
        (t.hardIso (s.phys n)).testBit 6 = true ∧ SMap.get (fun _ => []) t.held (4 * n.val + 3) = [] ∧ sameRegs (.ddrStat :: isoRegs) s t ∧
        { t with regs := s.regs, out := s.out, net := s.net, ddr := s.ddr, held := s.held, isoHard := s.isoHard } = s)

/-- R304–R305, R321–R327, R384, R455, R527: what enters the network, how its routes are switched, and how targets are isolated. -/
def Obligations.TheNetworkIsControlled : Prop := DesignPortsAndBarsSendRequests ∧ RoutesSwitch ∧ TargetsAreIsolatedAndCleared


/-! ## Device memory (R336–R355) -/

/-- R342, R344–R346: the home slice takes a request for a line in service: a write joins the write buffer, so that the line reads as written from
then on, and is answered at once; a read with no buffered write goes to the DRAM; one whose line is wholly buffered is answered from there.
A channel out of service answers SLVERR, and counts a posted write. -/
def Sys2Proof.HomeSlicesTakeRequests : Prop :=
  ∀ (m : Chan) (p : Packet) (i : Nat) (s : State), let c := s.chanSt m
    let n := posOfChan m
    let line := p.addr.toNat / 64
    let posted := isPosted p.opc
    arrives s p i → ∀ x ∈ reqCmds p, p.opc = x.1 → reqLegal p = true → s.devDecode p.addr.toNat = .home m → p.dnode.toNat = n → p.dep = 3 →
    s.isIso (s.phys n) 6 = false → s.domRuns n = true → s.domRuns (256 + m) = true → p.snode ≠ 64 →
    (s.part.optX = true → s.flipping (p.addr.toNat / 4096) = none ∧ s.hostBias (p.addr.toNat / 4096) = false) →
    (s.getF .ddrStatSTATE m ≠ 4 → s.getF .ddrStatSTATE m ≠ 5 →
      (posted = false → Gives x.2 s fun t => t = { s with net := answered s p 5 [] }) ∧
      (posted = true → Gives x.2 s fun t => t.getF .ddrStatDROPS m = min (s.getF .ddrStatDROPS m + 1) 0xFFFFFFFF ∧
        t.net = s.net.erase p ∧ SameBut [fk .ddrStatDROPS m] s t ∧ { t with regs := s.regs, net := s.net } = s)) ∧
    (s.getF .ddrStatSTATE m = 4 → lineCount p.addr.toNat (pktLen p) = 1 → c.inp = [] →
      (isWrite p.opc = true → (newest c.wbuf line ≠ none ∨ (c.wbuf.length < c.wbSize ∧ c.reads.length + c.wbuf.length < 128)) →
        Gives x.2 s fun t =>
          t.lineNow m line = overlay (s.lineNow m line) (reqMask p 0) (reqData p 0) ∧ (∀ l, l ≠ line → t.lineNow m l = s.lineNow m l) ∧
          (t.chanSt m).reads = c.reads ∧ (∀ k, k ≠ m.val → t.chanSt k = s.chanSt k) ∧
          t.net = (if posted then s.net.erase p else answered s p 0 []) ∧ sameRegs [.ddrStat] s t ∧
          { t with regs := s.regs, net := s.net, ddr := s.ddr, memReqs := s.memReqs, nextReq := s.nextReq } = s) ∧
      (isWrite p.opc = false → newest c.wbuf line = none → c.reads.length + c.wbuf.length < 128 → Gives x.2 s fun t =>
        t.chanSt m = { c with reads := c.reads ++ [⟨s.nextReq, line, 0, false, reqMask p 0, s.lineNow m line, false⟩] } ∧
        SMap.get (fun _ => none) t.memReqs s.nextReq = some ⟨p, 1, false, []⟩ ∧ t.net = s.net.erase p ∧
        (∀ k, k ≠ m.val → t.chanSt k = s.chanSt k) ∧ sameRegs [.ddrStat] s t ∧
        { t with regs := s.regs, net := s.net, ddr := s.ddr, memReqs := s.memReqs, nextReq := s.nextReq } = s) ∧
      (∀ e, isWrite p.opc = false → newest c.wbuf line = some e → e.mask = fullMask → c.reads.length + c.wbuf.length < 128 → Gives x.2 s fun t =>
        t.net = answered s p 0 (readBytes p (SMap.set (fun _ => 0) [] 0 (s.lineNow m line))) ∧
        t.getF .ddrHazFWD m = (s.getF .ddrHazFWD m + 1) % 2 ^ 32 ∧ (∀ k, t.chanSt k = s.chanSt k) ∧ sameRegs [.ddrStat, .ddrHaz] s t ∧
        { t with regs := s.regs, net := s.net, ddr := s.ddr, memReqs := s.memReqs, nextReq := s.nextReq } = s))

/-- The registers in which a channel reports ECC. -/
def Sys2Proof.eccRegs : List RegName := [.ddrStat, .ddrEccstat, .ddrEccaddr, .ddrEccinfo, .ddrDevfail, .evrPay, .evrRoute]

/-- R336, R337, R346–R349, R356: the data of the oldest read that does not wait answers its request: clean, or corrected and counted; beyond
the code's reach it is POISON with UE recorded and the event, unless the errors pass for another correctable pattern. A drained write is
in the DRAM and frees the reads that waited on it; one whose read part cannot be corrected is dropped. -/
def Sys2Proof.DramReadsAndWritesComplete : Prop :=
  ∀ (m : Chan) (s : State), let c := s.chanSt m
    c.inp = [] →
    (∀ (op : LineOp) (q : MemReq) (err : ReadErr), (c.reads.find? fun r => !r.wait) = some op → SMap.get (fun _ => none) s.memReqs op.req = some q →
      q.left = 1 → q.poison = false → isWrite q.pkt.opc = false → s.isSet .ddrCtlWBACK m = false →
      let ans (st : Nat) (v : Nat) : List Packet :=
        s.net ++ [stamped s (responseOf q.pkt st (if st = 0 then readBytes q.pkt (SMap.set (fun _ => 0) q.got op.k v) else []))]
      let rank := (s.dramCoord m op.line).2.1
      let done (t : State) : Prop := t.chanSt m = { c with reads := c.reads.erase op } ∧ SMap.get (fun _ => none) t.memReqs op.req = none ∧
        (∀ k, k ≠ op.req → SMap.get (fun _ => none) t.memReqs k = SMap.get (fun _ => none) s.memReqs k)
      ((∀ d ∈ err.devs, d.2 = 0) → Gives (.dramReadData m err) s fun t =>
        t.net = ans 0 op.data ∧ done t ∧ sameRegs [.ddrStat] s t ∧ { t with regs := s.regs, net := s.net, ddr := s.ddr, memReqs := s.memReqs } = s) ∧
      (∀ (d : Fin 20) (j : Fin 17), err.devs = [(d, j)] → 1 ≤ j.val → j.val ≤ 4 → Gives (.dramReadData m err) s fun t =>
        let cnt := SMap.get (fun _ => 0) s.devCnt ((m * 2 + rank) * 32 + d) + 1
        t.net = ans 0 op.data ∧ done t ∧ t.getF .ddrEccstatCECNT m = min (s.getF .ddrEccstatCECNT m + 1) 0xFFFF ∧ t.getF .ddrEccstatCSEEN m = 1 ∧
        SMap.get (fun _ => 0) t.devCnt ((m * 2 + rank) * 32 + d) = cnt ∧
        (s.isSet .ddrEccstatUSEEN m = false → t.getF .ddrEccaddrADDR m = 64 * op.line % 2 ^ 48 ∧ t.getF .ddrEccinfoDEV m = d ∧
          t.getF .ddrEccinfoNSYM m = j ∧ t.getF .ddrEccinfoUE m = 0 ∧ t.getF .ddrEccinfoMULTI m = 0) ∧
        (cnt = s.getF .ddrDevfailDEVTHR m → s.isSet .ddrDevfailVALID m = false →
          t.getF .ddrDevfailVALID m = 1 ∧ t.getF .ddrDevfailDEV m = d ∧ t.getF .ddrDevfailRANK m = rank % 2 ∧
          Raised (16 * posOfChan m + 3) 0 s t) ∧
        (cnt ≠ s.getF .ddrDevfailDEVTHR m ∨ s.isSet .ddrDevfailVALID m = true →
          t.out = s.out ∧ t.getF .ddrDevfailVALID m = s.getF .ddrDevfailVALID m) ∧
        sameRegs eccRegs s t ∧
        { t with regs := s.regs, out := s.out, net := s.net, ddr := s.ddr, memReqs := s.memReqs, devCnt := s.devCnt } = s) ∧
      (s.isSet .ddrDevfailVALID m = false → (if s.isSet .ddrCfgPAIR m then 16 else 8) < (err.devs.map fun d => d.2.val).sum →
        Gives (.dramReadData m err) s fun t => done t ∧ sameRegs eccRegs s t ∧
          ((t.net = ans 4 0 ∧ t.getF .ddrEccstatUECNT m = min (s.getF .ddrEccstatUECNT m + 1) 0xFFF ∧ t.getF .ddrEccstatUSEEN m = 1 ∧
            t.getF .ddrEccinfoUE m = 1 ∧ t.getF .ddrEccinfoWRFAIL m = 0 ∧ Raised (16 * posOfChan m + 3) 0 s t) ∨
           (∃ v, t.net = ans 0 v ∧ t.getF .ddrEccstatCSEEN m = 1)))) ∧
    (∀ (e : WbEnt) (ue : Bool), ((c.wbuf.find? (·.promoted)) = some e ∨
        ((c.wbuf.find? (·.promoted)) = none ∧ (drainFlag c = true ∨ c.reads = []) ∧ c.wbuf.head? = some e)) → s.isSet .ddrCfgPAIR m = false →
      ((ue = false ∨ e.mask = fullMask) → Gives (.writeDrain m ue) s fun t =>
        (∀ k < 64, t.dramByte (64 * e.line + k) = if e.mask.testBit k then bits e.data (8 * k) 8 else s.dramByte (64 * e.line + k)) ∧
        (∀ a, a / 64 ≠ e.line → t.dramByte a = s.dramByte a) ∧
        (t.chanSt m).wbuf = c.wbuf.erase e ∧ (t.chanSt m).reads = releaseReads e.line c.reads ∧ (∀ k, k ≠ m.val → t.chanSt k = s.chanSt k) ∧
        sameRegs [.ddrStat] s t ∧ { t with regs := s.regs, ddr := s.ddr, mem := s.mem } = s) ∧
      (ue = true → e.mask ≠ fullMask → Gives (.writeDrain m ue) s fun t =>
        t.getF .ddrEccstatUECNT m = min (s.getF .ddrEccstatUECNT m + 1) 0xFFF ∧ t.getF .ddrEccstatUSEEN m = 1 ∧ t.getF .ddrEccinfoWRFAIL m = 1 ∧
        t.getF .ddrEccinfoUE m = 1 ∧ Raised (16 * posOfChan m + 3) 0 s t ∧ (t.chanSt m).wbuf = c.wbuf.erase e ∧
        (∀ id q, e.req = some id → SMap.get (fun _ => none) s.memReqs id = some q →
          SMap.get (fun _ => none) t.memReqs id = some { q with poison := true }) ∧
        sameRegs eccRegs s t ∧ { t with regs := s.regs, out := s.out, ddr := s.ddr, memReqs := s.memReqs } = s))

/-- R350, R352–R355: an activate opens its row, and may refresh the neighbours that exist; a column command closes its row when
its hint or the queue says so, a precharge and a page timeout close it, and a refresh closes every row of the channel. The temperature
reading is shown, and 85 °C or above sets HOT and raises the event. -/
def Sys2Proof.RowsOpenAndClose : Prop :=
  ∀ (m : Chan) (s : State),
    let row (t : State) (sub : Nat) (rank : Bool) (bank : Nat) := SMap.get (fun _ => none) t.rows (rowKey m sub rank.toNat bank)
    let others (sub : Nat) (rank : Bool) (bank : Nat) (t : State) : Prop :=
      ∀ k, k ≠ rowKey m sub rank.toNat bank → SMap.get (fun _ => none) t.rows k = SMap.get (fun _ => none) s.rows k
    (s.getF .ddrStatSTATE m = 4 →
      (∀ (sub : Fin 2) (bank : Fin 32) (rank : Bool) (r : BitVec 17), Gives (.dramCommandIssue m sub (.activate bank rank r)) s fun t =>
        row t sub rank bank = some r.toNat ∧ others sub rank bank t ∧
        (t.getF .ddrRdpNRCNT m = s.getF .ddrRdpNRCNT m ∨
          t.getF .ddrRdpNRCNT m = min (s.getF .ddrRdpNRCNT m + (neighbours r.toNat (s.rowCount m)).length) 0xFFFFFF) ∧
        SameBut [fk .ddrRdpNRCNT m] s t ∧ { t with regs := s.regs, rows := s.rows, freeCtr := s.freeCtr } = s) ∧
      (∀ (sub : Fin 2) (bank : Fin 32) (rank w same : Bool) (h : BitVec 2), Gives (.dramCommandIssue m sub (.column bank rank w h same)) s fun t =>
        row t sub rank bank = (if h = 1 ∨ (h ≠ 2 ∧ same = true) then row s sub rank bank else none) ∧ others sub rank bank t ∧
        { t with rows := s.rows } = s) ∧
      (∀ (sub : Fin 2) (bank : Fin 32) (rank : Bool), Gives (.dramCommandIssue m sub (.precharge bank rank)) s fun t =>
        row t sub rank bank = none ∧ others sub rank bank t ∧ { t with rows := s.rows } = s)) ∧
    (∀ (bank : Fin 32) (rank : Bool), Gives (.pageTimeout m bank rank) s fun t =>
      row t 0 rank bank = none ∧ row t 1 rank bank = none ∧
      (∀ k, k ≠ rowKey m 0 rank.toNat bank → k ≠ rowKey m 1 rank.toNat bank →
        SMap.get (fun _ => none) t.rows k = SMap.get (fun _ => none) s.rows k) ∧ { t with rows := s.rows } = s) ∧
    (s.getF .ddrStatSTATE m = 4 ∨ (s.getF .ddrStatSTATE m = 3 ∧ 2 ≤ s.getF .ddrStatTRSTEP m) → Gives (.refresh m) s fun t =>
      (∀ k, SMap.get (fun _ => none) t.rows k = if k / 128 = m then none else SMap.get (fun _ => none) s.rows k) ∧ { t with rows := s.rows } = s) ∧
    (Gives (.spdTemperatureRead m none) s fun t => t.getF .ddrThermSBERR m = 1 ∧ RegsOnly [fk .ddrThermSBERR m] s t) ∧
    (∀ r : BitVec 12, Gives (.spdTemperatureRead m (some r)) s fun t =>
      t.getF .ddrThermTEMP m = r.toNat ∧ t.getF .ddrThermSBERR m = 0 ∧
      (340 ≤ r.toInt → t.getF .ddrThermHOT m = 1 ∧ t.getF .ddrThermHOTSEEN m = 1 ∧ Raised (16 * posOfChan m + 5) 0 s t) ∧
      (r.toInt < 340 → t.getF .ddrThermHOT m = 0 ∧ t.getF .ddrThermHOTSEEN m = s.getF .ddrThermHOTSEEN m ∧ t.out = s.out) ∧
      RegsAndOut ([fk .ddrThermTEMP m, fk .ddrThermSBERR m, fk .ddrThermHOT m, fk .ddrThermHOTSEEN m] ++ evKeys (16 * posOfChan m + 5)) s t)

/-- R341–R343, R378, R400: steps of training follow each other, and the end of the zero fill puts the channel in service with memory that reads 0;
three failed attempts of a step, or a timeout of steps 2 to 6, end in STATE 6. Event 16 × n + 4 is raised at each end. A retrain of a channel in STATE
4 or 6 begins with the RESET_n pulse, faults every protected region and rebuilds the bias table, one in STATE 5 wakes the channel
first, and elsewhere it is ignored; after the pulse, with nothing in flight, training starts from step 1. -/
def Sys2Proof.ChannelsTrainAndRetrain : Prop :=
  ∀ (m : Chan) (s : State), let c := s.chanSt m
    let ev := 16 * posOfChan m + 4
    (s.getF .ddrStatSTATE m = 3 →
      (s.getF .ddrStatTRSTEP m ≠ 7 → Gives (.trainingStepDone m) s fun t =>
        t.getF .ddrStatTRSTEP m = (s.getF .ddrStatTRSTEP m + 1) % 16 ∧ t.getF .ddrStatSTATE m = 3 ∧ t.chanSt m = { c with tries := 0 } ∧
        sameRegs [.ddrStat] s t ∧ { t with regs := s.regs, ddr := s.ddr } = s) ∧
      (s.getF .ddrStatTRSTEP m = 7 → Gives (.trainingStepDone m) s fun t =>
        t.getF .ddrStatTRSTEP m = 8 ∧ t.getF .ddrStatSTATE m = 4 ∧ t.getF .ddrStatSEEN m = 1 ∧
        (∀ a, t.dramByte a = if s.chanOf a = m then 0 else s.dramByte a) ∧
        (s.trWait = none → Raised ev 0 s t) ∧
        (s.trWait = some (2 ^ m.val) → t.trWait = none ∧ t.out = s.out ++ [.fwEvent ev 0, .fwEvent 1001 0]) ∧
        sameRegs [.ddrStat, .evrPay, .evrRoute] s t ∧
        { t with regs := s.regs, out := s.out, ddr := s.ddr, mem := s.mem, trWait := s.trWait } = s) ∧
      (c.tries ≠ 2 → Gives (.trainingAttemptFail m) s fun t =>
        t.chanSt m = { c with tries := c.tries + 1 } ∧ t.getF .ddrStatSTATE m = 3 ∧ sameRegs [.ddrStat] s t ∧
        { t with regs := s.regs, ddr := s.ddr } = s) ∧
      (∀ x : Instr, (x = .trainingAttemptFail m ∧ c.tries = 2) ∨
          (x = .trainingTimeout m ∧ 2 ≤ s.getF .ddrStatTRSTEP m ∧ s.getF .ddrStatTRSTEP m ≤ 6) → s.trWait = none → Gives x s fun t =>
        t.getF .ddrStatSTATE m = 6 ∧ t.getF .ddrStatSEEN m = 1 ∧ Raised ev 0 s t ∧ sameRegs [.ddrStat, .evrPay, .evrRoute] s t ∧
        { t with regs := s.regs, out := s.out, ddr := s.ddr } = s)) ∧
    (∀ w : W32, s.perst = false → s.unitOn .ddr = true → let st := s.getF .ddrStatSTATE m
      (w.toNat.testBit 5 = false → Gives (.retrain m w) s fun t =>
        t.getF .ddrCtlWBUF m = w.toNat % 4 ∧ t.getF .ddrCtlMAXSPD m = w.toNat / 4 % 4 ∧ t.getF .ddrCtlWBACK m = w.toNat / 16 % 2 ∧
        sameRegs [.ddrCtl] s t ∧ { t with regs := s.regs } = s) ∧
      (w.toNat.testBit 5 = true → (st = 4 ∨ st = 6) → Gives (.retrain m w) s fun t =>
        t.getF .ddrStatSTATE m = 2 ∧ t.chanSt m = { c with pulse := true, retrainDue := false } ∧ t.mem = s.mem ∧
        (∀ r : Region, s.getF .mempRgnstatSTATE r ≠ 0 → t.getF .mempRgnstatSTATE r = 4) ∧
        (s.part.optX = true → t.getF .cohStatBIASLOST = 1 ∧ t.hostPages = [] ∧ t.flips = []) ∧
        (s.part.optX = false → (∀ r : Region, s.getF .mempRgnstatSTATE r = 0) → sameRegs [.ddrCtl, .ddrStat] s t ∧
          { t with regs := s.regs, ddr := s.ddr } = s)) ∧
      (w.toNat.testBit 5 = true → st = 5 → s.going (256 + m) = none → s.getF .pwrDstatSTATE (256 + m) ≠ 0 → Gives (.retrain m w) s fun t =>
        (t.chanSt m).retrainDue = true ∧ t.going (256 + m) = some 0 ∧ t.getF .pwrDstatLASTWAKE (256 + m) = 1 ∧
        sameRegs [.ddrCtl, .ddrStat, .pwrDctl, .pwrDstat] s t ∧ { t with regs := s.regs, ddr := s.ddr, pwrGo := s.pwrGo } = s) ∧
      (w.toNat.testBit 5 = true → st < 4 → Gives (.retrain m w) s fun t =>
        t.getF .ddrStatRTIGN m = 1 ∧ t.getF .ddrStatSTATE m = st ∧ sameRegs [.ddrCtl, .ddrStat] s t ∧ { t with regs := s.regs } = s)) ∧
    (c.pulse = true → c.inp = [] → c.reads = [] → c.wbuf = [] → s.memReqs = [] → Gives (.retrainPulseEnd m) s fun t =>
      t.getF .ddrStatSTATE m = 3 ∧ t.getF .ddrStatTRSTEP m = 1 ∧
      t.getF .ddrCfgSPEED m = min c.rate (min 2 (s.getF .ddrCtlMAXSPD m)) ∧ t.getF .ddrDevfailVALID m = 0 ∧ t.getF .ddrRdpNRCNT m = 0 ∧
      (t.chanSt m).wbSize = 16 * 2 ^ s.getF .ddrCtlWBUF m ∧ (t.chanSt m).pulse = false ∧ (t.chanSt m).tries = 0 ∧
      (∀ a, t.dramByte a = if s.chanOf a = m then 0 else s.dramByte a) ∧
      (∀ k, SMap.get (fun _ => none) t.rows k = if k / 128 = m then none else SMap.get (fun _ => none) s.rows k) ∧
      (∀ k, SMap.get (fun _ => 0) t.devCnt k = if k / 64 = m then 0 else SMap.get (fun _ => 0) s.devCnt k) ∧
      sameRegs [.ddrStat, .ddrCfg, .ddrRdp, .ddrDevfail] s t ∧
      { t with regs := s.regs, mem := s.mem, ddr := s.ddr, rows := s.rows, devCnt := s.devCnt } = s)

/-- R336–R355: what home slices and their channels do. Memory that training has filled reads 0; that unwritten memory reads 0 before training
is the model's choice (log entry 3). -/
def Obligations.MemoryChannelsServeRequests : Prop :=
  HomeSlicesTakeRequests ∧ DramReadsAndWritesComplete ∧ RowsOpenAndClose ∧ ChannelsTrainAndRetrain

/-! ## Inline memory protection (R357–R379) -/

/-- R366, R367: ALLOC takes a FREE key ID and fills its keys, RETIRE begins with an ACTIVE one that nothing uses and drops the cache entries made
under it, else ERR; when it is done the key ID is FREE and event 1004 is raised. -/
def Sys2Proof.KeysAreAllocatedAndRetired : Prop :=
  ∀ (k : KeyId) (s : State),
    let others (t : State) : Prop := ∀ j : KeyId, j ≠ k → t.keyState j = s.keyState j
    (s.perst = false → s.unitOn .memp = true → s.isSet .mempKeystatBUSY = false →
      (s.keyState k = 0 → Gives (.keyAlloc k) s fun t =>
        t.keyState k = 1 ∧ (SMap.get (fun _ => none) t.memp.keys k).isSome = true ∧ others t ∧
        (∀ j, j ≠ k.val → SMap.get (fun _ => none) t.memp.keys j = SMap.get (fun _ => none) s.memp.keys j) ∧
        t.getF .mempKeyctlKEYID = k ∧ sameRegs [.mempKeyctl, .mempKeystate] s t ∧
        { t with regs := s.regs, memp.keys := s.memp.keys, freeCtr := s.freeCtr } = s) ∧
      (s.keyState k = 1 → s.keyUsed k = false → Gives (.keyRetire k) s fun t =>
        t.keyState k = 2 ∧ t.getF .mempKeystatBUSY = 1 ∧ t.memp.cmd = some k.val ∧ others t ∧
        (SMap.wf (fun _ => none) s.memp.cache = true → ∀ l, SMap.get (fun _ => none) t.memp.cache l =
          (SMap.get (fun _ => none) s.memp.cache l).bind fun v => if v.1 = k then none else some v) ∧
        sameRegs [.mempKeyctl, .mempKeystate, .mempKeystat] s t ∧
        { t with regs := s.regs, memp.cmd := s.memp.cmd, memp.cache := s.memp.cache } = s) ∧
      (∀ c : Instr, (c = .keyAlloc k ∧ s.keyState k ≠ 0) ∨ (c = .keyRetire k ∧ (s.keyState k ≠ 1 ∨ s.keyUsed k = true)) → Gives c s fun t =>
        t.getF .mempKeystatERR = 1 ∧ t.keyState k = s.keyState k ∧ sameRegs [.mempKeyctl, .mempKeystat] s t ∧ { t with regs := s.regs } = s)) ∧
    (s.keyState k = 2 → (∀ r : Region, s.getF .mempRgnstatSTATE r ≠ 2 ∨ s.isSet .mempRgnstatREKEYDUE r = false) →
      Gives (.keyRetireDone k) s fun t =>
        t.keyState k = 0 ∧ SMap.get (fun _ => none) t.memp.keys k = none ∧ others t ∧ Raised 1004 0 s t ∧
        (s.memp.cmd = some k.val → t.getF .mempKeystatBUSY = 0 ∧ t.memp.cmd = none) ∧
        (s.memp.cmd ≠ some k.val → t.getF .mempKeystatBUSY = s.getF .mempKeystatBUSY ∧ t.memp.cmd = s.memp.cmd) ∧
        sameRegs [.mempKeystate, .mempKeystat, .evrPay, .evrRoute] s t ∧
        { t with regs := s.regs, out := s.out, memp.keys := s.memp.keys, memp.cmd := s.memp.cmd } = s) ∧
    (∀ r : Region, s.keyState k = 2 → s.getF .mempRgnstatSTATE r = 2 → s.isSet .mempRgnstatREKEYDUE r = true →
      s.isSet .mempRgncfgAUTOREKEY r = true →
      (∀ q : Region, q ≠ r → s.getF .mempRgnstatSTATE q ≠ 2 ∨ s.isSet .mempRgnstatREKEYDUE q = false) → Gives (.keyRetireDone k) s fun t =>
        t.getF .mempRgnstatSTATE r = 3 ∧ t.getF .mempRgnwalkWP r = 0 ∧
        ∃ j : KeyId, SMap.get (fun _ => none) t.memp.walk r = some j.val ∧ t.keyState j = 1 ∧ (s.keyState j = 0 ∨ j = k) ∧
          ∀ i : KeyId, i < j → s.keyState i ≠ 0 ∧ i ≠ k)

/-- R357, R366, R368, R369, R388: a valid region without a page in host bias is initialised when it is enabled, an invalid definition sets ERR;
initialisation leaves every data line the encryption of zeros at CTR 0, and the region ON with event 1004. A region that nothing is using is
OFF when it is disabled, what waited goes on, and a walking region ignores the write. -/
def Sys2Proof.RegionsAreEnabledAndDisabled : Prop :=
  ∀ (r : Region) (s : State),
    (∀ w : W32, s.perst = false → s.unitOn .memp = true →
      (s.isSet .mempRgncfgENABLE r = false → s.getF .mempRgnstatSTATE r = 0 → w.toNat.testBit 0 = true → s.hostPages = [] → s.flips = [] →
        let u := (s.writeReg .mempRgncfg r 0 w.toNat full32).setOff .mempRgncfgENABLE r
        Gives (.regionEnable r w) s fun t =>
          t.getF .mempRgncfgMODE r = w.toNat / 2 % 4 ∧ t.getF .mempRgncfgKEYID r = w.toNat / 8 % 64 ∧ t.getF .mempRgncfgLOG2S r = w.toNat / 512 % 64 ∧
          t.getF .mempRgncfgACC r = w.toNat / 65536 % 256 ∧
          (u.rgnValid r = true → t.getF .mempRgncfgENABLE r = 1 ∧ t.getF .mempRgnstatSTATE r = 1 ∧ t.getF .mempRgnstatREKEYDUE r = 0) ∧
          (u.rgnValid r = false → t.getF .mempRgncfgENABLE r = 0 ∧ t.getF .mempRgnstatSTATE r = 0 ∧ t.getF .mempRgnstatERR r = 1) ∧
          (∀ q : Region, q ≠ r → s.isSet .mempRgncfgENABLE q = false ∨ s.getF .mempRgnstatSTATE q ≠ 0 →
            t.getF .mempRgnstatSTATE q = s.getF .mempRgnstatSTATE q) ∧
          sameRegs [.mempRgncfg, .mempRgnstat] s t ∧ { t with regs := s.regs } = s) ∧
      (s.isSet .mempRgncfgENABLE r = true → w.toNat.testBit 0 = false →
        (s.getF .mempRgnstatSTATE r = 3 → Gives (.regionDisable r w) s fun t =>
          t.getF .mempRgncfgACC r = w.toNat / 65536 % 256 ∧ RegsOnly [fk .mempRgncfgACC r] s t) ∧
        (s.getF .mempRgnstatSTATE r ≠ 3 → s.getF .mempRgnstatSTATE r ≠ 0 → (∀ q ∈ s.memp.reqs, q.rgn ≠ r.val) →
          Gives (.regionDisable r w) s fun t =>
            t.getF .mempRgncfgENABLE r = 0 ∧ t.getF .mempRgnstatSTATE r = 0 ∧
            t.net = s.memp.wait.filter (fun p => s.inData r p.addr.toNat) ++ s.net ∧
            t.memp.wait = s.memp.wait.filter (fun p => !s.inData r p.addr.toNat) ∧
            (∀ l, SMap.get (fun _ => none) t.memp.cache l =
              if s.rgnBase r ≤ 64 * l ∧ 64 * l < s.rgnBase r + s.rgnSize r then none else SMap.get (fun _ => none) s.memp.cache l) ∧
            SameBut [fk .mempRgncfgENABLE r, fk .mempRgncfgACC r, fk .mempRgnstatSTATE r] s t ∧
            { t with regs := s.regs, net := s.net, memp.wait := s.memp.wait, memp.cache := s.memp.cache } = s) ∧
        (s.getF .mempRgnstatSTATE r ≠ 3 → (∃ q ∈ s.memp.reqs, q.rgn = r.val) → Gives (.regionDisable r w) s fun t =>
          t.getF .mempRgncfgENABLE r = 0 ∧ RegsOnly [fk .mempRgncfgENABLE r, fk .mempRgncfgACC r] s t))) ∧
    (s.getF .mempRgnstatSTATE r = 1 → let kid := s.getF .mempRgncfgKEYID r
      Gives (.regionInitDone r) s fun t =>
        t.getF .mempRgnstatSTATE r = 2 ∧ Raised 1004 0 s t ∧
        (∀ i < s.dataLines r, ∀ j < 64, let a := s.rgnBase r + 64 * i
          t.dramByte (a + j) = bits (s.cipher kid a 0 0) (8 * j) 8) ∧
        sameRegs [.mempRgnstat, .ddrStat, .evrPay, .evrRoute] s t ∧
        { t with regs := s.regs, out := s.out, mem := s.mem, ddr := s.ddr, memp.cache := s.memp.cache, memp.top := s.memp.top, freeCtr := s.freeCtr } = s)

/-- Line i of region r holds a plaintext under a key ID and counter: its metadata word has the counter and the MAC, its bytes are the ciphertext
(R361–R363). -/
def Sys2Proof.lineHolds (t : State) (r i kid ctr plain : Nat) : Prop :=
  let a := t.rgnBase r + 64 * i
  let c := t.cipher kid a ctr plain
  t.metaWord r i = ctr + t.lineMac (t.rgnMode r) kid a ctr c * 2 ^ 24 ∧ ∀ j < 64, t.dramByte (a + j) = bits c (8 * j) 8

/-- R362–R365, R370–R373, R379: the last line of a request of an enabled region, with its metadata open: a read gives the decryption of a line whose MAC
holds; one whose MAC does not is POISON, poisons the line and raises an INTEGRITY alarm; a write of the whole line goes out under
CTR + 1. -/
def Sys2Proof.ProtectedLinesAreCheckedAndWritten : Prop :=
  ∀ (l : PLine) (q : PReq) (s u : State), let r := q.rgn
    let k := l.k.val
    let i := s.pIndex q k
    let a := 64 * q.line k
    s.memp.reqs.find? (fun q => q.pkt == l.pkt && q.todo.contains k) = some q → q.todo = [k] → q.status = 0 → (∀ x ∈ s.memp.reqs, x.todo ≠ []) →
    s.pBlocked q k = false → s.getF .mempRgnstatSTATE r = 2 → s.isSet .mempRgncfgENABLE r = true → s.rgnBase r ≤ a →
    s.memUsable a 64 = true → s.memUsable (s.metaAddr r (i / 8)) 64 = true → s.rgnMode r ≠ 2 → isPosted q.pkt.opc = false →
    (s.evictMeta l.evict).openMeta r i (isWrite q.pkt.opc) l.mdecc = .ok u →
    let w := u.metaWord r i
    let c := u.lineNow (s.chanOf a) (a / 64)
    let kid := s.getF .mempRgncfgKEYID r
    let good := s.rgnMode r = 0 ∨ w / 2 ^ 24 = s.lineMac (s.rgnMode r) kid a (w % 2 ^ 24) c
    let ans (st : Nat) (d : List Byte) : List Packet := s.net ++ [stamped s (responseOf q.pkt st d)]
    let done (t : State) : Prop := t.memp.reqs = s.memp.reqs.erase q
    (isWrite q.pkt.opc = false → w / 2 ^ 24 ≠ poisonMac → l.dataUe = false → good → Gives (.protectedLineOperation l) s fun t =>
      t.net = ans 0 (readBytes q.pkt (SMap.set (fun _ => 0) q.got k (s.cipher kid a (w % 2 ^ 24) c))) ∧ done t ∧
      { t with net := s.net, memp.reqs := s.memp.reqs, memp.cache := s.memp.cache } = s) ∧
    (isWrite q.pkt.opc = false → w / 2 ^ 24 = poisonMac → s.isSet .mempAlarmctlZEROIZE = false → Gives (.protectedLineOperation l) s fun t =>
      t.net = ans 4 [] ∧ done t ∧ t.bitF .mempAlarmstatSEEN 1 = true ∧ Raised 1002 0 s t ∧
      sameRegs [.mempAlarmstat, .mempAlarmrec, .evrPay, .evrRoute] s t ∧
      { t with regs := s.regs, out := s.out, net := s.net, memp.reqs := s.memp.reqs, memp.cache := s.memp.cache } = s) ∧
    (isWrite q.pkt.opc = false → w / 2 ^ 24 ≠ poisonMac → l.dataUe = false → ¬ good → s.isSet .mempAlarmctlZEROIZE = false →
      Gives (.protectedLineOperation l) s fun t =>
        t.net = ans 4 [] ∧ done t ∧ t.metaWord r i = w % 2 ^ 24 + poisonMac * 2 ^ 24 ∧ t.bitF .mempAlarmstatSEEN 0 = true ∧
        (s.getF .mempAlarmstatSEEN = 0 → t.getF .mempAlarmrecADDR = a % 2 ^ 48 ∧ t.getF .mempAlarmrecREGION = r % 64 ∧ t.getF .mempAlarmrecCAUSE = 0 ∧
          t.getF .mempAlarmrecSNODE = q.pkt.snode.toNat) ∧ Raised 1002 0 s t ∧
        sameRegs [.ddrStat, .mempAlarmstat, .mempAlarmrec, .evrPay, .evrRoute] s t ∧
        { t with regs := s.regs, out := s.out, net := s.net, mem := s.mem, ddr := s.ddr, memp.reqs := s.memp.reqs, memp.cache := s.memp.cache } = s) ∧
    (isWrite q.pkt.opc = true → reqMask q.pkt k = fullMask → w % 2 ^ 24 + 1 < 0xFFF000 → Gives (.protectedLineOperation l) s fun t =>
      t.net = ans 0 [] ∧ done t ∧ lineHolds t r i kid (w % 2 ^ 24 + 1) (reqData q.pkt k) ∧ sameRegs [.ddrStat] s t ∧
      { t with regs := s.regs, net := s.net, mem := s.mem, ddr := s.ddr, memp.reqs := s.memp.reqs, memp.cache := s.memp.cache } = s)

/-- R374, R375, R377: a walk starts on an ON region with an ACTIVE key ID that nothing else uses, else ERR; a step re-encrypts line WP at CTR 0 under
the new key and moves WP on; past the last line the region is ON under the new key ID, the old one retires, and event 1004 is raised. -/
def Sys2Proof.WalksChangeTheKey : Prop :=
  ∀ (r : Region) (s : State),
    (∀ w : W64, let k := w.toNat / 2 ^ 35 % 64
      s.perst = false → s.unitOn .memp = true → w.toNat.testBit 41 = true → s.getF .mempRgnstatSTATE r = 2 →
      (s.keyState k = 1 → s.keyUsed k = false → Gives (.walkStart r w) s fun t =>
        t.getF .mempRgnstatSTATE r = 3 ∧ t.getF .mempRgnwalkWP r = 0 ∧ t.getF .mempRgnwalkNEWKEY r = k ∧ t.getF .mempRgnwalkJUMPS r = 0 ∧
        SMap.get (fun _ => none) t.memp.walk r = some k ∧ SMap.get (fun _ => []) t.memp.jump r = [] ∧
        SameBut [fk .mempRgnstatSTATE r, fk .mempRgnwalkWP r, fk .mempRgnwalkNEWKEY r, fk .mempRgnwalkJUMPS r] s t ∧
        { t with regs := s.regs, memp.walk := s.memp.walk, memp.jump := s.memp.jump } = s) ∧
      (s.keyState k ≠ 1 ∨ s.keyUsed k = true → Gives (.walkStart r w) s fun t =>
        t.getF .mempRgnstatERR r = 1 ∧ t.getF .mempRgnstatSTATE r = 2 ∧ RegsOnly [fk .mempRgnwalkNEWKEY r, fk .mempRgnstatERR r] s t)) ∧
    (∀ (evict : List (BitVec 48)) (mdecc : Bool) (u : State), let i := s.getF .mempRgnwalkWP r
      let a := s.rgnBase r + 64 * i
      s.getF .mempRgnstatSTATE r = 3 → s.underNew r i = false → s.memUsable a 64 = true → s.memUsable (s.metaAddr r (i / 8)) 64 = true →
      s.rgnMode r ≠ 2 → (s.evictMeta evict).openMeta r i true mdecc = .ok u →
      let w := u.metaWord r i
      let c := u.lineNow (s.chanOf a) (a / 64)
      let old := s.getF .mempRgncfgKEYID r
      w / 2 ^ 24 ≠ poisonMac → (s.rgnMode r = 0 ∨ w / 2 ^ 24 = s.lineMac (s.rgnMode r) old a (w % 2 ^ 24) c) →
      (i + 1 < s.dataLines r → i + 1 < 2 ^ 35 → Gives (.walkStep r evict mdecc) s fun t =>
        t.getF .mempRgnwalkWP r = i + 1 ∧ t.getF .mempRgnstatSTATE r = 3 ∧ lineHolds t r i (s.newHashKey r) 0 (s.cipher old a (w % 2 ^ 24) c) ∧
        sameRegs [.ddrStat, .mempRgnwalk] s t ∧
        { t with regs := s.regs, mem := s.mem, ddr := s.ddr, memp.cache := s.memp.cache, memp.jump := s.memp.jump } = s) ∧
      (s.dataLines r ≤ i + 1 → SMap.get (fun _ => false) s.memp.due r = false → s.keyState old = 1 → old < 64 → Gives (.walkStep r evict mdecc) s fun t =>
        t.getF .mempRgnstatSTATE r = 2 ∧ t.getF .mempRgncfgKEYID r = s.newHashKey r % 64 ∧ t.keyState old = 2 ∧
        t.getF .mempRgnstatREKEYDUE r = 0 ∧ t.getF .mempRgnstatWALKS r = min (s.getF .mempRgnstatWALKS r + 1) 0xFFFF ∧
        SMap.get (fun _ => none) t.memp.walk r = none ∧ Raised 1004 0 s t ∧
        sameRegs [.ddrStat, .mempRgnwalk, .mempRgncfg, .mempRgnstat, .mempKeystate, .evrPay, .evrRoute] s t ∧
        { t with regs := s.regs, out := s.out, mem := s.mem, ddr := s.ddr, memp.cache := s.memp.cache, memp.jump := s.memp.jump,
                 memp.walk := s.memp.walk } = s))

/-- R357–R379: keys, regions, protected lines and walks. -/
def Obligations.ProtectionEnginesGuardTheirRegions : Prop :=
  KeysAreAllocatedAndRetired ∧ RegionsAreEnabledAndDisabled ∧ ProtectedLinesAreCheckedAndWritten ∧ WalksChangeTheKey


/-! ## The host link, bias and coherence (R380–R401) -/

/-- R401: an error towards the host is recorded with its CAUSE if none is, counted, and raises event 1008. -/
def Sys2Proof.hostError (addr : Option Nat) (cause : Nat) (s t : State) : Prop :=
  t.getF .cohHerrSEEN = 1 ∧ t.getF .cohHerrCOUNT = min (s.getF .cohHerrCOUNT + 1) 0xFF ∧
  (s.isSet .cohHerrSEEN = false → t.getF .cohHerrCAUSE = cause ∧ ∀ a, addr = some a → t.getF .cohHerrADDR = a % 2 ^ 48) ∧
  (s.isSet .cohHerrSEEN = true → t.getF .cohHerrCAUSE = s.getF .cohHerrCAUSE ∧ t.getF .cohHerrADDR = s.getF .cohHerrADDR) ∧
  OutMsg.fwEvent 1008 0 ∈ t.out ∧ sameRegs [.cohHerr, .evrPay, .evrRoute] s t

/-- R387, R390, R398: a CXL.mem request for a decoded address goes out from node 64 as one line's RD, WR or WRM under a free TAG; one that no
decoder maps is answered and recorded. A decoder is committed where the settings are supported, in order and within the memory, else
Error Not Committed. -/
def Sys2Proof.HostReachesDeviceMemory : Prop :=
  ∀ s : State,
    (∀ (hpa : BitVec 52) (tag : BitVec 16),
      (∀ d p, s.hdmDecode hpa.toNat = some d → (∀ r, s.devDecode d ≠ .shadowArea r) → s.engineReq 64 .rd (d / 64 * 64) 64 [] = some p →
        s.isSet .nocRtctlDRAINING = false → Gives (.memrd hpa tag) s fun t =>
          t = { s with hostTx := SMap.set (fun _ => none) s.hostTx s.hostTag (some (.mem false tag.toNat hpa.toNat d))
                       net := s.net ++ [stamped s { p with wmask := 0, tag := BitVec.ofNat 12 s.hostTag }] }) ∧
      (s.hdmDecode hpa.toNat = none → s.part.optX = true → Gives (.memrd hpa tag) s fun t =>
        OutMsg.memData tag.toNat true [] ∈ t.out ∧ hostError none 1 s t ∧
        { t with regs := s.regs, out := s.out, freeCtr := s.freeCtr } = s)) ∧
    (∀ w : MemWrite,
      (∀ d p, s.hdmDecode w.hpa.toNat = some d → (∀ r, s.devDecode d ≠ .shadowArea r) → s.isSet .nocRtctlDRAINING = false →
        let full := w.mask.toNat = fullMask
        (full → s.engineReq 64 .wr (d / 64 * 64) 64 w.data = some p → Gives (.memwr w) s fun t =>
          t = { s with hostTx := SMap.set (fun _ => none) s.hostTx s.hostTag (some (.mem true w.tag.toNat w.hpa.toNat d))
                       net := s.net ++ [stamped s { p with wmask := 0, tag := BitVec.ofNat 12 s.hostTag }] }) ∧
        (¬ full → s.engineReq 64 .wrm (d / 64 * 64) 64 w.data = some p → Gives (.memwr w) s fun t =>
          t = { s with hostTx := SMap.set (fun _ => none) s.hostTx s.hostTag (some (.mem true w.tag.toNat w.hpa.toNat d))
                       net := s.net ++ [stamped s { p with wmask := w.mask, tag := BitVec.ofNat 12 s.hostTag }] })) ∧
      (s.hdmDecode w.hpa.toNat = none → s.part.optX = true → Gives (.memwr w) s fun t =>
        OutMsg.memCmp w.tag.toNat ∈ t.out ∧ hostError (some w.hpa.toNat) 2 s t ∧ { t with regs := s.regs, out := s.out } = s)) ∧
    (∀ (k : Fin 2) (base size skip : BitVec 52) (ways granule way : Nat),
      let start := (if k = 0 then 0 else ((s.hdmOf 0).map fun h => h.dpa + h.len).getD 0) + skip.toNat
      let ok := s.unitOn .coh = true ∧ ways ∈ [1, 2, 4, 8] ∧ way < ways ∧ granule ∈ [256, 512, 1024, 2048, 4096, 8192, 16384] ∧
        base.toNat % 2 ^ 28 = 0 ∧ size.toNat % 2 ^ 28 = 0 ∧ 0 < size.toNat ∧ start + size.toNat / ways ≤ s.memTop ∧
        (k = 0 ∨ (s.hdmOf 0).isSome = true)
      Gives (.hdmCommit k base size skip ways granule way) s fun t =>
        (ok → t.hdmOf k = some ⟨base.toNat, size.toNat, ways, granule, way, start⟩ ∧ SMap.get (fun _ => false) t.hdmErr k = false) ∧
        (¬ ok → t.hdm = s.hdm ∧ SMap.get (fun _ => false) t.hdmErr k = true) ∧
        (∀ j, j ≠ k.val → t.hdmOf j = s.hdmOf j) ∧ { t with hdm := s.hdm, hdmErr := s.hdmErr } = s)

/-- No region waits for pages to flip before it is initialised. -/
def Sys2Proof.noRegionWaits (s : State) : Prop := ∀ r : Region, s.rgnWaits r = false

/-- R388–R392: when every operation on a page is complete its flip to host bias ends: it joins its home slice's filter, its table bit is 1, and
what waited goes on; a full filter first flips its least recent page back. A flip to device bias ends likewise. A bias command is refused
without the link or for pages that no decoder maps, starts the flips it needs, and a query shows the bias, with event 1006. -/
def Sys2Proof.PagesChangeBias : Prop :=
  ∀ s : State,
    (∀ (page : BitVec 29) (f : FlipSt), let p := page.toNat
      let m := s.chanOf (4096 * p)
      let a := s.getF .cohBiasbaseADDR + p / 8
      s.flipping p = some f → s.biasCmd = none → noRegionWaits s →
      (f.toHost = true → s.pageBusy p = false → (s.filterOf m).length < 4096 → Gives (.biasFlipToHostDone page) s fun t =>
        t.hostBias p = true ∧ t.filterOf m = s.filterOf m ++ [p] ∧ t.flips = s.flips.erase f ∧ t.net = f.wait ++ s.net ∧
        t.dramByte a = setBit (s.memByte a) (p % 8) true % 256 ∧ t.getF .cohStatFLIPDH = (s.getF .cohStatFLIPDH + 1) % 65536 ∧
        sameRegs [.cohStat, .ddrStat] s t ∧
        { t with regs := s.regs, net := s.net, mem := s.mem, ddr := s.ddr, hostPages := s.hostPages, flips := s.flips } = s) ∧
      (f.toHost = false → Gives (.biasFlipToDeviceDone page) s fun t =>
        t.filterOf m = (s.filterOf m).erase p ∧ t.flips = s.flips.erase f ∧ t.net = f.wait ++ s.net ∧
        t.dramByte a = setBit (s.memByte a) (p % 8) false % 256 ∧ t.getF .cohStatFLIPHD = (s.getF .cohStatFLIPHD + 1) % 65536 ∧
        sameRegs [.cohStat, .ddrStat] s t ∧
        { t with regs := s.regs, net := s.net, mem := s.mem, ddr := s.ddr, hostPages := s.hostPages, flips := s.flips } = s) ∧
      (∀ old, f.toHost = true → s.pageBusy p = false → 4096 ≤ (s.filterOf m).length → (s.filterOf m).head? = some old → s.flipping old = none →
        Gives (.biasFlipToHostDone page) s fun t =>
          t.flips = s.flips ++ [⟨old, false, []⟩] ∧ t.hostPages = s.hostPages ∧
          t.getF .cohStatFEVICT = min (s.getF .cohStatFEVICT + 1) 0xFFF)) ∧
    (∀ w : W64, let p := w.toNat % 2 ^ 29
      let target := w.toNat.testBit 29
      let m := s.chanOf (4096 * p)
      let pages := (List.range (w.toNat / 2 ^ 32 % 512 + 1)).map (p + ·)
      let up := s.isSet .cxlLnkstatUP = true ∧ s.isSet .cxlLnkstatMEMEN = true
      s.perst = false → s.unitOn .coh = true → s.isSet .cohBiasstatBUSY = false → w.toNat.testBit 30 = true →
      ∀ c ∈ [Instr.biasCommand w, .biasQuery w],
        (¬ up → Gives c s fun t => t.getF .cohBiasstatERR = 1 ∧ t.getF .cohBiasstatERRCODE = 2 ∧
          sameRegs [.cohBiascmd, .cohBiasstat] s t ∧ { t with regs := s.regs } = s) ∧
        (up → ((w.toNat.testBit 31 = true ∧ s.pageMapped p = false) ∨ (w.toNat.testBit 31 = false ∧ ∃ x ∈ pages, s.pageMapped x = false)) →
          Gives c s fun t => t.getF .cohBiasstatERR = 1 ∧ t.getF .cohBiasstatERRCODE = 1 ∧
            sameRegs [.cohBiascmd, .cohBiasstat] s t ∧ { t with regs := s.regs } = s) ∧
        (up → w.toNat.testBit 31 = true → s.pageMapped p = true → Gives c s fun t =>
          t.getF .cohBiasstatDONE = 1 ∧ t.getF .cohBiasstatCUR = (s.hostBias p).toNat ∧ Raised 1006 0 s t ∧
          sameRegs [.cohBiascmd, .cohBiasstat, .evrPay, .evrRoute] s t ∧ { t with regs := s.regs, out := s.out, biasCmd := s.biasCmd } = s) ∧
        (up → w.toNat.testBit 31 = false → w.toNat / 2 ^ 32 % 512 = 0 → s.pageMapped p = true → s.flipping p = none →
          (s.hostBias p = target → Gives c s fun t =>
            t.getF .cohBiasstatDONE = 1 ∧ t.getF .cohBiasstatBUSY = 0 ∧ t.getF .cohBiasstatCUR = target.toNat ∧ Raised 1006 0 s t ∧
            sameRegs [.cohBiascmd, .cohBiasstat, .evrPay, .evrRoute] s t ∧ { t with regs := s.regs, out := s.out, biasCmd := s.biasCmd } = s) ∧
          (s.hostBias p ≠ target → s.getF .pwrDstatSTATE (posOfChan m) = 0 → s.getF .pwrDstatSTATE (256 + m) ≠ 1 → Gives c s fun t =>
            t.getF .cohBiasstatBUSY = 1 ∧ t.biasCmd = some ([p], target, p) ∧ t.flips = s.flips ++ [⟨p, target, []⟩] ∧
            t.out = s.out ++ (if target then [] else (List.range 64).filterMap fun k =>
              (s.hdmHpa (64 * (64 * p + k))).map fun h => .hostReq .rdOwnNoData h 0 0) ∧
            sameRegs [.cohBiascmd, .cohBiasstat] s t ∧
            { t with regs := s.regs, out := s.out, flips := s.flips, biasCmd := s.biasCmd } = s)))

/-- R387–R392, R398: the host's way to device memory, and the bias of its pages. -/
def Obligations.HostSharesDeviceMemory : Prop := HostReachesDeviceMemory ∧ PagesChangeBias

/-- No other operation of COH waits on a line. -/
def Sys2Proof.loneLine (s : State) (l : Nat) : Prop := ∀ o ∈ s.cohOps, o.line ≠ l

/-- R393–R395: a request for host memory at node 65 is refused without the window or the link. For one line with nothing before it on that
line, a hit is served from the cache and a written line is then modified; a miss asks the host as R394 says. -/
def Sys2Proof.CacheServesHostMemory : Prop :=
  ∀ (p : Packet) (i : Nat) (s : State), arrives s p i → ∀ c ∈ reqCmds p, p.opc = c.1 → reqLegal p = true → s.devDecode p.addr.toNat = .hostMem →
    p.dnode = 65 → s.domRuns 295 = true → s.unitOn .coh = true → isPosted p.opc = false →
    let hpa := s.hostAddr p.addr.toNat
    let line := hpa / 64
    let alloc := s.isSet .cohCtlNOALLOC = false ∧ s.isSet .cohCtlFLUSHBUSY = false
    let win := s.isSet .cohHwinEN = true ∧ hpa < 2 ^ 52
    let up := s.isSet .cxlLnkstatUP = true ∧ s.isSet .cxlLnkstatCACHEEN = true
    let write := isWrite p.opc
    let asks (h : HostOp) (mask data : Nat) (t : State) : Prop :=
      t.out = s.out ++ [.hostReq h (64 * line) mask data] ∧ t.net = s.net.erase p ∧ t.cohOps = s.cohOps ++ [⟨s.cohNext, 0, line, some h⟩] ∧
      SMap.get (fun _ => none) t.cohReqs s.cohNext = some ⟨p, hpa, 1, 0, []⟩ ∧
      { t with out := s.out, net := s.net, cohOps := s.cohOps, cohReqs := s.cohReqs, cohNext := s.cohNext } = s
    (¬ win → Gives c.2 s fun t => t = { s with net := answered s p 2 [] }) ∧
    (win → ¬ up → Gives c.2 s fun t => t = { s with net := answered s p 5 [] }) ∧
    (win → up → lineCount hpa (pktLen p) = 1 → loneLine s line →
      (∀ x, s.hline line = some x → write = false → Gives c.2 s fun t =>
        t.net = answered s p 0 (readBytes p (SMap.set (fun _ => 0) [] 0 x.data)) ∧
        { t with net := s.net, cohReqs := s.cohReqs, cohNext := s.cohNext } = s) ∧
      (∀ x, s.hline line = some x → write = true → x.st ≠ .s → Gives c.2 s fun t =>
        t.hline line = some ⟨.m, overlay x.data (reqMask p 0) (reqData p 0)⟩ ∧ (∀ l, l ≠ line → t.hline l = s.hline l) ∧
        t.net = answered s p 0 [] ∧ { t with net := s.net, hcache := s.hcache, cohReqs := s.cohReqs, cohNext := s.cohNext } = s) ∧
      (∀ x, s.hline line = some x → write = true → x.st = .s → Gives c.2 s (asks .rdOwnNoData 0 0)) ∧
      (s.hline line = none → write = false → Gives c.2 s (asks (if s.isSet .cohCtlNOALLOC ∨ s.isSet .cohCtlFLUSHBUSY then .rdCurr else .rdShared) 0 0)) ∧
      (s.hline line = none → write = true → ¬ alloc → Gives c.2 s (asks .wrCur (reqMask p 0) (reqData p 0))) ∧
      (s.hline line = none → write = true → alloc → reqMask p 0 = fullMask → Gives c.2 s (asks .itoMWr fullMask (reqData p 0))) ∧
      (s.hline line = none → write = true → alloc → reqMask p 0 ≠ fullMask → Gives c.2 s (asks .rdOwn 0 0)))

/-- The set of a line in the coherent cache has room, or holds the line. -/
def Sys2Proof.roomFor (s : State) (l : Nat) : Prop :=
  (s.hline l).isSome = true ∨ ((s.hcache.filter fun e => e.1 % 8192 == l % 8192 && e.2.isSome).length < 16)

/-- R390, R394, R396: the host's answer completes the one line of a request: read data is cached shared, an owned line is written and modified, poison
completes POISON with CAUSE 3, and no answer in time SLVERR with CAUSE 4. GO lets a resolve's operation on once its last line has it. Snoops
follow CXL.cache (PRESUMED, log entry 20). A flush writes every modified line back and empties the cache; its end raises event 1006. -/
def Sys2Proof.HostAnswersSnoopsAndFlushes : Prop :=
  ∀ s : State,
    (∀ (a : HostAns) (op : CohOp) (q : CohReq) (h : HostOp), s.askedOp a.hpa.toNat = some op → s.cohReq op.req = some q → op.sent = some h →
      q.left = 1 → q.status = 0 → isPosted q.pkt.opc = false → (∀ o ∈ s.cohOps.erase op, o.line ≠ op.line) → s.part.optX = true →
      let line := leNat a.data % 2 ^ 512
      let mask := reqMask q.pkt op.k
      let data := reqData q.pkt op.k
      let ans (st : Nat) (v : Nat) : List Packet := s.net ++ [stamped s (responseOf q.pkt st
        (if st = 0 ∧ isWrite q.pkt.opc = false then readBytes q.pkt (SMap.set (fun _ => 0) q.got op.k v) else []))]
      let done (t : State) : Prop := t.cohOps = s.cohOps.erase op ∧ SMap.get (fun _ => none) t.cohReqs op.req = none ∧
        (∀ k, k ≠ op.req → SMap.get (fun _ => none) t.cohReqs k = SMap.get (fun _ => none) s.cohReqs k)
      let cached (v : Option HLine) (t : State) : Prop := t.hline op.line = v ∧ (∀ l, l ≠ op.line → t.hline l = s.hline l) ∧
        { t with net := s.net, cohOps := s.cohOps, cohReqs := s.cohReqs, hcache := s.hcache } = s
      (a.go = false → a.poison = false → s.isSet .cohCtlFLUSHBUSY = false → roomFor s op.line →
        (h = .rdShared → Gives (.hostResponse a) s fun t => t.net = ans 0 line ∧ done t ∧ cached (some ⟨.s, line⟩) t) ∧
        (h = .rdOwn → Gives (.hostResponse a) s fun t => t.net = ans 0 0 ∧ done t ∧ cached (some ⟨.m, overlay line mask data⟩) t)) ∧
      (a.go = false → a.poison = false → h = .rdCurr → Gives (.hostResponse a) s fun t => t.net = ans 0 line ∧ done t ∧ cached (s.hline op.line) t) ∧
      (a.go = true → s.isSet .cohCtlFLUSHBUSY = false → roomFor s op.line →
        (h = .itoMWr → Gives (.hostResponse a) s fun t => t.net = ans 0 0 ∧ done t ∧ cached (some ⟨.m, data⟩) t) ∧
        (∀ x, h = .rdOwnNoData → s.hline op.line = some x → Gives (.hostResponse a) s fun t =>
          t.net = ans 0 0 ∧ done t ∧ cached (some ⟨.m, overlay x.data mask data⟩) t)) ∧
      (a.go = true → h = .wrCur → Gives (.hostResponse a) s fun t => t.net = ans 0 0 ∧ done t ∧ cached (s.hline op.line) t) ∧
      (a.go = false → a.poison = true → (h = .rdShared ∨ h = .rdCurr ∨ h = .rdOwn) → Gives (.hostResponse a) s fun t =>
        t.net = ans 4 0 ∧ done t ∧ hostError (some (64 * op.line)) 3 s t ∧
        { t with regs := s.regs, out := s.out, net := s.net, cohOps := s.cohOps, cohReqs := s.cohReqs } = s) ∧
      (Gives (.hostTimeout a.hpa) s fun t =>
        t.net = ans 5 0 ∧ done t ∧ hostError (some a.hpa.toNat) 4 s t ∧
        { t with regs := s.regs, out := s.out, net := s.net, cohOps := s.cohOps, cohReqs := s.cohReqs } = s)) ∧
    (∀ (a : HostAns) (d : Nat) (r : Resolve), s.askedOp a.hpa.toNat = none → s.hdmDecode a.hpa.toNat = some d → s.resolveOf (d / 64) = some r →
      (a.go = true → r.lines.erase (d / 64) ≠ [] → Gives (.hostResponse a) s fun t =>
        t = { s with resolves := s.resolves.replace r { r with lines := r.lines.erase (d / 64) } }) ∧
      (a.go = true → r.lines.erase (d / 64) = [] → Gives (.hostResponse a) s fun t =>
        t = { s with resolves := s.resolves.erase r }.memServe r.pkt) ∧
      (s.part.optX = true → isPosted r.pkt.opc = false → Gives (.hostTimeout a.hpa) s fun t =>
        t.net = s.net ++ [stamped s (responseOf r.pkt 5 [])] ∧ t.resolves = s.resolves.erase r ∧ hostError (some a.hpa.toNat) 4 s t ∧
        { t with regs := s.regs, out := s.out, net := s.net, resolves := s.resolves } = s)) ∧
    (∀ (k : Snoop) (hpa : BitVec 52), let l := hpa.toNat / 64
      s.isSet .cxlLnkstatUP = true → s.getF .pwrDstatSTATE 295 ≠ 1 →
      (s.hline l = none → Gives (.hostSnoop k hpa) s fun t => t = s.emit (.snoopRsp hpa.toNat none none)) ∧
      (∀ x, s.hline l = some x → Gives (.hostSnoop k hpa) s fun t =>
        let d := if x.st = .m then some x.data else none
        let st := match k with | .snpInv => none | .snpData => some LineSt.s | .snpCur => some x.st
        t.out = s.out ++ [.snoopRsp hpa.toNat st d] ∧ t.hline l = st.map (⟨·, x.data⟩) ∧ (∀ j, j ≠ l → t.hline j = s.hline j) ∧
        { t with out := s.out, hcache := s.hcache } = s)) ∧
    (s.perst = false → s.unitOn .coh = true → s.isSet .cohCtlFLUSHBUSY = false → Gives .flush s fun t =>
      t.hcache = [] ∧ t.getF .cohCtlFLUSHBUSY = 1 ∧
      t.out = s.out ++ (s.hcache.filterMap fun e => match e.2 with | some ⟨.m, d⟩ => some (.hostReq .dirtyEvict (64 * e.1) fullMask d) | _ => none) ∧
      SameBut [fk .cohCtlFLUSHBUSY] s t ∧ { t with regs := s.regs, out := s.out, hcache := s.hcache } = s) ∧
    (s.isSet .cohCtlFLUSHBUSY = true → Gives .flushDone s fun t =>
      t.getF .cohCtlFLUSHBUSY = 0 ∧ t.getF .cohCtlFLUSHDONE = 1 ∧ Raised 1006 0 s t ∧
      RegsAndOut ([fk .cohCtlFLUSHBUSY, fk .cohCtlFLUSHDONE] ++ evKeys 1006) s t)

/-- R380, R386, R399: when the link falls, CXL is off, the cache is empty and its modified lines are counted as lost, what was asked of the host
is given up, every page takes device bias, the HDM decoders are not committed, and event 1007 is raised; when it comes up the link shows
its rate and width, and CXL.cache and CXL.mem as enabled and not withdrawn. -/
def Sys2Proof.LinkGoesDownAndUp : Prop :=
  ∀ s : State,
    (s.isSet .cxlLnkstatUP = true → Gives .linkDown s fun t =>
      let dirty := (s.hcache.filter fun e => e.2.any fun h => h.st == .m).length
      t.getF .cxlLnkstatUP = 0 ∧ t.getF .cxlLnkstatCHGSEEN = 1 ∧ t.getF .cxlLnkstatCACHEEN = 0 ∧ t.getF .cxlLnkstatMEMEN = 0 ∧
      OutMsg.fwEvent 1007 0 ∈ t.out ∧ t.hcache = [] ∧ t.cohOps = [] ∧ t.resolves = [] ∧ t.hdm = [] ∧ t.hostTx = [] ∧ t.barRds = [] ∧ t.msixEn = false ∧
      t.getF .cohStatLOSTDIRTY = min (s.getF .cohStatLOSTDIRTY + dirty) 0xFFFF ∧
      (s.part.optX = true → t.getF .cohStatLINKLOST = 1 ∧ t.hostPages = [] ∧ t.flips = [] ∧ t.biasCmd = none) ∧
      (s.cohOps = [] → s.resolves = [] → s.flips = [] → s.biasCmd = none → noRegionWaits s →
        Raised 1007 0 s t ∧ sameRegs [.cxlLnkstat, .cohStat, .evrPay, .evrRoute] s t ∧
        { t with regs := s.regs, out := s.out, hcache := s.hcache, hostPages := s.hostPages, hdm := s.hdm, hdmErr := s.hdmErr,
                 hostTx := s.hostTx, barRds := s.barRds, msixEn := s.msixEn } = s)) ∧
    (∀ (speed : Fin 5) (width : BitVec 4) (cxl ce me mx : Bool), s.perst = false → Gives (.linkUp speed width cxl ce me mx) s fun t =>
      let same := s.isSet .cxlLnkstatUP = true ∧ s.getF .cxlLnkstatSPEED = speed ∧ s.getF .cxlLnkstatWIDTH = width.toNat
      t.getF .cxlLnkstatUP = 1 ∧ t.getF .cxlLnkstatMODE = (cxl && s.part.optX).toNat ∧ t.getF .cxlLnkstatSPEED = speed ∧
      t.getF .cxlLnkstatWIDTH = width.toNat ∧ t.getF .cxlLnkstatCACHEEN = (cxl && s.part.optX && ce && s.unitOn .coh).toNat ∧
      t.getF .cxlLnkstatMEMEN = (cxl && s.part.optX && me && s.unitOn .coh).toNat ∧ t.msixEn = mx ∧
      (same → t.out = s.out ∧ t.getF .cxlLnkstatCHGSEEN = s.getF .cxlLnkstatCHGSEEN) ∧
      (¬ same → t.getF .cxlLnkstatCHGSEEN = 1 ∧ Raised 1007 0 s t) ∧
      sameRegs [.cxlLnkstat, .evrPay, .evrRoute] s t ∧ { t with regs := s.regs, out := s.out, msixEn := s.msixEn } = s)

/-- R380, R390, R393–R396, R399: the coherent cache, the host's answers and snoops, flushes, and the link. -/
def Obligations.CoherenceFollowsTheHostLink : Prop := CacheServesHostMemory ∧ HostAnswersSnoopsAndFlushes ∧ LinkGoesDownAndUp

/-! ## Device time, captures, timers and windows (R402–R429, R446, R525) -/

/-- R403, R404, R426, R525: while device time runs, a tick of the time clock adds TMU_INC to it, and whatever is still to come of a pulse shrinks by
as much; a second that turns over while the PPS output is enabled begins its pulse. Before the root has locked nothing counts. -/
def Sys2Proof.TimeCounts : Prop :=
  ∀ s : State,
    (s.crossingRuns = true → Gives .timeClockTick s fun t =>
      t.now = (s.now + s.incNow) % timeLimit ∧ t.adv = s.adv + s.incNow ∧
      t.ran39 = s.ran39 + (if s.isSet .clkRootstatCOAST then 40 else 39) ∧
      t.ppsLeft = s.ppsLeft.map (fun l => l - s.incNow) ∧
      ((s.now + s.incNow) / secUnits ≠ s.now / secUnits → s.isSet .tmuPpsctlEN = true →
        t.ppsDue = some ((s.now + s.incNow) % secUnits)) ∧
      (SMap.wf (fun _ => none) s.trigLeft = true → ∀ k,
        SMap.get (fun _ => none) t.trigLeft k = (SMap.get (fun _ => none) s.trigLeft k).map (fun l => l - s.incNow)) ∧
      sameRegs [.tmuTimelo, .tmuTimehi] s t ∧
      { t with regs := s.regs, adv := s.adv, ran39 := s.ran39, ppsLeft := s.ppsLeft, ppsDue := s.ppsDue, trigLeft := s.trigLeft } = s) ∧
    (s.crossingRuns = false → Gives .timeClockTick s fun t => t = s)

/-- R407, R408, R409, R411: an accepted TMU_INC or step waits for its boundary and ends holdover; an INC out of range sets INCERR, a step with an illegal
NS sets STEPERR, and neither moves anything. -/
def Sys2Proof.CorrectionsAreAccepted : Prop :=
  ∀ (w : W32) (s : State), s.perst = false → s.unitOn .tmu = true →
    (0xC000 ≤ w.toNat ∧ w.toNat ≤ 0x14000 → Gives (.incWrite w) s fun t =>
      t.getF .tmuIncINC = w.toNat ∧ t.getF .tmuCorrINCPEND = 1 ∧ t.incPend = some (w.toNat, s.ran39) ∧
      t.getF .tmuHoldoverACTIVE = 0 ∧ t.holdAt = s.ran39 ∧
      SameBut [fk .tmuIncINC, fk .tmuCorrINCPEND, fk .tmuHoldoverACTIVE] s t ∧
      { t with regs := s.regs, incPend := s.incPend, holdAt := s.holdAt } = s) ∧
    (¬(0xC000 ≤ w.toNat ∧ w.toNat ≤ 0x14000) → Gives (.incWrite w) s fun t =>
      t.getF .tmuCorrINCERR = 1 ∧ RegsOnly [fk .tmuCorrINCERR] s t) ∧
    (w.toNat.testBit 0 = true → Gives (.stepgo w) s fun t =>
      (∀ x ∈ [(Fld.tmuCorrINCERR, 4), (.tmuCorrAPPLIED, 5)], t.getF x.1 = if w.toNat.testBit x.2 then 0 else s.getF x.1 % 2) ∧
      (999999999 < s.getF .tmuSteploNS → t.getF .tmuCorrSTEPERR = 1 ∧
        RegsOnly [fk .tmuCorrSTEPERR, fk .tmuCorrINCERR, fk .tmuCorrAPPLIED] s t) ∧
      (s.getF .tmuSteploNS ≤ 999999999 → t.getF .tmuCorrSTEPPEND = 1 ∧ t.stepPend = some (s.stepOffset, s.ran39) ∧
        t.getF .tmuHoldoverACTIVE = 0 ∧ t.holdAt = s.ran39 ∧
        SameBut [fk .tmuCorrSTEPPEND, fk .tmuCorrSTEPERR, fk .tmuCorrINCERR, fk .tmuCorrAPPLIED, fk .tmuHoldoverACTIVE] s t ∧
        { t with regs := s.regs, stepPend := s.stepPend, holdAt := s.holdAt } = s))

/-- R406–R411, R421: at a boundary a correction written at least 6 µs before takes effect: the increment; the step, which moves device time in the Tun and
in the replicas, is refused if the result is out of range, and if it is forward disarms each one-shot channel it passes, with MISS. INTERVAL ms without
an accepted correction is holdover. A replica that differs is reloaded. -/
def Sys2Proof.CorrectionsTakeEffect : Prop :=
  ∀ s : State,
    (s.crossingRuns = true → s.xidx % 4096 = 0 →
      (∀ inc u, s.incPend = some (inc, u) → u + 6000 * 39 ≤ s.ran39 → s.stepPend = none → Gives .correctionBoundary s fun t =>
        t.incNow = inc ∧ t.incPend = none ∧ t.getF .tmuCorrINCPEND = 0 ∧ t.getF .tmuCorrAPPLIED = 1 ∧
        SameBut [fk .tmuCorrINCPEND, fk .tmuCorrAPPLIED] s t ∧ { t with regs := s.regs, incNow := s.incNow, incPend := s.incPend } = s) ∧
      (∀ (off : Int) u, s.stepPend = some (off, u) → u + 6000 * 39 ≤ s.ran39 → s.incPend = none → Gives .correctionBoundary s fun t =>
        let v := (s.now : Int) + off
        t.stepPend = none ∧ t.getF .tmuCorrSTEPPEND = 0 ∧
        (v < 0 ∨ (timeLimit : Int) ≤ v → t.getF .tmuCorrSTEPERR = 1 ∧ SameBut [fk .tmuCorrSTEPPEND, fk .tmuCorrSTEPERR] s t ∧
          { t with regs := s.regs, stepPend := s.stepPend } = s) ∧
        (0 ≤ v → v < (timeLimit : Int) →
          (t.now : Int) = v ∧ t.edgeTime = ((s.edgeTime : Int) + off).toNat ∧ t.getF .tmuCorrAPPLIED = 1 ∧
          (SMap.wf (fun _ => none) s.replicas = true → ∀ p a b c, SMap.get (fun _ => none) s.replicas p = some (a, b, c) →
            SMap.get (fun _ => none) t.replicas p =
              some (((a : Int) + off).toNat, ((b : Int) + off).toNat, ((c : Int) + off).toNat)) ∧
          (off ≤ 0 → sameRegs [.tmuTimelo, .tmuTimehi, .tmuCorr] s t ∧ t.tmr = s.tmr ∧ t.pitches = s.pitches) ∧
          (0 < off → ∀ c : Timer, s.isSet .tmrCtlARMED c = true → (s.getF .tmrCtlDEST c = 0 ∨ s.getF .tmrCtlDEST c = 2) →
            s.getF .tmrPeriodPERIOD c = 0 → (s.tmrSt c).sent = [] → ((s.tmrSt c).next : Int) < v →
            t.getF .tmrCtlMISS c = 1 ∧ t.getF .tmrCtlARMED c = 0 ∧ t.getF .tmrCtlEN c = 0) ∧
          sameRegs [.tmuTimelo, .tmuTimehi, .tmuCorr, .tmrCtl, .tmrStartlo, .tmrStarthi] s t ∧
          { t with regs := s.regs, stepPend := s.stepPend, edgeTime := s.edgeTime, replicas := s.replicas, tmr := s.tmr,
                   pitches := s.pitches } = s))) ∧
    (s.crossingRuns = false ∨ s.xidx % 4096 ≠ 0 ∨
      ((∀ e, s.incPend = some e → s.ran39 < e.2 + 6000 * 39) ∧ ∀ e, s.stepPend = some e → s.ran39 < e.2 + 6000 * 39) →
      Gives .correctionBoundary s fun t => t = s) ∧
    (let ms := s.getF .tmuHoldoverINTERVAL
      let lapsed := ms ≠ 0 ∧ s.crossingRuns = true ∧ s.isSet .tmuHoldoverACTIVE = false ∧ s.holdAt + ms * 39000000 ≤ s.ran39
      (lapsed → Gives .holdover s fun t =>
        t.getF .tmuHoldoverACTIVE = 1 ∧ t.getF .tmuHoldoverSEEN = 1 ∧ Raised 1011 0 s t ∧
        RegsAndOut ([fk .tmuHoldoverACTIVE, fk .tmuHoldoverSEEN] ++ evKeys 1011) s t) ∧
      (¬ lapsed → Gives .holdover s fun t => t = s)) ∧
    (s.crossingRuns = true → s.xidx % 4096 = 0 → SMap.wf (fun _ => none) s.replicas = true → Gives .replicaCheck s fun t =>
      (∀ p, SMap.get (fun _ => none) t.replicas p =
        (SMap.get (fun _ => none) s.replicas p).map fun _ => (s.edgeTime, s.edgeTime, s.edgeTime)) ∧
      { t with replicas := s.replicas } = s)

/-- R403–R411, R421: device time counts, is corrected at its boundaries, and reports holdover. -/
def Obligations.DeviceTimeCountsAndIsCorrected : Prop := TimeCounts ∧ CorrectionsAreAccepted ∧ CorrectionsTakeEffect

/-- R414, R416: a capture is lost: LOST counts it and OVF is set, with event 1013 when OVF goes to 1. -/
def Sys2Proof.lostOne (s t : State) : Prop :=
  t.getF .tmuTsstatLOST = min (s.getF .tmuTsstatLOST + 1) 0xFFFFFF ∧ t.getF .tmuTsstatOVF = 1 ∧
  (s.isSet .tmuTsstatOVF = false → Raised 1013 0 s t) ∧ (s.isSet .tmuTsstatOVF = true → t.out = s.out) ∧
  SameBut ([fk .tmuTsstatLOST, fk .tmuTsstatOVF] ++ evKeys 1013) s t

/-- R413, R417, R422, R424: a capture of a source with value v is tested against every enabled window on the source, which counts it inside and shows its
first hit; with a gating window on the source it is kept only inside one. A kept capture takes the next SEQ and waits for the ring. -/
def Sys2Proof.captured (code : Nat) (edge : Bool) (pkind v : Nat) (s t : State) : Prop :=
  let watch (w : Window) : Prop := s.isSet .winCtlEN w = true ∧ s.getF .winCtlSRC w = code
  let hit (w : Window) : Prop := watch w ∧ s.timeOf winStartFlds w ≤ v ∧ v < s.timeOf winEndFlds w
  let gate (w : Window) : Prop := s.isSet .winCtlGATE w = true
  let kept : Prop := (∀ w, watch w → ¬ gate w) ∨ ∃ w, hit w ∧ gate w
  (kept → t.tsSeq = (s.tsSeq + 1) % 2 ^ 15 ∧
    ∃ inWin : Bool, (inWin = true ↔ ∃ w, hit w) ∧ t.ringQ = s.ringQ ++ [⟨v, code, edge, pkind, inWin, s.tsSeq⟩]) ∧
  (¬ kept → t.tsSeq = s.tsSeq ∧ t.ringQ = s.ringQ) ∧
  (∀ w : Window,
    (hit w → t.getF .winStatINCNT w = min (s.getF .winStatINCNT w + 1) 0xFFFF ∧ t.isSet .winStatHIT w = true ∧
      (s.isSet .winStatHIT w = false → t.timeOf winFirstFlds w = v % timeLimit ∧
        (s.isSet .winCtlEVT w = true → t.bitF .tmuWinevtHIT w = true ∧
          (s.bitF .tmuWinevtHIT w = false → OutMsg.fwEvent 1010 0 ∈ t.out)))) ∧
    (¬ hit w → ∀ f ∈ [Fld.winStatINCNT, .winStatHIT, .winFirstloFRAC, .winFirstloNS, .winFirstloSECLO, .winFirsthiSECHI],
      t.getF f w = s.getF f w)) ∧
  sameRegs [.winStat, .winFirstlo, .winFirsthi, .tmuWinevt, .evrPay, .evrRoute] s t ∧ (∀ w, t.getF .winStatOCC w = s.getF .winStatOCC w) ∧
  { t with regs := s.regs, out := s.out, tsSeq := s.tsSeq, ringQ := s.ringQ } = s

/-- R412–R415, R422, R424, R425, R427, R429, R446: what each source captures, at its resolution: an enabled edge of a TRIG or PPS_IN pin at 1/64 ns, the
request of a design port at the last edge of the crossing clock, the symbol of a lane that its decimation selects. One too soon after the last is
lost, but takes a SEQ. The failure of one copy of a path is shown. -/
def Sys2Proof.SourcesCapture : Prop :=
  ∀ s : State,
    (∀ (k : Fin 16) (falling : Bool) (time : Nat), s.getF .kilnStatSTATE = 7 → s.getF .tmuTrigcfgMODE k = 1 →
      (s.bitF .tmuTrigcfgEDGE falling.toNat k = true →
        Gives (.triggerInputEdge k falling time true) s (captured k falling 0 (time / 1024 * 1024) s) ∧
        Gives (.triggerInputEdge k falling time false) s fun t =>
          lostOne s t ∧ t.tsSeq = (s.tsSeq + 1) % 2 ^ 15 ∧ { t with regs := s.regs, out := s.out, tsSeq := s.tsSeq } = s) ∧
      (s.bitF .tmuTrigcfgEDGE falling.toNat k = false → ∀ b, Gives (.triggerInputEdge k falling time b) s fun t => t = s)) ∧
    (∀ (falling : Bool) (time : Nat),
      (s.isSet .tmuPpsctlINEN = true → s.isSet .tmuPpsctlINEDGE = falling →
        Gives (.ppsInEdge falling time) s (captured 0x10 falling 0 (time / 1024 * 1024) s)) ∧
      (s.isSet .tmuPpsctlINEN = false → Gives (.ppsInEdge falling time) s fun t => t = s)) ∧
    (∀ n : Pos,
      (s.bitF .tmuDtsenEN n = true → s.portStopped n = false →
        Gives (.tsreq n) s (captured (0x40 + n) false 0 (s.grainTime (s.phys n) / 131072 * 131072) s)) ∧
      (s.bitF .tmuDtsenEN n = false → Gives (.tsreq n) s fun t => t = s)) ∧
    (∀ x : LaneSym, let l := x.lane.val
      let code := 0x400 + 2 * l + x.tx.toNat
      let dec := 2 ^ min 24 (s.getF .xcvrTscfgTSDEC l)
      let cnt := SMap.get (fun _ => 0) s.laneCnt (2 * l + x.tx.toNat) + 1
      laneExists l = true → s.laneEnabled code = true →
      (if x.tx then s.getF .xcvrLstatPSTATE l = 0 else s.getF .xcvrLstatRXST l = 3) → x.spaced = true →
      (s.laneMode l = 3 → x.isK = true → x.sym = 0xFB → x.frameNo.toNat % dec = 0 →
        Gives (.laneSymbolCapture x) s (captured code false 0 x.time s)) ∧
      (s.laneMode l = 1 → x.sym.toNat = s.getF .xcvrTscfgSOFSYM l → x.isK = s.isSet .xcvrTscfgSOFK l →
        (cnt < dec → Gives (.laneSymbolCapture x) s fun t =>
          SMap.get (fun _ => 0) t.laneCnt (2 * l + x.tx.toNat) = cnt ∧ { t with laneCnt := s.laneCnt } = s) ∧
        (dec ≤ cnt → Gives (.laneSymbolCapture x) s fun t =>
          SMap.get (fun _ => 0) t.laneCnt (2 * l + x.tx.toNat) = cnt % dec ∧
          captured code false 0 x.time { s with laneCnt := t.laneCnt } t))) ∧
    (∀ code : BitVec 11, (code.toNat ≤ 0x10 ∨ laneCodeOk code.toNat = true) → Gives (.capturePathFail code) s fun t =>
      t.getF .tmuTsstatPATHFAIL = 1 ∧ Raised 1014 0 s t ∧
      SMap.get (fun _ => 0) t.pathsOut code.toNat = SMap.get (fun _ => 0) s.pathsOut code.toNat + 1 ∧
      (∀ k, k ≠ code.toNat → SMap.get (fun _ => 0) t.pathsOut k = SMap.get (fun _ => 0) s.pathsOut k) ∧
      SameBut (fk .tmuTsstatPATHFAIL :: evKeys 1014) s t ∧ { t with regs := s.regs, out := s.out, pathsOut := s.pathsOut } = s)

/-- R416, R422, R423: setting EN empties the ring, whose size can be written only while EN is 0. The oldest capture is written at WR, as one entry of 16
bytes, and is lost with EN at 0 or the ring full. A window whose bounds are impossible is not enabled, with ERR; an occurrence that ended
1 µs ago is counted, and the next begins PERIOD later, or EN clears. -/
def Sys2Proof.RingAndWindows : Prop :=
  ∀ s : State,
    (∀ w : W32, s.perst = false → s.unitOn .tmu = true → Gives (.ringEnable w) s fun t =>
      let was := s.isSet .tmuTscfgEN
      let opens := was = false ∧ w.toNat % 2 = 1
      t.getF .tmuTscfgEN = w.toNat % 2 ∧ t.getF .tmuTscfgPITCHTS = w.toNat / 2 % 2 ∧ t.getF .tmuTscfgWM = w.toNat / 256 % 2 ^ 20 ∧
      t.getF .tmuTscfgLOG2N = (if was then s.getF .tmuTscfgLOG2N else w.toNat / 4 % 32) ∧
      (opens → t.getF .tmuTswrWR = 0 ∧ t.getF .tmuTsrdRD = 0 ∧ t.ringOut = none) ∧
      (¬ opens → t.getF .tmuTswrWR = s.getF .tmuTswrWR ∧ t.getF .tmuTsrdRD = s.getF .tmuTsrdRD ∧ t.ringOut = s.ringOut) ∧
      SameBut [fk .tmuTscfgEN, fk .tmuTscfgPITCHTS, fk .tmuTscfgWM, fk .tmuTscfgLOG2N, fk .tmuTswrWR, fk .tmuTsrdRD] s t ∧
      { t with regs := s.regs, ringOut := s.ringOut } = s) ∧
    (∀ e rest, s.ringQ = e :: rest → s.ringOut = none →
      let n := 2 ^ max 8 (min 20 (s.getF .tmuTscfgLOG2N))
      let wr := s.getF .tmuTswrWR % n
      let full := (wr + 1) % n = s.getF .tmuTsrdRD % n
      (s.isSet .tmuTscfgEN = false ∨ full → Gives .ringWrite s fun t =>
        lostOne s t ∧ t.ringQ = rest ∧ { t with regs := s.regs, out := s.out, ringQ := s.ringQ } = s) ∧
      (∀ p, s.isSet .tmuTscfgEN = true → ¬ full → s.engineReq 69 .wr (s.getF .tmuTsbaseBASE * 4096 + 16 * wr) 16 e.bytes = some p →
        s.isSet .nocRtctlDRAINING = false → Gives .ringWrite s fun t =>
          t = { s with ringQ := rest, ringOut := some wr, net := s.net ++ [stamped s p] })) ∧
    (∀ (k : Window) (w : W32), s.perst = false → s.unitOn .tmu = true → s.isSet .winCtlEN k = false → w.toNat.testBit 0 = true →
      Gives (.windowEnable k w) s fun t =>
        let a := s.timeOf winStartFlds k
        let b := s.timeOf winEndFlds k
        let per := s.getF .winPeriodPERIOD k
        let bad := b ≤ a ∨ (per ≠ 0 ∧ per < b - a + 2 * usUnits)
        t.getF .winCtlSRC k = w.toNat / 2 % 2048 ∧ t.getF .winCtlGATE k = w.toNat / 4096 % 2 ∧ t.getF .winCtlEVT k = w.toNat / 8192 % 2 ∧
        (bad → t.getF .winCtlEN k = 0 ∧ t.getF .winCtlERR k = 1 ∧ t.getF .winStatINCNT k = s.getF .winStatINCNT k) ∧
        (¬ bad → t.getF .winCtlEN k = 1 ∧ t.getF .winStatINCNT k = 0) ∧
        RegsOnly [fk .winCtlEN k, fk .winCtlSRC k, fk .winCtlGATE k, fk .winCtlEVT k, fk .winCtlERR k, fk .winStatINCNT k] s t) ∧
    (∀ k : Window, let e := s.timeOf winEndFlds k + usUnits
      let per := s.getF .winPeriodPERIOD k
      (s.isSet .winCtlEN k = false ∨ s.now < e → Gives (.occurrenceEnd k) s fun t => t = s) ∧
      (s.isSet .winCtlEN k = true → e ≤ s.now → per = 0 → Gives (.occurrenceEnd k) s fun t =>
        t.getF .winStatOCC k = (s.getF .winStatOCC k + 1) % 2 ^ 15 ∧ t.getF .winCtlEN k = 0 ∧
        RegsOnly [fk .winStatOCC k, fk .winCtlEN k] s t) ∧
      (s.isSet .winCtlEN k = true → e ≤ s.now → per ≠ 0 → Gives (.occurrenceEnd k) s fun t =>
        ∃ n, 1 ≤ n ∧ e + (n - 1) * per ≤ s.now ∧ s.now < e + n * per ∧
          t.getF .winStatOCC k = (s.getF .winStatOCC k + n) % 2 ^ 15 ∧
          t.timeOf winStartFlds k = (s.timeOf winStartFlds k + n * per) % timeLimit ∧
          t.timeOf winEndFlds k = (s.timeOf winEndFlds k + n * per) % timeLimit ∧
          RegsOnly [fk .winStatOCC k, fk .winStartloFRAC k, fk .winStartloNS k, fk .winStartloSECLO k, fk .winStarthiSECHI k,
            fk .winEndloFRAC k, fk .winEndloNS k, fk .winEndloSECLO k, fk .winEndhiSECHI k] s t))

/-- R412–R417, R422–R425, R427, R429, R446: sources capture device time, windows judge the captures, and the ring takes them. -/
def Obligations.CapturesReachTheRing : Prop := SourcesCapture ∧ RingAndWindows

/-- R418–R420: arming an idle channel checks its start time, PERIOD, SEL and pin, in this order, and answers with ERRCODE; EN written 0 on an armed channel
disarms it, and nothing else of it can be written but MISS. -/
def Sys2Proof.TimersArmAndDisarm : Prop :=
  ∀ (c : Timer) (w : W32) (s : State), s.perst = false → s.unitOn .tmu = true → ∀ x ∈ [Instr.timerArm c w, .timerDisarm c w],
    let dest := w.toNat / 2 % 4
    let sel := w.toNat / 8 % 64
    let per := s.getF .tmrPeriodPERIOD c
    let least := if dest = 0 then usUnits else if dest = 1 then 2 * nsUnits
      else if dest = 2 then (max 4 (max 1 (s.getF .tmuTrigcfgWIDTH sel) + 2)) * nsUnits else 10 * usUnits
    let code := if s.timeOf startFlds c < s.now + 10 * usUnits then 1
      else if per ≠ 0 ∧ per < least then 2
      else if (dest = 2 ∧ 16 ≤ sel) ∨ (dest = 3 ∧ ¬(sel < 16 ∧ sel % 8 ∈ [3, 4, 5, 7])) then 3
      else if dest = 2 ∧ s.getF .tmuTrigcfgMODE sel ≠ 2 then 4 else 0
    let keys := [fk .tmrCtlEN c, fk .tmrCtlDEST c, fk .tmrCtlSEL c, fk .tmrCtlEVT c, fk .tmrCtlARMED c, fk .tmrCtlMISS c, fk .tmrCtlERR c,
      fk .tmrCtlERRCODE c, fk .tmrCtlCOUNT c]
    let others (t : State) : Prop := (∀ d : Timer, d ≠ c → t.tmrSt d = s.tmrSt d) ∧ SameBut keys s t ∧
      { t with regs := s.regs, tmr := s.tmr } = s
    (s.isSet .tmrCtlARMED c = false → w.toNat.testBit 0 = true → Gives x s fun t =>
      t.getF .tmrCtlDEST c = dest ∧ t.getF .tmrCtlSEL c = sel ∧ t.getF .tmrCtlEVT c = w.toNat / 512 % 2 ∧
      t.getF .tmrCtlCOUNT c = w.toNat / 65536 ∧
      (code = 0 → t.getF .tmrCtlARMED c = 1 ∧ t.getF .tmrCtlEN c = 1 ∧ t.tmrSt c = ⟨s.timeOf startFlds c, []⟩) ∧
      (code ≠ 0 → t.isSet .tmrCtlARMED c = false ∧ t.getF .tmrCtlEN c = 0 ∧ t.getF .tmrCtlERR c = 1 ∧ t.getF .tmrCtlERRCODE c = code ∧
        t.tmr = s.tmr) ∧ others t) ∧
    (s.isSet .tmrCtlARMED c = true → Gives x s fun t =>
      (w.toNat.testBit 11 = true → t.getF .tmrCtlMISS c = 0) ∧
      (w.toNat.testBit 0 = false → t.getF .tmrCtlARMED c = 0 ∧ t.getF .tmrCtlEN c = 0 ∧ t.tmrSt c = TmrSt.idle) ∧
      (w.toNat.testBit 0 = true → t.getF .tmrCtlARMED c = s.getF .tmrCtlARMED c ∧ t.getF .tmrCtlEN c = s.getF .tmrCtlEN c ∧ t.tmr = s.tmr) ∧
      (∀ f ∈ [Fld.tmrCtlDEST, .tmrCtlSEL, .tmrCtlEVT, .tmrCtlERR, .tmrCtlERRCODE, .tmrCtlCOUNT], t.getF f c = s.getF f c) ∧ others t)

/-- R418, R419, R425: at its fire time, or at the crossing cycle of what was sent ahead, an armed channel fires: it sets its bit in TMU_TMREVT with event
1009, drives its trigger pin, and moves on by PERIOD, or disarms when it is done. A fire of a timed line is sent when it comes within 5 µs, for the
first crossing edge at or after it. -/
def Sys2Proof.TimersFire : Prop :=
  ∀ (c : Timer) (s : State),
    let x := s.tmrSt c
    let per := s.getF .tmrPeriodPERIOD c
    let n := s.getF .tmrCtlCOUNT c
    let ahead : Prop := s.getF .tmrCtlDEST c = 1 ∨ s.getF .tmrCtlDEST c = 3
    let due : Prop := s.isSet .tmrCtlARMED c = true ∧ (ahead → ∃ e rest, x.sent = e :: rest ∧ e.2 ≤ s.xidx) ∧
      (¬ ahead → x.next < s.now + s.incNow)
    (¬ due → Gives (.timerFire c) s fun t => t = s) ∧
    (due → Gives (.timerFire c) s fun t =>
      (s.isSet .tmrCtlEVT c = true → t.bitF .tmuTmrevtFIRED (c % 32) (c / 32) = true ∧
        (s.bitF .tmuTmrevtFIRED (c % 32) (c / 32) = false → OutMsg.fwEvent 1009 0 ∈ t.out)) ∧
      (s.isSet .tmrCtlEVT c = false → t.out = s.out ∧ t.getF .tmuTmrevtFIRED (c / 32) = s.getF .tmuTmrevtFIRED (c / 32)) ∧
      (per = 0 ∨ n = 1 → t.getF .tmrCtlARMED c = 0 ∧ t.getF .tmrCtlEN c = 0 ∧ t.tmrSt c = TmrSt.idle) ∧
      (per ≠ 0 → n ≠ 1 → t.getF .tmrCtlARMED c = s.getF .tmrCtlARMED c ∧
        (ahead → t.tmrSt c = { x with sent := x.sent.drop 1 }) ∧
        (¬ ahead → t.tmrSt c = { x with next := (x.next + per) % timeLimit })) ∧
      (per ≠ 0 → ¬ ahead → x.sent = [] → t.timeOf startFlds c = (x.next + per) % timeLimit) ∧
      t.getF .tmrCtlCOUNT c = (if per ≠ 0 ∧ n ≠ 0 then (n - 1) % 2 ^ 16 else n) ∧
      (s.getF .tmrCtlDEST c = 2 → s.getF .tmuTrigcfgMODE (s.getF .tmrCtlSEL c) = 2 → s.getF .kilnStatSTATE = 7 →
        ∃ left, SMap.get (fun _ => none) t.trigLeft (s.getF .tmrCtlSEL c) = some left ∧
          x.next / 1024 * 1024 + max 1 (s.getF .tmuTrigcfgWIDTH (s.getF .tmrCtlSEL c)) * nsUnits ≤ s.now + left ∧
          ∀ old, SMap.get (fun _ => none) s.trigLeft (s.getF .tmrCtlSEL c) = some old → old ≤ left) ∧
      (s.getF .tmrCtlDEST c ≠ 2 → t.trigLeft = s.trigLeft) ∧
      (∀ d : Timer, d ≠ c → t.tmrSt d = s.tmrSt d) ∧
      (∀ d : Timer, d ≠ c → ∀ f ∈ [Fld.tmrCtlEN, .tmrCtlARMED, .tmrCtlCOUNT], t.getF f d = s.getF f d) ∧
      sameRegs [.tmrCtl, .tmrStartlo, .tmrStarthi, .tmuTmrevt, .evrPay, .evrRoute] s t ∧
      { t with regs := s.regs, out := s.out, tmr := s.tmr, trigLeft := s.trigLeft } = s) ∧
    (s.isSet .tmrCtlARMED c = true → s.getF .tmrCtlDEST c = 1 → s.tmrUnsent c = true → x.next ≤ s.now + 5 * usUnits →
      Gives (.timedLineSend c) s fun t => ∃ i,
        t.tmrSt c = ⟨(x.next + per) % timeLimit, x.sent ++ [(x.next, i)]⟩ ∧
        (0 < s.incNow → s.xidx ≤ i ∧ x.next ≤ s.edgeTime + (i - s.xidx) * (2 * s.incNow) ∧
          (i = s.xidx ∨ s.edgeTime + (i - 1 - s.xidx) * (2 * s.incNow) < x.next)) ∧
        ((s.getF .tmrCtlSEL c, i) ∈ s.lines → t.lines = s.lines) ∧
        ((s.getF .tmrCtlSEL c, i) ∉ s.lines → t.lines = s.lines ++ [(s.getF .tmrCtlSEL c, i)]) ∧
        (∀ d : Timer, d ≠ c → t.tmrSt d = s.tmrSt d) ∧ { t with tmr := s.tmr, lines := s.lines } = s) ∧
    (x.next > s.now + 5 * usUnits → Gives (.timedLineSend c) s fun t => t = s)

/-- R426, R525: a trigger or PPS pulse ends with the tick at which its width is over; the PPS output pulses for WIDTH, held to 1 to 1,000,000 µs, from the
second it is due at. -/
def Sys2Proof.PulsesBeginAndEnd : Prop :=
  ∀ s : State,
    (∀ k : Fin 16, let old := SMap.get (fun _ => none) s.trigLeft k.val
      (∀ l, old = some l → l < s.incNow → Gives (.triggerPulseEnd k) s fun t =>
        (∀ j, SMap.get (fun _ => none) t.trigLeft j = if j = k.val then none else SMap.get (fun _ => none) s.trigLeft j) ∧
        { t with trigLeft := s.trigLeft } = s) ∧
      ((∀ l, old = some l → s.incNow ≤ l) → Gives (.triggerPulseEnd k) s fun t => t = s)) ∧
    (∀ a, s.ppsDue = some a → Gives .ppsOutPulse s fun t =>
      t.ppsDue = none ∧
      (s.isSet .tmuPpsctlEN = true → t.ppsLeft = some (max 1 (min 1000000 (s.getF .tmuPpsctlWIDTH)) * usUnits - a)) ∧
      (s.isSet .tmuPpsctlEN = false → t.ppsLeft = s.ppsLeft) ∧ { t with ppsDue := s.ppsDue, ppsLeft := s.ppsLeft } = s) ∧
    (s.ppsDue = none → Gives .ppsOutPulse s fun t => t = s) ∧
    (∀ l, s.ppsLeft = some l → l < s.incNow → Gives .ppsOutPulseEnd s fun t => t = { s with ppsLeft := none }) ∧
    ((∀ l, s.ppsLeft = some l → s.incNow ≤ l) → Gives .ppsOutPulseEnd s fun t => t = s)

/-- R418–R420, R425, R426, R525: timers arm, fire and disarm, and the pulses they and the PPS output begin come to their ends. -/
def Obligations.TimersFireAndPulsesEnd : Prop := TimersArmAndDisarm ∧ TimersFire ∧ PulsesBeginAndEnd

/-! ## Transceivers and wort links (R430–R456) -/

/-- A register command for lane l reaches it. -/
def Sys2Proof.laneLive (s : State) (l : Lane) : Prop :=
  s.perst = false ∧ l.val / 8 ≠ 16 ∧ laneExists l = true ∧ s.unitOn .xcvr = true

/-- R442: a lane enters a power state: in Sleep its receiver is off; the last lane of a quad that does so stops the quad PLL and takes its domain, if that
is in Run, to Doze; a pending injection of a lane that becomes Active goes out. -/
def Sys2Proof.laneEnters (l : Lane) (st : Nat) (s t : State) : Prop :=
  let q := l.val / 4
  let asleep : Prop := ∀ j : Fin 4, 4 * q + j.val ≠ l.val → s.getF .xcvrLstatPSTATE (4 * q + j) = 2
  t.getF .xcvrLstatPSTATE l = st ∧ SMap.get (fun _ => false) t.laneExit l.val = false ∧
  (∀ m : Lane, m ≠ l → t.getF .xcvrLstatPSTATE m = s.getF .xcvrLstatPSTATE m ∧ t.getF .xcvrLstatRXST m = s.getF .xcvrLstatRXST m) ∧
  (2 ≤ st → t.getF .xcvrLstatRXST l = 0 ∧ t.getF .xcvrLstatSIGDET l = 0 ∧ t.getF .xcvrLstatCDRLOCK l = 0 ∧
    (s.getF .xcvrLstatRXST l = 3 → t.getF .xcvrLstatDOWNSEEN l = 1 ∧ OutMsg.fwEvent (16 * (l / 8) + 15) 0 ∈ t.out)) ∧
  (st < 2 → t.getF .xcvrLstatRXST l = s.getF .xcvrLstatRXST l) ∧
  (st = 2 → asleep → t.getF .xcvrQpllLOCK (4 * q) = 0 ∧
    (s.getF .pwrDstatSTATE (128 + 2 * (l / 8) + l / 4 % 2) = 0 → s.going (128 + 2 * (l / 8) + l / 4 % 2) = none →
      t.going (128 + 2 * (l / 8) + l / 4 % 2) = some 1)) ∧
  (st = 0 → s.isSet .xcvrInjBUSY l = true → t.getF .xcvrInjBUSY l = 0 ∧ ∃ n, OutMsg.inverted l n ∈ t.out) ∧
  sameRegs [.xcvrLstat, .xcvrInj, .xcvrQpll, .pwrDstat, .evrPay, .evrRoute] s t ∧
  { t with regs := s.regs, out := s.out, laneExit := s.laneExit, pwrGo := s.pwrGo } = s

/-- R432, R433, R441: a receiver goes from searching over CDR lock and symbol alignment to UP; an invalid symbol is counted and sends one in CHECK back; one
that leaves UP shows DOWNSEEN with the event of its grain, and takes down the wort link whose last lane it was. -/
def Sys2Proof.ReceiversComeUpAndGoDown : Prop :=
  ∀ (l : Lane) (s : State), let st := s.getF .xcvrLstatRXST l
    (laneExists l = true → st = 0 → s.getF .xcvrLstatPSTATE l ≤ 1 → Gives (.signalDetected l) s fun t =>
      t.getF .xcvrLstatSIGDET l = 1 ∧ t.getF .xcvrLstatCDRLOCK l = 1 ∧ t.getF .xcvrLstatRXST l = 1 ∧
      RegsOnly [fk .xcvrLstatSIGDET l, fk .xcvrLstatCDRLOCK l, fk .xcvrLstatRXST l] s t) ∧
    (2 ≤ s.getF .xcvrLstatPSTATE l → Gives (.signalDetected l) s fun t => t = s) ∧
    (st = 1 → Gives (.commaFound l) s fun t => t.getF .xcvrLstatRXST l = 2 ∧ RegsOnly [fk .xcvrLstatRXST l] s t) ∧
    (st ≠ 1 → Gives (.commaFound l) s fun t => t = s) ∧
    (st = 2 → Gives (.validSymbolRun l) s fun t =>
      t.getF .xcvrLstatRXST l = 3 ∧ t.getF .xcvrLstatUPSEEN l = 1 ∧ RegsOnly [fk .xcvrLstatRXST l, fk .xcvrLstatUPSEEN l] s t) ∧
    (st ≠ 2 → Gives (.validSymbolRun l) s fun t => t = s) ∧
    (∀ d : Bool, let f := if d then Fld.xcvrLerrDISPERR else .xcvrLerrCODEERR
      (2 ≤ st → s.isSet .xcvrLcfgRAW l = false → Gives (.invalidSymbol l d) s fun t =>
        t.getF f l = min (s.getF f l + 1) 0xFFFFFFFF ∧ t.getF .xcvrLstatERRSEEN l = 1 ∧
        t.getF .xcvrLstatRXST l = (if st = 2 then 1 else st) ∧ RegsOnly [fk f l, fk .xcvrLstatERRSEEN l, fk .xcvrLstatRXST l] s t) ∧
      (st < 2 → Gives (.invalidSymbol l d) s fun t => t = s)) ∧
    (∀ sig cdr : Bool, let k := l.val / 4
      let last : Prop := s.isSet .wortLinkEN k = true ∧ 2 ≤ s.getF .wortLinkSTATE k ∧
        ∀ j : Fin 4, 4 * k + j.val ≠ l.val → s.getF .xcvrLstatRXST (4 * k + j) ≠ 3
      (st ≠ 3 → Gives (.laneDown l sig cdr) s fun t => t = s) ∧
      (st = 3 → Gives (.laneDown l sig cdr) s fun t =>
        t.getF .xcvrLstatRXST l = 0 ∧ t.getF .xcvrLstatSIGDET l = sig.toNat ∧ t.getF .xcvrLstatCDRLOCK l = cdr.toNat ∧
        t.getF .xcvrLstatDOWNSEEN l = 1 ∧ OutMsg.fwEvent (16 * (l / 8) + 15) 0 ∈ t.out ∧
        (last → t.getF .wortLinkLANES k = 0 ∧ t.getF .wortLinkSTATE k = 0 ∧ t.getF .wortLinkSEEN k = 1 ∧
          OutMsg.fwEvent 1016 0 ∈ t.out) ∧
        (¬ last → t.getF .wortLinkLANES k = s.getF .wortLinkLANES k ∧ t.getF .wortLinkSTATE k = s.getF .wortLinkSTATE k) ∧
        SameBut ([fk .xcvrLstatRXST l, fk .xcvrLstatSIGDET l, fk .xcvrLstatCDRLOCK l, fk .xcvrLstatDOWNSEEN l, fk .wortLinkLANES k,
          fk .wortLinkSTATE k, fk .wortLinkSEEN k] ++ evKeys (16 * (l / 8) + 15) ++ evKeys 1016) s t ∧
        { t with regs := s.regs, out := s.out } = s))

/-- R431: a quad PLL takes N and F only when they keep its VCO in range, and a new setting or EN at 0 ends the lock; it locks while EN is 1 and its domain
runs, and a loss of lock is shown. -/
def Sys2Proof.QuadPllsFollowTheirSettings : Prop :=
  ∀ (l : Lane) (s : State), let q := l.val / 4 * 4
    (∀ w : W32, laneLive s l → l.val % 4 = 0 → Gives (.qpllWrite l w) s fun t =>
      let n := w.toNat % 32
      let f := w.toNat / 32 % 2 ^ 24
      let ok : Prop := 14 * 2 ^ 24 ≤ n * 2 ^ 24 + f ∧ 8 * (n * 2 ^ 24 + f) ≤ 225 * 2 ^ 24
      t.getF .xcvrQpllEN l = w.toNat / 2 ^ 29 % 2 ∧
      (ok → t.getF .xcvrQpllN l = n ∧ t.getF .xcvrQpllF l = f) ∧
      (¬ ok → t.getF .xcvrQpllN l = s.getF .xcvrQpllN l % 32 ∧ t.getF .xcvrQpllF l = s.getF .xcvrQpllF l % 2 ^ 24) ∧
      (w.toNat.testBit 29 = false ∨ (ok ∧ (n ≠ s.getF .xcvrQpllN l ∨ f ≠ s.getF .xcvrQpllF l)) → t.getF .xcvrQpllLOCK l = 0) ∧
      (w.toNat.testBit 29 = true → ok → n = s.getF .xcvrQpllN l → f = s.getF .xcvrQpllF l →
        t.getF .xcvrQpllLOCK l = s.getF .xcvrQpllLOCK l) ∧
      (w.toNat.testBit 31 = true → t.getF .xcvrQpllUNLOCKSEEN l = 0) ∧
      RegsOnly [fk .xcvrQpllN l, fk .xcvrQpllF l, fk .xcvrQpllEN l, fk .xcvrQpllLOCK l, fk .xcvrQpllUNLOCKSEEN l] s t) ∧
    (laneExists l = true → s.isSet .xcvrQpllEN q = true → s.getF .pwrDstatSTATE (quadDom l) = 0 → s.crossingRuns = true →
      Gives (.qpllLock l) s fun t => t.getF .xcvrQpllLOCK q = 1 ∧ RegsOnly [fk .xcvrQpllLOCK q] s t) ∧
    (s.isSet .xcvrQpllEN q = false → Gives (.qpllLock l) s fun t => t = s) ∧
    (s.isSet .xcvrQpllLOCK q = true → Gives (.qpllLossOfLock l) s fun t =>
      t.getF .xcvrQpllLOCK q = 0 ∧ t.getF .xcvrQpllUNLOCKSEEN q = 1 ∧ RegsOnly [fk .xcvrQpllLOCK q, fk .xcvrQpllUNLOCKSEEN q] s t) ∧
    (s.isSet .xcvrQpllLOCK q = false → Gives (.qpllLossOfLock l) s fun t => t = s)

/-- R442: REQ moves a lane that is on and is no wort lane; AUTO takes a fabric lane from Active to Standby and on to Sleep when its timeouts run out; an exit
ends in Active. -/
def Sys2Proof.LanesChangePowerState : Prop :=
  ∀ (l : Lane) (s : State), let ps := s.getF .xcvrLstatPSTATE l
    let exits := SMap.get (fun _ => false) s.laneExit l.val
    (∀ w : W32, laneLive s l → let r := s.writeReg .xcvrLpm l 0 w.toNat full32
      (ps = 3 ∨ s.laneMode l = 3 → Gives (.lanePowerRequest l w) s fun t => t = r) ∧
      (ps ≠ 3 → s.laneMode l ≠ 3 → 1 ≤ w.toNat % 4 → Gives (.lanePowerRequest l w) s (laneEnters l (min 2 (w.toNat % 4)) r)) ∧
      (ps ≠ 3 → s.laneMode l ≠ 3 → w.toNat % 4 = 0 → Gives (.lanePowerRequest l w) s fun t =>
        SMap.get (fun _ => false) t.laneExit l.val = (exits || decide (ps = 1 ∨ ps = 2)) ∧ t.getF .xcvrLstatPSTATE l = ps ∧
        (s.getF .pwrDstatSTATE (quadDom l) = 0 → s.going (quadDom l) = none → t = { r with laneExit := t.laneExit }))) ∧
    (exits = true → s.getF .pwrDstatSTATE (quadDom l) = 0 → Gives (.laneExitDone l) s (laneEnters l 0 s)) ∧
    (exits = false → Gives (.laneExitDone l) s fun t => t = s) ∧
    (s.isSet .xcvrLpmAUTO l = true → s.laneMode l = 1 → s.getF .xcvrLpmSBYUS l ≠ 0 → ps = 0 →
      Gives (.standbyTimeout l) s fun t => t.txFifo l = [] ∧ laneEnters l 1 { s with laneTx := t.laneTx } t) ∧
    (s.isSet .xcvrLpmAUTO l = true → s.laneMode l = 1 → s.getF .xcvrLpmSLPMS l ≠ 0 → ps = 1 → exits = false →
      Gives (.sleepTimeout l) s (laneEnters l 2 s)) ∧
    (s.isSet .xcvrLpmAUTO l = false → Gives (.standbyTimeout l) s (fun t => t = s) ∧ Gives (.sleepTimeout l) s (fun t => t = s))

/-- R434, R437–R440, R442: in fabric mode a beat of the design joins the transmit FIFO of 16, and wakes a lane that is not Active; a received beat joins the
receive FIFO of 16, or is lost with RXOVF. Bonded lanes that align within 32 symbols run together; the others show BONDERR. -/
def Sys2Proof.LanePortsCarryBeats : Prop :=
  ∀ (l : Lane) (s : State), let tx (t : State) (m : Nat) := SMap.get (fun _ => []) t.laneTx m
    let rx (t : State) (m : Nat) := SMap.get (fun _ => []) t.laneRx m
    let beat (d k : Nat) : Nat × Nat := if s.isSet .xcvrLcfgRAW l then (d &&& 0x03FF03FF03FF03FF, 0)
      else if s.isSet .xcvrLcfgWIDTH l then (d, k) else (d % 2 ^ 32, k % 16)
    (∀ (data : BitVec 64) (k : BitVec 8) (sent : Nat), s.portOpen l = true →
      (s.getF .xcvrLstatPSTATE l = 0 → Gives (.txBeat l data k sent) s fun t =>
        (((tx s l).drop sent).length < 16 → tx t l = (tx s l).drop sent ++ [beat data.toNat k.toNat]) ∧
        (16 ≤ ((tx s l).drop sent).length → tx t l = (tx s l).drop sent) ∧
        (∀ m, m ≠ l.val → tx t m = tx s m) ∧ { t with laneTx := s.laneTx } = s) ∧
      ((s.getF .xcvrLstatPSTATE l = 1 ∨ s.getF .xcvrLstatPSTATE l = 2) → Gives (.txBeat l data k sent) s fun t =>
        SMap.get (fun _ => false) t.laneExit l.val = true ∧
        ((tx s l).length < 16 → tx t l = tx s l ++ [beat data.toNat k.toNat]) ∧ (16 ≤ (tx s l).length → tx t l = tx s l))) ∧
    (∀ (data : BitVec 64) (k : BitVec 8) (sent : Nat), s.portOpen l = false → Gives (.txBeat l data k sent) s fun t => t = s) ∧
    (∀ (data : BitVec 64) (k bv err : BitVec 8) (taken : Nat),
      s.laneMode l = 1 → s.getF .xcvrLstatRXST l = 3 → (s.isSet .xcvrLcfgBOND l = false ∨ SMap.get (fun _ => 0) s.bond (l.val / 4) ≠ 1) →
      Gives (.rxBeat l data k bv err taken) s fun t =>
        let q := (rx s l).drop taken
        let raw := s.isSet .xcvrLcfgRAW l
        (q.length < 16 → rx t l = q ++ [⟨(beat data.toNat k.toNat).1, (beat data.toNat k.toNat).2, if raw then 0 else bv.toNat,
            if raw then 0 else err.toNat⟩] ∧ t.regs = s.regs) ∧
        (16 ≤ q.length → rx t l = q ∧ t.getF .xcvrLstatRXOVF l = 1) ∧
        (∀ m, m ≠ l.val → rx t m = rx s m) ∧ SameBut [fk .xcvrLstatRXOVF l] s t ∧ { t with regs := s.regs, laneRx := s.laneRx } = s) ∧
    (∀ within : Bool,
      (SMap.get (fun _ => 0) s.bond (l.val / 4) = 1 → Gives (.bondAligned l within) s fun t =>
        SMap.get (fun _ => 0) t.bond (l.val / 4) = (if within then 2 else 3) ∧
        (∀ j : Fin 4, t.getF .xcvrLstatBONDERR (l / 4 * 4 + j) =
          if within = false ∧ s.isSet .xcvrLcfgBOND (l / 4 * 4 + j) = true then 1 else s.getF .xcvrLstatBONDERR (l / 4 * 4 + j)) ∧
        SameBut ((List.range 4).map fun j => fk .xcvrLstatBONDERR (l / 4 * 4 + j)) s t ∧ { t with regs := s.regs, bond := s.bond } = s) ∧
      (SMap.get (fun _ => 0) s.bond (l.val / 4) ≠ 1 → Gives (.bondAligned l within) s fun t => t = s))

/-- R444, R445: a checker in test mode locks on its pattern, and a lost lock adds up its errors and bits; CLR clears both. An injection inverts one bit, or a burst
of BURST + 1, at once on a lane that sends, and waits on one that does not. -/
def Sys2Proof.LanesAreTested : Prop :=
  ∀ (l : Lane) (s : State),
    (laneExists l = true → s.laneMode l = 2 → 1 ≤ s.getF .xcvrPchkPAT l → s.getF .xcvrPchkPAT l ≤ 5 →
      Gives (.checkerLock l) s fun t => t.getF .xcvrPchkLOCK l = 1 ∧ RegsOnly [fk .xcvrPchkLOCK l] s t) ∧
    (∀ errs nbits : Nat, let n := SMap.get (fun _ => 0) s.chkBits l.val + nbits
      (s.isSet .xcvrPchkLOCK l = true → Gives (.checkerLost l errs nbits) s fun t =>
        t.getF .xcvrPchkLOCK l = 0 ∧ t.getF .xcvrPchkLOSTSEEN l = 1 ∧
        t.getF .xcvrPerrcntERR l = min (s.getF .xcvrPerrcntERR l + errs) (2 ^ 40 - 1) ∧
        t.getF .xcvrPbitcntKBITS l = min (n / 1024) (2 ^ 48 - 1) ∧ SMap.get (fun _ => 0) t.chkBits l.val = n ∧
        SameBut [fk .xcvrPchkLOCK l, fk .xcvrPchkLOSTSEEN l, fk .xcvrPerrcntERR l, fk .xcvrPbitcntKBITS l] s t ∧
        { t with regs := s.regs, chkBits := s.chkBits } = s) ∧
      (s.isSet .xcvrPchkLOCK l = false → Gives (.checkerLost l errs nbits) s fun t => t = s)) ∧
    (∀ w : W32, laneLive s l → Gives (.checkerClear l w) s fun t =>
      t.getF .xcvrPchkPAT l = w.toNat % 8 ∧
      (w.toNat % 8 ≠ s.getF .xcvrPchkPAT l → t.getF .xcvrPchkLOCK l = 0) ∧
      (w.toNat.testBit 5 = true →
        t.getF .xcvrPerrcntERR l = 0 ∧ t.getF .xcvrPbitcntKBITS l = 0 ∧ SMap.get (fun _ => 0) t.chkBits l.val = 0) ∧
      (w.toNat.testBit 5 = false → t.getF .xcvrPerrcntERR l = s.getF .xcvrPerrcntERR l ∧
        t.getF .xcvrPbitcntKBITS l = s.getF .xcvrPbitcntKBITS l ∧ t.chkBits = s.chkBits) ∧
      SameBut [fk .xcvrPchkPAT l, fk .xcvrPchkLOCK l, fk .xcvrPchkLOSTSEEN l, fk .xcvrPerrcntERR l, fk .xcvrPbitcntKBITS l] s t ∧
      { t with regs := s.regs, chkBits := s.chkBits } = s) ∧
    (∀ w : W32, laneLive s l → w.toNat.testBit 12 = true → (w.toNat % 4 = 1 ∨ w.toNat % 4 = 2) → Gives (.injectGo l w) s fun t =>
      t.getF .xcvrInjKIND l = w.toNat % 4 ∧ t.getF .xcvrInjBURST l = w.toNat / 4 % 64 ∧ t.getF .xcvrInjEXP l = w.toNat / 256 % 16 ∧
      (s.getF .xcvrLstatPSTATE l = 0 → t.getF .xcvrInjBUSY l = 0 ∧
        t.out = s.out ++ [.inverted l (if w.toNat % 4 = 2 then w.toNat / 4 % 64 + 1 else 1)]) ∧
      (s.getF .xcvrLstatPSTATE l ≠ 0 → t.getF .xcvrInjBUSY l = 1 ∧ t.out = s.out) ∧
      SameBut [fk .xcvrInjKIND l, fk .xcvrInjBURST l, fk .xcvrInjEXP l, fk .xcvrInjBUSY l] s t ∧
      { t with regs := s.regs, out := s.out } = s)

/-- R431–R445: transceiver lanes come up and go down, follow their quad PLL and their power states, carry beats and are tested. -/
def Obligations.LanesFollowTheirStates : Prop :=
  ReceiversComeUpAndGoDown ∧ QuadPllsFollowTheirSettings ∧ LanesChangePowerState ∧ LanePortsCarryBeats ∧ LanesAreTested

/-- The other wort links stay as they are. -/
def Sys2Proof.otherWorts (k : Fin 120) (s t : State) : Prop := ∀ j : Fin 120, j ≠ k → t.wortSt j = s.wortSt j

/-- R447, R455, R456: a link is enabled unless its position is interior or its lanes differ in D: its lanes enter MODE 3 and it trains; disabled, they return to
MODE 0 and it is down. A link that stays down is isolated at its router. -/
def Sys2Proof.WortLinksAreEnabled : Prop :=
  ∀ (k : Fin 120) (s : State),
    let stays : Prop := s.isSet .wortLinkEN k = true ∧ s.getF .wortLinkSTATE k < 2 ∧ s.wortIso.testBit k = false
    let refused : Prop := Machine.interior (k / 2) = true ∨ ∃ j : Fin 4, s.laneD (4 * k + j) ≠ s.laneD (4 * k)
    let farLanes (t : State) : Prop := ∀ m : Lane, m.val / 4 ≠ k.val →
      t.getF .xcvrLcfgMODE m = s.getF .xcvrLcfgMODE m ∧ t.getF .xcvrLstatPSTATE m = s.getF .xcvrLstatPSTATE m
    let frame (t : State) : Prop := sameRegs [.wortLink, .xcvrLcfg, .xcvrLstat, .xcvrInj, .xcvrQpll, .pwrDstat, .evrPay, .evrRoute] s t ∧
      farLanes t ∧ (∀ j : Fin 120, j ≠ k → t.getF .wortLinkEN j = s.getF .wortLinkEN j ∧ t.getF .wortLinkSTATE j = s.getF .wortLinkSTATE j)
    (s.perst = false → s.unitOn .xcvr = true → s.isSet .wortLinkEN k = false →
      (refused → Gives (.wortLinkEnable k) s fun t =>
        t.getF .wortLinkEN k = 0 ∧ t.getF .wortLinkERR k = 1 ∧ RegsOnly [fk .wortLinkEN k, fk .wortLinkERR k, fk .wortLinkSEEN k] s t) ∧
      (¬ refused → Gives (.wortLinkEnable k) s fun t =>
        t.getF .wortLinkEN k = 1 ∧ t.getF .wortLinkSTATE k = 1 ∧
        (∀ j : Fin 4, t.getF .xcvrLcfgMODE (4 * k + j) = 3 ∧ t.getF .xcvrLcfgRAW (4 * k + j) = 0 ∧
          (s.getF .kilnStatSTATE = 7 → s.getF .pwrDstatSTATE (quadDom (4 * k)) ≠ 3 → t.getF .xcvrLstatPSTATE (4 * k + j) = 0)) ∧
        frame t ∧ { t with regs := s.regs, out := s.out, laneExit := s.laneExit, laneTx := s.laneTx, laneRx := s.laneRx } = s)) ∧
    (s.perst = false → s.unitOn .xcvr = true → s.isSet .wortLinkEN k = true → Machine.interior (k / 2) = false →
      Gives (.wortLinkDisable k) s fun t =>
        t.getF .wortLinkEN k = 0 ∧ t.getF .wortLinkSTATE k = 0 ∧ t.getF .wortLinkLANES k = 0 ∧ t.wortSt k = WortSt.idle ∧
        (∀ j : Fin 4, t.getF .xcvrLcfgMODE (4 * k + j) = 0 ∧ t.getF .xcvrLstatPSTATE (4 * k + j) = 3) ∧
        frame t ∧ otherWorts k s t ∧
        { t with regs := s.regs, out := s.out, laneExit := s.laneExit, laneTx := s.laneTx, laneRx := s.laneRx, wort := s.wort } = s) ∧
    ((stays → Gives (.wortLinkDownTimeout k) s fun t =>
        (∀ j, t.wortIso.testBit j = (s.wortIso.testBit j || decide (j = k.val))) ∧ t.getF .grnNocisoSEEN (s.phys (k / 2)) = 1 ∧
        Raised (16 * (k / 2) + 2) 0 s t ∧ SameBut (fk .grnNocisoSEEN (s.phys (k / 2)) :: evKeys (16 * (k / 2) + 2)) s t ∧
        { t with regs := s.regs, out := s.out, wortIso := s.wortIso } = s) ∧
      (¬ stays → Gives (.wortLinkDownTimeout k) s fun t => t = s))

/-- R448–R450: a link cell names the lane sets that the next frame brings, and STATE follows from the outgoing set. A cell with a bad CRC is answered with a NAK
and not accepted; a good one acknowledges cells, returns credits, and replays the cells behind a NAK; its flit is accepted if it is the next in SEQ. -/
def Sys2Proof.WortCellsAndFrames : Prop :=
  ∀ (k : Fin 120) (s : State), let v := s.wortSt k
    (∀ (lane : Fin 4) (n : BitVec 32) (skip : Bool), s.isSet .wortLinkEN k = true → s.getF .xcvrLstatRXST (4 * k + lane) = 3 →
      Gives (.wortFrame k lane n skip) s fun t => let w := t.wortSt k
        w.frame = n.toNat ∧ w.inSet = v.inNext.getD v.inSet ∧ w.inNext = none ∧ w.outNext = none ∧ w.rxSeq = v.rxSeq ∧
        (v.outNext = none → t.regs = s.regs ∧ t.out = s.out) ∧
        (∀ set, v.outNext = some set →
          let st := if set % 16 = 0 then 0 else if set % 16 = 15 then 2 else 3
          t.getF .wortLinkLANES k = set % 16 ∧ t.getF .wortLinkSTATE k = st ∧
          (s.getF .wortLinkSTATE k ≠ st → t.getF .wortLinkSEEN k = 1 ∧ OutMsg.fwEvent 1016 0 ∈ t.out)) ∧
        SameBut ([fk .wortLinkLANES k, fk .wortLinkSTATE k, fk .wortLinkSEEN k] ++ evKeys 1016) s t ∧ otherWorts k s t ∧
        { t with regs := s.regs, out := s.out, wort := s.wort } = s) ∧
    (∀ farUp nextSet : BitVec 4,
      (s.isSet .wortLinkEN k = true → Gives (.linkCell k farUp nextSet) s fun t =>
        t.wortSt k = { v with outNext := some farUp.toNat, inNext := some nextSet.toNat } ∧ otherWorts k s t ∧ { t with wort := s.wort } = s) ∧
      (s.isSet .wortLinkEN k = false → Gives (.linkCell k farUp nextSet) s fun t => t = s)) ∧
    (∀ c : WCell,
      (s.getF .wortLinkSTATE k < 2 → Gives (.cell k c) s fun t => t = s) ∧
      (2 ≤ s.getF .wortLinkSTATE k → c.crcOk = false → Gives (.cell k c) s fun t =>
        t.wortSt k = { v with failed := true, lost := v.lost + 1 } ∧ otherWorts k s t ∧
        (∃ r : WCell, r.nak = true ∧ r.ackseq = BitVec.ofNat 8 (v.rxSeq + 255) ∧ t.out = s.out ++ [.wortCell k r]) ∧
        { t with out := s.out, wort := s.wort } = s) ∧
      (2 ≤ s.getF .wortLinkSTATE k → c.crcOk = true → Gives (.cell k c) s fun t => let w := t.wortSt k
        let flits : Prop := 1 ≤ c.type.toNat ∧ c.type.toNat ≤ 4
        let next : Prop := flits ∧ c.seq.toNat = v.rxSeq
        let part := (if c.type.toNat = 1 ∨ c.type.toNat = 4 then [] else SMap.get (fun _ => []) v.rxPart c.vn.toNat) ++ [c.flit.toNat]
        let pkt := packetOf (part.headD 0) part.tail
        let left := if v.failed then v.lost else v.replay
        (v.txQ = [] → (next → c.type.toNat ≤ 2) → w.txBuf = ackCells c.ackseq.toNat v.txBuf ∧
          (c.crv = true → SMap.get (fun _ => 0) w.spent c.crvn.toNat =
            SMap.get (fun _ => 0) v.spent c.crvn.toNat - c.crcnt.toNat)) ∧
        (c.nak = true → ∀ e ∈ ackCells c.ackseq.toNat v.txBuf, ∃ r : WCell, r.nak = false ∧ r.seq = BitVec.ofNat 8 e.1 ∧
          r.flit = BitVec.ofNat 512 e.2.flit ∧ OutMsg.wortCell k r ∈ t.out) ∧
        (next → w.rxSeq = (v.rxSeq + 1) % 256 ∧ w.failed = false ∧ w.lost = 0 ∧ w.replay = left - 1 ∧
          t.getF .wortLinkREPLAYS k = (if 0 < left then min (s.getF .wortLinkREPLAYS k + 1) 0xFFFF else s.getF .wortLinkREPLAYS k) ∧
          (c.type.toNat ≤ 2 → SMap.get (fun _ => []) w.rxPart c.vn.toNat = part ∧ t.net = s.net) ∧
          (3 ≤ c.type.toNat → SMap.get (fun _ => []) w.rxPart c.vn.toNat = [] ∧
            (pkt.opc ≠ .grant → pkt.opc ≠ .resv →
              t.net = s.net ++ [{ pkt with age := BitVec.ofNat 16 (s.ageNow + 2 ^ 16 - pkt.age.toNat) }]))) ∧
        (¬ next → w.rxSeq = v.rxSeq ∧ w.rxPart = v.rxPart ∧ t.net = s.net ∧ t.regs = s.regs ∧
          w.lost = (if flits ∧ v.failed = true then v.lost + 1 else v.lost)) ∧
        SameBut [fk .wortLinkREPLAYS k] s t ∧ otherWorts k s t ∧
        { t with regs := s.regs, out := s.out, wort := s.wort, net := s.net } = s))

/-- R451, R452, R454: with no number held, the root is the candidate with the lowest serial and takes 0, and the others take distinct numbers in the order of
their distance. A device that has one shows it, the size of the fabric, its mode and its routes, with event 1015; one that has none shows EXCESS and disables
its links. -/
def Sys2Proof.DiscoveryNumbersTheDevices : Prop :=
  (∀ ds : List WDevice, ds ≠ [] → (∀ d ∈ ds, d.held = none) →
    (rootPlace ds, 0) ∈ numbers ds ∧ ((numbers ds).map (fun e => e.2)).Nodup ∧ (∀ e ∈ numbers ds, e.2 < 256) ∧
    (ds.length ≤ 256 → (numbers ds).length = ds.length) ∧
    (∃ root ∈ ds, ds[rootPlace ds]? = some root ∧ ((∃ d ∈ ds, d.isRoot = true) → root.isRoot = true) ∧
      ∀ d ∈ ds, (d.isRoot = true ∨ root.isRoot = false) → root.serial.toNat ≤ d.serial.toNat) ∧
    (∀ i j di dj a b, ds[i]? = some di → ds[j]? = some dj → i ≠ rootPlace ds → j ≠ rootPlace ds → di.hops < dj.hops →
      (i, a) ∈ numbers ds → (j, b) ∈ numbers ds → a < b)) ∧
  (∀ (ds : List WDevice) (self : Nat) (routes : List (Option (BitVec 6 × Bool))) (peers : List (Option WPeer)) (s : State),
    s.perst = false → self < ds.length → s.isSet .wortStatDONE = false → (∀ d ∈ ds, d.held = none) →
    (∀ n, (numbers ds).find? (fun e => e.1 == self) = some (self, n) → Gives (.wortDiscovery ds self routes peers) s fun t =>
      let count := (numbers ds).length
      t.getF .wortStatDEVNUM = n % 256 ∧ t.getF .wortStatDONE = 1 ∧ t.getF .wortStatISROOT = (if self = rootPlace ds then 1 else 0) ∧
      t.getF .wortStatRBMODE = (if 2 ≤ count ∧ count ≤ 4 then 1 else 0) ∧ t.getF .wortStatNDEVM1 = (count - 1) % 256 ∧
      t.getF .wortStatSEEN = 1 ∧ OutMsg.fwEvent 1015 0 ∈ t.out ∧
      (∀ d : Fin 256, match routes.getD d none with
        | some e => t.getF .wortRtPOS d = e.1.toNat ∧ t.getF .wortRtHALF d = e.2.toNat ∧ t.getF .wortRtVALID d = 1
        | none => t.getF .wortRtVALID d = 0) ∧
      (∀ k : Fin 120, t.getF .wortLinkEN k = s.getF .wortLinkEN k ∧ t.getF .wortLinkSTATE k = s.getF .wortLinkSTATE k) ∧
      sameRegs [.wortStat, .wortRt, .wortLink, .evrPay, .evrRoute] s t ∧ { t with regs := s.regs, out := s.out } = s) ∧
    ((numbers ds).find? (fun e => e.1 == self) = none → Gives (.wortDiscovery ds self routes peers) s fun t =>
      t.getF .wortStatEXCESS = 1 ∧ ∀ k : Fin 120, t.isSet .wortLinkEN k = false))

/-- R447–R456: wort links are enabled, carry cells in frames, and the devices on them are discovered. -/
def Obligations.WortLinksJoinDevices : Prop := WortLinksAreEnabled ∧ WortCellsAndFrames ∧ DiscoveryNumbersTheDevices

/-! ## Casks, taps and events (R457–R472) -/

/-- R458: a vector goes to the host, or sets its pending bit where the MSI-X table masks it, or is held while the link or MSI-X is down. -/
def Sys2Proof.vectorGoes (v : Nat) (s t : State) : Prop :=
  (s.msixReady = true → s.msixMasked v = false → OutMsg.msix v ∈ t.out) ∧
  (s.msixReady = true → s.msixMasked v = true → SMap.get (fun _ => false) t.msixPba v = true) ∧
  (s.msixReady = false → v ∈ t.msixHeld)

/-- R457, R458: doorbell bit b of agent a is rung: it is set, and a host group whose bit rises unmasked sends its vector. A code that names no agent rings
nothing. -/
def Sys2Proof.rung (a b : Nat) (s t : State) : Prop :=
  let known : Prop := a ≤ 19 ∨ (32 ≤ a ∧ a ≤ 91)
  (known → t.bitF .tapPendPEND b a = true ∧
    (∀ c, c ≠ b → t.bitF .tapPendPEND c a = (s.bitF .tapPendPEND c a && decide (c < 32))) ∧
    (a ≤ 15 → s.bitF .tapPendPEND b a = false → s.bitF .tapMaskMASK b a = false → vectorGoes (s.getF .tapCfgVEC a) s t)) ∧
  (¬ known → t.getF .tapPendPEND a = s.getF .tapPendPEND a) ∧ SameBut [fk .tapPendPEND a] s t ∧
  { t with regs := s.regs, out := s.out, msixHeld := s.msixHeld, msixPba := s.msixPba } = s

/-- R462: a message has arrived for end B (true) or A (false) of cask c: with TEN it rings the local tap its end names, or sends the EVT packet that rings one of
another device. -/
def Sys2Proof.endTold (c : Cask) (b : Bool) (s t : State) : Prop :=
  let f (x y : Fld) : Nat := s.getF (if b then y else x) c
  let agent := f .caskEndaTAGENT .caskEndbTAGENT
  let bit := f .caskEndaTBIT .caskEndbTBIT
  (f .caskEndaTEN .caskEndbTEN = 0 → t = s) ∧
  (f .caskEndaTEN .caskEndbTEN = 1 → f .caskEndaTREM .caskEndbTREM = 0 → bit < 32 → rung agent bit s t) ∧
  (f .caskEndaTEN .caskEndbTEN = 1 → f .caskEndaTREM .caskEndbTREM = 1 → s.isSet .nocRtctlDRAINING = false →
    ∃ p : Packet, t = { s with net := s.net ++ [p] } ∧ p.dnode = 68 ∧ p.snode = 67 ∧ p.vn = .evt ∧ p.opc = .evt ∧
      p.ddev = BitVec.ofNat 8 (f .caskEndaTDEV .caskEndbTDEV) ∧ p.data = evtBytes 2 0 agent bit 0)

/-- An access of cask c is performed. -/
def Sys2Proof.caskLive (s : State) : Prop := s.perst = false ∧ s.unitOn .cask = true

/-- R460, R463, R465: in register-block mode an end's GO is recorded with the end it came from and told to the other, TAKE of the receiving end clears it, and
messages are stored; a GO or a message before the last was taken shows COLLIDE. An access that its end does not match shows ACCERR. -/
def Sys2Proof.RegisterBlocksPassMessages : Prop :=
  ∀ (c : Cask) (e : Bool) (a : Agent) (s : State), caskLive s →
    let acls := s.getF (if e then .caskEndbACLS else .caskEndaACLS) c
    let aid := s.getF (if e then .caskEndbAID else .caskEndaAID) c
    let mine : Prop := acls = 0 ∨ (acls = 1 ∧ a.node = 64) ∨ (acls = 2 ∧ a.node.toNat = 72 + aid) ∨ (acls = 3 ∧ a.node.toNat = aid) ∨
      (acls = 4 ∧ a.dev.toNat = aid ∧ a.dev.toNat ≠ s.devNum)
    let regs := s.getF .caskCfgMODE c = 1
    let nreg := match s.getF .caskCfgNREG c with | 0 => 8 | 1 => 12 | _ => 16
    let refused (t : State) : Prop := t.getF .caskStatACCERR c = 1 ∧ RegsOnly [fk .caskStatACCERR c] s t
    let collided (t : State) : Prop := t.getF .caskStatCOLLIDE c = 1 ∧
      (s.isSet .caskStatCOLLIDE c = false → OutMsg.fwEvent 1017 c ∈ t.out)
    (s.endMatches c e a = true ↔ mine) ∧
    (¬(regs ∧ mine) → Gives (.go c e a) s refused ∧ Gives (.take c e a) s refused) ∧
    (regs → mine → Gives (.go c e a) s fun t => ∃ u : State, endTold c (!e) u t ∧
      u.getF .caskStatGO c = 1 ∧ u.getF .caskStatFROM c = e.toNat ∧
      (s.isSet .caskStatGO c = false → u.getF .caskStatCOLLIDE c = s.getF .caskStatCOLLIDE c ∧ u.out = s.out) ∧
      (s.isSet .caskStatGO c = true → collided u) ∧
      SameBut ([fk .caskStatGO c, fk .caskStatFROM c, fk .caskStatCOLLIDE c] ++ evKeys 1017) s u ∧
      { u with regs := s.regs, out := s.out } = s) ∧
    (regs → mine → Gives (.take c e a) s fun t =>
      t.getF .caskStatGO c = (if s.isSet .caskStatGO c = true ∧ s.getF .caskStatFROM c ≠ e.toNat then 0 else s.getF .caskStatGO c) ∧
      RegsOnly [fk .caskStatGO c] s t) ∧
    (∀ (i : Fin 16) (w : W32),
      (regs → mine → i.val < nreg → Gives (.messageWrite c i w a) s fun t =>
        t.getF .caskMsgDATA c i = w.toNat ∧ (s.isSet .caskStatGO c = true → collided t) ∧
        (s.isSet .caskStatGO c = false → t.out = s.out ∧ t.getF .caskStatCOLLIDE c = s.getF .caskStatCOLLIDE c) ∧
        RegsAndOut ([fk .caskMsgDATA c i, fk .caskStatCOLLIDE c] ++ evKeys 1017) s t) ∧
      (¬ regs ∨ nreg ≤ i.val → Gives (.messageWrite c i w a) s refused))

/-- R460, R464, R465: in queue mode an end pushes a word towards the other, which is told; a push onto 16 words drops the oldest, counted and shown as COLLIDE. A
pop hands the oldest word to its reader, or 0 with EMPTYRD. -/
def Sys2Proof.QueuesPassWords : Prop :=
  ∀ (c : Cask) (e : Bool) (a : Agent) (s : State), caskLive s →
    let queue (t : State) (d : Cask) (toB : Bool) : List Nat := SMap.get (fun _ => []) t.caskQ (2 * d + if toB then 0 else 1)
    let others (toB : Bool) (t : State) : Prop := ∀ d x, (d ≠ c ∨ x ≠ toB) → queue t d x = queue s d x
    let count (toB : Bool) : Fld := if toB then .caskStatQAB else .caskStatQBA
    let open0 : Prop := s.getF .caskCfgMODE c = 2 ∧ s.endMatches c e a = true
    (∀ w : W32,
      (¬ open0 → Gives (.push c e w a) s fun t => t.getF .caskStatACCERR c = 1 ∧ RegsOnly [fk .caskStatACCERR c] s t) ∧
      (open0 → Gives (.push c e w a) s fun t => ∃ u : State, endTold c (!e) u t ∧
        let q := queue s c (!e)
        (q.length < 16 → queue u c (!e) = q ++ [w.toNat] ∧ u.getF (count (!e)) c = q.length + 1 ∧ u.out = s.out ∧
          u.getF .caskStatDROPS c = s.getF .caskStatDROPS c ∧ u.getF .caskStatCOLLIDE c = s.getF .caskStatCOLLIDE c) ∧
        (16 ≤ q.length → queue u c (!e) = q.drop 1 ++ [w.toNat] ∧ u.getF .caskStatDROPS c = min (s.getF .caskStatDROPS c + 1) 0xFF ∧
          u.getF .caskStatCOLLIDE c = 1 ∧ (s.isSet .caskStatCOLLIDE c = false → OutMsg.fwEvent 1017 c ∈ u.out)) ∧
        others (!e) u ∧ SameBut ([fk (count (!e)) c, fk .caskStatDROPS c, fk .caskStatCOLLIDE c] ++ evKeys 1017) s u ∧
        { u with regs := s.regs, out := s.out, caskQ := s.caskQ } = s)) ∧
    (∀ tag : BitVec 12,
      (¬ open0 → Gives (.pop c e a tag) s fun t =>
        t.getF .caskStatACCERR c = 1 ∧ t.out = s.out ++ [.answer a tag.toNat 5 0] ∧ RegsAndOut [fk .caskStatACCERR c] s t) ∧
      (open0 → queue s c e = [] → Gives (.pop c e a tag) s fun t =>
        t.getF .caskStatEMPTYRD c = 1 ∧ t.out = s.out ++ [.answer a tag.toNat 0 0] ∧ RegsAndOut [fk .caskStatEMPTYRD c] s t) ∧
      (∀ w q, open0 → queue s c e = w :: q → Gives (.pop c e a tag) s fun t =>
        queue t c e = q ∧ t.getF (count e) c = q.length % 32 ∧ t.out = s.out ++ [.answer a tag.toNat 0 w] ∧ others e t ∧
        SameBut [fk (count e) c] s t ∧ { t with regs := s.regs, out := s.out, caskQ := s.caskQ } = s))

/-- R459, R465: the host and Ndoec firmware configure casks: a write of CASK_CFG empties both queues and clears GO, FROM and the flags. Others show ACCERR. -/
def Sys2Proof.CasksAreConfigured : Prop :=
  ∀ (c : Cask) (w : W32) (a : Agent) (s : State), caskLive s →
    let may : Prop := a.node = 64 ∨ (72 ≤ a.node.toNat ∧ a.node.toNat ≤ 75)
    let refused (t : State) : Prop := t.getF .caskStatACCERR c = 1 ∧ RegsOnly [fk .caskStatACCERR c] s t
    let n := w.toNat
    (¬ may → Gives (.caskCfgWrite c w a) s refused ∧ ∀ e, Gives (.caskEndWrite c e w a) s refused) ∧
    (may → Gives (.caskCfgWrite c w a) s fun t =>
      t.getF .caskCfgMODE c = n % 4 ∧ t.getF .caskCfgNREG c = n / 4 % 4 ∧
      (∀ k, k = 2 * c.val ∨ k = 2 * c.val + 1 → SMap.get (fun _ => []) t.caskQ k = []) ∧
      (∀ k, k ≠ 2 * c.val → k ≠ 2 * c.val + 1 → SMap.get (fun _ => []) t.caskQ k = SMap.get (fun _ => []) s.caskQ k) ∧
      (∀ f ∈ [Fld.caskStatGO, .caskStatFROM, .caskStatCOLLIDE, .caskStatACCERR, .caskStatEMPTYRD, .caskStatQAB, .caskStatQBA,
        .caskStatDROPS], t.getF f c = 0) ∧
      (∀ d : Cask, d ≠ c → ∀ f ∈ [Fld.caskCfgMODE, .caskCfgNREG, .caskStatGO, .caskStatQAB, .caskStatQBA], t.getF f d = s.getF f d) ∧
      sameRegs [.caskCfg, .caskStat] s t ∧ { t with regs := s.regs, caskQ := s.caskQ } = s) ∧
    (may → Gives (.caskEndWrite c false w a) s fun t =>
      t.getF .caskEndaACLS c = n % 8 ∧ t.getF .caskEndaAID c = n / 2 ^ 3 % 256 ∧ t.getF .caskEndaTAGENT c = n / 2 ^ 11 % 128 ∧
      t.getF .caskEndaTBIT c = n / 2 ^ 18 % 32 ∧ t.getF .caskEndaTEN c = n / 2 ^ 23 % 2 ∧ t.getF .caskEndaTREM c = n / 2 ^ 24 % 2 ∧
      t.getF .caskEndaTDEV c = n / 2 ^ 25 ∧
      RegsOnly [fk .caskEndaACLS c, fk .caskEndaAID c, fk .caskEndaTAGENT c, fk .caskEndaTBIT c, fk .caskEndaTEN c, fk .caskEndaTREM c,
        fk .caskEndaTDEV c] s t) ∧
    (may → Gives (.caskEndWrite c true w a) s fun t =>
      t.getF .caskEndbACLS c = n % 8 ∧ t.getF .caskEndbAID c = n / 2 ^ 3 % 256 ∧ t.getF .caskEndbTAGENT c = n / 2 ^ 11 % 128 ∧
      t.getF .caskEndbTBIT c = n / 2 ^ 18 % 32 ∧ t.getF .caskEndbTEN c = n / 2 ^ 23 % 2 ∧ t.getF .caskEndbTREM c = n / 2 ^ 24 % 2 ∧
      t.getF .caskEndbTDEV c = n / 2 ^ 25 ∧
      RegsOnly [fk .caskEndbACLS c, fk .caskEndbAID c, fk .caskEndbTAGENT c, fk .caskEndbTBIT c, fk .caskEndbTEN c, fk .caskEndbTREM c,
        fk .caskEndbTDEV c] s t)

/-- R459–R465: casks pass messages between their two ends. -/
def Obligations.CasksPassMessages : Prop := RegisterBlocksPassMessages ∧ QueuesPassWords ∧ CasksAreConfigured

/-- R457, R458, R472: TAP_PEND clears the bits written 1, by register or by the design's own port; unmasking a pending bit of a host group sends its vector; a held
vector goes out once the link and MSI-X are up. -/
def Sys2Proof.TapsRingAndClear : Prop :=
  ∀ s : State,
    (∀ (a : Fin 92) (w : W32), let known : Prop := a.val ≤ 19 ∨ 32 ≤ a.val
      let cleared (t : State) : Prop :=
        (∀ b, b < 32 → t.bitF .tapPendPEND b a = (s.bitF .tapPendPEND b a && !w.toNat.testBit b)) ∧ RegsOnly [fk .tapPendPEND a] s t
      (known → s.perst = false → s.unitOn .evr = true → Gives (.tapClear a w false) s cleared) ∧
      (32 ≤ a.val → s.portStopped (a - 32) = false → Gives (.tapClear a w true) s cleared) ∧
      ((a.val < 32 ∨ s.portStopped (a - 32) = true) → Gives (.tapClear a w true) s fun t => t = s) ∧
      (known → s.perst = false → s.unitOn .evr = true → Gives (.tapMaskWrite a w) s fun t =>
        t.getF .tapMaskMASK a = w.toNat ∧
        (∀ b, a.val ≤ 15 → b < 32 → s.bitF .tapPendPEND b a = true → s.bitF .tapMaskMASK b a = true → w.toNat.testBit b = false →
          vectorGoes (s.getF .tapCfgVEC a) s t) ∧
        (16 ≤ a.val → t.out = s.out) ∧
        SameBut [fk .tapMaskMASK a] s t ∧
        { t with regs := s.regs, out := s.out, msixHeld := s.msixHeld, msixPba := s.msixPba } = s)) ∧
    (∀ v : BitVec 11,
      (s.msixReady = true → v.toNat ∈ s.msixHeld → Gives (.msixSend v) s fun t =>
        t.msixHeld = s.msixHeld.erase v.toNat ∧
        (s.msixMasked v.toNat = false → t.out = s.out ++ [.msix v.toNat] ∧ t.msixPba = s.msixPba) ∧
        (s.msixMasked v.toNat = true → t.out = s.out ∧ ∀ x, SMap.get (fun _ => false) t.msixPba x =
          (SMap.get (fun _ => false) s.msixPba x || decide (x = v.toNat))) ∧
        { t with out := s.out, msixHeld := s.msixHeld, msixPba := s.msixPba } = s) ∧
      ((s.msixReady = false ∨ v.toNat ∉ s.msixHeld) → Gives (.msixSend v) s fun t => t = s))

/-- R465–R468, R471, R472: a raise records its payload and counts, and pends for its routes. The router delivers a pending event by MSI once that can be sent, to
the event port of the core it names, whose sixteen entries drop what comes beyond them, and to a tap; a route that cannot be served keeps it pending. -/
def Sys2Proof.EventsAreRaisedAndDelivered : Prop :=
  ∀ (e : EvSrc) (s : State),
    (∀ pay : W64,
      (s.perst = false → evSource e = true → Gives (.eventRaise e pay) s fun t =>
        Raised e pay.toNat s t ∧ RegsAndOut (evKeys e) s t) ∧
      ((s.perst = true ∨ evSource e = false) → Gives (.eventRaise e pay) s fun t => t = s)) ∧
    ((s.isSet .evrRoutePEND e = false ∨ s.unitOn .evr = false) → Gives (.eventDelivery e) s fun t => t = s) ∧
    (s.isSet .evrRoutePEND e = true → s.unitOn .evr = true →
      let msi := s.isSet .evrRouteMSIEN e
      let des := s.isSet .evrRouteDESEN e
      let tap := s.isSet .evrRouteTAPEN e
      let sent := SMap.get (fun _ => 0) s.evDone e.val
      let ends (t : State) : Prop := t.getF .evrRoutePEND e = 0 ∧ SMap.get (fun _ => 0) t.evDone e.val = 0
      (msi = true → des = false → tap = false → sent.testBit 0 = false →
        (s.msixReady = true → Gives (.eventDelivery e) s fun t =>
          vectorGoes (s.getF .evrRouteVEC e) s t ∧ ends t ∧ SameBut [fk .evrRoutePEND e] s t ∧
          { t with regs := s.regs, out := s.out, msixPba := s.msixPba, evDone := s.evDone } = s) ∧
        (s.msixReady = false → Gives (.eventDelivery e) s fun t => t = s)) ∧
      (msi = false → des = false → tap = true → sent.testBit 1 = false → s.getF .evrRouteTBIT e < 32 → Gives (.eventDelivery e) s fun t =>
        ∃ u : State, rung (s.getF .evrRouteTAGENT e) (s.getF .evrRouteTBIT e) { s with evDone := u.evDone } u ∧ ends t ∧
          SameBut [fk .evrRoutePEND e] u t ∧ { t with regs := u.regs, evDone := u.evDone } = u) ∧
      (∀ n : Pos, msi = false → des = true → tap = false → s.getF .evrRouteDPOS e = n.val → sent.testBit (2 + n) = false →
        s.portStopped n = false → s.coreRuns n = true → Gives (.eventDelivery e) s fun t =>
          let q := SMap.get (fun _ => []) s.evFifo n.val
          (q.length < 16 → SMap.get (fun _ => []) t.evFifo n.val = q ++ [e.val] ∧ t.out = s.out) ∧
          (16 ≤ q.length → t.evFifo = s.evFifo ∧ t.getF .grnEvstatSEEN (s.phys n) ≠ 0 ∧
            t.getF .grnEvstatDROPS (s.phys n) = min (s.getF .grnEvstatDROPS (s.phys n) + 1) 0xFFFF ∧
            (s.isSet .grnEvstatSEEN (s.phys n) = false → OutMsg.fwEvent 1018 n ∈ t.out)) ∧
          ends t ∧
          (∀ m : Pos, m ≠ n → SMap.get (fun _ => []) t.evFifo m.val = SMap.get (fun _ => []) s.evFifo m.val) ∧
          SameBut ([fk .evrRoutePEND e, fk .grnEvstatSEEN (s.phys n), fk .grnEvstatDROPS (s.phys n)] ++ evKeys 1018) s t ∧
          { t with regs := s.regs, out := s.out, evFifo := s.evFifo, evDone := s.evDone } = s) ∧
      (∀ n : Pos, msi = false → des = true → tap = false → s.getF .evrRouteDPOS e = n.val → sent.testBit (2 + n) = false →
        s.portStopped n = false → s.coreRuns n = false → Gives (.eventDelivery e) s fun t => t = s)) ∧
    (∀ n : Pos,
      (s.portStopped n = false → Gives (.evtake n) s fun t =>
        SMap.get (fun _ => []) t.evFifo n.val = (SMap.get (fun _ => []) s.evFifo n.val).drop 1 ∧
        (∀ m, m ≠ n.val → SMap.get (fun _ => []) t.evFifo m = SMap.get (fun _ => []) s.evFifo m) ∧ { t with evFifo := s.evFifo } = s) ∧
      (s.portStopped n = true → Gives (.evtake n) s fun t => t = s))

/-- R457, R458, R466–R472: taps ring, and events reach the host, the designs and the taps. -/
def Obligations.EventsReachTheirRoutes : Prop := TapsRingAndClear ∧ EventsAreRaisedAndDelivered

/-! ## Power management (R473–R486, R526) -/

/-- A transition of domain d to state g has begun (R475, R481): it shows BUSY, its clamps engage for Retain and Off, and a core that goes to Retain keeps its
flip-flops in their shadows. -/
def Sys2Proof.begun (d : Domain) (g : Nat) (s t : State) : Prop :=
  let keeps : Prop := d.val < 60 ∧ g = 2 ∧ s.getF .pwrDstatSTATE d < 2
  t.going d = some g ∧ t.getF .pwrDstatBUSY d = 1 ∧ t.getF .pwrDstatISO d = (if 2 ≤ g then 1 else s.getF .pwrDstatISO d) ∧
  (keeps → t.getF .grnShdsrcSRC (s.phys d) = 2 ∧
    (SMap.wf (fun _ => 0) s.q = true → ∀ col < 192, ∀ row < 128,
      SMap.get (fun _ => 0) t.shadow (tileKey d col row) = s.tileQ (tileKey d col row)) ∧
    ∀ k, k / 24576 ≠ d.val → SMap.get (fun _ => 0) t.shadow k = SMap.get (fun _ => 0) s.shadow k) ∧
  (¬ keeps → t.shadow = s.shadow ∧ t.getF .grnShdsrcSRC (s.phys d) = s.getF .grnShdsrcSRC (s.phys d)) ∧
  (∀ e : Domain, e ≠ d → t.going e = s.going e) ∧
  SameBut [fk .pwrDctlREQ d, fk .pwrDstatBUSY d, fk .pwrDstatISO d, fk .pwrDstatLASTWAKE d, fk .grnShdsrcSRC (s.phys d)] s t ∧
  { t with regs := s.regs, pwrGo := s.pwrGo, shadow := s.shadow } = s

/-- R473, R475, R479, R481, R485: a request is refused with the code of the first rule it breaks and REQ stays; a core that loads or is being read defers it;
otherwise the domain begins its transition, wakes, or has the request follow the transition in progress. -/
def Sys2Proof.RequestsAreCheckedAndBegun : Prop :=
  ∀ (d : Domain) (w : W32) (a : Agent) (s : State),
    let n := a.node.toNat
    let req := w.toNat % 4
    let st := s.getF .pwrDstatSTATE d
    let code := s.pwrCode d req
    let free : Prop := s.perst = false ∧ s.domainExists d = true ∧ a.dev.toNat = s.devNum ∧ (n = 64 ∨ (72 ≤ n ∧ n ≤ 75))
    let r := s.writeReg .pwrDctl d 0 w.toNat full32
    (code = 1 ↔ domainAllows d req = false) ∧
    (domainAllows d req = true → d.val < 60 → 2 ≤ req → (s.remap.phase ≠ .idle ∧ s.remap.pos = d.val) → code = 2) ∧
    (domainAllows d req = true → 128 ≤ d.val → d.val < 248 → req = 3 → s.isSet .wortLinkEN (d - 128) = true → code = 4) ∧
    (s.perst = false → s.domainExists d = true → ¬(a.dev.toNat = s.devNum ∧ (n = 64 ∨ (72 ≤ n ∧ n ≤ 75))) →
      Gives (.powerRequest d w a) s fun t => t = s) ∧
    (free → code ≠ 0 → Gives (.powerRequest d w a) s fun t =>
      t.getF .pwrDstatREFUSED d = 1 ∧ t.getF .pwrDstatERRCODE d = code ∧ t.getF .pwrDctlREQ d = s.getF .pwrDctlREQ d % 4 ∧
      SameBut [fk .pwrDctlREQ d, fk .pwrDstatREFUSED d, fk .pwrDstatERRCODE d] r t ∧ { t with regs := s.regs } = s) ∧
    (free → code = 0 → s.pwrDefers d req = true → st ≠ req → Gives (.powerRequest d w a) s fun t =>
      t.getF .pwrDstatBUSY d = 1 ∧ t.getF .pwrDctlREQ d = req ∧ RegsOnly [fk .pwrDstatBUSY d] r t) ∧
    (free → code = 0 → (s.pwrDefers d req = false ∨ st = req) →
      (s.going d = none → st = req → Gives (.powerRequest d w a) s fun t =>
        t.getF .pwrDstatBUSY d = 0 ∧ RegsOnly [fk .pwrDstatBUSY d] r t) ∧
      (s.going d = none → st ≠ req → Gives (.powerRequest d w a) s fun t =>
        begun d req r t ∧ t.getF .pwrDctlREQ d = req ∧
        t.getF .pwrDstatLASTWAKE d = (if req < st then 1 else s.getF .pwrDstatLASTWAKE d)) ∧
      (∀ g, s.going d = some g → Gives (.powerRequest d w a) s fun t =>
        (g = req → t = r) ∧
        (g ≠ req → SMap.get (fun _ => none) t.pwrNext d.val = some (8 + req) ∧ { t with pwrNext := s.pwrNext } = r)))

/-- R479, R480: a deferred request is applied, or refused, once nothing defers it any more. An idle domain with AUTO goes to Doze, and a core with AUTORET on to
Retain, when their idle times have passed. -/
def Sys2Proof.DeferredAndAutomaticEntries : Prop :=
  ∀ (d : Domain) (s : State),
    let st := s.getF .pwrDstatSTATE d
    let req := s.getF .pwrDctlREQ d
    let waits : Prop := s.isSet .pwrDstatBUSY d = true ∧ s.going d = none ∧ st ≠ req
    (waits → s.pwrDefers d req = false → s.pwrCode d req = 0 → Gives (.deferredRequestApply d) s fun t => begun d req s t) ∧
    (waits → s.pwrDefers d req = false → s.pwrCode d req ≠ 0 → Gives (.deferredRequestApply d) s fun t =>
      t.getF .pwrDstatBUSY d = 0 ∧ t.getF .pwrDctlREQ d = st % 4 ∧ t.getF .pwrDstatREFUSED d = 1 ∧
      t.getF .pwrDstatERRCODE d = s.pwrCode d req % 8 ∧
      RegsOnly [fk .pwrDstatBUSY d, fk .pwrDctlREQ d, fk .pwrDstatREFUSED d, fk .pwrDstatERRCODE d] s t) ∧
    (¬ waits ∨ s.pwrDefers d req = true → Gives (.deferredRequestApply d) s fun t => t = s) ∧
    (s.domainExists d = true → s.isSet .pwrDctlAUTO d = true → req = 0 → st = 0 → s.going d = none → s.getF .kilnStatSTATE = 7 →
      s.pwrIdle d = true → Gives (.autoDoze d) s (begun d 1 s)) ∧
    (s.isSet .pwrDctlAUTO d = false → Gives (.autoDoze d) s (fun t => t = s) ∧ Gives (.autoRetain d) s (fun t => t = s)) ∧
    (d.val < 60 → s.isSet .pwrDctlAUTO d = true → s.isSet .pwrDctlAUTORET d = true → req = 0 → st = 1 → s.going d = none →
      s.pwrCode d 2 = 0 → s.pwrDefers d 2 = false → Gives (.autoRetain d) s (begun d 2 s))

/-- R325, R326, R477, R482, R483: a domain wakes to Run with its cause; from Off a packet or a delivery wakes it only with WAKE_ON_OFF, and not with its PHY Off. A
packet that wakes a core is counted. A core that wakes from Off is rewritten, and its clamps are released, from Retain with its flip-flops restored, at a crossing
cycle that is a multiple of 4,096. -/
def Sys2Proof.DomainsWake : Prop :=
  ∀ (d : Domain) (s : State), let st := s.getF .pwrDstatSTATE d
    (∀ c : WakeCause, let cause := match c with | .request => 1 | .packet => 2 | .delivery => 3
      let p := s.phys d
      s.domainExists d = true → domainAllows d 0 = true → s.going d = none → (c = .delivery → d.val < 60) →
      (st = 0 → Gives (.wake d c) s fun t => t = s) ∧
      (st ≠ 0 → (st = 3 → (c = .request ∨ s.isSet .pwrDctlWAKE_ON_OFF d = true) ∧ (d.val < 128 ∨ 272 ≤ d.val)) → Gives (.wake d c) s fun t =>
        ∃ u : State, begun d 0 s u ∧ u.getF .pwrDctlREQ d = 0 ∧ u.getF .pwrDstatLASTWAKE d = cause ∧
          (¬(c = .packet ∧ d.val < 60) → t = u) ∧
          (c = .packet → d.val < 60 → t.getF .grnNocwakeWAKES p = min (s.getF .grnNocwakeWAKES p + 1) 0xFFFF ∧
            t.getF .grnNocwakeSEEN p = 1 ∧ RegsOnly [fk .grnNocwakeWAKES p, fk .grnNocwakeSEEN p] u t)) ∧
      (st = 3 → c ≠ .request → s.isSet .pwrDctlWAKE_ON_OFF d = false → Gives (.wake d c) s fun t => t = s)) ∧
    (∀ n : Pos, d.val = n.val →
      (st = 3 → s.going d ≠ none → s.getF .kilnStatSTATE = 7 → Gives (.offWakeRewriteDone n) s fun t =>
        SMap.get (fun _ => false) t.pwrRewr n.val = true ∧ t.getF .pwrDstatSTATE d = 3 ∧ t.pwrGo = s.pwrGo ∧ t.base = s.base ∧
        (∀ m fa, m ≠ n.val → fa < 2 ^ 32 → t.frame m fa = s.frame m fa) ∧
        (∀ fa < 2 ^ 32, fa / 2 ^ 28 ∉ [5, 6, 7] →
          (SMap.get (fun _ => 0) s.base (cfgKey n fa) ≠ 0 ∨ SMap.get (fun _ => 0) s.shelfF (cfgKey n fa) ≠ 0) →
          (t.frame n fa).data = s.sourceFrame n fa ∧ (t.frame n fa).good = s.sourceFrame n fa) ∧
        (∀ fa < 2 ^ 32, SMap.get (fun _ => 0) s.base (cfgKey n fa) = 0 → SMap.get (fun _ => 0) s.shelfF (cfgKey n fa) = 0 →
          SMap.wf (fun _ => 0) s.base = true → SMap.wf (fun _ => 0) s.shelfF = true → t.frame n fa = CfgFrame.zero)) ∧
      (st ≠ 3 ∨ s.going d = none → Gives (.offWakeRewriteDone n) s fun t => t = s) ∧
      (∀ g, s.isSet .pwrDstatISO n = true → s.xidx % 4096 = 0 → s.coreReady n = true → s.going n = some g → (g < 2 ∨ st = 3) →
        Gives (.clampRelease n) s fun t =>
          t.getF .pwrDstatISO n = 0 ∧ (st ≠ 2 → t.q = s.q) ∧
          (st = 2 → SMap.wf (fun _ => 0) s.shadow = true → ∀ col < 192, ∀ row < 128,
            t.tileQ (tileKey n col row) = SMap.get (fun _ => 0) s.shadow (tileKey n col row)) ∧
          (∀ k, k / 24576 ≠ n.val → t.tileQ k = s.tileQ k) ∧
          SameBut [fk .pwrDstatISO n] s t ∧ { t with regs := s.regs, q := s.q } = s) ∧
      ((s.isSet .pwrDstatISO n = false ∨ s.xidx % 4096 ≠ 0) → Gives (.clampRelease n) s fun t => t = s))

/-- R475, R481, R483, R484, R486, R526: the end of a transition shows the new state and SEEN, adds the time in the old one to its residency, and in Off loses what the
domain held. RESCLR sets every residency to 0. -/
def Sys2Proof.TransitionsEnd : Prop :=
  (∀ (d : Domain) (g : Nat) (s : State), let st := s.getF .pwrDstatSTATE d
    let key := d.val * 4 + st
    g < 4 → s.going d = some g → s.mayEnter d st g = true →
    ¬(256 ≤ d.val ∧ d.val < 272 ∧ st = 3 ∧ g = 1 ∧ s.getF .ddrStatSTATE (d - 256) = 2 ∧ s.isSet .ddrCfgINMAP (d - 256) = true) →
    Gives (.transitionComplete d) s fun t =>
      t.getF .pwrDstatSTATE d = g ∧ t.getF .pwrDstatSEEN d = 1 ∧
      SMap.get (fun _ => 0) t.resAcc key = SMap.get (fun _ => 0) s.resAcc key + (s.adv - SMap.get (fun _ => 0) s.resFrom d.val) ∧
      SMap.get (fun _ => 0) t.resFrom d.val = s.adv ∧
      (∀ k, k ≠ key → SMap.get (fun _ => 0) t.resAcc k = SMap.get (fun _ => 0) s.resAcc k) ∧
      (d.val < 60 → g = 3 → SMap.get (fun _ => none) s.pwrNext d.val = none →
        t.going d = none ∧ t.getF .pwrDstatBUSY d = 0 ∧
        (∀ fa < 2 ^ 32, t.frame d fa = CfgFrame.zero) ∧
        (∀ col < 192, ∀ row < 128, t.tileQ (tileKey d col row) = 0 ∧ SMap.get (fun _ => 0) t.shadow (tileKey d col row) = 0) ∧
        (∀ m fa, m ≠ d.val → fa < 2 ^ 32 → t.frame m fa = s.frame m fa) ∧
        SMap.get (fun _ => false) t.pwrRewr d.val = false) ∧
      (d.val < 60 → (g = 1 ∨ (g = 2 ∧ st ≠ 3)) → SMap.get (fun _ => none) s.pwrNext d.val = none →
        t.going d = none ∧ RegsOnly [fk .pwrDstatSTATE d, fk .pwrDstatBUSY d, fk .pwrDstatSEEN d] s
          { t with pwrGo := s.pwrGo, resAcc := s.resAcc, resFrom := s.resFrom }) ∧
      (d.val = 293 → g = 3 → t.memp.keys = [] ∧ t.memp.cache = [] ∧ ∀ k < 64, t.keyState k = 0) ∧
      (d.val = 295 → g = 3 → t.hcache = [])) ∧
  (∀ (d : Domain) (s : State), s.going d = none → Gives (.transitionComplete d) s fun t => t = s) ∧
  (∀ s : State, s.perst = false → s.unitOn .pwr = true → Gives .residencyClear s fun t =>
    (∀ d st, t.residency d st = 0) ∧ { t with resAcc := s.resAcc, resFrom := s.resFrom } = s)

/-- R473–R486, R526: power domains take requests, doze, wake and change their states. -/
def Obligations.DomainsChangeState : Prop :=
  RequestsAreCheckedAndBegun ∧ DeferredAndAutomaticEntries ∧ DomainsWake ∧ TransitionsEnd

/-! ## JTAG and pins (R257, R491–R501, R515) -/

/-- R499–R501: EXTEST, HIGHZ and CLAMP act while PERST_N is asserted, else as BYPASS; IDCODE shifts out 0x1006_0A4B. -/
def Sys2Proof.InstructionsOfTheTestAccessPort : Prop :=
  ∀ s : State,
    (∀ x ∈ [(Instr.extest, JtagIr.extest), (.highz, .highz), (.clamp, .clamp)], Gives x.1 s fun t =>
      t = { s with jtag := { s.jtag with ir := if s.perst then x.2 else .bypass } }) ∧
    (Gives .idcode s fun t => t = { s with jtag := { s.jtag with ir := .idcode, tdo := 0x10060A4B } }) ∧
    (∀ cells, Gives (.samplePreload cells) s fun t => t = { s with jtag := { s.jtag with ir := .sample, cells := cells } }) ∧
    (Gives .bypass s fun t => t = { s with jtag := { s.jtag with ir := .bypass } }) ∧
    (Gives .status s fun t => t.jtag.ir = .status ∧
      t.jtag.tdo.testBit 0 = s.jtag.op.isSome ∧ t.jtag.tdo.testBit 1 = s.jtag.done ∧ t.jtag.tdo.testBit 2 = s.jtag.err ∧
      t.jtag.tdo.testBit 3 = s.lockBit 1 ∧ t.jtag.tdo.testBit 4 = s.lockBit 2 ∧ t.jtag.tdo.testBit 5 = s.lockBit 0 ∧
      t.jtag.tdo.testBit 6 = s.keyRam.isSome ∧ t.jtag.tdo < 2 ^ 9 ∧
      (t.jtag.tdo.testBit 7 = true ↔ ∃ r, r < 4 ∧ s.fuse r ≠ 0) ∧ (t.jtag.tdo.testBit 8 = true ↔ ∃ r, 4 ≤ r ∧ r < 8 ∧ s.fuse r ≠ 0) ∧
      { t with jtag := s.jtag } = s)

/-- R500, R501: a service operation starts while PERST_N is asserted and its lock bit is 0, SLOTPROG once slot 0 has been erased; otherwise it acts as BYPASS with
ERR. When it ends, a fuse row has gained bits and lost none, the key RAM holds the key, and slot 0 the bytes. -/
def Sys2Proof.ServiceOperationsRun : Prop :=
  ∀ s : State,
    let started (i : JtagIr) (op : JtagOp) (r t : State) : Prop :=
      t = { r with jtag := { s.jtag with ir := i, op := some op, done := false, err := false } }
    let refused (t : State) : Prop := t = { s with jtag := { s.jtag with ir := .bypass, err := true } }
    let free : Prop := s.perst = true ∧ s.jtag.op = none
    (∀ (row : Byte) (data : W64), let ok : Prop := 8 ≤ row.toNat ∨ s.lockBit 1 = false
      (free → ok → Gives (.fuseprog row data) s (started .fuseprog (.fuseprog row.toNat data.toNat) s)) ∧
      (¬ (free ∧ ok) → Gives (.fuseprog row data) s refused)) ∧
    (∀ key : BitVec 256,
      (free → s.lockBit 1 = false → Gives (.keyram key) s (started .keyram (.keyram key.toNat) s)) ∧
      (¬ (free ∧ s.lockBit 1 = false) → Gives (.keyram key) s refused)) ∧
    (∀ (len : W64) (bytes : List Byte), let ok : Prop := s.lockBit 2 = false ∧ len.toNat ≤ 1287651328
      (free → ok → Gives (.slotprog len bytes) s fun t => ∃ r : State,
        started .slotprog (.slotprog (bytes.take len.toNat)) r t ∧ { r with store := s.store } = s ∧
        (∀ a < 2 ^ 32, SMap.get (fun _ => none) r.store a = none) ∧
        (∀ a, 2 ^ 32 ≤ a → SMap.get (fun _ => none) r.store a = SMap.get (fun _ => none) s.store a)) ∧
      (¬ (free ∧ ok) → Gives (.slotprog len bytes) s refused)) ∧
    (s.jtag.op = none → Gives .jtagOperationDone s fun t => t = s) ∧
    (∀ row data, s.jtag.op = some (.fuseprog row data) → Gives .jtagOperationDone s fun t =>
      (row ≤ 8 → t.fuse row = s.fuse row ||| data ∧ ∀ r, r ≠ row → t.fuse r = s.fuse r) ∧ (8 < row → t.fuses = s.fuses) ∧
      t.jtag = { s.jtag with op := none, done := true } ∧ { t with jtag := s.jtag, fuses := s.fuses } = s) ∧
    (∀ key, s.jtag.op = some (.keyram key) → Gives .jtagOperationDone s fun t =>
      t = { s with jtag := { s.jtag with op := none, done := true }, keyRam := some key }) ∧
    (∀ bytes, s.jtag.op = some (.slotprog bytes) → Gives .jtagOperationDone s fun t =>
      (∀ i, ∀ h : i < bytes.length, SMap.get (fun _ => none) t.store i = some bytes[i]) ∧
      (∀ a, bytes.length ≤ a → SMap.get (fun _ => none) t.store a = SMap.get (fun _ => none) s.store a) ∧
      t.jtag = { s.jtag with op := none, done := true } ∧ { t with jtag := s.jtag, store := s.store } = s)

/-- R494, R497, R498, R515: VCCO is sensed at a perimeter bank, and one that is not the declared one shows MISSEEN; a rail out of range leaves every pin undriven until it is
back. R257: before release no design drives a pin. -/
def Sys2Proof.PinsFollowTheirSupplies : Prop :=
  ∀ s : State,
    (∀ (n : Pos) (present : Bool) (level : BitVec 2), let p := s.phys n
      let sense := if present then level.toNat else 0
      (Machine.interior n = true → Gives (.vccoChange n present level) s fun t => t = s) ∧
      (Machine.interior n = false → Gives (.vccoChange n present level) s fun t =>
        t.getF .grnIostatVPRES p = present.toNat ∧ t.getF .grnIostatVSENSE p = sense ∧
        t.getF .grnIostatMISSEEN p = (if s.isSet .grnIostatDECLVALID p = true ∧ (present = false ∨ sense ≠ s.getF .grnIostatVDECL p) then 1
          else s.getF .grnIostatMISSEEN p) ∧
        RegsOnly [fk .grnIostatVPRES p, fk .grnIostatVSENSE p, fk .grnIostatMISSEEN p] s t)) ∧
    (∀ r : Rail,
      (Gives (.railOutOfRange r) s fun t => r ∈ t.railsBad ∧ (∀ x, x ∈ s.railsBad → x ∈ t.railsBad) ∧
        (∀ x, x ∈ t.railsBad → x ∈ s.railsBad ∨ x = r) ∧ (∀ n k, t.ioPin n k = .unpowered) ∧ (∀ l, t.txPin l = .unpowered) ∧
        { t with railsBad := s.railsBad } = s) ∧
      (s.railsBad.Nodup → Gives (.railInOperatingConditions r) s fun t =>
        r ∉ t.railsBad ∧ (∀ x, x ≠ r → (x ∈ t.railsBad ↔ x ∈ s.railsBad)) ∧ t.railsBad.Nodup ∧
        { t with railsBad := s.railsBad } = s)) ∧
    (s.railsBad = [] → s.scanDrives = false → (s.perst = true ∨ s.getF .kilnStatSTATE ≠ 7) →
      (∀ n k, s.ioPin n k = .weakPull (s.isSet .kilnStatCFGPULL)) ∧ (∀ l, s.txPin l = .electricalIdle) ∧ s.trigPin = .off ∧
      (s.perst = true → s.ppsPin = .low ∧ ∀ m, s.resetPin m = .low))

/-- R257, R491–R501, R515: the test access port and its service path, and what pins do with their supplies. -/
def Obligations.TestPortAndPins : Prop :=
  InstructionsOfTheTestAccessPort ∧ ServiceOperationsRun ∧ PinsFollowTheirSupplies
end

