-- ==== Sys2Proof/Laws/SMap.lean ====
section
/-! SUPPORT. The laws of sparse maps: a read after a write, a write elsewhere, and that every operation keeps the canonical form. -/

namespace Sys2Proof.Machine

variable {ν : Type}

theorem SMap.get_erase_self (d : Nat → ν) (m : SMap ν) (k : Nat) : SMap.get d (SMap.erase m k) k = d k := by
  induction m with
  | nil => rfl
  | cons e m ih =>
    simp only [SMap.erase]
    split
    · exact ih
    · rename_i h
      simp only [SMap.get, if_neg h]
      exact ih

theorem SMap.get_erase_ne (d : Nat → ν) (m : SMap ν) {k l : Nat} (h : l ≠ k) :
    SMap.get d (SMap.erase m k) l = SMap.get d m l := by
  induction m with
  | nil => rfl
  | cons e m ih =>
    simp only [SMap.erase]
    split
    · rename_i hk
      rw [ih]
      simp only [SMap.get, ← hk, if_neg h]
    · simp only [SMap.get, ih]

theorem SMap.get_insert_self (d : Nat → ν) (m : SMap ν) (k : Nat) (v : ν) : SMap.get d (SMap.insert m k v) k = v := by
  induction m with
  | nil => simp [SMap.insert, SMap.get]
  | cons e m ih =>
    simp only [SMap.insert]
    split
    · simp [SMap.get]
    · split
      · simp [SMap.get]
      · rename_i h _
        simp only [SMap.get, if_neg h]
        exact ih

theorem SMap.get_insert_ne (d : Nat → ν) (m : SMap ν) {k l : Nat} (v : ν) (h : l ≠ k) :
    SMap.get d (SMap.insert m k v) l = SMap.get d m l := by
  induction m with
  | nil => simp [SMap.insert, SMap.get, h]
  | cons e m ih =>
    simp only [SMap.insert]
    split
    · rename_i hk
      simp only [SMap.get, ← hk, if_neg h]
    · split
      · simp only [SMap.get, if_neg h]
      · simp only [SMap.get, ih]

/-- A read after a write of the same key. -/
@[simp] theorem SMap.get_set_self [DecidableEq ν] (d : Nat → ν) (m : SMap ν) (k : Nat) (v : ν) :
    SMap.get d (SMap.set d m k v) k = v := by
  simp only [SMap.set]
  split
  · rename_i h
    rw [SMap.get_erase_self, h]
  · exact SMap.get_insert_self d m k v

/-- A write leaves every other key alone. -/
theorem SMap.get_set_ne [DecidableEq ν] (d : Nat → ν) (m : SMap ν) {k l : Nat} (v : ν) (h : l ≠ k) :
    SMap.get d (SMap.set d m k v) l = SMap.get d m l := by
  simp only [SMap.set]
  split
  · exact SMap.get_erase_ne d m h
  · exact SMap.get_insert_ne d m v h

theorem SMap.get_set [DecidableEq ν] (d : Nat → ν) (m : SMap ν) (k l : Nat) (v : ν) :
    SMap.get d (SMap.set d m k v) l = if l = k then v else SMap.get d m l := by
  by_cases h : l = k
  · rw [if_pos h, h, SMap.get_set_self]
  · rw [if_neg h, SMap.get_set_ne d m v h]

@[simp] theorem SMap.get_nil (d : Nat → ν) (k : Nat) : SMap.get d [] k = d k := rfl

/-- A cleared key reads its default again, and the others stay. -/
theorem SMap.get_clearWhere (d : Nat → ν) (p : Nat → Bool) (m : SMap ν) (k : Nat) :
    SMap.get d (SMap.clearWhere p m) k = if p k then d k else SMap.get d m k := by
  induction m with
  | nil => simp [SMap.clearWhere, SMap.get]
  | cons e m ih =>
    obtain ⟨a, v⟩ := e
    simp only [SMap.clearWhere, List.filter_cons] at ih ⊢
    by_cases ha : p a = true
    · rw [if_neg (by simp [ha]), ih]
      by_cases hk : k = a
      · subst hk
        rw [if_pos ha, if_pos ha]
      · simp only [SMap.get, if_neg hk]
    · rw [if_pos (by simp [ha])]
      by_cases hk : k = a
      · subst hk
        rw [if_neg ha]
        simp only [SMap.get, if_true]
      · simp only [SMap.get, if_neg hk, ih]

/-! ## The canonical form -/

theorem SMap.wfFrom_mono [DecidableEq ν] {d : Nat → ν} {m : SMap ν} {lo lo' : Nat} (h : lo' ≤ lo)
    (w : SMap.wfFrom d lo m = true) : SMap.wfFrom d lo' m = true := by
  cases m with
  | nil => rfl
  | cons e m =>
    simp only [SMap.wfFrom, Bool.and_eq_true, decide_eq_true_eq] at w ⊢
    exact ⟨⟨le_trans h w.1.1, w.1.2⟩, w.2⟩

theorem SMap.wfFrom_erase [DecidableEq ν] {d : Nat → ν} {m : SMap ν} {lo : Nat} (k : Nat)
    (w : SMap.wfFrom d lo m = true) : SMap.wfFrom d lo (SMap.erase m k) = true := by
  induction m generalizing lo with
  | nil => rfl
  | cons e m ih =>
    simp only [SMap.wfFrom, Bool.and_eq_true, decide_eq_true_eq] at w
    simp only [SMap.erase]
    split
    · exact SMap.wfFrom_mono (by omega) (ih w.2)
    · simp only [SMap.wfFrom, Bool.and_eq_true, decide_eq_true_eq]
      exact ⟨w.1, ih w.2⟩

theorem SMap.wfFrom_insert [DecidableEq ν] {d : Nat → ν} {m : SMap ν} {lo k : Nat} {v : ν} (hk : lo ≤ k) (hv : v ≠ d k)
    (w : SMap.wfFrom d lo m = true) : SMap.wfFrom d lo (SMap.insert m k v) = true := by
  induction m generalizing lo with
  | nil => simp [SMap.insert, SMap.wfFrom, hk, hv]
  | cons e m ih =>
    simp only [SMap.wfFrom, Bool.and_eq_true, decide_eq_true_eq] at w
    simp only [SMap.insert]
    split
    · rename_i h
      simp only [SMap.wfFrom, Bool.and_eq_true, decide_eq_true_eq, Bool.not_eq_true', decide_eq_false_iff_not]
      exact ⟨⟨hk, hv⟩, by rw [h]; exact w.2⟩
    · split
      · simp only [SMap.wfFrom, Bool.and_eq_true, decide_eq_true_eq, Bool.not_eq_true', decide_eq_false_iff_not] at w ⊢
        exact ⟨⟨hk, hv⟩, ⟨by omega, w.1.2⟩, w.2⟩
      · simp only [SMap.wfFrom, Bool.and_eq_true, decide_eq_true_eq]
        exact ⟨w.1, ih (by omega) w.2⟩

/-- A write keeps the canonical form. -/
theorem SMap.wf_set [DecidableEq ν] {d : Nat → ν} {m : SMap ν} (k : Nat) (v : ν) (w : SMap.wf d m = true) :
    SMap.wf d (SMap.set d m k v) = true := by
  simp only [SMap.wf, SMap.set] at w ⊢
  split
  · exact SMap.wfFrom_erase k w
  · rename_i h
    exact SMap.wfFrom_insert (Nat.zero_le k) h w

theorem SMap.wfFrom_filter [DecidableEq ν] {d : Nat → ν} (p : Nat × ν → Bool) {m : SMap ν} {lo : Nat}
    (w : SMap.wfFrom d lo m = true) : SMap.wfFrom d lo (m.filter p) = true := by
  induction m generalizing lo with
  | nil => rfl
  | cons e m ih =>
    simp only [SMap.wfFrom, Bool.and_eq_true, decide_eq_true_eq] at w
    simp only [List.filter_cons]
    split
    · simp only [SMap.wfFrom, Bool.and_eq_true, decide_eq_true_eq]
      exact ⟨w.1, ih w.2⟩
    · exact SMap.wfFrom_mono (by omega) (ih w.2)

/-- Clearing keys keeps the canonical form. -/
theorem SMap.wf_clearWhere [DecidableEq ν] {d : Nat → ν} (p : Nat → Bool) {m : SMap ν} (w : SMap.wf d m = true) :
    SMap.wf d (SMap.clearWhere p m) = true := SMap.wfFrom_filter _ w

theorem SMap.wf_setRange [DecidableEq ν] {d : Nat → ν} {m : SMap ν} (lo : Nat) (v : ν) (n : Nat) (w : SMap.wf d m = true) :
    SMap.wf d (SMap.setRange d m lo v n) = true := by
  induction n with
  | zero => exact w
  | succ n ih => exact SMap.wf_set _ _ ih

theorem SMap.wf_nil [DecidableEq ν] (d : Nat → ν) : SMap.wf d [] = true := rfl

theorem SMap.eq_of_get_eq_aux [DecidableEq ν] {d : Nat → ν} {m : SMap ν} {lo k : Nat} (w : SMap.wfFrom d lo m = true)
    (h : k < lo) : SMap.get d m k = d k := by
  induction m generalizing lo with
  | nil => rfl
  | cons e m ih =>
    simp only [SMap.wfFrom, Bool.and_eq_true, decide_eq_true_eq] at w
    simp only [SMap.get]
    rw [if_neg (by omega)]
    exact ih w.2 (by omega)

/-- Two maps in canonical form that read alike are the same data. -/
theorem SMap.eq_of_get_eq [DecidableEq ν] {d : Nat → ν} {m n : SMap ν} {lo : Nat} (wm : SMap.wfFrom d lo m = true)
    (wn : SMap.wfFrom d lo n = true) (h : ∀ k, SMap.get d m k = SMap.get d n k) : m = n := by
  induction m generalizing n lo with
  | nil =>
    cases n with
    | nil => rfl
    | cons f n =>
      exfalso
      have := h f.1
      simp only [SMap.wfFrom, Bool.and_eq_true, Bool.not_eq_true', decide_eq_false_iff_not] at wn
      simp only [SMap.get, if_true] at this
      exact wn.1.2 this.symm
  | cons e m ih =>
    obtain ⟨a, v⟩ := e
    simp only [SMap.wfFrom, Bool.and_eq_true, decide_eq_true_eq, Bool.not_eq_true', decide_eq_false_iff_not] at wm
    cases n with
    | nil =>
      exfalso
      have := h a
      simp only [SMap.get, if_true] at this
      exact wm.1.2 this
    | cons f n =>
      obtain ⟨b, u⟩ := f
      simp only [SMap.wfFrom, Bool.and_eq_true, decide_eq_true_eq, Bool.not_eq_true', decide_eq_false_iff_not] at wn
      have hab : a = b := by
        rcases Nat.lt_trichotomy a b with hlt | heq | hgt
        · exfalso
          have := h a
          simp only [SMap.get, if_true, if_neg (Nat.ne_of_lt hlt)] at this
          rw [SMap.eq_of_get_eq_aux wn.2 (by omega)] at this
          exact wm.1.2 this
        · exact heq
        · exfalso
          have := h b
          simp only [SMap.get, if_true, if_neg (Nat.ne_of_lt hgt)] at this
          rw [SMap.eq_of_get_eq_aux wm.2 (by omega)] at this
          exact wn.1.2 this.symm
      subst hab
      have hv : v = u := by
        have := h a
        simpa only [SMap.get, if_true] using this
      subst hv
      have : m = n := ih wm.2 wn.2 fun k => by
        by_cases hk : k = a
        · subst hk
          rw [SMap.eq_of_get_eq_aux wm.2 (by omega), SMap.eq_of_get_eq_aux wn.2 (by omega)]
        · have := h k
          simpa only [SMap.get, if_neg hk] using this
      rw [this]

end Sys2Proof.Machine
end

