-- ==== Sys2Proof/Laws/State.lean ====
section
/-! SUPPORT. One lemma per field of the state and shared update: a register field written, a message that leaves, a free value. -/

namespace Sys2Proof.Machine

@[simp] theorem State.setF_part (s : State) (f : Fld) (v i j : Nat) : (s.setF f v i j).part = s.part := (rfl)
@[simp] theorem State.setF_freeCtr (s : State) (f : Fld) (v i j : Nat) : (s.setF f v i j).freeCtr = s.freeCtr := (rfl)
@[simp] theorem State.setF_out (s : State) (f : Fld) (v i j : Nat) : (s.setF f v i j).out = s.out := (rfl)
@[simp] theorem State.setF_pending (s : State) (f : Fld) (v i j : Nat) : (s.setF f v i j).pending = s.pending := (rfl)
@[simp] theorem State.setF_perst (s : State) (f : Fld) (v i j : Nat) : (s.setF f v i j).perst = s.perst := (rfl)
@[simp] theorem State.setF_root (s : State) (f : Fld) (v i j : Nat) : (s.setF f v i j).root = s.root := (rfl)
@[simp] theorem State.setF_trim (s : State) (f : Fld) (v i j : Nat) : (s.setF f v i j).trim = s.trim := (rfl)
@[simp] theorem State.setF_evDone (s : State) (f : Fld) (v i j : Nat) : (s.setF f v i j).evDone = s.evDone := (rfl)
@[simp] theorem State.setF_msixEn (s : State) (f : Fld) (v i j : Nat) : (s.setF f v i j).msixEn = s.msixEn := (rfl)
@[simp] theorem State.setF_msixTab (s : State) (f : Fld) (v i j : Nat) : (s.setF f v i j).msixTab = s.msixTab := (rfl)
@[simp] theorem State.setF_msixPba (s : State) (f : Fld) (v i j : Nat) : (s.setF f v i j).msixPba = s.msixPba := (rfl)
@[simp] theorem State.setF_msixHeld (s : State) (f : Fld) (v i j : Nat) : (s.setF f v i j).msixHeld = s.msixHeld := (rfl)
@[simp] theorem State.setF_evFifo (s : State) (f : Fld) (v i j : Nat) : (s.setF f v i j).evFifo = s.evFifo := (rfl)
@[simp] theorem State.setF_caskQ (s : State) (f : Fld) (v i j : Nat) : (s.setF f v i j).caskQ = s.caskQ := (rfl)
@[simp] theorem State.setF_pos (s : State) (f : Fld) (v i j : Nat) : (s.setF f v i j).pos = s.pos := (rfl)
@[simp] theorem State.setF_cfg (s : State) (f : Fld) (v i j : Nat) : (s.setF f v i j).cfg = s.cfg := (rfl)
@[simp] theorem State.setF_base (s : State) (f : Fld) (v i j : Nat) : (s.setF f v i j).base = s.base := (rfl)
@[simp] theorem State.setF_shelfF (s : State) (f : Fld) (v i j : Nat) : (s.setF f v i j).shelfF = s.shelfF := (rfl)
@[simp] theorem State.setF_q (s : State) (f : Fld) (v i j : Nat) : (s.setF f v i j).q = s.q := (rfl)
@[simp] theorem State.setF_srOn (s : State) (f : Fld) (v i j : Nat) : (s.setF f v i j).srOn = s.srOn := (rfl)
@[simp] theorem State.setF_shadow (s : State) (f : Fld) (v i j : Nat) : (s.setF f v i j).shadow = s.shadow := (rfl)
@[simp] theorem State.setF_frozen (s : State) (f : Fld) (v i j : Nat) : (s.setF f v i j).frozen = s.frozen := (rfl)
@[simp] theorem State.setF_ram (s : State) (f : Fld) (v i j : Nat) : (s.setF f v i j).ram = s.ram := (rfl)
@[simp] theorem State.setF_ramFlip (s : State) (f : Fld) (v i j : Nat) : (s.setF f v i j).ramFlip = s.ramFlip := (rfl)
@[simp] theorem State.setF_deep (s : State) (f : Fld) (v i j : Nat) : (s.setF f v i j).deep = s.deep := (rfl)
@[simp] theorem State.setF_deepFlip (s : State) (f : Fld) (v i j : Nat) : (s.setF f v i j).deepFlip = s.deepFlip := (rfl)
@[simp] theorem State.setF_coef (s : State) (f : Fld) (v i j : Nat) : (s.setF f v i j).coef = s.coef := (rfl)
@[simp] theorem State.setF_coefFlip (s : State) (f : Fld) (v i j : Nat) : (s.setF f v i j).coefFlip = s.coefFlip := (rfl)
@[simp] theorem State.setF_bport (s : State) (f : Fld) (v i j : Nat) : (s.setF f v i j).bport = s.bport := (rfl)
@[simp] theorem State.setF_blast (s : State) (f : Fld) (v i j : Nat) : (s.setF f v i j).blast = s.blast := (rfl)
@[simp] theorem State.setF_slices (s : State) (f : Fld) (v i j : Nat) : (s.setF f v i j).slices = s.slices := (rfl)
@[simp] theorem State.setF_snap (s : State) (f : Fld) (v i j : Nat) : (s.setF f v i j).snap = s.snap := (rfl)
@[simp] theorem State.setF_xr (s : State) (f : Fld) (v i j : Nat) : (s.setF f v i j).xr = s.xr := (rfl)
@[simp] theorem State.setF_xe (s : State) (f : Fld) (v i j : Nat) : (s.setF f v i j).xe = s.xe := (rfl)
@[simp] theorem State.setF_xidx (s : State) (f : Fld) (v i j : Nat) : (s.setF f v i j).xidx = s.xidx := (rfl)
@[simp] theorem State.setF_xfail (s : State) (f : Fld) (v i j : Nat) : (s.setF f v i j).xfail = s.xfail := (rfl)
@[simp] theorem State.setF_link (s : State) (f : Fld) (v i j : Nat) : (s.setF f v i j).link = s.link := (rfl)
@[simp] theorem State.setF_clk (s : State) (f : Fld) (v i j : Nat) : (s.setF f v i j).clk = s.clk := (rfl)
@[simp] theorem State.setF_tokens (s : State) (f : Fld) (v i j : Nat) : (s.setF f v i j).tokens = s.tokens := (rfl)
@[simp] theorem State.setF_answers (s : State) (f : Fld) (v i j : Nat) : (s.setF f v i j).answers = s.answers := (rfl)
@[simp] theorem State.setF_oos (s : State) (f : Fld) (v i j : Nat) : (s.setF f v i j).oos = s.oos := (rfl)
@[simp] theorem State.setF_repair (s : State) (f : Fld) (v i j : Nat) : (s.setF f v i j).repair = s.repair := (rfl)
@[simp] theorem State.setF_remap (s : State) (f : Fld) (v i j : Nat) : (s.setF f v i j).remap = s.remap := (rfl)
@[simp] theorem State.setF_store (s : State) (f : Fld) (v i j : Nat) : (s.setF f v i j).store = s.store := (rfl)
@[simp] theorem State.setF_fw (s : State) (f : Fld) (v i j : Nat) : (s.setF f v i j).fw = s.fw := (rfl)
@[simp] theorem State.setF_load (s : State) (f : Fld) (v i j : Nat) : (s.setF f v i j).load = s.load := (rfl)
@[simp] theorem State.setF_baseSlot (s : State) (f : Fld) (v i j : Nat) : (s.setF f v i j).baseSlot = s.baseSlot := (rfl)
@[simp] theorem State.setF_floorTab (s : State) (f : Fld) (v i j : Nat) : (s.setF f v i j).floorTab = s.floorTab := (rfl)
@[simp] theorem State.setF_pld (s : State) (f : Fld) (v i j : Nat) : (s.setF f v i j).pld = s.pld := (rfl)
@[simp] theorem State.setF_shelf (s : State) (f : Fld) (v i j : Nat) : (s.setF f v i j).shelf = s.shelf := (rfl)
@[simp] theorem State.setF_kilnJobs (s : State) (f : Fld) (v i j : Nat) : (s.setF f v i j).kilnJobs = s.kilnJobs := (rfl)
@[simp] theorem State.setF_heldReload (s : State) (f : Fld) (v i j : Nat) : (s.setF f v i j).heldReload = s.heldReload := (rfl)
@[simp] theorem State.setF_rewrites (s : State) (f : Fld) (v i j : Nat) : (s.setF f v i j).rewrites = s.rewrites := (rfl)
@[simp] theorem State.setF_lockNs (s : State) (f : Fld) (v i j : Nat) : (s.setF f v i j).lockNs = s.lockNs := (rfl)
@[simp] theorem State.setF_ran39 (s : State) (f : Fld) (v i j : Nat) : (s.setF f v i j).ran39 = s.ran39 := (rfl)
@[simp] theorem State.setF_pitches (s : State) (f : Fld) (v i j : Nat) : (s.setF f v i j).pitches = s.pitches := (rfl)
@[simp] theorem State.setF_findings (s : State) (f : Fld) (v i j : Nat) : (s.setF f v i j).findings = s.findings := (rfl)
@[simp] theorem State.setF_spg (s : State) (f : Fld) (v i j : Nat) : (s.setF f v i j).spg = s.spg := (rfl)
@[simp] theorem State.setF_capt (s : State) (f : Fld) (v i j : Nat) : (s.setF f v i j).capt = s.capt := (rfl)
@[simp] theorem State.setF_capselBusy (s : State) (f : Fld) (v i j : Nat) : (s.setF f v i j).capselBusy = s.capselBusy := (rfl)
@[simp] theorem State.setF_acc (s : State) (f : Fld) (v i j : Nat) : (s.setF f v i j).acc = s.acc := (rfl)
@[simp] theorem State.setF_pwrGo (s : State) (f : Fld) (v i j : Nat) : (s.setF f v i j).pwrGo = s.pwrGo := (rfl)
@[simp] theorem State.setF_pwrRewr (s : State) (f : Fld) (v i j : Nat) : (s.setF f v i j).pwrRewr = s.pwrRewr := (rfl)
@[simp] theorem State.setF_pwrNext (s : State) (f : Fld) (v i j : Nat) : (s.setF f v i j).pwrNext = s.pwrNext := (rfl)
@[simp] theorem State.setF_mem (s : State) (f : Fld) (v i j : Nat) : (s.setF f v i j).mem = s.mem := (rfl)
@[simp] theorem State.setF_ddr (s : State) (f : Fld) (v i j : Nat) : (s.setF f v i j).ddr = s.ddr := (rfl)
@[simp] theorem State.setF_memReqs (s : State) (f : Fld) (v i j : Nat) : (s.setF f v i j).memReqs = s.memReqs := (rfl)
@[simp] theorem State.setF_nextReq (s : State) (f : Fld) (v i j : Nat) : (s.setF f v i j).nextReq = s.nextReq := (rfl)
@[simp] theorem State.setF_rows (s : State) (f : Fld) (v i j : Nat) : (s.setF f v i j).rows = s.rows := (rfl)
@[simp] theorem State.setF_devCnt (s : State) (f : Fld) (v i j : Nat) : (s.setF f v i j).devCnt = s.devCnt := (rfl)
@[simp] theorem State.setF_trWait (s : State) (f : Fld) (v i j : Nat) : (s.setF f v i j).trWait = s.trWait := (rfl)
@[simp] theorem State.setF_net (s : State) (f : Fld) (v i j : Nat) : (s.setF f v i j).net = s.net := (rfl)
@[simp] theorem State.setF_held (s : State) (f : Fld) (v i j : Nat) : (s.setF f v i j).held = s.held := (rfl)
@[simp] theorem State.setF_dnp (s : State) (f : Fld) (v i j : Nat) : (s.setF f v i j).dnp = s.dnp := (rfl)
@[simp] theorem State.setF_netWait (s : State) (f : Fld) (v i j : Nat) : (s.setF f v i j).netWait = s.netWait := (rfl)
@[simp] theorem State.setF_rb (s : State) (f : Fld) (v i j : Nat) : (s.setF f v i j).rb = s.rb := (rfl)
@[simp] theorem State.setF_rbGrant (s : State) (f : Fld) (v i j : Nat) : (s.setF f v i j).rbGrant = s.rbGrant := (rfl)
@[simp] theorem State.setF_rbRx (s : State) (f : Fld) (v i j : Nat) : (s.setF f v i j).rbRx = s.rbRx := (rfl)
@[simp] theorem State.setF_isoHard (s : State) (f : Fld) (v i j : Nat) : (s.setF f v i j).isoHard = s.isoHard := (rfl)
@[simp] theorem State.setF_incNow (s : State) (f : Fld) (v i j : Nat) : (s.setF f v i j).incNow = s.incNow := (rfl)
@[simp] theorem State.setF_incPend (s : State) (f : Fld) (v i j : Nat) : (s.setF f v i j).incPend = s.incPend := (rfl)
@[simp] theorem State.setF_stepPend (s : State) (f : Fld) (v i j : Nat) : (s.setF f v i j).stepPend = s.stepPend := (rfl)
@[simp] theorem State.setF_holdAt (s : State) (f : Fld) (v i j : Nat) : (s.setF f v i j).holdAt = s.holdAt := (rfl)
@[simp] theorem State.setF_edgeTime (s : State) (f : Fld) (v i j : Nat) : (s.setF f v i j).edgeTime = s.edgeTime := (rfl)
@[simp] theorem State.setF_replicas (s : State) (f : Fld) (v i j : Nat) : (s.setF f v i j).replicas = s.replicas := (rfl)
@[simp] theorem State.setF_hiLatch (s : State) (f : Fld) (v i j : Nat) : (s.setF f v i j).hiLatch = s.hiLatch := (rfl)
@[simp] theorem State.setF_ppsDue (s : State) (f : Fld) (v i j : Nat) : (s.setF f v i j).ppsDue = s.ppsDue := (rfl)
@[simp] theorem State.setF_ppsLeft (s : State) (f : Fld) (v i j : Nat) : (s.setF f v i j).ppsLeft = s.ppsLeft := (rfl)
@[simp] theorem State.setF_trigLeft (s : State) (f : Fld) (v i j : Nat) : (s.setF f v i j).trigLeft = s.trigLeft := (rfl)
@[simp] theorem State.setF_ringQ (s : State) (f : Fld) (v i j : Nat) : (s.setF f v i j).ringQ = s.ringQ := (rfl)
@[simp] theorem State.setF_ringOut (s : State) (f : Fld) (v i j : Nat) : (s.setF f v i j).ringOut = s.ringOut := (rfl)
@[simp] theorem State.setF_tsSeq (s : State) (f : Fld) (v i j : Nat) : (s.setF f v i j).tsSeq = s.tsSeq := (rfl)
@[simp] theorem State.setF_pathsOut (s : State) (f : Fld) (v i j : Nat) : (s.setF f v i j).pathsOut = s.pathsOut := (rfl)
@[simp] theorem State.setF_tmr (s : State) (f : Fld) (v i j : Nat) : (s.setF f v i j).tmr = s.tmr := (rfl)
@[simp] theorem State.setF_lines (s : State) (f : Fld) (v i j : Nat) : (s.setF f v i j).lines = s.lines := (rfl)
@[simp] theorem State.setF_adv (s : State) (f : Fld) (v i j : Nat) : (s.setF f v i j).adv = s.adv := (rfl)
@[simp] theorem State.setF_resAcc (s : State) (f : Fld) (v i j : Nat) : (s.setF f v i j).resAcc = s.resAcc := (rfl)
@[simp] theorem State.setF_resFrom (s : State) (f : Fld) (v i j : Nat) : (s.setF f v i j).resFrom = s.resFrom := (rfl)
@[simp] theorem State.setF_secHi (s : State) (f : Fld) (v i j : Nat) : (s.setF f v i j).secHi = s.secHi := (rfl)
@[simp] theorem State.setF_fuses (s : State) (f : Fld) (v i j : Nat) : (s.setF f v i j).fuses = s.fuses := (rfl)
@[simp] theorem State.setF_fuseNow (s : State) (f : Fld) (v i j : Nat) : (s.setF f v i j).fuseNow = s.fuseNow := (rfl)
@[simp] theorem State.setF_keyRam (s : State) (f : Fld) (v i j : Nat) : (s.setF f v i j).keyRam = s.keyRam := (rfl)
@[simp] theorem State.setF_jtag (s : State) (f : Fld) (v i j : Nat) : (s.setF f v i j).jtag = s.jtag := (rfl)
@[simp] theorem State.setF_railsBad (s : State) (f : Fld) (v i j : Nat) : (s.setF f v i j).railsBad = s.railsBad := (rfl)
@[simp] theorem State.setF_wortIso (s : State) (f : Fld) (v i j : Nat) : (s.setF f v i j).wortIso = s.wortIso := (rfl)
@[simp] theorem State.setF_memp (s : State) (f : Fld) (v i j : Nat) : (s.setF f v i j).memp = s.memp := (rfl)
@[simp] theorem State.setF_hostPages (s : State) (f : Fld) (v i j : Nat) : (s.setF f v i j).hostPages = s.hostPages := (rfl)
@[simp] theorem State.setF_flips (s : State) (f : Fld) (v i j : Nat) : (s.setF f v i j).flips = s.flips := (rfl)
@[simp] theorem State.setF_resolves (s : State) (f : Fld) (v i j : Nat) : (s.setF f v i j).resolves = s.resolves := (rfl)
@[simp] theorem State.setF_biasCmd (s : State) (f : Fld) (v i j : Nat) : (s.setF f v i j).biasCmd = s.biasCmd := (rfl)
@[simp] theorem State.setF_hcache (s : State) (f : Fld) (v i j : Nat) : (s.setF f v i j).hcache = s.hcache := (rfl)
@[simp] theorem State.setF_cohReqs (s : State) (f : Fld) (v i j : Nat) : (s.setF f v i j).cohReqs = s.cohReqs := (rfl)
@[simp] theorem State.setF_cohNext (s : State) (f : Fld) (v i j : Nat) : (s.setF f v i j).cohNext = s.cohNext := (rfl)
@[simp] theorem State.setF_cohOps (s : State) (f : Fld) (v i j : Nat) : (s.setF f v i j).cohOps = s.cohOps := (rfl)
@[simp] theorem State.setF_hdm (s : State) (f : Fld) (v i j : Nat) : (s.setF f v i j).hdm = s.hdm := (rfl)
@[simp] theorem State.setF_hdmErr (s : State) (f : Fld) (v i j : Nat) : (s.setF f v i j).hdmErr = s.hdmErr := (rfl)
@[simp] theorem State.setF_hostTx (s : State) (f : Fld) (v i j : Nat) : (s.setF f v i j).hostTx = s.hostTx := (rfl)
@[simp] theorem State.setF_barRds (s : State) (f : Fld) (v i j : Nat) : (s.setF f v i j).barRds = s.barRds := (rfl)
@[simp] theorem State.setF_laneTx (s : State) (f : Fld) (v i j : Nat) : (s.setF f v i j).laneTx = s.laneTx := (rfl)
@[simp] theorem State.setF_laneRx (s : State) (f : Fld) (v i j : Nat) : (s.setF f v i j).laneRx = s.laneRx := (rfl)
@[simp] theorem State.setF_laneExit (s : State) (f : Fld) (v i j : Nat) : (s.setF f v i j).laneExit = s.laneExit := (rfl)
@[simp] theorem State.setF_bond (s : State) (f : Fld) (v i j : Nat) : (s.setF f v i j).bond = s.bond := (rfl)
@[simp] theorem State.setF_laneCnt (s : State) (f : Fld) (v i j : Nat) : (s.setF f v i j).laneCnt = s.laneCnt := (rfl)
@[simp] theorem State.setF_chkBits (s : State) (f : Fld) (v i j : Nat) : (s.setF f v i j).chkBits = s.chkBits := (rfl)
@[simp] theorem State.setF_wort (s : State) (f : Fld) (v i j : Nat) : (s.setF f v i j).wort = s.wort := (rfl)

@[simp] theorem State.emit_part (s : State) (m : OutMsg) : (s.emit m).part = s.part := (rfl)
@[simp] theorem State.emit_regs (s : State) (m : OutMsg) : (s.emit m).regs = s.regs := (rfl)
@[simp] theorem State.emit_freeCtr (s : State) (m : OutMsg) : (s.emit m).freeCtr = s.freeCtr := (rfl)
@[simp] theorem State.emit_pending (s : State) (m : OutMsg) : (s.emit m).pending = s.pending := (rfl)
@[simp] theorem State.emit_perst (s : State) (m : OutMsg) : (s.emit m).perst = s.perst := (rfl)
@[simp] theorem State.emit_root (s : State) (m : OutMsg) : (s.emit m).root = s.root := (rfl)
@[simp] theorem State.emit_trim (s : State) (m : OutMsg) : (s.emit m).trim = s.trim := (rfl)
@[simp] theorem State.emit_evDone (s : State) (m : OutMsg) : (s.emit m).evDone = s.evDone := (rfl)
@[simp] theorem State.emit_msixEn (s : State) (m : OutMsg) : (s.emit m).msixEn = s.msixEn := (rfl)
@[simp] theorem State.emit_msixTab (s : State) (m : OutMsg) : (s.emit m).msixTab = s.msixTab := (rfl)
@[simp] theorem State.emit_msixPba (s : State) (m : OutMsg) : (s.emit m).msixPba = s.msixPba := (rfl)
@[simp] theorem State.emit_msixHeld (s : State) (m : OutMsg) : (s.emit m).msixHeld = s.msixHeld := (rfl)
@[simp] theorem State.emit_evFifo (s : State) (m : OutMsg) : (s.emit m).evFifo = s.evFifo := (rfl)
@[simp] theorem State.emit_caskQ (s : State) (m : OutMsg) : (s.emit m).caskQ = s.caskQ := (rfl)
@[simp] theorem State.emit_pos (s : State) (m : OutMsg) : (s.emit m).pos = s.pos := (rfl)
@[simp] theorem State.emit_cfg (s : State) (m : OutMsg) : (s.emit m).cfg = s.cfg := (rfl)
@[simp] theorem State.emit_base (s : State) (m : OutMsg) : (s.emit m).base = s.base := (rfl)
@[simp] theorem State.emit_shelfF (s : State) (m : OutMsg) : (s.emit m).shelfF = s.shelfF := (rfl)
@[simp] theorem State.emit_q (s : State) (m : OutMsg) : (s.emit m).q = s.q := (rfl)
@[simp] theorem State.emit_srOn (s : State) (m : OutMsg) : (s.emit m).srOn = s.srOn := (rfl)
@[simp] theorem State.emit_shadow (s : State) (m : OutMsg) : (s.emit m).shadow = s.shadow := (rfl)
@[simp] theorem State.emit_frozen (s : State) (m : OutMsg) : (s.emit m).frozen = s.frozen := (rfl)
@[simp] theorem State.emit_ram (s : State) (m : OutMsg) : (s.emit m).ram = s.ram := (rfl)
@[simp] theorem State.emit_ramFlip (s : State) (m : OutMsg) : (s.emit m).ramFlip = s.ramFlip := (rfl)
@[simp] theorem State.emit_deep (s : State) (m : OutMsg) : (s.emit m).deep = s.deep := (rfl)
@[simp] theorem State.emit_deepFlip (s : State) (m : OutMsg) : (s.emit m).deepFlip = s.deepFlip := (rfl)
@[simp] theorem State.emit_coef (s : State) (m : OutMsg) : (s.emit m).coef = s.coef := (rfl)
@[simp] theorem State.emit_coefFlip (s : State) (m : OutMsg) : (s.emit m).coefFlip = s.coefFlip := (rfl)
@[simp] theorem State.emit_bport (s : State) (m : OutMsg) : (s.emit m).bport = s.bport := (rfl)
@[simp] theorem State.emit_blast (s : State) (m : OutMsg) : (s.emit m).blast = s.blast := (rfl)
@[simp] theorem State.emit_slices (s : State) (m : OutMsg) : (s.emit m).slices = s.slices := (rfl)
@[simp] theorem State.emit_snap (s : State) (m : OutMsg) : (s.emit m).snap = s.snap := (rfl)
@[simp] theorem State.emit_xr (s : State) (m : OutMsg) : (s.emit m).xr = s.xr := (rfl)
@[simp] theorem State.emit_xe (s : State) (m : OutMsg) : (s.emit m).xe = s.xe := (rfl)
@[simp] theorem State.emit_xidx (s : State) (m : OutMsg) : (s.emit m).xidx = s.xidx := (rfl)
@[simp] theorem State.emit_xfail (s : State) (m : OutMsg) : (s.emit m).xfail = s.xfail := (rfl)
@[simp] theorem State.emit_link (s : State) (m : OutMsg) : (s.emit m).link = s.link := (rfl)
@[simp] theorem State.emit_clk (s : State) (m : OutMsg) : (s.emit m).clk = s.clk := (rfl)
@[simp] theorem State.emit_tokens (s : State) (m : OutMsg) : (s.emit m).tokens = s.tokens := (rfl)
@[simp] theorem State.emit_answers (s : State) (m : OutMsg) : (s.emit m).answers = s.answers := (rfl)
@[simp] theorem State.emit_oos (s : State) (m : OutMsg) : (s.emit m).oos = s.oos := (rfl)
@[simp] theorem State.emit_repair (s : State) (m : OutMsg) : (s.emit m).repair = s.repair := (rfl)
@[simp] theorem State.emit_remap (s : State) (m : OutMsg) : (s.emit m).remap = s.remap := (rfl)
@[simp] theorem State.emit_store (s : State) (m : OutMsg) : (s.emit m).store = s.store := (rfl)
@[simp] theorem State.emit_fw (s : State) (m : OutMsg) : (s.emit m).fw = s.fw := (rfl)
@[simp] theorem State.emit_load (s : State) (m : OutMsg) : (s.emit m).load = s.load := (rfl)
@[simp] theorem State.emit_baseSlot (s : State) (m : OutMsg) : (s.emit m).baseSlot = s.baseSlot := (rfl)
@[simp] theorem State.emit_floorTab (s : State) (m : OutMsg) : (s.emit m).floorTab = s.floorTab := (rfl)
@[simp] theorem State.emit_pld (s : State) (m : OutMsg) : (s.emit m).pld = s.pld := (rfl)
@[simp] theorem State.emit_shelf (s : State) (m : OutMsg) : (s.emit m).shelf = s.shelf := (rfl)
@[simp] theorem State.emit_kilnJobs (s : State) (m : OutMsg) : (s.emit m).kilnJobs = s.kilnJobs := (rfl)
@[simp] theorem State.emit_heldReload (s : State) (m : OutMsg) : (s.emit m).heldReload = s.heldReload := (rfl)
@[simp] theorem State.emit_rewrites (s : State) (m : OutMsg) : (s.emit m).rewrites = s.rewrites := (rfl)
@[simp] theorem State.emit_lockNs (s : State) (m : OutMsg) : (s.emit m).lockNs = s.lockNs := (rfl)
@[simp] theorem State.emit_ran39 (s : State) (m : OutMsg) : (s.emit m).ran39 = s.ran39 := (rfl)
@[simp] theorem State.emit_pitches (s : State) (m : OutMsg) : (s.emit m).pitches = s.pitches := (rfl)
@[simp] theorem State.emit_findings (s : State) (m : OutMsg) : (s.emit m).findings = s.findings := (rfl)
@[simp] theorem State.emit_spg (s : State) (m : OutMsg) : (s.emit m).spg = s.spg := (rfl)
@[simp] theorem State.emit_capt (s : State) (m : OutMsg) : (s.emit m).capt = s.capt := (rfl)
@[simp] theorem State.emit_capselBusy (s : State) (m : OutMsg) : (s.emit m).capselBusy = s.capselBusy := (rfl)
@[simp] theorem State.emit_acc (s : State) (m : OutMsg) : (s.emit m).acc = s.acc := (rfl)
@[simp] theorem State.emit_pwrGo (s : State) (m : OutMsg) : (s.emit m).pwrGo = s.pwrGo := (rfl)
@[simp] theorem State.emit_pwrRewr (s : State) (m : OutMsg) : (s.emit m).pwrRewr = s.pwrRewr := (rfl)
@[simp] theorem State.emit_pwrNext (s : State) (m : OutMsg) : (s.emit m).pwrNext = s.pwrNext := (rfl)
@[simp] theorem State.emit_mem (s : State) (m : OutMsg) : (s.emit m).mem = s.mem := (rfl)
@[simp] theorem State.emit_ddr (s : State) (m : OutMsg) : (s.emit m).ddr = s.ddr := (rfl)
@[simp] theorem State.emit_memReqs (s : State) (m : OutMsg) : (s.emit m).memReqs = s.memReqs := (rfl)
@[simp] theorem State.emit_nextReq (s : State) (m : OutMsg) : (s.emit m).nextReq = s.nextReq := (rfl)
@[simp] theorem State.emit_rows (s : State) (m : OutMsg) : (s.emit m).rows = s.rows := (rfl)
@[simp] theorem State.emit_devCnt (s : State) (m : OutMsg) : (s.emit m).devCnt = s.devCnt := (rfl)
@[simp] theorem State.emit_trWait (s : State) (m : OutMsg) : (s.emit m).trWait = s.trWait := (rfl)
@[simp] theorem State.emit_net (s : State) (m : OutMsg) : (s.emit m).net = s.net := (rfl)
@[simp] theorem State.emit_held (s : State) (m : OutMsg) : (s.emit m).held = s.held := (rfl)
@[simp] theorem State.emit_dnp (s : State) (m : OutMsg) : (s.emit m).dnp = s.dnp := (rfl)
@[simp] theorem State.emit_netWait (s : State) (m : OutMsg) : (s.emit m).netWait = s.netWait := (rfl)
@[simp] theorem State.emit_rb (s : State) (m : OutMsg) : (s.emit m).rb = s.rb := (rfl)
@[simp] theorem State.emit_rbGrant (s : State) (m : OutMsg) : (s.emit m).rbGrant = s.rbGrant := (rfl)
@[simp] theorem State.emit_rbRx (s : State) (m : OutMsg) : (s.emit m).rbRx = s.rbRx := (rfl)
@[simp] theorem State.emit_isoHard (s : State) (m : OutMsg) : (s.emit m).isoHard = s.isoHard := (rfl)
@[simp] theorem State.emit_incNow (s : State) (m : OutMsg) : (s.emit m).incNow = s.incNow := (rfl)
@[simp] theorem State.emit_incPend (s : State) (m : OutMsg) : (s.emit m).incPend = s.incPend := (rfl)
@[simp] theorem State.emit_stepPend (s : State) (m : OutMsg) : (s.emit m).stepPend = s.stepPend := (rfl)
@[simp] theorem State.emit_holdAt (s : State) (m : OutMsg) : (s.emit m).holdAt = s.holdAt := (rfl)
@[simp] theorem State.emit_edgeTime (s : State) (m : OutMsg) : (s.emit m).edgeTime = s.edgeTime := (rfl)
@[simp] theorem State.emit_replicas (s : State) (m : OutMsg) : (s.emit m).replicas = s.replicas := (rfl)
@[simp] theorem State.emit_hiLatch (s : State) (m : OutMsg) : (s.emit m).hiLatch = s.hiLatch := (rfl)
@[simp] theorem State.emit_ppsDue (s : State) (m : OutMsg) : (s.emit m).ppsDue = s.ppsDue := (rfl)
@[simp] theorem State.emit_ppsLeft (s : State) (m : OutMsg) : (s.emit m).ppsLeft = s.ppsLeft := (rfl)
@[simp] theorem State.emit_trigLeft (s : State) (m : OutMsg) : (s.emit m).trigLeft = s.trigLeft := (rfl)
@[simp] theorem State.emit_ringQ (s : State) (m : OutMsg) : (s.emit m).ringQ = s.ringQ := (rfl)
@[simp] theorem State.emit_ringOut (s : State) (m : OutMsg) : (s.emit m).ringOut = s.ringOut := (rfl)
@[simp] theorem State.emit_tsSeq (s : State) (m : OutMsg) : (s.emit m).tsSeq = s.tsSeq := (rfl)
@[simp] theorem State.emit_pathsOut (s : State) (m : OutMsg) : (s.emit m).pathsOut = s.pathsOut := (rfl)
@[simp] theorem State.emit_tmr (s : State) (m : OutMsg) : (s.emit m).tmr = s.tmr := (rfl)
@[simp] theorem State.emit_lines (s : State) (m : OutMsg) : (s.emit m).lines = s.lines := (rfl)
@[simp] theorem State.emit_adv (s : State) (m : OutMsg) : (s.emit m).adv = s.adv := (rfl)
@[simp] theorem State.emit_resAcc (s : State) (m : OutMsg) : (s.emit m).resAcc = s.resAcc := (rfl)
@[simp] theorem State.emit_resFrom (s : State) (m : OutMsg) : (s.emit m).resFrom = s.resFrom := (rfl)
@[simp] theorem State.emit_secHi (s : State) (m : OutMsg) : (s.emit m).secHi = s.secHi := (rfl)
@[simp] theorem State.emit_fuses (s : State) (m : OutMsg) : (s.emit m).fuses = s.fuses := (rfl)
@[simp] theorem State.emit_fuseNow (s : State) (m : OutMsg) : (s.emit m).fuseNow = s.fuseNow := (rfl)
@[simp] theorem State.emit_keyRam (s : State) (m : OutMsg) : (s.emit m).keyRam = s.keyRam := (rfl)
@[simp] theorem State.emit_jtag (s : State) (m : OutMsg) : (s.emit m).jtag = s.jtag := (rfl)
@[simp] theorem State.emit_railsBad (s : State) (m : OutMsg) : (s.emit m).railsBad = s.railsBad := (rfl)
@[simp] theorem State.emit_wortIso (s : State) (m : OutMsg) : (s.emit m).wortIso = s.wortIso := (rfl)
@[simp] theorem State.emit_memp (s : State) (m : OutMsg) : (s.emit m).memp = s.memp := (rfl)
@[simp] theorem State.emit_hostPages (s : State) (m : OutMsg) : (s.emit m).hostPages = s.hostPages := (rfl)
@[simp] theorem State.emit_flips (s : State) (m : OutMsg) : (s.emit m).flips = s.flips := (rfl)
@[simp] theorem State.emit_resolves (s : State) (m : OutMsg) : (s.emit m).resolves = s.resolves := (rfl)
@[simp] theorem State.emit_biasCmd (s : State) (m : OutMsg) : (s.emit m).biasCmd = s.biasCmd := (rfl)
@[simp] theorem State.emit_hcache (s : State) (m : OutMsg) : (s.emit m).hcache = s.hcache := (rfl)
@[simp] theorem State.emit_cohReqs (s : State) (m : OutMsg) : (s.emit m).cohReqs = s.cohReqs := (rfl)
@[simp] theorem State.emit_cohNext (s : State) (m : OutMsg) : (s.emit m).cohNext = s.cohNext := (rfl)
@[simp] theorem State.emit_cohOps (s : State) (m : OutMsg) : (s.emit m).cohOps = s.cohOps := (rfl)
@[simp] theorem State.emit_hdm (s : State) (m : OutMsg) : (s.emit m).hdm = s.hdm := (rfl)
@[simp] theorem State.emit_hdmErr (s : State) (m : OutMsg) : (s.emit m).hdmErr = s.hdmErr := (rfl)
@[simp] theorem State.emit_hostTx (s : State) (m : OutMsg) : (s.emit m).hostTx = s.hostTx := (rfl)
@[simp] theorem State.emit_barRds (s : State) (m : OutMsg) : (s.emit m).barRds = s.barRds := (rfl)
@[simp] theorem State.emit_laneTx (s : State) (m : OutMsg) : (s.emit m).laneTx = s.laneTx := (rfl)
@[simp] theorem State.emit_laneRx (s : State) (m : OutMsg) : (s.emit m).laneRx = s.laneRx := (rfl)
@[simp] theorem State.emit_laneExit (s : State) (m : OutMsg) : (s.emit m).laneExit = s.laneExit := (rfl)
@[simp] theorem State.emit_bond (s : State) (m : OutMsg) : (s.emit m).bond = s.bond := (rfl)
@[simp] theorem State.emit_laneCnt (s : State) (m : OutMsg) : (s.emit m).laneCnt = s.laneCnt := (rfl)
@[simp] theorem State.emit_chkBits (s : State) (m : OutMsg) : (s.emit m).chkBits = s.chkBits := (rfl)
@[simp] theorem State.emit_wort (s : State) (m : OutMsg) : (s.emit m).wort = s.wort := (rfl)

@[simp] theorem State.free_part (s : State) : s.free.2.part = s.part := (rfl)
@[simp] theorem State.free_regs (s : State) : s.free.2.regs = s.regs := (rfl)
@[simp] theorem State.free_out (s : State) : s.free.2.out = s.out := (rfl)
@[simp] theorem State.free_pending (s : State) : s.free.2.pending = s.pending := (rfl)
@[simp] theorem State.free_perst (s : State) : s.free.2.perst = s.perst := (rfl)
@[simp] theorem State.free_root (s : State) : s.free.2.root = s.root := (rfl)
@[simp] theorem State.free_trim (s : State) : s.free.2.trim = s.trim := (rfl)
@[simp] theorem State.free_evDone (s : State) : s.free.2.evDone = s.evDone := (rfl)
@[simp] theorem State.free_msixEn (s : State) : s.free.2.msixEn = s.msixEn := (rfl)
@[simp] theorem State.free_msixTab (s : State) : s.free.2.msixTab = s.msixTab := (rfl)
@[simp] theorem State.free_msixPba (s : State) : s.free.2.msixPba = s.msixPba := (rfl)
@[simp] theorem State.free_msixHeld (s : State) : s.free.2.msixHeld = s.msixHeld := (rfl)
@[simp] theorem State.free_evFifo (s : State) : s.free.2.evFifo = s.evFifo := (rfl)
@[simp] theorem State.free_caskQ (s : State) : s.free.2.caskQ = s.caskQ := (rfl)
@[simp] theorem State.free_pos (s : State) : s.free.2.pos = s.pos := (rfl)
@[simp] theorem State.free_cfg (s : State) : s.free.2.cfg = s.cfg := (rfl)
@[simp] theorem State.free_base (s : State) : s.free.2.base = s.base := (rfl)
@[simp] theorem State.free_shelfF (s : State) : s.free.2.shelfF = s.shelfF := (rfl)
@[simp] theorem State.free_q (s : State) : s.free.2.q = s.q := (rfl)
@[simp] theorem State.free_srOn (s : State) : s.free.2.srOn = s.srOn := (rfl)
@[simp] theorem State.free_shadow (s : State) : s.free.2.shadow = s.shadow := (rfl)
@[simp] theorem State.free_frozen (s : State) : s.free.2.frozen = s.frozen := (rfl)
@[simp] theorem State.free_ram (s : State) : s.free.2.ram = s.ram := (rfl)
@[simp] theorem State.free_ramFlip (s : State) : s.free.2.ramFlip = s.ramFlip := (rfl)
@[simp] theorem State.free_deep (s : State) : s.free.2.deep = s.deep := (rfl)
@[simp] theorem State.free_deepFlip (s : State) : s.free.2.deepFlip = s.deepFlip := (rfl)
@[simp] theorem State.free_coef (s : State) : s.free.2.coef = s.coef := (rfl)
@[simp] theorem State.free_coefFlip (s : State) : s.free.2.coefFlip = s.coefFlip := (rfl)
@[simp] theorem State.free_bport (s : State) : s.free.2.bport = s.bport := (rfl)
@[simp] theorem State.free_blast (s : State) : s.free.2.blast = s.blast := (rfl)
@[simp] theorem State.free_slices (s : State) : s.free.2.slices = s.slices := (rfl)
@[simp] theorem State.free_snap (s : State) : s.free.2.snap = s.snap := (rfl)
@[simp] theorem State.free_xr (s : State) : s.free.2.xr = s.xr := (rfl)
@[simp] theorem State.free_xe (s : State) : s.free.2.xe = s.xe := (rfl)
@[simp] theorem State.free_xidx (s : State) : s.free.2.xidx = s.xidx := (rfl)
@[simp] theorem State.free_xfail (s : State) : s.free.2.xfail = s.xfail := (rfl)
@[simp] theorem State.free_link (s : State) : s.free.2.link = s.link := (rfl)
@[simp] theorem State.free_clk (s : State) : s.free.2.clk = s.clk := (rfl)
@[simp] theorem State.free_tokens (s : State) : s.free.2.tokens = s.tokens := (rfl)
@[simp] theorem State.free_answers (s : State) : s.free.2.answers = s.answers := (rfl)
@[simp] theorem State.free_oos (s : State) : s.free.2.oos = s.oos := (rfl)
@[simp] theorem State.free_repair (s : State) : s.free.2.repair = s.repair := (rfl)
@[simp] theorem State.free_remap (s : State) : s.free.2.remap = s.remap := (rfl)
@[simp] theorem State.free_store (s : State) : s.free.2.store = s.store := (rfl)
@[simp] theorem State.free_fw (s : State) : s.free.2.fw = s.fw := (rfl)
@[simp] theorem State.free_load (s : State) : s.free.2.load = s.load := (rfl)
@[simp] theorem State.free_baseSlot (s : State) : s.free.2.baseSlot = s.baseSlot := (rfl)
@[simp] theorem State.free_floorTab (s : State) : s.free.2.floorTab = s.floorTab := (rfl)
@[simp] theorem State.free_pld (s : State) : s.free.2.pld = s.pld := (rfl)
@[simp] theorem State.free_shelf (s : State) : s.free.2.shelf = s.shelf := (rfl)
@[simp] theorem State.free_kilnJobs (s : State) : s.free.2.kilnJobs = s.kilnJobs := (rfl)
@[simp] theorem State.free_heldReload (s : State) : s.free.2.heldReload = s.heldReload := (rfl)
@[simp] theorem State.free_rewrites (s : State) : s.free.2.rewrites = s.rewrites := (rfl)
@[simp] theorem State.free_lockNs (s : State) : s.free.2.lockNs = s.lockNs := (rfl)
@[simp] theorem State.free_ran39 (s : State) : s.free.2.ran39 = s.ran39 := (rfl)
@[simp] theorem State.free_pitches (s : State) : s.free.2.pitches = s.pitches := (rfl)
@[simp] theorem State.free_findings (s : State) : s.free.2.findings = s.findings := (rfl)
@[simp] theorem State.free_spg (s : State) : s.free.2.spg = s.spg := (rfl)
@[simp] theorem State.free_capt (s : State) : s.free.2.capt = s.capt := (rfl)
@[simp] theorem State.free_capselBusy (s : State) : s.free.2.capselBusy = s.capselBusy := (rfl)
@[simp] theorem State.free_acc (s : State) : s.free.2.acc = s.acc := (rfl)
@[simp] theorem State.free_pwrGo (s : State) : s.free.2.pwrGo = s.pwrGo := (rfl)
@[simp] theorem State.free_pwrRewr (s : State) : s.free.2.pwrRewr = s.pwrRewr := (rfl)
@[simp] theorem State.free_pwrNext (s : State) : s.free.2.pwrNext = s.pwrNext := (rfl)
@[simp] theorem State.free_mem (s : State) : s.free.2.mem = s.mem := (rfl)
@[simp] theorem State.free_ddr (s : State) : s.free.2.ddr = s.ddr := (rfl)
@[simp] theorem State.free_memReqs (s : State) : s.free.2.memReqs = s.memReqs := (rfl)
@[simp] theorem State.free_nextReq (s : State) : s.free.2.nextReq = s.nextReq := (rfl)
@[simp] theorem State.free_rows (s : State) : s.free.2.rows = s.rows := (rfl)
@[simp] theorem State.free_devCnt (s : State) : s.free.2.devCnt = s.devCnt := (rfl)
@[simp] theorem State.free_trWait (s : State) : s.free.2.trWait = s.trWait := (rfl)
@[simp] theorem State.free_net (s : State) : s.free.2.net = s.net := (rfl)
@[simp] theorem State.free_held (s : State) : s.free.2.held = s.held := (rfl)
@[simp] theorem State.free_dnp (s : State) : s.free.2.dnp = s.dnp := (rfl)
@[simp] theorem State.free_netWait (s : State) : s.free.2.netWait = s.netWait := (rfl)
@[simp] theorem State.free_rb (s : State) : s.free.2.rb = s.rb := (rfl)
@[simp] theorem State.free_rbGrant (s : State) : s.free.2.rbGrant = s.rbGrant := (rfl)
@[simp] theorem State.free_rbRx (s : State) : s.free.2.rbRx = s.rbRx := (rfl)
@[simp] theorem State.free_isoHard (s : State) : s.free.2.isoHard = s.isoHard := (rfl)
@[simp] theorem State.free_incNow (s : State) : s.free.2.incNow = s.incNow := (rfl)
@[simp] theorem State.free_incPend (s : State) : s.free.2.incPend = s.incPend := (rfl)
@[simp] theorem State.free_stepPend (s : State) : s.free.2.stepPend = s.stepPend := (rfl)
@[simp] theorem State.free_holdAt (s : State) : s.free.2.holdAt = s.holdAt := (rfl)
@[simp] theorem State.free_edgeTime (s : State) : s.free.2.edgeTime = s.edgeTime := (rfl)
@[simp] theorem State.free_replicas (s : State) : s.free.2.replicas = s.replicas := (rfl)
@[simp] theorem State.free_hiLatch (s : State) : s.free.2.hiLatch = s.hiLatch := (rfl)
@[simp] theorem State.free_ppsDue (s : State) : s.free.2.ppsDue = s.ppsDue := (rfl)
@[simp] theorem State.free_ppsLeft (s : State) : s.free.2.ppsLeft = s.ppsLeft := (rfl)
@[simp] theorem State.free_trigLeft (s : State) : s.free.2.trigLeft = s.trigLeft := (rfl)
@[simp] theorem State.free_ringQ (s : State) : s.free.2.ringQ = s.ringQ := (rfl)
@[simp] theorem State.free_ringOut (s : State) : s.free.2.ringOut = s.ringOut := (rfl)
@[simp] theorem State.free_tsSeq (s : State) : s.free.2.tsSeq = s.tsSeq := (rfl)
@[simp] theorem State.free_pathsOut (s : State) : s.free.2.pathsOut = s.pathsOut := (rfl)
@[simp] theorem State.free_tmr (s : State) : s.free.2.tmr = s.tmr := (rfl)
@[simp] theorem State.free_lines (s : State) : s.free.2.lines = s.lines := (rfl)
@[simp] theorem State.free_adv (s : State) : s.free.2.adv = s.adv := (rfl)
@[simp] theorem State.free_resAcc (s : State) : s.free.2.resAcc = s.resAcc := (rfl)
@[simp] theorem State.free_resFrom (s : State) : s.free.2.resFrom = s.resFrom := (rfl)
@[simp] theorem State.free_secHi (s : State) : s.free.2.secHi = s.secHi := (rfl)
@[simp] theorem State.free_fuses (s : State) : s.free.2.fuses = s.fuses := (rfl)
@[simp] theorem State.free_fuseNow (s : State) : s.free.2.fuseNow = s.fuseNow := (rfl)
@[simp] theorem State.free_keyRam (s : State) : s.free.2.keyRam = s.keyRam := (rfl)
@[simp] theorem State.free_jtag (s : State) : s.free.2.jtag = s.jtag := (rfl)
@[simp] theorem State.free_railsBad (s : State) : s.free.2.railsBad = s.railsBad := (rfl)
@[simp] theorem State.free_wortIso (s : State) : s.free.2.wortIso = s.wortIso := (rfl)
@[simp] theorem State.free_memp (s : State) : s.free.2.memp = s.memp := (rfl)
@[simp] theorem State.free_hostPages (s : State) : s.free.2.hostPages = s.hostPages := (rfl)
@[simp] theorem State.free_flips (s : State) : s.free.2.flips = s.flips := (rfl)
@[simp] theorem State.free_resolves (s : State) : s.free.2.resolves = s.resolves := (rfl)
@[simp] theorem State.free_biasCmd (s : State) : s.free.2.biasCmd = s.biasCmd := (rfl)
@[simp] theorem State.free_hcache (s : State) : s.free.2.hcache = s.hcache := (rfl)
@[simp] theorem State.free_cohReqs (s : State) : s.free.2.cohReqs = s.cohReqs := (rfl)
@[simp] theorem State.free_cohNext (s : State) : s.free.2.cohNext = s.cohNext := (rfl)
@[simp] theorem State.free_cohOps (s : State) : s.free.2.cohOps = s.cohOps := (rfl)
@[simp] theorem State.free_hdm (s : State) : s.free.2.hdm = s.hdm := (rfl)
@[simp] theorem State.free_hdmErr (s : State) : s.free.2.hdmErr = s.hdmErr := (rfl)
@[simp] theorem State.free_hostTx (s : State) : s.free.2.hostTx = s.hostTx := (rfl)
@[simp] theorem State.free_barRds (s : State) : s.free.2.barRds = s.barRds := (rfl)
@[simp] theorem State.free_laneTx (s : State) : s.free.2.laneTx = s.laneTx := (rfl)
@[simp] theorem State.free_laneRx (s : State) : s.free.2.laneRx = s.laneRx := (rfl)
@[simp] theorem State.free_laneExit (s : State) : s.free.2.laneExit = s.laneExit := (rfl)
@[simp] theorem State.free_bond (s : State) : s.free.2.bond = s.bond := (rfl)
@[simp] theorem State.free_laneCnt (s : State) : s.free.2.laneCnt = s.laneCnt := (rfl)
@[simp] theorem State.free_chkBits (s : State) : s.free.2.chkBits = s.chkBits := (rfl)
@[simp] theorem State.free_wort (s : State) : s.free.2.wort = s.wort := (rfl)

@[simp] theorem State.emit_out (s : State) (m : OutMsg) : (s.emit m).out = s.out ++ [m] := (rfl)
@[simp] theorem State.free_freeCtr (s : State) : s.free.2.freeCtr = s.freeCtr + 1 := (rfl)
@[simp] theorem State.free_fst (s : State) : s.free.1 = Config.freeNat s.freeCtr := (rfl)
@[simp] theorem State.getF_emit (s : State) (m : OutMsg) (f : Fld) (i j : Nat) : (s.emit m).getF f i j = s.getF f i j := (rfl)
@[simp] theorem State.getF_free (s : State) (f : Fld) (i j : Nat) : s.free.2.getF f i j = s.getF f i j := (rfl)

/-! ## Register fields -/

theorem Fld.ctorIdx_inj {f g : Fld} (h : f.ctorIdx = g.ctorIdx) : f = g := by
  rw [← Fld.ofNat_ctorIdx f, h, Fld.ofNat_ctorIdx]

theorem regKey_fld (f : Fld) (i j : Nat) : regKey f i j / 0x10000000000 = f.ctorIdx := by
  simp only [regKey]
  omega

theorem regKey_fst (f : Fld) (i j : Nat) : regKey f i j / 0x100000 % 0x100000 = i % 0x100000 := by
  simp only [regKey]
  omega

theorem regKey_snd (f : Fld) (i j : Nat) : regKey f i j % 0x100000 = j % 0x100000 := by
  simp only [regKey]
  omega

/-- Two instances of fields share a key only if the field and the instance are the same. -/
theorem regKey_inj {f g : Fld} {i j a b : Nat} (h : regKey f i j = regKey g a b) :
    f = g ∧ i % 0x100000 = a % 0x100000 ∧ j % 0x100000 = b % 0x100000 := by
  have h1 := congrArg (· / 0x10000000000) h
  have h2 := congrArg (fun n => n / 0x100000 % 0x100000) h
  have h3 := congrArg (· % 0x100000) h
  simp only [regKey_fld, regKey_fst, regKey_snd] at h1 h2 h3
  exact ⟨Fld.ctorIdx_inj h1, h2, h3⟩

/-- A field reads what was written to it, cut to its width. -/
@[simp] theorem State.getF_setF_self (s : State) (f : Fld) (v i j : Nat) :
    (s.setF f v i j).getF f i j = v % 2 ^ f.info.len := SMap.get_set_self _ _ _ _

theorem State.getF_setF_of_key_ne (s : State) {f g : Fld} (v : Nat) {i j a b : Nat} (h : regKey g a b ≠ regKey f i j) :
    (s.setF f v i j).getF g a b = s.getF g a b := SMap.get_set_ne _ _ _ h

/-- Writing one field leaves every instance of another alone. -/
@[simp] theorem State.getF_setF_ne (s : State) {f g : Fld} (v i j a b : Nat) (h : g ≠ f) :
    (s.setF f v i j).getF g a b = s.getF g a b :=
  s.getF_setF_of_key_ne v fun e => h (regKey_inj e).1

/-- Writing one instance of a field leaves the others alone. -/
theorem State.getF_setF_ne_fst (s : State) (f g : Fld) (v : Nat) {i j a b : Nat} (h : a % 0x100000 ≠ i % 0x100000) :
    (s.setF f v i j).getF g a b = s.getF g a b :=
  s.getF_setF_of_key_ne v fun e => h (regKey_inj e).2.1

theorem State.getF_setF_ne_snd (s : State) (f g : Fld) (v : Nat) {i j a b : Nat} (h : b % 0x100000 ≠ j % 0x100000) :
    (s.setF f v i j).getF g a b = s.getF g a b :=
  s.getF_setF_of_key_ne v fun e => h (regKey_inj e).2.2

/-- A write of a field keeps the register store canonical. -/
theorem State.wf_setF (s : State) (f : Fld) (v i j : Nat) (w : SMap.wf (regDefault s.part) s.regs = true) :
    SMap.wf (regDefault (s.setF f v i j).part) (s.setF f v i j).regs = true := SMap.wf_set _ _ w

theorem State.getF_setF (s : State) (f : Fld) (v i j : Nat) (g : Fld) (a b : Nat) :
    (s.setF f v i j).getF g a b =
      if g = f ∧ a % 0x100000 = i % 0x100000 ∧ b % 0x100000 = j % 0x100000 then v % 2 ^ f.info.len else s.getF g a b := by
  split
  · rename_i h
    obtain ⟨rfl, ha, hb⟩ := h
    have : regKey g a b = regKey g i j := by simp only [regKey, ha, hb]
    simp only [State.getF, this]
    exact s.getF_setF_self g v i j
  · rename_i h
    exact s.getF_setF_of_key_ne v fun e => h (regKey_inj e)

/-- A field that was reset reads its reset value, and the others stay. -/
theorem State.getF_resetFields (s : State) (p : Fld → Nat → Nat → Bool) (f : Fld) (i j : Nat) :
    (s.resetFields p).getF f i j =
      if p f (i % 0x100000) (j % 0x100000) then regDefault s.part (regKey f i j) else s.getF f i j := by
  simp only [State.resetFields, State.getF, SMap.get_clearWhere, regKey_fld, regKey_fst, regKey_snd, Fld.ofNat_ctorIdx]

/-! ## Single bits of a field -/

theorem testBit_two_pow_add_ne {m b c : Nat} (h : m.testBit b = false) (hc : c ≠ b) : (2 ^ b + m).testBit c = m.testBit c := by
  have hd : m / 2 ^ b % 2 = 0 := by
    rw [Nat.testBit_eq_decide_div_mod_eq] at h
    simp only [decide_eq_false_iff_not] at h
    omega
  obtain ⟨q, hq⟩ : ∃ q, m / 2 ^ b = 2 * q := ⟨m / 2 ^ b / 2, by omega⟩
  have hlt : m % 2 ^ b < 2 ^ b := Nat.mod_lt _ (Nat.two_pow_pos b)
  have hm : m = 2 ^ b * (2 * q) + m % 2 ^ b := by rw [← hq]; exact (Nat.div_add_mod m (2 ^ b)).symm
  have hs : 2 ^ b + m = 2 ^ b * (2 * q + 1) + m % 2 ^ b := by rw [Nat.mul_add, Nat.mul_one]; omega
  rw [hs, Nat.testBit_two_pow_mul_add _ hlt]
  conv_rhs => rw [hm, Nat.testBit_two_pow_mul_add _ hlt]
  split
  · rfl
  · rename_i h'
    obtain ⟨k, hk⟩ : ∃ k, c - b = k + 1 := ⟨c - b - 1, by omega⟩
    rw [hk, Nat.testBit_succ, Nat.testBit_succ]
    congr 1
    omega

theorem setBit_testBit_self (n b : Nat) (v : Bool) : (setBit n b v).testBit b = v := by
  simp only [setBit]
  split
  · assumption
  · rename_i h
    split
    · rename_i hv
      subst hv
      rw [Nat.add_comm, Nat.testBit_two_pow_add_eq]
      simpa using h
    · rename_i hv
      have hn : n.testBit b = true := by
        cases hb : n.testBit b <;> simp_all
      have hle : 2 ^ b ≤ n := Nat.ge_two_pow_of_testBit hn
      have : (2 ^ b + (n - 2 ^ b)).testBit b = true := by rwa [Nat.add_sub_cancel' hle]
      rw [Nat.testBit_two_pow_add_eq] at this
      simp_all

theorem setBit_testBit_ne (n : Nat) {b c : Nat} (v : Bool) (hc : c ≠ b) : (setBit n b v).testBit c = n.testBit c := by
  simp only [setBit]
  split
  · rfl
  · rename_i h
    split
    · rename_i hv
      subst hv
      rw [Nat.add_comm, testBit_two_pow_add_ne (by simpa using h) hc]
    · rename_i hv
      have hn : n.testBit b = true := by
        cases hb : n.testBit b <;> simp_all
      have hle : 2 ^ b ≤ n := Nat.ge_two_pow_of_testBit hn
      have hb : (2 ^ b + (n - 2 ^ b)).testBit b = true := by rwa [Nat.add_sub_cancel' hle]
      rw [Nat.testBit_two_pow_add_eq] at hb
      have := testBit_two_pow_add_ne (m := n - 2 ^ b) (by simpa using hb) hc
      rw [Nat.add_sub_cancel' hle] at this
      exact this.symm

/-- A bit of a field reads what it was forced to. -/
@[simp] theorem State.bitF_setBitF_self (s : State) (f : Fld) (b : Nat) (v : Bool) (i j : Nat) (h : b < f.info.len) :
    (s.setBitF f b v i j).bitF f b i j = v := by
  simp only [State.bitF, State.setBitF, State.getF, State.setF, SMap.get_set_self, Nat.testBit_mod_two_pow, h, decide_true,
    Bool.true_and, setBit_testBit_self]

/-- Forcing one bit leaves the others of the field alone. -/
theorem State.bitF_setBitF_ne (s : State) (f : Fld) {b c : Nat} (v : Bool) (i j : Nat) (h : c < f.info.len) (hc : c ≠ b) :
    (s.setBitF f b v i j).bitF f c i j = s.bitF f c i j := by
  simp only [State.bitF, State.setBitF, State.getF, State.setF, SMap.get_set_self, Nat.testBit_mod_two_pow, h, decide_true,
    Bool.true_and, setBit_testBit_ne _ _ hc]

end Sys2Proof.Machine
end

