-- ==== Sys2Proof/Laws/Events.lean ====
section
/-! SUPPORT. What a raise of an event source does (R468), and how the frames of the claims compose. -/

namespace Sys2Proof.Machine

theorem SameBut.refl (ks : List FKey) (s : State) : SameBut ks s s := fun _ _ _ _ => rfl

theorem SameBut.trans {ks ls : List FKey} {s t u : State} (h : SameBut ks s t) (h' : SameBut ls t u) :
    SameBut (ks ++ ls) s u := fun f i j hn => by
  rw [List.mem_append, not_or] at hn
  exact (h' f i j hn.2).trans (h f i j hn.1)

theorem SameBut.mono {ks ls : List FKey} {s t : State} (h : SameBut ks s t) (hs : ∀ k ∈ ks, k ∈ ls) : SameBut ls s t :=
  fun f i j hn => h f i j fun hk => hn (hs _ hk)

/-- What reads like the state before a write and not at the written field is framed by that field. -/
theorem SameBut.setF (s : State) (f : Fld) (v i j : Nat) : SameBut [fk f i j] s (s.setF f v i j) := fun g a b hn => by
  rw [State.getF_setF, if_neg]
  rintro ⟨rfl, ha, hb⟩
  exact hn (by simp [fk, ha, hb])

/-- A field of which no instance is in the list reads as before. -/
theorem SameBut.fld {ks : List FKey} {s t : State} (h : SameBut ks s t) (f : Fld) (i j : Nat) (hf : ∀ k ∈ ks, k.1 ≠ f) :
    t.getF f i j = s.getF f i j := h f i j fun hk => hf _ hk rfl

theorem SameBut.emit {ks : List FKey} {s t : State} (h : SameBut ks s t) (m : OutMsg) : SameBut ks s (t.emit m) :=
  fun f i j hn => h f i j hn

theorem SameBut.setF_of {ks : List FKey} {s t : State} (h : SameBut ks s t) (f : Fld) (v i j : Nat) :
    SameBut (fk f i j :: ks) s (t.setF f v i j) :=
  (h.trans (SameBut.setF t f v i j)).mono fun k hk => by
    simp only [List.mem_append, List.mem_cons, List.not_mem_nil, or_false] at hk ⊢
    exact hk.symm

/-- A state that agrees with another but for its registers is that one with other registers. -/
theorem eq_of_putBack_regs {s t : State} (h : { t with regs := s.regs } = s) : ∃ r, t = { s with regs := r } :=
  ⟨t.regs, by rw [← h]⟩

theorem eq_of_putBack_regs_out {s t : State} (h : { t with regs := s.regs, out := s.out } = s) :
    ∃ r o, t = { s with regs := r, out := o } := ⟨t.regs, t.out, by rw [← h]⟩

theorem RegsOnly.refl (s : State) : RegsOnly [] s s := ⟨SameBut.refl _ s, rfl⟩

theorem RegsOnly.setF {ks : List FKey} {s t : State} (h : RegsOnly ks s t) (f : Fld) (v i j : Nat) :
    RegsOnly (fk f i j :: ks) s (t.setF f v i j) := by
  obtain ⟨h, e⟩ := h
  obtain ⟨r, rfl⟩ := eq_of_putBack_regs e
  exact ⟨h.setF_of f v i j, rfl⟩

theorem RegsOnly.mono {ks ls : List FKey} {s t : State} (h : RegsOnly ks s t) (hs : ∀ k ∈ ks, k ∈ ls) : RegsOnly ls s t :=
  ⟨h.1.mono hs, h.2⟩

theorem RegsOnly.andOut {ks : List FKey} {s t : State} (h : RegsOnly ks s t) : RegsAndOut ks s t := by
  obtain ⟨h, e⟩ := h
  obtain ⟨r, rfl⟩ := eq_of_putBack_regs e
  exact ⟨h, rfl⟩

theorem RegsAndOut.refl (s : State) : RegsAndOut [] s s := ⟨SameBut.refl _ s, rfl⟩

theorem RegsAndOut.setF {ks : List FKey} {s t : State} (h : RegsAndOut ks s t) (f : Fld) (v i j : Nat) :
    RegsAndOut (fk f i j :: ks) s (t.setF f v i j) := by
  obtain ⟨h, e⟩ := h
  obtain ⟨r, o, rfl⟩ := eq_of_putBack_regs_out e
  exact ⟨h.setF_of f v i j, rfl⟩

theorem RegsAndOut.emit {ks : List FKey} {s t : State} (h : RegsAndOut ks s t) (m : OutMsg) :
    RegsAndOut ks s (t.emit m) := by
  obtain ⟨h, e⟩ := h
  obtain ⟨r, o, rfl⟩ := eq_of_putBack_regs_out e
  exact ⟨h.emit m, rfl⟩

theorem RegsAndOut.mono {ks ls : List FKey} {s t : State} (h : RegsAndOut ks s t) (hs : ∀ k ∈ ks, k ∈ ls) :
    RegsAndOut ls s t := ⟨h.1.mono hs, h.2⟩

theorem RegsAndOut.trans {ks ls : List FKey} {s t u : State} (h : RegsAndOut ks s t) (h' : RegsAndOut ls t u) :
    RegsAndOut (ks ++ ls) s u := by
  obtain ⟨h, e⟩ := h
  obtain ⟨h', e'⟩ := h'
  obtain ⟨r, o, rfl⟩ := eq_of_putBack_regs_out e
  obtain ⟨r', o', rfl⟩ := eq_of_putBack_regs_out e'
  exact ⟨h.trans h', rfl⟩

/-- A raise as a chain of field writes and one message. -/
theorem State.raise_eq (s : State) {e : Nat} (p : Nat) (h : evSource e = true) :
    s.raise e p =
      let t := (((s.setF .evrPayPAYLOAD p e).setF .evrRouteCNT (min (s.getF .evrRouteCNT e + 1) 0x7FFF) e).setF .evrRouteSEEN 1
        e).emit (.fwEvent e p)
      if s.routed e then t.setF .evrRoutePEND 1 e else t := by
  have hc : (s.setF .evrPayPAYLOAD p e).getF .evrRouteCNT e = s.getF .evrRouteCNT e :=
    State.getF_setF_ne s p e 0 e 0 (by simp)
  simp only [State.raise, h, State.count, State.setOn, hc]
  rfl

/-- A raise of a source does what R468 says, and nothing else. -/
theorem State.raise_spec (s : State) {e : Nat} (p : Nat) (h : evSource e = true) :
    Raised e p s (s.raise e p) ∧ RegsAndOut (evKeys e) s (s.raise e p) := by
  have hl : Fld.evrRouteCNT.info.len = 15 := rfl
  have h1 : Fld.evrRouteSEEN.info.len = 1 := rfl
  have h2 : Fld.evrRoutePEND.info.len = 1 := rfl
  have h3 : Fld.evrPayPAYLOAD.info.len = 64 := rfl
  have hm : min (s.getF .evrRouteCNT e 0 + 1) 0x7FFF % 2 ^ 15 = min (s.getF .evrRouteCNT e 0 + 1) 0x7FFF := by omega
  have h4 : RegsAndOut [fk .evrRouteSEEN e, fk .evrRouteCNT e, fk .evrPayPAYLOAD e] s
      ((((s.setF .evrPayPAYLOAD p e).setF .evrRouteCNT (min (s.getF .evrRouteCNT e + 1) 0x7FFF) e).setF .evrRouteSEEN 1
        e).emit (.fwEvent e p)) :=
    ((((RegsAndOut.refl s).setF _ _ _ _).setF _ _ _ _).setF _ _ _ _).emit _
  rw [State.raise_eq s p h]
  by_cases hr : s.routed e = true
  · simp only [if_pos hr]
    refine ⟨⟨?_, ?_, ?_, ?_, ?_⟩, ?_⟩
    · rw [State.getF_setF_ne _ _ _ _ _ _ (by simp), State.getF_emit, State.getF_setF_ne _ _ _ _ _ _ (by simp),
        State.getF_setF_ne _ _ _ _ _ _ (by simp), State.getF_setF_self, h3]
    · rw [State.getF_setF_ne _ _ _ _ _ _ (by simp), State.getF_emit, State.getF_setF_ne _ _ _ _ _ _ (by simp),
        State.getF_setF_self, hl, hm]
    · rw [State.getF_setF_ne _ _ _ _ _ _ (by simp), State.getF_emit, State.getF_setF_self, h1]
      rfl
    · rw [State.getF_setF_self, h2, if_pos hr]
      rfl
    · simp only [State.setF_out, State.emit_out]
    · exact (h4.setF _ _ _ _).mono (by simp [evKeys])
  · simp only [if_neg hr]
    refine ⟨⟨?_, ?_, ?_, ?_, ?_⟩, ?_⟩
    · rw [State.getF_emit, State.getF_setF_ne _ _ _ _ _ _ (by simp),
        State.getF_setF_ne _ _ _ _ _ _ (by simp), State.getF_setF_self, h3]
    · rw [State.getF_emit, State.getF_setF_ne _ _ _ _ _ _ (by simp),
        State.getF_setF_self, hl, hm]
    · rw [State.getF_emit, State.getF_setF_self, h1]
      rfl
    · rw [if_neg hr, State.getF_emit, State.getF_setF_ne _ _ _ _ _ _ (by simp), State.getF_setF_ne _ _ _ _ _ _ (by simp),
        State.getF_setF_ne _ _ _ _ _ _ (by simp)]
    · simp only [State.setF_out, State.emit_out]
    · exact h4.mono (by simp [evKeys])

end Sys2Proof.Machine
end

