-- ==== Sys2Proof/Laws/Fields.lean ====
section
/-! SUPPORT. The width of every register field, for simp. -/

namespace Sys2Proof.Machine

@[simp] theorem Fld.tunIdFAMILY_len : Fld.tunIdFAMILY.info.len = 8 := rfl
@[simp] theorem Fld.tunIdPART_len : Fld.tunIdPART.info.len = 8 := rfl
@[simp] theorem Fld.tunIdGRADE_len : Fld.tunIdGRADE.info.len = 2 := rfl
@[simp] theorem Fld.tunIdTEMP_len : Fld.tunIdTEMP.info.len = 1 := rfl
@[simp] theorem Fld.tunIdSTEP_len : Fld.tunIdSTEP.info.len = 4 := rfl
@[simp] theorem Fld.tunSerialSERIAL_len : Fld.tunSerialSERIAL.info.len = 64 := rfl
@[simp] theorem Fld.tunFeat0MEMP_len : Fld.tunFeat0MEMP.info.len = 1 := rfl
@[simp] theorem Fld.tunFeat0CXLCM_len : Fld.tunFeat0CXLCM.info.len = 1 := rfl
@[simp] theorem Fld.tunFeat0GUEST_len : Fld.tunFeat0GUEST.info.len = 1 := rfl
@[simp] theorem Fld.tunFeat0BAR4_len : Fld.tunFeat0BAR4.info.len = 1 := rfl
@[simp] theorem Fld.tunFeatZERO_len : Fld.tunFeatZERO.info.len = 32 := rfl
@[simp] theorem Fld.tunFeatackACK_len : Fld.tunFeatackACK.info.len = 32 := rfl
@[simp] theorem Fld.tunFeatlockLOCK_len : Fld.tunFeatlockLOCK.info.len = 1 := rfl
@[simp] theorem Fld.tunClkenEN_len : Fld.tunClkenEN.info.len = 17 := rfl
@[simp] theorem Fld.tunClkstatCLOCKED_len : Fld.tunClkstatCLOCKED.info.len = 17 := rfl
@[simp] theorem Fld.tunGatehitCOUNT_len : Fld.tunGatehitCOUNT.info.len = 24 := rfl
@[simp] theorem Fld.tunGatehitUNIT_len : Fld.tunGatehitUNIT.info.len = 5 := rfl
@[simp] theorem Fld.tunGatehitSEEN_len : Fld.tunGatehitSEEN.info.len = 1 := rfl
@[simp] theorem Fld.tunGateaddrOFFSET_len : Fld.tunGateaddrOFFSET.info.len = 26 := rfl
@[simp] theorem Fld.tunGateaddrSRC_len : Fld.tunGateaddrSRC.info.len = 4 := rfl
@[simp] theorem Fld.tunGateaddr4OFFSET_len : Fld.tunGateaddr4OFFSET.info.len = 41 := rfl
@[simp] theorem Fld.clkRootcfgREFSEL_len : Fld.clkRootcfgREFSEL.info.len = 1 := rfl
@[simp] theorem Fld.clkRootcfgAUTOSW_len : Fld.clkRootcfgAUTOSW.info.len = 1 := rfl
@[simp] theorem Fld.clkRootstatLOCK_len : Fld.clkRootstatLOCK.info.len = 1 := rfl
@[simp] theorem Fld.clkRootstatCOAST_len : Fld.clkRootstatCOAST.info.len = 1 := rfl
@[simp] theorem Fld.clkRootstatREF0OK_len : Fld.clkRootstatREF0OK.info.len = 1 := rfl
@[simp] theorem Fld.clkRootstatREF1OK_len : Fld.clkRootstatREF1OK.info.len = 1 := rfl
@[simp] theorem Fld.clkRootstatTRIMOK_len : Fld.clkRootstatTRIMOK.info.len = 1 := rfl
@[simp] theorem Fld.clkRootstatCOASTSEEN_len : Fld.clkRootstatCOASTSEEN.info.len = 1 := rfl
@[simp] theorem Fld.clkRootstatREFSWSEEN_len : Fld.clkRootstatREFSWSEEN.info.len = 1 := rfl
@[simp] theorem Fld.clkTroctlENABLE_len : Fld.clkTroctlENABLE.info.len = 1 := rfl
@[simp] theorem Fld.clkTroctlTSRC_len : Fld.clkTroctlTSRC.info.len = 2 := rfl
@[simp] theorem Fld.clkTroctlWINLOG_len : Fld.clkTroctlWINLOG.info.len = 5 := rfl
@[simp] theorem Fld.clkTroctlLPOS_len : Fld.clkTroctlLPOS.info.len = 6 := rfl
@[simp] theorem Fld.clkTroctlLANE_len : Fld.clkTroctlLANE.info.len = 3 := rfl
@[simp] theorem Fld.clkTroctlSRCLOST_len : Fld.clkTroctlSRCLOST.info.len = 1 := rfl
@[simp] theorem Fld.clkTroexpE_len : Fld.clkTroexpE.info.len = 32 := rfl
@[simp] theorem Fld.clkTrotrimTRIM_len : Fld.clkTrotrimTRIM.info.len = 10 := rfl
@[simp] theorem Fld.clkTrotrimLOCKED_len : Fld.clkTrotrimLOCKED.info.len = 1 := rfl
@[simp] theorem Fld.clkTrocntM_len : Fld.clkTrocntM.info.len = 32 := rfl
@[simp] theorem Fld.clkFmctlMSRC_len : Fld.clkFmctlMSRC.info.len = 4 := rfl
@[simp] theorem Fld.clkFmctlGSRC_len : Fld.clkFmctlGSRC.info.len = 4 := rfl
@[simp] theorem Fld.clkFmctlGLOG_len : Fld.clkFmctlGLOG.info.len = 5 := rfl
@[simp] theorem Fld.clkFmctlGATEERR_len : Fld.clkFmctlGATEERR.info.len = 1 := rfl
@[simp] theorem Fld.clkFmctlSTART_len : Fld.clkFmctlSTART.info.len = 1 := rfl
@[simp] theorem Fld.clkFmctlBUSY_len : Fld.clkFmctlBUSY.info.len = 1 := rfl
@[simp] theorem Fld.clkFmctlOVF_len : Fld.clkFmctlOVF.info.len = 1 := rfl
@[simp] theorem Fld.clkFmctlDONE_len : Fld.clkFmctlDONE.info.len = 1 := rfl
@[simp] theorem Fld.clkFmcntCOUNT_len : Fld.clkFmcntCOUNT.info.len = 32 := rfl
@[simp] theorem Fld.pwrCtlRESCLR_len : Fld.pwrCtlRESCLR.info.len = 1 := rfl
@[simp] theorem Fld.pwrDctlREQ_len : Fld.pwrDctlREQ.info.len = 2 := rfl
@[simp] theorem Fld.pwrDctlAUTO_len : Fld.pwrDctlAUTO.info.len = 1 := rfl
@[simp] theorem Fld.pwrDctlWAKE_ON_OFF_len : Fld.pwrDctlWAKE_ON_OFF.info.len = 1 := rfl
@[simp] theorem Fld.pwrDctlAUTORET_len : Fld.pwrDctlAUTORET.info.len = 1 := rfl
@[simp] theorem Fld.pwrDctlIDLE_len : Fld.pwrDctlIDLE.info.len = 14 := rfl
@[simp] theorem Fld.pwrDctlRETIDLE_len : Fld.pwrDctlRETIDLE.info.len = 12 := rfl
@[simp] theorem Fld.pwrDstatSTATE_len : Fld.pwrDstatSTATE.info.len = 2 := rfl
@[simp] theorem Fld.pwrDstatBUSY_len : Fld.pwrDstatBUSY.info.len = 1 := rfl
@[simp] theorem Fld.pwrDstatISO_len : Fld.pwrDstatISO.info.len = 1 := rfl
@[simp] theorem Fld.pwrDstatLASTWAKE_len : Fld.pwrDstatLASTWAKE.info.len = 3 := rfl
@[simp] theorem Fld.pwrDstatREFUSED_len : Fld.pwrDstatREFUSED.info.len = 1 := rfl
@[simp] theorem Fld.pwrDstatERRCODE_len : Fld.pwrDstatERRCODE.info.len = 3 := rfl
@[simp] theorem Fld.pwrDstatSEEN_len : Fld.pwrDstatSEEN.info.len = 1 := rfl
@[simp] theorem Fld.pwrResUS_len : Fld.pwrResUS.info.len = 64 := rfl
@[simp] theorem Fld.nocCtlTMO_len : Fld.nocCtlTMO.info.len = 12 := rfl
@[simp] theorem Fld.nocCtlDRSPTMO_len : Fld.nocCtlDRSPTMO.info.len = 12 := rfl
@[simp] theorem Fld.nocRtctlSWITCH_len : Fld.nocRtctlSWITCH.info.len = 1 := rfl
@[simp] theorem Fld.nocRtctlACTIVE_len : Fld.nocRtctlACTIVE.info.len = 1 := rfl
@[simp] theorem Fld.nocRtctlDRAINING_len : Fld.nocRtctlDRAINING.info.len = 1 := rfl
@[simp] theorem Fld.nocRtctlFORCED_len : Fld.nocRtctlFORCED.info.len = 1 := rfl
@[simp] theorem Fld.nocRtctlDONE_len : Fld.nocRtctlDONE.info.len = 1 := rfl
@[simp] theorem Fld.nocRtctlDRAINMAX_len : Fld.nocRtctlDRAINMAX.info.len = 8 := rfl
@[simp] theorem Fld.nocIsosumPOS_len : Fld.nocIsosumPOS.info.len = 60 := rfl
@[simp] theorem Fld.nocTisoEXT_len : Fld.nocTisoEXT.info.len = 4 := rfl
@[simp] theorem Fld.nocTisoLINK_len : Fld.nocTisoLINK.info.len = 2 := rfl
@[simp] theorem Fld.nocTisoCLREXT_len : Fld.nocTisoCLREXT.info.len = 4 := rfl
@[simp] theorem Fld.nocTisoCLRLINK_len : Fld.nocTisoCLRLINK.info.len = 2 := rfl
@[simp] theorem Fld.nocTisoSEEN_len : Fld.nocTisoSEEN.info.len = 1 := rfl
@[simp] theorem Fld.nocTabsABSORBED_len : Fld.nocTabsABSORBED.info.len = 32 := rfl
@[simp] theorem Fld.nocRbcfgRXBUF_len : Fld.nocRbcfgRXBUF.info.len = 2 := rfl
@[simp] theorem Fld.nocRbcfgTXBUF_len : Fld.nocRbcfgTXBUF.info.len = 2 := rfl
@[simp] theorem Fld.nocRbcfgTXCNT_len : Fld.nocRbcfgTXCNT.info.len = 4 := rfl
@[simp] theorem Fld.nocRbstatSPLITCNT_len : Fld.nocRbstatSPLITCNT.info.len = 16 := rfl
@[simp] theorem Fld.nocRbstatSEGDONE_len : Fld.nocRbstatSEGDONE.info.len = 3 := rfl
@[simp] theorem Fld.nocRbstatFAILSEEN_len : Fld.nocRbstatFAILSEEN.info.len = 1 := rfl
@[simp] theorem Fld.nocGfwctlCLASS_len : Fld.nocGfwctlCLASS.info.len = 4 := rfl
@[simp] theorem Fld.nocGfwctlRATE_len : Fld.nocGfwctlRATE.info.len = 11 := rfl
@[simp] theorem Fld.nocGfwwinlRD_len : Fld.nocGfwwinlRD.info.len = 1 := rfl
@[simp] theorem Fld.nocGfwwinlWR_len : Fld.nocGfwwinlWR.info.len = 1 := rfl
@[simp] theorem Fld.nocGfwwinlBASE_len : Fld.nocGfwwinlBASE.info.len = 36 := rfl
@[simp] theorem Fld.nocGfwwinhLIMIT_len : Fld.nocGfwwinhLIMIT.info.len = 36 := rfl
@[simp] theorem Fld.nocGfwviolADDR_len : Fld.nocGfwviolADDR.info.len = 48 := rfl
@[simp] theorem Fld.nocGfwviolOPC_len : Fld.nocGfwviolOPC.info.len = 4 := rfl
@[simp] theorem Fld.nocGfwviolVN_len : Fld.nocGfwviolVN.info.len = 2 := rfl
@[simp] theorem Fld.nocGfwviolCAUSE_len : Fld.nocGfwviolCAUSE.info.len = 2 := rfl
@[simp] theorem Fld.nocGfwviolSEEN_len : Fld.nocGfwviolSEEN.info.len = 1 := rfl
@[simp] theorem Fld.nocTrtabaPORTS_len : Fld.nocTrtabaPORTS.info.len = 64 := rfl
@[simp] theorem Fld.nocTrtabbPORTS_len : Fld.nocTrtabbPORTS.info.len = 64 := rfl
@[simp] theorem Fld.tmuTimeloFRAC_len : Fld.tmuTimeloFRAC.info.len = 16 := rfl
@[simp] theorem Fld.tmuTimeloNS_len : Fld.tmuTimeloNS.info.len = 30 := rfl
@[simp] theorem Fld.tmuTimeloSECLO_len : Fld.tmuTimeloSECLO.info.len = 16 := rfl
@[simp] theorem Fld.tmuTimehiSECHI_len : Fld.tmuTimehiSECHI.info.len = 32 := rfl
@[simp] theorem Fld.tmuIncINC_len : Fld.tmuIncINC.info.len = 32 := rfl
@[simp] theorem Fld.tmuSteploFRAC_len : Fld.tmuSteploFRAC.info.len = 16 := rfl
@[simp] theorem Fld.tmuSteploNS_len : Fld.tmuSteploNS.info.len = 30 := rfl
@[simp] theorem Fld.tmuSteploSECLO_len : Fld.tmuSteploSECLO.info.len = 16 := rfl
@[simp] theorem Fld.tmuStephiSECHI_len : Fld.tmuStephiSECHI.info.len = 32 := rfl
@[simp] theorem Fld.tmuCorrSTEPGO_len : Fld.tmuCorrSTEPGO.info.len = 1 := rfl
@[simp] theorem Fld.tmuCorrINCPEND_len : Fld.tmuCorrINCPEND.info.len = 1 := rfl
@[simp] theorem Fld.tmuCorrSTEPPEND_len : Fld.tmuCorrSTEPPEND.info.len = 1 := rfl
@[simp] theorem Fld.tmuCorrSTEPERR_len : Fld.tmuCorrSTEPERR.info.len = 1 := rfl
@[simp] theorem Fld.tmuCorrINCERR_len : Fld.tmuCorrINCERR.info.len = 1 := rfl
@[simp] theorem Fld.tmuCorrAPPLIED_len : Fld.tmuCorrAPPLIED.info.len = 1 := rfl
@[simp] theorem Fld.tmuHoldoverINTERVAL_len : Fld.tmuHoldoverINTERVAL.info.len = 16 := rfl
@[simp] theorem Fld.tmuHoldoverACTIVE_len : Fld.tmuHoldoverACTIVE.info.len = 1 := rfl
@[simp] theorem Fld.tmuHoldoverSEEN_len : Fld.tmuHoldoverSEEN.info.len = 1 := rfl
@[simp] theorem Fld.tmuPpsctlEN_len : Fld.tmuPpsctlEN.info.len = 1 := rfl
@[simp] theorem Fld.tmuPpsctlPOL_len : Fld.tmuPpsctlPOL.info.len = 1 := rfl
@[simp] theorem Fld.tmuPpsctlWIDTH_len : Fld.tmuPpsctlWIDTH.info.len = 20 := rfl
@[simp] theorem Fld.tmuPpsctlINEN_len : Fld.tmuPpsctlINEN.info.len = 1 := rfl
@[simp] theorem Fld.tmuPpsctlINEDGE_len : Fld.tmuPpsctlINEDGE.info.len = 1 := rfl
@[simp] theorem Fld.tmuTrigcfgMODE_len : Fld.tmuTrigcfgMODE.info.len = 2 := rfl
@[simp] theorem Fld.tmuTrigcfgEDGE_len : Fld.tmuTrigcfgEDGE.info.len = 2 := rfl
@[simp] theorem Fld.tmuTrigcfgIDLE_len : Fld.tmuTrigcfgIDLE.info.len = 1 := rfl
@[simp] theorem Fld.tmuTrigcfgWIDTH_len : Fld.tmuTrigcfgWIDTH.info.len = 16 := rfl
@[simp] theorem Fld.tmuTsbaseBASE_len : Fld.tmuTsbaseBASE.info.len = 36 := rfl
@[simp] theorem Fld.tmuTscfgEN_len : Fld.tmuTscfgEN.info.len = 1 := rfl
@[simp] theorem Fld.tmuTscfgPITCHTS_len : Fld.tmuTscfgPITCHTS.info.len = 1 := rfl
@[simp] theorem Fld.tmuTscfgLOG2N_len : Fld.tmuTscfgLOG2N.info.len = 5 := rfl
@[simp] theorem Fld.tmuTscfgWM_len : Fld.tmuTscfgWM.info.len = 20 := rfl
@[simp] theorem Fld.tmuTswrWR_len : Fld.tmuTswrWR.info.len = 20 := rfl
@[simp] theorem Fld.tmuTsrdRD_len : Fld.tmuTsrdRD.info.len = 20 := rfl
@[simp] theorem Fld.tmuTsstatLOST_len : Fld.tmuTsstatLOST.info.len = 24 := rfl
@[simp] theorem Fld.tmuTsstatPATHFAIL_len : Fld.tmuTsstatPATHFAIL.info.len = 1 := rfl
@[simp] theorem Fld.tmuTsstatWMSEEN_len : Fld.tmuTsstatWMSEEN.info.len = 1 := rfl
@[simp] theorem Fld.tmuTsstatOVF_len : Fld.tmuTsstatOVF.info.len = 1 := rfl
@[simp] theorem Fld.tmuLtsenEN_len : Fld.tmuLtsenEN.info.len = 64 := rfl
@[simp] theorem Fld.tmuDtsenEN_len : Fld.tmuDtsenEN.info.len = 60 := rfl
@[simp] theorem Fld.tmuTmrevtFIRED_len : Fld.tmuTmrevtFIRED.info.len = 32 := rfl
@[simp] theorem Fld.tmuWinevtHIT_len : Fld.tmuWinevtHIT.info.len = 64 := rfl
@[simp] theorem Fld.tmrCtlEN_len : Fld.tmrCtlEN.info.len = 1 := rfl
@[simp] theorem Fld.tmrCtlDEST_len : Fld.tmrCtlDEST.info.len = 2 := rfl
@[simp] theorem Fld.tmrCtlSEL_len : Fld.tmrCtlSEL.info.len = 6 := rfl
@[simp] theorem Fld.tmrCtlEVT_len : Fld.tmrCtlEVT.info.len = 1 := rfl
@[simp] theorem Fld.tmrCtlARMED_len : Fld.tmrCtlARMED.info.len = 1 := rfl
@[simp] theorem Fld.tmrCtlMISS_len : Fld.tmrCtlMISS.info.len = 1 := rfl
@[simp] theorem Fld.tmrCtlERR_len : Fld.tmrCtlERR.info.len = 1 := rfl
@[simp] theorem Fld.tmrCtlERRCODE_len : Fld.tmrCtlERRCODE.info.len = 3 := rfl
@[simp] theorem Fld.tmrCtlCOUNT_len : Fld.tmrCtlCOUNT.info.len = 16 := rfl
@[simp] theorem Fld.tmrStartloFRAC_len : Fld.tmrStartloFRAC.info.len = 16 := rfl
@[simp] theorem Fld.tmrStartloNS_len : Fld.tmrStartloNS.info.len = 30 := rfl
@[simp] theorem Fld.tmrStartloSECLO_len : Fld.tmrStartloSECLO.info.len = 16 := rfl
@[simp] theorem Fld.tmrStarthiSECHI_len : Fld.tmrStarthiSECHI.info.len = 32 := rfl
@[simp] theorem Fld.tmrPeriodPERIOD_len : Fld.tmrPeriodPERIOD.info.len = 64 := rfl
@[simp] theorem Fld.winCtlEN_len : Fld.winCtlEN.info.len = 1 := rfl
@[simp] theorem Fld.winCtlSRC_len : Fld.winCtlSRC.info.len = 11 := rfl
@[simp] theorem Fld.winCtlGATE_len : Fld.winCtlGATE.info.len = 1 := rfl
@[simp] theorem Fld.winCtlEVT_len : Fld.winCtlEVT.info.len = 1 := rfl
@[simp] theorem Fld.winCtlERR_len : Fld.winCtlERR.info.len = 1 := rfl
@[simp] theorem Fld.winStatINCNT_len : Fld.winStatINCNT.info.len = 16 := rfl
@[simp] theorem Fld.winStatOCC_len : Fld.winStatOCC.info.len = 15 := rfl
@[simp] theorem Fld.winStatHIT_len : Fld.winStatHIT.info.len = 1 := rfl
@[simp] theorem Fld.winStartloFRAC_len : Fld.winStartloFRAC.info.len = 16 := rfl
@[simp] theorem Fld.winStartloNS_len : Fld.winStartloNS.info.len = 30 := rfl
@[simp] theorem Fld.winStartloSECLO_len : Fld.winStartloSECLO.info.len = 16 := rfl
@[simp] theorem Fld.winStarthiSECHI_len : Fld.winStarthiSECHI.info.len = 32 := rfl
@[simp] theorem Fld.winEndloFRAC_len : Fld.winEndloFRAC.info.len = 16 := rfl
@[simp] theorem Fld.winEndloNS_len : Fld.winEndloNS.info.len = 30 := rfl
@[simp] theorem Fld.winEndloSECLO_len : Fld.winEndloSECLO.info.len = 16 := rfl
@[simp] theorem Fld.winEndhiSECHI_len : Fld.winEndhiSECHI.info.len = 32 := rfl
@[simp] theorem Fld.winPeriodPERIOD_len : Fld.winPeriodPERIOD.info.len = 64 := rfl
@[simp] theorem Fld.winFirstloFRAC_len : Fld.winFirstloFRAC.info.len = 16 := rfl
@[simp] theorem Fld.winFirstloNS_len : Fld.winFirstloNS.info.len = 30 := rfl
@[simp] theorem Fld.winFirstloSECLO_len : Fld.winFirstloSECLO.info.len = 16 := rfl
@[simp] theorem Fld.winFirsthiSECHI_len : Fld.winFirsthiSECHI.info.len = 32 := rfl
@[simp] theorem Fld.caskCfgMODE_len : Fld.caskCfgMODE.info.len = 2 := rfl
@[simp] theorem Fld.caskCfgNREG_len : Fld.caskCfgNREG.info.len = 2 := rfl
@[simp] theorem Fld.caskEndaACLS_len : Fld.caskEndaACLS.info.len = 3 := rfl
@[simp] theorem Fld.caskEndaAID_len : Fld.caskEndaAID.info.len = 8 := rfl
@[simp] theorem Fld.caskEndaTAGENT_len : Fld.caskEndaTAGENT.info.len = 7 := rfl
@[simp] theorem Fld.caskEndaTBIT_len : Fld.caskEndaTBIT.info.len = 5 := rfl
@[simp] theorem Fld.caskEndaTEN_len : Fld.caskEndaTEN.info.len = 1 := rfl
@[simp] theorem Fld.caskEndaTREM_len : Fld.caskEndaTREM.info.len = 1 := rfl
@[simp] theorem Fld.caskEndaTDEV_len : Fld.caskEndaTDEV.info.len = 7 := rfl
@[simp] theorem Fld.caskEndbACLS_len : Fld.caskEndbACLS.info.len = 3 := rfl
@[simp] theorem Fld.caskEndbAID_len : Fld.caskEndbAID.info.len = 8 := rfl
@[simp] theorem Fld.caskEndbTAGENT_len : Fld.caskEndbTAGENT.info.len = 7 := rfl
@[simp] theorem Fld.caskEndbTBIT_len : Fld.caskEndbTBIT.info.len = 5 := rfl
@[simp] theorem Fld.caskEndbTEN_len : Fld.caskEndbTEN.info.len = 1 := rfl
@[simp] theorem Fld.caskEndbTREM_len : Fld.caskEndbTREM.info.len = 1 := rfl
@[simp] theorem Fld.caskEndbTDEV_len : Fld.caskEndbTDEV.info.len = 7 := rfl
@[simp] theorem Fld.caskStatGO_len : Fld.caskStatGO.info.len = 1 := rfl
@[simp] theorem Fld.caskStatFROM_len : Fld.caskStatFROM.info.len = 1 := rfl
@[simp] theorem Fld.caskStatCOLLIDE_len : Fld.caskStatCOLLIDE.info.len = 1 := rfl
@[simp] theorem Fld.caskStatACCERR_len : Fld.caskStatACCERR.info.len = 1 := rfl
@[simp] theorem Fld.caskStatEMPTYRD_len : Fld.caskStatEMPTYRD.info.len = 1 := rfl
@[simp] theorem Fld.caskStatQAB_len : Fld.caskStatQAB.info.len = 5 := rfl
@[simp] theorem Fld.caskStatQBA_len : Fld.caskStatQBA.info.len = 5 := rfl
@[simp] theorem Fld.caskStatDROPS_len : Fld.caskStatDROPS.info.len = 8 := rfl
@[simp] theorem Fld.caskMsgDATA_len : Fld.caskMsgDATA.info.len = 32 := rfl
@[simp] theorem Fld.caskXctlGO_len : Fld.caskXctlGO.info.len = 1 := rfl
@[simp] theorem Fld.caskXctlTAKE_len : Fld.caskXctlTAKE.info.len = 1 := rfl
@[simp] theorem Fld.caskXpushWORD_len : Fld.caskXpushWORD.info.len = 32 := rfl
@[simp] theorem Fld.caskXpopWORD_len : Fld.caskXpopWORD.info.len = 32 := rfl
@[simp] theorem Fld.evrRouteMSIEN_len : Fld.evrRouteMSIEN.info.len = 1 := rfl
@[simp] theorem Fld.evrRouteVEC_len : Fld.evrRouteVEC.info.len = 11 := rfl
@[simp] theorem Fld.evrRouteDESEN_len : Fld.evrRouteDESEN.info.len = 1 := rfl
@[simp] theorem Fld.evrRouteDPOS_len : Fld.evrRouteDPOS.info.len = 6 := rfl
@[simp] theorem Fld.evrRouteTAPEN_len : Fld.evrRouteTAPEN.info.len = 1 := rfl
@[simp] theorem Fld.evrRouteTAGENT_len : Fld.evrRouteTAGENT.info.len = 7 := rfl
@[simp] theorem Fld.evrRouteTBIT_len : Fld.evrRouteTBIT.info.len = 5 := rfl
@[simp] theorem Fld.evrRoutePEND_len : Fld.evrRoutePEND.info.len = 1 := rfl
@[simp] theorem Fld.evrRouteCNT_len : Fld.evrRouteCNT.info.len = 15 := rfl
@[simp] theorem Fld.evrRouteSEEN_len : Fld.evrRouteSEEN.info.len = 1 := rfl
@[simp] theorem Fld.evrPayPAYLOAD_len : Fld.evrPayPAYLOAD.info.len = 64 := rfl
@[simp] theorem Fld.tapPendPEND_len : Fld.tapPendPEND.info.len = 32 := rfl
@[simp] theorem Fld.tapMaskMASK_len : Fld.tapMaskMASK.info.len = 32 := rfl
@[simp] theorem Fld.tapCfgVEC_len : Fld.tapCfgVEC.info.len = 11 := rfl
@[simp] theorem Fld.kilnCtlRELOAD_len : Fld.kilnCtlRELOAD.info.len = 1 := rfl
@[simp] theorem Fld.kilnCtlRSLOT_len : Fld.kilnCtlRSLOT.info.len = 2 := rfl
@[simp] theorem Fld.kilnStatSTATE_len : Fld.kilnStatSTATE.info.len = 4 := rfl
@[simp] theorem Fld.kilnStatSLOT_len : Fld.kilnStatSLOT.info.len = 2 := rfl
@[simp] theorem Fld.kilnStatRLDIGN_len : Fld.kilnStatRLDIGN.info.len = 1 := rfl
@[simp] theorem Fld.kilnStatATTEMPT_len : Fld.kilnStatATTEMPT.info.len = 4 := rfl
@[simp] theorem Fld.kilnStatBOOTSEL_len : Fld.kilnStatBOOTSEL.info.len = 2 := rfl
@[simp] theorem Fld.kilnStatCFGPULL_len : Fld.kilnStatCFGPULL.info.len = 1 := rfl
@[simp] theorem Fld.kilnStatKEYSEL_len : Fld.kilnStatKEYSEL.info.len = 1 := rfl
@[simp] theorem Fld.kilnStatRELMS_len : Fld.kilnStatRELMS.info.len = 16 := rfl
@[simp] theorem Fld.kilnFramesCOUNT_len : Fld.kilnFramesCOUNT.info.len = 32 := rfl
@[simp] theorem Fld.kilnImgverVERSION_len : Fld.kilnImgverVERSION.info.len = 64 := rfl
@[simp] theorem Fld.kilnBasedigDIG_len : Fld.kilnBasedigDIG.info.len = 32 := rfl
@[simp] theorem Fld.kilnLogptrNEXT_len : Fld.kilnLogptrNEXT.info.len = 4 := rfl
@[simp] theorem Fld.kilnLoadlogCODE_len : Fld.kilnLoadlogCODE.info.len = 8 := rfl
@[simp] theorem Fld.kilnLoadlogSLOT_len : Fld.kilnLoadlogSLOT.info.len = 2 := rfl
@[simp] theorem Fld.kilnLoadlogLPOS_len : Fld.kilnLoadlogLPOS.info.len = 6 := rfl
@[simp] theorem Fld.kilnLoadlogFRAME_len : Fld.kilnLoadlogFRAME.info.len = 16 := rfl
@[simp] theorem Fld.kilnLoadlogTIMEMS_len : Fld.kilnLoadlogTIMEMS.info.len = 16 := rfl
@[simp] theorem Fld.kilnLoadlogATTEMPT_len : Fld.kilnLoadlogATTEMPT.info.len = 8 := rfl
@[simp] theorem Fld.kilnLoadlogVALID_len : Fld.kilnLoadlogVALID.info.len = 1 := rfl
@[simp] theorem Fld.kilnProgctlSLOT_len : Fld.kilnProgctlSLOT.info.len = 2 := rfl
@[simp] theorem Fld.kilnProgctlSTART_len : Fld.kilnProgctlSTART.info.len = 1 := rfl
@[simp] theorem Fld.kilnProgctlBUSY_len : Fld.kilnProgctlBUSY.info.len = 1 := rfl
@[simp] theorem Fld.kilnProgctlDONE_len : Fld.kilnProgctlDONE.info.len = 1 := rfl
@[simp] theorem Fld.kilnProgctlERR_len : Fld.kilnProgctlERR.info.len = 1 := rfl
@[simp] theorem Fld.kilnProgctlERRCODE_len : Fld.kilnProgctlERRCODE.info.len = 4 := rfl
@[simp] theorem Fld.kilnProglenLEN_len : Fld.kilnProglenLEN.info.len = 32 := rfl
@[simp] theorem Fld.kilnProgsrcZERO_len : Fld.kilnProgsrcZERO.info.len = 12 := rfl
@[simp] theorem Fld.kilnProgsrcADDR_len : Fld.kilnProgsrcADDR.info.len = 52 := rfl
@[simp] theorem Fld.kilnAttctlSTART_len : Fld.kilnAttctlSTART.info.len = 1 := rfl
@[simp] theorem Fld.kilnAttctlBUSY_len : Fld.kilnAttctlBUSY.info.len = 1 := rfl
@[simp] theorem Fld.kilnAttctlDONE_len : Fld.kilnAttctlDONE.info.len = 1 := rfl
@[simp] theorem Fld.kilnAttctlERR_len : Fld.kilnAttctlERR.info.len = 1 := rfl
@[simp] theorem Fld.kilnAttaddrADDR_len : Fld.kilnAttaddrADDR.info.len = 64 := rfl
@[simp] theorem Fld.kilnAttnonceNONCE_len : Fld.kilnAttnonceNONCE.info.len = 32 := rfl
@[simp] theorem Fld.kilnAttpubPUB_len : Fld.kilnAttpubPUB.info.len = 32 := rfl
@[simp] theorem Fld.kilnPldctlSTART_len : Fld.kilnPldctlSTART.info.len = 1 := rfl
@[simp] theorem Fld.kilnPldctlTIMED_len : Fld.kilnPldctlTIMED.info.len = 1 := rfl
@[simp] theorem Fld.kilnPldsrcZERO_len : Fld.kilnPldsrcZERO.info.len = 12 := rfl
@[simp] theorem Fld.kilnPldsrcADDR_len : Fld.kilnPldsrcADDR.info.len = 52 := rfl
@[simp] theorem Fld.kilnPldlenLEN_len : Fld.kilnPldlenLEN.info.len = 32 := rfl
@[simp] theorem Fld.kilnPldtimeNS_len : Fld.kilnPldtimeNS.info.len = 30 := rfl
@[simp] theorem Fld.kilnPldtimeSEC_len : Fld.kilnPldtimeSEC.info.len = 34 := rfl
@[simp] theorem Fld.kilnPldstatSTATE_len : Fld.kilnPldstatSTATE.info.len = 3 := rfl
@[simp] theorem Fld.kilnPldstatFLOOR_len : Fld.kilnPldstatFLOOR.info.len = 6 := rfl
@[simp] theorem Fld.kilnPldstatCODE_len : Fld.kilnPldstatCODE.info.len = 8 := rfl
@[simp] theorem Fld.kilnPldstatLATE_len : Fld.kilnPldstatLATE.info.len = 1 := rfl
@[simp] theorem Fld.kilnPldstatIGN_len : Fld.kilnPldstatIGN.info.len = 1 := rfl
@[simp] theorem Fld.kilnPldstatFAIL_len : Fld.kilnPldstatFAIL.info.len = 1 := rfl
@[simp] theorem Fld.kilnPldstatDONE_len : Fld.kilnPldstatDONE.info.len = 1 := rfl
@[simp] theorem Fld.kilnFlrstatSTATE_len : Fld.kilnFlrstatSTATE.info.len = 3 := rfl
@[simp] theorem Fld.kilnFlrstatLOADS_len : Fld.kilnFlrstatLOADS.info.len = 16 := rfl
@[simp] theorem Fld.kilnShelfFREE_len : Fld.kilnShelfFREE.info.len = 16 := rfl
@[simp] theorem Fld.dieCtlAUTOREP_len : Fld.dieCtlAUTOREP.info.len = 1 := rfl
@[simp] theorem Fld.dieCtlREMAPPOL_len : Fld.dieCtlREMAPPOL.info.len = 2 := rfl
@[simp] theorem Fld.dieDiscstatDONE_len : Fld.dieDiscstatDONE.info.len = 1 := rfl
@[simp] theorem Fld.dieDiscstatPANELBAD_len : Fld.dieDiscstatPANELBAD.info.len = 1 := rfl
@[simp] theorem Fld.dieDiscstatIDMIS_len : Fld.dieDiscstatIDMIS.info.len = 1 := rfl
@[simp] theorem Fld.dieDiscstatLINKMIS_len : Fld.dieDiscstatLINKMIS.info.len = 1 := rfl
@[simp] theorem Fld.dieDiscstatMAPINVAL_len : Fld.dieDiscstatMAPINVAL.info.len = 1 := rfl
@[simp] theorem Fld.dieDiscstatAUTOREPD_len : Fld.dieDiscstatAUTOREPD.info.len = 1 := rfl
@[simp] theorem Fld.dieDiscstatANSWERS_len : Fld.dieDiscstatANSWERS.info.len = 7 := rfl
@[simp] theorem Fld.dieLthrRETIRE_len : Fld.dieLthrRETIRE.info.len = 16 := rfl
@[simp] theorem Fld.dieLthrWLOG_len : Fld.dieLthrWLOG.info.len = 5 := rfl
@[simp] theorem Fld.dieTlnkstatSPUSEDA_len : Fld.dieTlnkstatSPUSEDA.info.len = 4 := rfl
@[simp] theorem Fld.dieTlnkstatSPUSEDB_len : Fld.dieTlnkstatSPUSEDB.info.len = 4 := rfl
@[simp] theorem Fld.dieTlnkstatSURVA_len : Fld.dieTlnkstatSURVA.info.len = 6 := rfl
@[simp] theorem Fld.dieTlnkstatSURVB_len : Fld.dieTlnkstatSURVB.info.len = 6 := rfl
@[simp] theorem Fld.dieTlnkstatNSPUSED_len : Fld.dieTlnkstatNSPUSED.info.len = 3 := rfl
@[simp] theorem Fld.dieTlnkstatNSURV_len : Fld.dieTlnkstatNSURV.info.len = 5 := rfl
@[simp] theorem Fld.dieTlnkstatSTATE_len : Fld.dieTlnkstatSTATE.info.len = 2 := rfl
@[simp] theorem Fld.dieTlnkstatCKB_len : Fld.dieTlnkstatCKB.info.len = 1 := rfl
@[simp] theorem Fld.dieTlnkstatCLKUP_len : Fld.dieTlnkstatCLKUP.info.len = 1 := rfl
@[simp] theorem Fld.dieTlnkstatFOLDA_len : Fld.dieTlnkstatFOLDA.info.len = 7 := rfl
@[simp] theorem Fld.dieTlnkstatFOLDB_len : Fld.dieTlnkstatFOLDB.info.len = 7 := rfl
@[simp] theorem Fld.dieTlnkstatLASTRET_len : Fld.dieTlnkstatLASTRET.info.len = 7 := rfl
@[simp] theorem Fld.dieTlnkstatRETSEEN_len : Fld.dieTlnkstatRETSEEN.info.len = 1 := rfl
@[simp] theorem Fld.dieSerialSERIAL_len : Fld.dieSerialSERIAL.info.len = 64 := rfl
@[simp] theorem Fld.dieIdinfoTYPE_len : Fld.dieIdinfoTYPE.info.len = 4 := rfl
@[simp] theorem Fld.dieIdinfoGRADE_len : Fld.dieIdinfoGRADE.info.len = 2 := rfl
@[simp] theorem Fld.dieIdinfoRXMASK_len : Fld.dieIdinfoRXMASK.info.len = 4 := rfl
@[simp] theorem Fld.dieIdinfoUPPORT_len : Fld.dieIdinfoUPPORT.info.len = 2 := rfl
@[simp] theorem Fld.dieIdinfoDEPTH_len : Fld.dieIdinfoDEPTH.info.len = 6 := rfl
@[simp] theorem Fld.dieIdinfoPRESENT_len : Fld.dieIdinfoPRESENT.info.len = 1 := rfl
@[simp] theorem Fld.dieIdinfoDISPLACED_len : Fld.dieIdinfoDISPLACED.info.len = 1 := rfl
@[simp] theorem Fld.dieIdinfoLPOS_len : Fld.dieIdinfoLPOS.info.len = 6 := rfl
@[simp] theorem Fld.dieXserialSERIAL_len : Fld.dieXserialSERIAL.info.len = 64 := rfl
@[simp] theorem Fld.dieXidinfoTYPE_len : Fld.dieXidinfoTYPE.info.len = 4 := rfl
@[simp] theorem Fld.dieXidinfoGRADE_len : Fld.dieXidinfoGRADE.info.len = 2 := rfl
@[simp] theorem Fld.dieXidinfoRXMASK_len : Fld.dieXidinfoRXMASK.info.len = 4 := rfl
@[simp] theorem Fld.dieXidinfoUPPORT_len : Fld.dieXidinfoUPPORT.info.len = 2 := rfl
@[simp] theorem Fld.dieXidinfoDEPTH_len : Fld.dieXidinfoDEPTH.info.len = 6 := rfl
@[simp] theorem Fld.dieXidinfoPRESENT_len : Fld.dieXidinfoPRESENT.info.len = 1 := rfl
@[simp] theorem Fld.dieXidinfoDISPLACED_len : Fld.dieXidinfoDISPLACED.info.len = 1 := rfl
@[simp] theorem Fld.dieXidinfoLPOS_len : Fld.dieXidinfoLPOS.info.len = 6 := rfl
@[simp] theorem Fld.dieMapPHYS_len : Fld.dieMapPHYS.info.len = 6 := rfl
@[simp] theorem Fld.dieRemapctlLPOS_len : Fld.dieRemapctlLPOS.info.len = 6 := rfl
@[simp] theorem Fld.dieRemapctlSPARE_len : Fld.dieRemapctlSPARE.info.len = 6 := rfl
@[simp] theorem Fld.dieRemapctlSTART_len : Fld.dieRemapctlSTART.info.len = 1 := rfl
@[simp] theorem Fld.dieRemapstatSTATE_len : Fld.dieRemapstatSTATE.info.len = 3 := rfl
@[simp] theorem Fld.dieRemapstatREASON_len : Fld.dieRemapstatREASON.info.len = 5 := rfl
@[simp] theorem Fld.dieRemapstatLPOS_len : Fld.dieRemapstatLPOS.info.len = 6 := rfl
@[simp] theorem Fld.dieRemapstatSPARE_len : Fld.dieRemapstatSPARE.info.len = 6 := rfl
@[simp] theorem Fld.dieRemapstatNOSTATE_len : Fld.dieRemapstatNOSTATE.info.len = 1 := rfl
@[simp] theorem Fld.dieRemapstatSEEN_len : Fld.dieRemapstatSEEN.info.len = 1 := rfl
@[simp] theorem Fld.dieGrstHOLD_len : Fld.dieGrstHOLD.info.len = 60 := rfl
@[simp] theorem Fld.dieFaultPHYS_len : Fld.dieFaultPHYS.info.len = 6 := rfl
@[simp] theorem Fld.dieFaultPORT_len : Fld.dieFaultPORT.info.len = 2 := rfl
@[simp] theorem Fld.dieFaultKIND_len : Fld.dieFaultKIND.info.len = 2 := rfl
@[simp] theorem Fld.dieFaultLPOS_len : Fld.dieFaultLPOS.info.len = 6 := rfl
@[simp] theorem Fld.dieFaultSURV_len : Fld.dieFaultSURV.info.len = 7 := rfl
@[simp] theorem Fld.dieFaultSUB_len : Fld.dieFaultSUB.info.len = 1 := rfl
@[simp] theorem Fld.dieFaultCOUNT_len : Fld.dieFaultCOUNT.info.len = 16 := rfl
@[simp] theorem Fld.dieFaultSEEN_len : Fld.dieFaultSEEN.info.len = 1 := rfl
@[simp] theorem Fld.dieClklossPHYS_len : Fld.dieClklossPHYS.info.len = 6 := rfl
@[simp] theorem Fld.dieClklossLPOS_len : Fld.dieClklossLPOS.info.len = 6 := rfl
@[simp] theorem Fld.dieClklossPORTS_len : Fld.dieClklossPORTS.info.len = 4 := rfl
@[simp] theorem Fld.dieClklossCLKBACK_len : Fld.dieClklossCLKBACK.info.len = 1 := rfl
@[simp] theorem Fld.dieClklossSEEN_len : Fld.dieClklossSEEN.info.len = 1 := rfl
@[simp] theorem Fld.spgCtlINTERVAL_len : Fld.spgCtlINTERVAL.info.len = 8 := rfl
@[simp] theorem Fld.spgCtlBURST_len : Fld.spgCtlBURST.info.len = 16 := rfl
@[simp] theorem Fld.spgFindstatCOUNT_len : Fld.spgFindstatCOUNT.info.len = 11 := rfl
@[simp] theorem Fld.spgFindstatOVFCNT_len : Fld.spgFindstatOVFCNT.info.len = 16 := rfl
@[simp] theorem Fld.spgFindstatOVF_len : Fld.spgFindstatOVF.info.len = 1 := rfl
@[simp] theorem Fld.spgFindaddrADDR_len : Fld.spgFindaddrADDR.info.len = 64 := rfl
@[simp] theorem Fld.spgFindinfoFADDR_len : Fld.spgFindinfoFADDR.info.len = 32 := rfl
@[simp] theorem Fld.spgFindinfoCLASS_len : Fld.spgFindinfoCLASS.info.len = 3 := rfl
@[simp] theorem Fld.spgFindinfoNBITS_len : Fld.spgFindinfoNBITS.info.len = 5 := rfl
@[simp] theorem Fld.spgFindinfoBIT_len : Fld.spgFindinfoBIT.info.len = 11 := rfl
@[simp] theorem Fld.spgFindinfoINFLOOR_len : Fld.spgFindinfoINFLOOR.info.len = 1 := rfl
@[simp] theorem Fld.spgFindinfoFLOOR_len : Fld.spgFindinfoFLOOR.info.len = 6 := rfl
@[simp] theorem Fld.spgFindinfoPHYS_len : Fld.spgFindinfoPHYS.info.len = 6 := rfl
@[simp] theorem Fld.spgFindpopPOP_len : Fld.spgFindpopPOP.info.len = 1 := rfl
@[simp] theorem Fld.capPitchctlKIND_len : Fld.capPitchctlKIND.info.len = 3 := rfl
@[simp] theorem Fld.capPitchctlDESIGN_len : Fld.capPitchctlDESIGN.info.len = 1 := rfl
@[simp] theorem Fld.capPitchctlSTART_len : Fld.capPitchctlSTART.info.len = 1 := rfl
@[simp] theorem Fld.capPitchtimeNS_len : Fld.capPitchtimeNS.info.len = 30 := rfl
@[simp] theorem Fld.capPitchtimeSEC_len : Fld.capPitchtimeSEC.info.len = 34 := rfl
@[simp] theorem Fld.capPitchflrFLOORMASK_len : Fld.capPitchflrFLOORMASK.info.len = 64 := rfl
@[simp] theorem Fld.capPitchposPOSMASK_len : Fld.capPitchposPOSMASK.info.len = 60 := rfl
@[simp] theorem Fld.capPitchposBASE_len : Fld.capPitchposBASE.info.len = 1 := rfl
@[simp] theorem Fld.capStatPEND_len : Fld.capStatPEND.info.len = 5 := rfl
@[simp] theorem Fld.capStatFULL_len : Fld.capStatFULL.info.len = 1 := rfl
@[simp] theorem Fld.capStatLATE_len : Fld.capStatLATE.info.len = 1 := rfl
@[simp] theorem Fld.capStatBADKIND_len : Fld.capStatBADKIND.info.len = 1 := rfl
@[simp] theorem Fld.capStatCAPDONE_len : Fld.capStatCAPDONE.info.len = 1 := rfl
@[simp] theorem Fld.capStatCAPSEQ_len : Fld.capStatCAPSEQ.info.len = 16 := rfl
@[simp] theorem Fld.capCapskipFLOORS_len : Fld.capCapskipFLOORS.info.len = 64 := rfl
@[simp] theorem Fld.capCapskipposPOS_len : Fld.capCapskipposPOS.info.len = 60 := rfl
@[simp] theorem Fld.capAccctlOP_len : Fld.capAccctlOP.info.len = 2 := rfl
@[simp] theorem Fld.capAccctlLPOS_len : Fld.capAccctlLPOS.info.len = 6 := rfl
@[simp] theorem Fld.capAccctlFTYPE_len : Fld.capAccctlFTYPE.info.len = 4 := rfl
@[simp] theorem Fld.capAccctlSTART_len : Fld.capAccctlSTART.info.len = 1 := rfl
@[simp] theorem Fld.capAccidxFIRST_len : Fld.capAccidxFIRST.info.len = 16 := rfl
@[simp] theorem Fld.capAccidxCOUNT_len : Fld.capAccidxCOUNT.info.len = 16 := rfl
@[simp] theorem Fld.capAccaddrZERO_len : Fld.capAccaddrZERO.info.len = 6 := rfl
@[simp] theorem Fld.capAccaddrADDR_len : Fld.capAccaddrADDR.info.len = 58 := rfl
@[simp] theorem Fld.capAccstatBUSY_len : Fld.capAccstatBUSY.info.len = 1 := rfl
@[simp] theorem Fld.capAccstatDONE_len : Fld.capAccstatDONE.info.len = 1 := rfl
@[simp] theorem Fld.capAccstatERR_len : Fld.capAccstatERR.info.len = 1 := rfl
@[simp] theorem Fld.capAccstatERRCODE_len : Fld.capAccstatERRCODE.info.len = 3 := rfl
@[simp] theorem Fld.capAccstatTORN_len : Fld.capAccstatTORN.info.len = 1 := rfl
@[simp] theorem Fld.capAccstatFRAMES_len : Fld.capAccstatFRAMES.info.len = 16 := rfl
@[simp] theorem Fld.cohCtlNOALLOC_len : Fld.cohCtlNOALLOC.info.len = 1 := rfl
@[simp] theorem Fld.cohCtlFLUSH_len : Fld.cohCtlFLUSH.info.len = 1 := rfl
@[simp] theorem Fld.cohCtlFLUSHBUSY_len : Fld.cohCtlFLUSHBUSY.info.len = 1 := rfl
@[simp] theorem Fld.cohCtlFLUSHDONE_len : Fld.cohCtlFLUSHDONE.info.len = 1 := rfl
@[simp] theorem Fld.cohCtlHTMO_len : Fld.cohCtlHTMO.info.len = 12 := rfl
@[simp] theorem Fld.cohStatFLIPDH_len : Fld.cohStatFLIPDH.info.len = 16 := rfl
@[simp] theorem Fld.cohStatFLIPHD_len : Fld.cohStatFLIPHD.info.len = 16 := rfl
@[simp] theorem Fld.cohStatFEVICT_len : Fld.cohStatFEVICT.info.len = 12 := rfl
@[simp] theorem Fld.cohStatLOSTDIRTY_len : Fld.cohStatLOSTDIRTY.info.len = 16 := rfl
@[simp] theorem Fld.cohStatBIASLOST_len : Fld.cohStatBIASLOST.info.len = 1 := rfl
@[simp] theorem Fld.cohStatLINKLOST_len : Fld.cohStatLINKLOST.info.len = 1 := rfl
@[simp] theorem Fld.cohBiasbaseADDR_len : Fld.cohBiasbaseADDR.info.len = 48 := rfl
@[simp] theorem Fld.cohBiascmdPAGE_len : Fld.cohBiascmdPAGE.info.len = 29 := rfl
@[simp] theorem Fld.cohBiascmdTARGET_len : Fld.cohBiascmdTARGET.info.len = 1 := rfl
@[simp] theorem Fld.cohBiascmdSTART_len : Fld.cohBiascmdSTART.info.len = 1 := rfl
@[simp] theorem Fld.cohBiascmdQUERY_len : Fld.cohBiascmdQUERY.info.len = 1 := rfl
@[simp] theorem Fld.cohBiascmdCOUNTM1_len : Fld.cohBiascmdCOUNTM1.info.len = 9 := rfl
@[simp] theorem Fld.cohBiasstatBUSY_len : Fld.cohBiasstatBUSY.info.len = 1 := rfl
@[simp] theorem Fld.cohBiasstatDONE_len : Fld.cohBiasstatDONE.info.len = 1 := rfl
@[simp] theorem Fld.cohBiasstatERR_len : Fld.cohBiasstatERR.info.len = 1 := rfl
@[simp] theorem Fld.cohBiasstatERRCODE_len : Fld.cohBiasstatERRCODE.info.len = 2 := rfl
@[simp] theorem Fld.cohBiasstatCUR_len : Fld.cohBiasstatCUR.info.len = 1 := rfl
@[simp] theorem Fld.cohHwinEN_len : Fld.cohHwinEN.info.len = 1 := rfl
@[simp] theorem Fld.cohHwinBASE_len : Fld.cohHwinBASE.info.len = 22 := rfl
@[simp] theorem Fld.cohHerrADDR_len : Fld.cohHerrADDR.info.len = 48 := rfl
@[simp] theorem Fld.cohHerrCAUSE_len : Fld.cohHerrCAUSE.info.len = 4 := rfl
@[simp] theorem Fld.cohHerrCOUNT_len : Fld.cohHerrCOUNT.info.len = 8 := rfl
@[simp] theorem Fld.cohHerrSEEN_len : Fld.cohHerrSEEN.info.len = 1 := rfl
@[simp] theorem Fld.cxlLnkstatUP_len : Fld.cxlLnkstatUP.info.len = 1 := rfl
@[simp] theorem Fld.cxlLnkstatMODE_len : Fld.cxlLnkstatMODE.info.len = 1 := rfl
@[simp] theorem Fld.cxlLnkstatSPEED_len : Fld.cxlLnkstatSPEED.info.len = 3 := rfl
@[simp] theorem Fld.cxlLnkstatWIDTH_len : Fld.cxlLnkstatWIDTH.info.len = 4 := rfl
@[simp] theorem Fld.cxlLnkstatCACHEEN_len : Fld.cxlLnkstatCACHEEN.info.len = 1 := rfl
@[simp] theorem Fld.cxlLnkstatMEMEN_len : Fld.cxlLnkstatMEMEN.info.len = 1 := rfl
@[simp] theorem Fld.cxlLnkstatCHGSEEN_len : Fld.cxlLnkstatCHGSEEN.info.len = 1 := rfl
@[simp] theorem Fld.mempAlarmctlPINEN_len : Fld.mempAlarmctlPINEN.info.len = 6 := rfl
@[simp] theorem Fld.mempAlarmctlZEROIZE_len : Fld.mempAlarmctlZEROIZE.info.len = 1 := rfl
@[simp] theorem Fld.mempAlarmstatSEEN_len : Fld.mempAlarmstatSEEN.info.len = 6 := rfl
@[simp] theorem Fld.mempAlarmstatCOUNT_len : Fld.mempAlarmstatCOUNT.info.len = 16 := rfl
@[simp] theorem Fld.mempAlarmrecADDR_len : Fld.mempAlarmrecADDR.info.len = 48 := rfl
@[simp] theorem Fld.mempAlarmrecREGION_len : Fld.mempAlarmrecREGION.info.len = 6 := rfl
@[simp] theorem Fld.mempAlarmrecCAUSE_len : Fld.mempAlarmrecCAUSE.info.len = 3 := rfl
@[simp] theorem Fld.mempAlarmrecSNODE_len : Fld.mempAlarmrecSNODE.info.len = 7 := rfl
@[simp] theorem Fld.mempKeyctlKEYID_len : Fld.mempKeyctlKEYID.info.len = 6 := rfl
@[simp] theorem Fld.mempKeyctlCMD_len : Fld.mempKeyctlCMD.info.len = 2 := rfl
@[simp] theorem Fld.mempKeystatBUSY_len : Fld.mempKeystatBUSY.info.len = 1 := rfl
@[simp] theorem Fld.mempKeystatERR_len : Fld.mempKeystatERR.info.len = 1 := rfl
@[simp] theorem Fld.mempKeystateST_len : Fld.mempKeystateST.info.len = 64 := rfl
@[simp] theorem Fld.mempRgnbaseBASE_len : Fld.mempRgnbaseBASE.info.len = 24 := rfl
@[simp] theorem Fld.mempRgncfgENABLE_len : Fld.mempRgncfgENABLE.info.len = 1 := rfl
@[simp] theorem Fld.mempRgncfgMODE_len : Fld.mempRgncfgMODE.info.len = 2 := rfl
@[simp] theorem Fld.mempRgncfgKEYID_len : Fld.mempRgncfgKEYID.info.len = 6 := rfl
@[simp] theorem Fld.mempRgncfgLOG2S_len : Fld.mempRgncfgLOG2S.info.len = 6 := rfl
@[simp] theorem Fld.mempRgncfgAUTOREKEY_len : Fld.mempRgncfgAUTOREKEY.info.len = 1 := rfl
@[simp] theorem Fld.mempRgncfgACC_len : Fld.mempRgncfgACC.info.len = 8 := rfl
@[simp] theorem Fld.mempRgnstatSTATE_len : Fld.mempRgnstatSTATE.info.len = 3 := rfl
@[simp] theorem Fld.mempRgnstatREKEYDUE_len : Fld.mempRgnstatREKEYDUE.info.len = 1 := rfl
@[simp] theorem Fld.mempRgnstatREKEYBLK_len : Fld.mempRgnstatREKEYBLK.info.len = 1 := rfl
@[simp] theorem Fld.mempRgnstatERR_len : Fld.mempRgnstatERR.info.len = 1 := rfl
@[simp] theorem Fld.mempRgnstatWALKS_len : Fld.mempRgnstatWALKS.info.len = 16 := rfl
@[simp] theorem Fld.mempRgnwalkWP_len : Fld.mempRgnwalkWP.info.len = 35 := rfl
@[simp] theorem Fld.mempRgnwalkNEWKEY_len : Fld.mempRgnwalkNEWKEY.info.len = 6 := rfl
@[simp] theorem Fld.mempRgnwalkSTART_len : Fld.mempRgnwalkSTART.info.len = 1 := rfl
@[simp] theorem Fld.mempRgnwalkJUMPS_len : Fld.mempRgnwalkJUMPS.info.len = 5 := rfl
@[simp] theorem Fld.ddrCfgSPEED_len : Fld.ddrCfgSPEED.info.len = 2 := rfl
@[simp] theorem Fld.ddrCfgPAIR_len : Fld.ddrCfgPAIR.info.len = 1 := rfl
@[simp] theorem Fld.ddrCfgRANKS2_len : Fld.ddrCfgRANKS2.info.len = 1 := rfl
@[simp] theorem Fld.ddrCfgDENS_len : Fld.ddrCfgDENS.info.len = 2 := rfl
@[simp] theorem Fld.ddrCfgCGIB_len : Fld.ddrCfgCGIB.info.len = 8 := rfl
@[simp] theorem Fld.ddrCfgINMAP_len : Fld.ddrCfgINMAP.info.len = 1 := rfl
@[simp] theorem Fld.ddrCfgSLOT_len : Fld.ddrCfgSLOT.info.len = 4 := rfl
@[simp] theorem Fld.ddrCtlWBUF_len : Fld.ddrCtlWBUF.info.len = 2 := rfl
@[simp] theorem Fld.ddrCtlMAXSPD_len : Fld.ddrCtlMAXSPD.info.len = 2 := rfl
@[simp] theorem Fld.ddrCtlWBACK_len : Fld.ddrCtlWBACK.info.len = 1 := rfl
@[simp] theorem Fld.ddrCtlRETRAIN_len : Fld.ddrCtlRETRAIN.info.len = 1 := rfl
@[simp] theorem Fld.ddrStatSTATE_len : Fld.ddrStatSTATE.info.len = 3 := rfl
@[simp] theorem Fld.ddrStatRTIGN_len : Fld.ddrStatRTIGN.info.len = 1 := rfl
@[simp] theorem Fld.ddrStatINFL_len : Fld.ddrStatINFL.info.len = 8 := rfl
@[simp] theorem Fld.ddrStatWBOCC_len : Fld.ddrStatWBOCC.info.len = 8 := rfl
@[simp] theorem Fld.ddrStatTRSTEP_len : Fld.ddrStatTRSTEP.info.len = 4 := rfl
@[simp] theorem Fld.ddrStatSEEN_len : Fld.ddrStatSEEN.info.len = 1 := rfl
@[simp] theorem Fld.ddrStatDROPS_len : Fld.ddrStatDROPS.info.len = 32 := rfl
@[simp] theorem Fld.ddrSchedPGTMO_len : Fld.ddrSchedPGTMO.info.len = 12 := rfl
@[simp] theorem Fld.ddrSchedSTARVE_len : Fld.ddrSchedSTARVE.info.len = 12 := rfl
@[simp] theorem Fld.ddrRdpK_len : Fld.ddrRdpK.info.len = 4 := rfl
@[simp] theorem Fld.ddrRdpNRCNT_len : Fld.ddrRdpNRCNT.info.len = 24 := rfl
@[simp] theorem Fld.ddrHazFWD_len : Fld.ddrHazFWD.info.len = 32 := rfl
@[simp] theorem Fld.ddrHazPWAIT_len : Fld.ddrHazPWAIT.info.len = 32 := rfl
@[simp] theorem Fld.ddrEccstatCECNT_len : Fld.ddrEccstatCECNT.info.len = 16 := rfl
@[simp] theorem Fld.ddrEccstatUECNT_len : Fld.ddrEccstatUECNT.info.len = 12 := rfl
@[simp] theorem Fld.ddrEccstatUSEEN_len : Fld.ddrEccstatUSEEN.info.len = 1 := rfl
@[simp] theorem Fld.ddrEccstatCSEEN_len : Fld.ddrEccstatCSEEN.info.len = 1 := rfl
@[simp] theorem Fld.ddrEccaddrADDR_len : Fld.ddrEccaddrADDR.info.len = 48 := rfl
@[simp] theorem Fld.ddrEccaddrRANK_len : Fld.ddrEccaddrRANK.info.len = 1 := rfl
@[simp] theorem Fld.ddrEccaddrSUB_len : Fld.ddrEccaddrSUB.info.len = 1 := rfl
@[simp] theorem Fld.ddrEccinfoDEV_len : Fld.ddrEccinfoDEV.info.len = 5 := rfl
@[simp] theorem Fld.ddrEccinfoNSYM_len : Fld.ddrEccinfoNSYM.info.len = 5 := rfl
@[simp] theorem Fld.ddrEccinfoUE_len : Fld.ddrEccinfoUE.info.len = 1 := rfl
@[simp] theorem Fld.ddrEccinfoWRFAIL_len : Fld.ddrEccinfoWRFAIL.info.len = 1 := rfl
@[simp] theorem Fld.ddrEccinfoMULTI_len : Fld.ddrEccinfoMULTI.info.len = 1 := rfl
@[simp] theorem Fld.ddrEccinfoERASE_len : Fld.ddrEccinfoERASE.info.len = 1 := rfl
@[simp] theorem Fld.ddrDevfailVALID_len : Fld.ddrDevfailVALID.info.len = 1 := rfl
@[simp] theorem Fld.ddrDevfailRANK_len : Fld.ddrDevfailRANK.info.len = 1 := rfl
@[simp] theorem Fld.ddrDevfailDEV_len : Fld.ddrDevfailDEV.info.len = 5 := rfl
@[simp] theorem Fld.ddrDevfailDEVTHR_len : Fld.ddrDevfailDEVTHR.info.len = 16 := rfl
@[simp] theorem Fld.ddrThermTEMP_len : Fld.ddrThermTEMP.info.len = 12 := rfl
@[simp] theorem Fld.ddrThermHOT_len : Fld.ddrThermHOT.info.len = 1 := rfl
@[simp] theorem Fld.ddrThermSBERR_len : Fld.ddrThermSBERR.info.len = 1 := rfl
@[simp] theorem Fld.ddrThermHOTSEEN_len : Fld.ddrThermHOTSEEN.info.len = 1 := rfl
@[simp] theorem Fld.ddrImap0K_len : Fld.ddrImap0K.info.len = 3 := rfl
@[simp] theorem Fld.ddrImap0VALID_len : Fld.ddrImap0VALID.info.len = 1 := rfl
@[simp] theorem Fld.ddrImap0CGIB_len : Fld.ddrImap0CGIB.info.len = 8 := rfl
@[simp] theorem Fld.ddrImap1CH_len : Fld.ddrImap1CH.info.len = 64 := rfl
@[simp] theorem Fld.xcvrLcfgMODE_len : Fld.xcvrLcfgMODE.info.len = 2 := rfl
@[simp] theorem Fld.xcvrLcfgDIV_len : Fld.xcvrLcfgDIV.info.len = 3 := rfl
@[simp] theorem Fld.xcvrLcfgWIDTH_len : Fld.xcvrLcfgWIDTH.info.len = 1 := rfl
@[simp] theorem Fld.xcvrLcfgRAW_len : Fld.xcvrLcfgRAW.info.len = 1 := rfl
@[simp] theorem Fld.xcvrLcfgTXPOL_len : Fld.xcvrLcfgTXPOL.info.len = 1 := rfl
@[simp] theorem Fld.xcvrLcfgRXPOL_len : Fld.xcvrLcfgRXPOL.info.len = 1 := rfl
@[simp] theorem Fld.xcvrLcfgDROPIDLE_len : Fld.xcvrLcfgDROPIDLE.info.len = 1 := rfl
@[simp] theorem Fld.xcvrLcfgBOND_len : Fld.xcvrLcfgBOND.info.len = 1 := rfl
@[simp] theorem Fld.xcvrQpllN_len : Fld.xcvrQpllN.info.len = 5 := rfl
@[simp] theorem Fld.xcvrQpllF_len : Fld.xcvrQpllF.info.len = 24 := rfl
@[simp] theorem Fld.xcvrQpllEN_len : Fld.xcvrQpllEN.info.len = 1 := rfl
@[simp] theorem Fld.xcvrQpllLOCK_len : Fld.xcvrQpllLOCK.info.len = 1 := rfl
@[simp] theorem Fld.xcvrQpllUNLOCKSEEN_len : Fld.xcvrQpllUNLOCKSEEN.info.len = 1 := rfl
@[simp] theorem Fld.xcvrLstatRXST_len : Fld.xcvrLstatRXST.info.len = 2 := rfl
@[simp] theorem Fld.xcvrLstatSIGDET_len : Fld.xcvrLstatSIGDET.info.len = 1 := rfl
@[simp] theorem Fld.xcvrLstatCDRLOCK_len : Fld.xcvrLstatCDRLOCK.info.len = 1 := rfl
@[simp] theorem Fld.xcvrLstatPSTATE_len : Fld.xcvrLstatPSTATE.info.len = 2 := rfl
@[simp] theorem Fld.xcvrLstatUPSEEN_len : Fld.xcvrLstatUPSEEN.info.len = 1 := rfl
@[simp] theorem Fld.xcvrLstatDOWNSEEN_len : Fld.xcvrLstatDOWNSEEN.info.len = 1 := rfl
@[simp] theorem Fld.xcvrLstatRXOVF_len : Fld.xcvrLstatRXOVF.info.len = 1 := rfl
@[simp] theorem Fld.xcvrLstatERRSEEN_len : Fld.xcvrLstatERRSEEN.info.len = 1 := rfl
@[simp] theorem Fld.xcvrLstatBONDERR_len : Fld.xcvrLstatBONDERR.info.len = 1 := rfl
@[simp] theorem Fld.xcvrLerrCODEERR_len : Fld.xcvrLerrCODEERR.info.len = 32 := rfl
@[simp] theorem Fld.xcvrLerrDISPERR_len : Fld.xcvrLerrDISPERR.info.len = 32 := rfl
@[simp] theorem Fld.xcvrLpmREQ_len : Fld.xcvrLpmREQ.info.len = 2 := rfl
@[simp] theorem Fld.xcvrLpmAUTO_len : Fld.xcvrLpmAUTO.info.len = 1 := rfl
@[simp] theorem Fld.xcvrLpmSBYUS_len : Fld.xcvrLpmSBYUS.info.len = 16 := rfl
@[simp] theorem Fld.xcvrLpmSLPMS_len : Fld.xcvrLpmSLPMS.info.len = 12 := rfl
@[simp] theorem Fld.xcvrTscfgSOFSYM_len : Fld.xcvrTscfgSOFSYM.info.len = 8 := rfl
@[simp] theorem Fld.xcvrTscfgSOFK_len : Fld.xcvrTscfgSOFK.info.len = 1 := rfl
@[simp] theorem Fld.xcvrTscfgTSDEC_len : Fld.xcvrTscfgTSDEC.info.len = 5 := rfl
@[simp] theorem Fld.xcvrPgenPAT_len : Fld.xcvrPgenPAT.info.len = 3 := rfl
@[simp] theorem Fld.xcvrPchkPAT_len : Fld.xcvrPchkPAT.info.len = 3 := rfl
@[simp] theorem Fld.xcvrPchkLOCK_len : Fld.xcvrPchkLOCK.info.len = 1 := rfl
@[simp] theorem Fld.xcvrPchkLOSTSEEN_len : Fld.xcvrPchkLOSTSEEN.info.len = 1 := rfl
@[simp] theorem Fld.xcvrPchkCLR_len : Fld.xcvrPchkCLR.info.len = 1 := rfl
@[simp] theorem Fld.xcvrPerrcntERR_len : Fld.xcvrPerrcntERR.info.len = 40 := rfl
@[simp] theorem Fld.xcvrPbitcntKBITS_len : Fld.xcvrPbitcntKBITS.info.len = 48 := rfl
@[simp] theorem Fld.xcvrPuserPAT_len : Fld.xcvrPuserPAT.info.len = 32 := rfl
@[simp] theorem Fld.xcvrInjKIND_len : Fld.xcvrInjKIND.info.len = 2 := rfl
@[simp] theorem Fld.xcvrInjBURST_len : Fld.xcvrInjBURST.info.len = 6 := rfl
@[simp] theorem Fld.xcvrInjEXP_len : Fld.xcvrInjEXP.info.len = 4 := rfl
@[simp] theorem Fld.xcvrInjGO_len : Fld.xcvrInjGO.info.len = 1 := rfl
@[simp] theorem Fld.xcvrInjBUSY_len : Fld.xcvrInjBUSY.info.len = 1 := rfl
@[simp] theorem Fld.wortCtlROOT_len : Fld.wortCtlROOT.info.len = 1 := rfl
@[simp] theorem Fld.wortCtlAUTODISC_len : Fld.wortCtlAUTODISC.info.len = 1 := rfl
@[simp] theorem Fld.wortCtlDISC_len : Fld.wortCtlDISC.info.len = 1 := rfl
@[simp] theorem Fld.wortStatDEVNUM_len : Fld.wortStatDEVNUM.info.len = 8 := rfl
@[simp] theorem Fld.wortStatDONE_len : Fld.wortStatDONE.info.len = 1 := rfl
@[simp] theorem Fld.wortStatISROOT_len : Fld.wortStatISROOT.info.len = 1 := rfl
@[simp] theorem Fld.wortStatRBMODE_len : Fld.wortStatRBMODE.info.len = 1 := rfl
@[simp] theorem Fld.wortStatEXCESS_len : Fld.wortStatEXCESS.info.len = 1 := rfl
@[simp] theorem Fld.wortStatNDEVM1_len : Fld.wortStatNDEVM1.info.len = 8 := rfl
@[simp] theorem Fld.wortStatSEEN_len : Fld.wortStatSEEN.info.len = 1 := rfl
@[simp] theorem Fld.wortLinkEN_len : Fld.wortLinkEN.info.len = 1 := rfl
@[simp] theorem Fld.wortLinkSTATE_len : Fld.wortLinkSTATE.info.len = 2 := rfl
@[simp] theorem Fld.wortLinkLANES_len : Fld.wortLinkLANES.info.len = 4 := rfl
@[simp] theorem Fld.wortLinkPEERDEV_len : Fld.wortLinkPEERDEV.info.len = 8 := rfl
@[simp] theorem Fld.wortLinkPEERPOS_len : Fld.wortLinkPEERPOS.info.len = 6 := rfl
@[simp] theorem Fld.wortLinkPEERHALF_len : Fld.wortLinkPEERHALF.info.len = 1 := rfl
@[simp] theorem Fld.wortLinkERR_len : Fld.wortLinkERR.info.len = 1 := rfl
@[simp] theorem Fld.wortLinkREPLAYS_len : Fld.wortLinkREPLAYS.info.len = 16 := rfl
@[simp] theorem Fld.wortLinkSEEN_len : Fld.wortLinkSEEN.info.len = 1 := rfl
@[simp] theorem Fld.wortRtPOS_len : Fld.wortRtPOS.info.len = 6 := rfl
@[simp] theorem Fld.wortRtHALF_len : Fld.wortRtHALF.info.len = 1 := rfl
@[simp] theorem Fld.wortRtVALID_len : Fld.wortRtVALID.info.len = 1 := rfl
@[simp] theorem Fld.grnSpanstatCOUNT_len : Fld.grnSpanstatCOUNT.info.len = 16 := rfl
@[simp] theorem Fld.grnSpanstatACTIVE_len : Fld.grnSpanstatACTIVE.info.len = 1 := rfl
@[simp] theorem Fld.grnSpanstatSEEN_len : Fld.grnSpanstatSEEN.info.len = 1 := rfl
@[simp] theorem Fld.grnSpanaddrADDR_len : Fld.grnSpanaddrADDR.info.len = 64 := rfl
@[simp] theorem Fld.grnSpantrkTRACK_len : Fld.grnSpantrkTRACK.info.len = 4 := rfl
@[simp] theorem Fld.grnSpantrkVERT_len : Fld.grnSpantrkVERT.info.len = 1 := rfl
@[simp] theorem Fld.grnSpantrkSEG_len : Fld.grnSpantrkSEG.info.len = 4 := rfl
@[simp] theorem Fld.grnSpantrkENMASK_len : Fld.grnSpantrkENMASK.info.len = 16 := rfl
@[simp] theorem Fld.grnMemeccSBECNT_len : Fld.grnMemeccSBECNT.info.len = 12 := rfl
@[simp] theorem Fld.grnMemeccDBECNT_len : Fld.grnMemeccDBECNT.info.len = 12 := rfl
@[simp] theorem Fld.grnMemeccDSEEN_len : Fld.grnMemeccDSEEN.info.len = 1 := rfl
@[simp] theorem Fld.grnMemeccSSEEN_len : Fld.grnMemeccSSEEN.info.len = 1 := rfl
@[simp] theorem Fld.grnMemeaddrADDR_len : Fld.grnMemeaddrADDR.info.len = 64 := rfl
@[simp] theorem Fld.grnMemeinfoWORD_len : Fld.grnMemeinfoWORD.info.len = 15 := rfl
@[simp] theorem Fld.grnMemeinfoPORT_len : Fld.grnMemeinfoPORT.info.len = 1 := rfl
@[simp] theorem Fld.grnMemeinfoDBE_len : Fld.grnMemeinfoDBE.info.len = 1 := rfl
@[simp] theorem Fld.grnMemeinfoSYND_len : Fld.grnMemeinfoSYND.info.len = 8 := rfl
@[simp] theorem Fld.grnSlcstatILLCNT_len : Fld.grnSlcstatILLCNT.info.len = 10 := rfl
@[simp] theorem Fld.grnSlcstatCSBECNT_len : Fld.grnSlcstatCSBECNT.info.len = 10 := rfl
@[simp] theorem Fld.grnSlcstatCDBECNT_len : Fld.grnSlcstatCDBECNT.info.len = 10 := rfl
@[simp] theorem Fld.grnSlcstatILLSEEN_len : Fld.grnSlcstatILLSEEN.info.len = 1 := rfl
@[simp] theorem Fld.grnSlcstatCSEEN_len : Fld.grnSlcstatCSEEN.info.len = 1 := rfl
@[simp] theorem Fld.grnSlcaddrADDR_len : Fld.grnSlcaddrADDR.info.len = 64 := rfl
@[simp] theorem Fld.grnSlccaddrADDR_len : Fld.grnSlccaddrADDR.info.len = 64 := rfl
@[simp] theorem Fld.grnSlcinfoOPW_len : Fld.grnSlcinfoOPW.info.len = 12 := rfl
@[simp] theorem Fld.grnSlcinfoCWORD_len : Fld.grnSlcinfoCWORD.info.len = 10 := rfl
@[simp] theorem Fld.grnSlcinfoCDBE_len : Fld.grnSlcinfoCDBE.info.len = 1 := rfl
@[simp] theorem Fld.grnPllcfgREFSRC_len : Fld.grnPllcfgREFSRC.info.len = 3 := rfl
@[simp] theorem Fld.grnPllcfgDM1_len : Fld.grnPllcfgDM1.info.len = 3 := rfl
@[simp] theorem Fld.grnPllcfgMM1_len : Fld.grnPllcfgMM1.info.len = 7 := rfl
@[simp] theorem Fld.grnPllcfgEN_len : Fld.grnPllcfgEN.info.len = 1 := rfl
@[simp] theorem Fld.grnPllcfgOUT_len : Fld.grnPllcfgOUT.info.len = 48 := rfl
@[simp] theorem Fld.grnPllstatLOCK_len : Fld.grnPllstatLOCK.info.len = 4 := rfl
@[simp] theorem Fld.grnPllstatCOASTNOW_len : Fld.grnPllstatCOASTNOW.info.len = 4 := rfl
@[simp] theorem Fld.grnPllstatCOASTSEEN_len : Fld.grnPllstatCOASTSEEN.info.len = 4 := rfl
@[simp] theorem Fld.grnPllstatUNLOCKSEEN_len : Fld.grnPllstatUNLOCKSEEN.info.len = 4 := rfl
@[simp] theorem Fld.grnPllstatTROOK_len : Fld.grnPllstatTROOK.info.len = 1 := rfl
@[simp] theorem Fld.grnXstatINREST_len : Fld.grnXstatINREST.info.len = 4 := rfl
@[simp] theorem Fld.grnXstatCLKMISS_len : Fld.grnXstatCLKMISS.info.len = 4 := rfl
@[simp] theorem Fld.grnXstatREPLAYSEEN_len : Fld.grnXstatREPLAYSEEN.info.len = 4 := rfl
@[simp] theorem Fld.grnXstatPAIRLOSTSEEN_len : Fld.grnXstatPAIRLOSTSEEN.info.len = 4 := rfl
@[simp] theorem Fld.grnXstatCREDFROZEN_len : Fld.grnXstatCREDFROZEN.info.len = 4 := rfl
@[simp] theorem Fld.grnXereplayCNTN_len : Fld.grnXereplayCNTN.info.len = 16 := rfl
@[simp] theorem Fld.grnXereplayCNTE_len : Fld.grnXereplayCNTE.info.len = 16 := rfl
@[simp] theorem Fld.grnXereplayCNTS_len : Fld.grnXereplayCNTS.info.len = 16 := rfl
@[simp] theorem Fld.grnXereplayCNTW_len : Fld.grnXereplayCNTW.info.len = 16 := rfl
@[simp] theorem Fld.grnXpairRIDX_len : Fld.grnXpairRIDX.info.len = 10 := rfl
@[simp] theorem Fld.grnXpairPORT_len : Fld.grnXpairPORT.info.len = 2 := rfl
@[simp] theorem Fld.grnLnkstatSPUSEDA_len : Fld.grnLnkstatSPUSEDA.info.len = 4 := rfl
@[simp] theorem Fld.grnLnkstatSPUSEDB_len : Fld.grnLnkstatSPUSEDB.info.len = 4 := rfl
@[simp] theorem Fld.grnLnkstatSURVA_len : Fld.grnLnkstatSURVA.info.len = 6 := rfl
@[simp] theorem Fld.grnLnkstatSURVB_len : Fld.grnLnkstatSURVB.info.len = 6 := rfl
@[simp] theorem Fld.grnLnkstatNSPUSED_len : Fld.grnLnkstatNSPUSED.info.len = 3 := rfl
@[simp] theorem Fld.grnLnkstatNSURV_len : Fld.grnLnkstatNSURV.info.len = 5 := rfl
@[simp] theorem Fld.grnLnkstatSTATE_len : Fld.grnLnkstatSTATE.info.len = 2 := rfl
@[simp] theorem Fld.grnLnkstatCKB_len : Fld.grnLnkstatCKB.info.len = 1 := rfl
@[simp] theorem Fld.grnLnkstatCLKUP_len : Fld.grnLnkstatCLKUP.info.len = 1 := rfl
@[simp] theorem Fld.grnLnkstatFOLDA_len : Fld.grnLnkstatFOLDA.info.len = 7 := rfl
@[simp] theorem Fld.grnLnkstatFOLDB_len : Fld.grnLnkstatFOLDB.info.len = 7 := rfl
@[simp] theorem Fld.grnLnkstatLASTRET_len : Fld.grnLnkstatLASTRET.info.len = 7 := rfl
@[simp] theorem Fld.grnLnkstatRETSEEN_len : Fld.grnLnkstatRETSEEN.info.len = 1 := rfl
@[simp] theorem Fld.grnSpgstatCORRCNT_len : Fld.grnSpgstatCORRCNT.info.len = 12 := rfl
@[simp] theorem Fld.grnSpgstatREWCNT_len : Fld.grnSpgstatREWCNT.info.len = 10 := rfl
@[simp] theorem Fld.grnSpgstatFAILCNT_len : Fld.grnSpgstatFAILCNT.info.len = 6 := rfl
@[simp] theorem Fld.grnSpgstatFAILSEEN_len : Fld.grnSpgstatFAILSEEN.info.len = 1 := rfl
@[simp] theorem Fld.grnSpgstatSEEN_len : Fld.grnSpgstatSEEN.info.len = 1 := rfl
@[simp] theorem Fld.grnSpgpassFRAME_len : Fld.grnSpgpassFRAME.info.len = 15 := rfl
@[simp] theorem Fld.grnSpgpassPAUSED_len : Fld.grnSpgpassPAUSED.info.len = 1 := rfl
@[simp] theorem Fld.grnSpgpassPASSES_len : Fld.grnSpgpassPASSES.info.len = 16 := rfl
@[simp] theorem Fld.grnShdsrcSEQ_len : Fld.grnShdsrcSEQ.info.len = 16 := rfl
@[simp] theorem Fld.grnShdsrcSRC_len : Fld.grnShdsrcSRC.info.len = 2 := rfl
@[simp] theorem Fld.grnShdsrcFROZEN_len : Fld.grnShdsrcFROZEN.info.len = 1 := rfl
@[simp] theorem Fld.grnRtabaPORTS_len : Fld.grnRtabaPORTS.info.len = 64 := rfl
@[simp] theorem Fld.grnRtabbPORTS_len : Fld.grnRtabbPORTS.info.len = 64 := rfl
@[simp] theorem Fld.grnNocisoISO_len : Fld.grnNocisoISO.info.len = 7 := rfl
@[simp] theorem Fld.grnNocisoRESTH_len : Fld.grnNocisoRESTH.info.len = 7 := rfl
@[simp] theorem Fld.grnNocisoCLR_len : Fld.grnNocisoCLR.info.len = 7 := rfl
@[simp] theorem Fld.grnNocisoDECL_len : Fld.grnNocisoDECL.info.len = 7 := rfl
@[simp] theorem Fld.grnNocisoSEEN_len : Fld.grnNocisoSEEN.info.len = 1 := rfl
@[simp] theorem Fld.grnNocabsABSORBED_len : Fld.grnNocabsABSORBED.info.len = 32 := rfl
@[simp] theorem Fld.grnNocabsDISCARD_len : Fld.grnNocabsDISCARD.info.len = 32 := rfl
@[simp] theorem Fld.grnNocinjCAP0_len : Fld.grnNocinjCAP0.info.len = 11 := rfl
@[simp] theorem Fld.grnNocinjCAP1_len : Fld.grnNocinjCAP1.info.len = 11 := rfl
@[simp] theorem Fld.grnNocwakeWAKES_len : Fld.grnNocwakeWAKES.info.len = 16 := rfl
@[simp] theorem Fld.grnNocwakeHELD_len : Fld.grnNocwakeHELD.info.len = 5 := rfl
@[simp] theorem Fld.grnNocwakeSEEN_len : Fld.grnNocwakeSEEN.info.len = 1 := rfl
@[simp] theorem Fld.grnEvstatDROPS_len : Fld.grnEvstatDROPS.info.len = 16 := rfl
@[simp] theorem Fld.grnEvstatSEEN_len : Fld.grnEvstatSEEN.info.len = 1 := rfl
@[simp] theorem Fld.grnIostatVDECL_len : Fld.grnIostatVDECL.info.len = 2 := rfl
@[simp] theorem Fld.grnIostatDECLVALID_len : Fld.grnIostatDECLVALID.info.len = 1 := rfl
@[simp] theorem Fld.grnIostatVSENSE_len : Fld.grnIostatVSENSE.info.len = 2 := rfl
@[simp] theorem Fld.grnIostatVPRES_len : Fld.grnIostatVPRES.info.len = 1 := rfl
@[simp] theorem Fld.grnIostatMISSEEN_len : Fld.grnIostatMISSEEN.info.len = 1 := rfl
@[simp] theorem Fld.grnLanecntCOUNT_len : Fld.grnLanecntCOUNT.info.len = 16 := rfl

end Sys2Proof.Machine
end

