-- ==== Sys2Proof/Tests/Slice0.lean ====
section
/-! SUPPORT. Tests: terms that are not well formed, worked examples of the manual (each names its chapter), and for each statement
with hypotheses a state and operands that meet them, clause by clause. -/

open Sys2Proof Sys2Proof.Machine

set_option maxRecDepth 100000
set_option exponentiation.threshold 4096
set_option linter.unusedVariables false

namespace Sys2Proof.Tests

/-! ## Helpers -/

/-- The state after reset with PERST_N deasserted. -/
def up : State := { State.reset with perst := false }

/-- Fields set by hand: (field, instance, second index, value). -/
def regsOf (l : List (Fld × Nat × Nat × Nat)) (s : State) : State := l.foldl (fun s e => s.setF e.1 e.2.2.2 e.2.1 e.2.2.1) s

/-- The state that an outcome gives. -/
def nextOf : Host.Outcome State Fault Refusal → State
  | .next t => t
  | _ => up

/-- A packet with the fields that a test does not name at 0. -/
def pk (vn : Vn) (opc : Opc) (dnode : BitVec 7) (dep : BitVec 3) (snode : BitVec 7) (addr : BitVec 48) (lenm1 : BitVec 12)
    (data : List Byte) : Packet :=
  { dnode := dnode, dep := dep, ddev := 0, snode := snode, sep := 0, sdev := 0, vn := vn, opc := opc, tag := 0, age := 0, addr := addr,
    lenm1 := lenm1, phint := 0, status := 0, segno := 0, split := false, wmask := 0, data := data }

/-- A host access at a BAR0 offset. -/
def hostAccess (offset : BitVec 26) (write : Bool) (len : Nat) (data : W64) : Access :=
  { offset := offset, len := len, write := write, masked := false, posted := false, data := data, src := ⟨64, 0⟩, tag := 0 }

/-- One 64-KiB-interleaved channel in service. -/
def memOn : State → State := regsOf [(.ddrImap0VALID, 0, 0, 1), (.ddrImap0CGIB, 0, 0, 16), (.ddrStatSTATE, 0, 0, 4)]

/-! ## Commands that are not well formed (WellFormed.lean), one term for each check -/

theorem wf_access_length : (Instr.registerWrite (hostAccess 0 true 0 0)).wf = false ∧ (Instr.unmappedAccess (hostAccess 0 true 4097 0)).wf = false ∧
    (Instr.gatedAccess (.bar0 (hostAccess 0 false 0 0))).wf = false ∧ (Instr.registerWrite { hostAccess 0 false 4 0 with masked := true }).wf = false ∧
    (Instr.registerWrite (hostAccess 0 true 4 0)).wf = true := by decide
theorem wf_packet_opcode : (Instr.rd (pk .req .wr 1 3 64 0 0 [0])).wf = false ∧ (Instr.rd (pk .rsp .rd 1 3 64 0 0 [])).wf = false ∧
    (Instr.rdata (pk .rsp .wcmp 1 3 64 0 0 [])).wf = false ∧ (Instr.evt (pk .req .evt 68 0 1 0 31 []) ⟨1, 0, 0, 0, 0⟩).wf = false ∧
    (Instr.resv (pk .rsp .resv 1 3 64 0 0 [])).wf = false ∧ (Instr.grant (pk .req .grant 1 3 64 0 0 [])).wf = false := by decide
theorem wf_packet_data : (Instr.wr (pk .req .wr 1 3 64 0 3 [0, 0])).wf = false ∧ (Instr.wrm (pk .req .wrm 1 3 64 0 63 [0])).wf = false ∧
    (Instr.rd (pk .req .rd 1 3 64 0 63 [0])).wf = false ∧ (Instr.wcmp (pk .rsp .wcmp 1 3 64 0 0 [1])).wf = false ∧
    (Instr.wrp (pk .req .wrp 1 3 64 0 0 [])).wf = false ∧ (Instr.wrmp (pk .req .wrmp 1 3 64 0 0 [])).wf = false ∧
    (Instr.wr (pk .req .wr 1 3 64 0 1 [0, 0])).wf = true := by decide
theorem wf_design_request : (Instr.dnpRequest ⟨0, 0⟩ ⟨0, 0, 3, 1, 0, 0, 0, []⟩).wf = false ∧
    (Instr.dnpRequest ⟨0, 0⟩ ⟨0, 0, 63, 3, 0, 0, 0, [1]⟩).wf = false ∧ (Instr.dnpRequest ⟨0, 0⟩ ⟨0, 0, 3, 0, 0, 0, 0, [1]⟩).wf = false := by decide
theorem wf_host_data : (Instr.barAccess .bar0 0 true 0 [] 0).wf = false ∧ (Instr.barAccess .bar2 0 true 4 [1] 0).wf = false ∧
    (Instr.barAccess .bar4 0 false 4 [1] 0).wf = false ∧ (Instr.memwr ⟨0, 0, [1], 0⟩).wf = false ∧
    (Instr.hostResponse ⟨0, false, false, []⟩).wf = false := by decide
theorem wf_links : (Instr.linkTrainingDone (.tun 0) [3, 3]).wf = false ∧
    (Instr.wortDiscovery [] 0 [] []).wf = false ∧ (Instr.wortDiscovery [⟨0, true, 0, none⟩] 0 (List.replicate 257 none) []).wf = false ∧
    (Instr.wortDiscovery [⟨0, true, 0, none⟩] 0 [] (List.replicate 121 none)).wf = false := by decide

/-! ## Worked examples of the manual -/

/-- 00_scope: cell 9 of tile (104, 55) of L27 on device 7. -/
theorem test_packed_address : packAddr 7 27 104 55 9 = 0x0EDB4379 := by decide
/-- 21_register_spaces: DIE_MAP35, and XCVR_LSTAT of lane X9Y3:6. -/
theorem test_register_addresses : (RegAt.ofOffset 0x0080208C).map (fun a => (a.reg, a.i)) = some (.dieMap, 35) ∧
    (RegAt.ofOffset 0x0210E010).map (fun a => (a.reg, a.i)) = some (.xcvrLstat, 270) := by decide
/-- 21_register_spaces: the stale read of L35's old window is the first gated access. -/
theorem test_stale_window : let t := nextOf (exec (.registerWrite (hostAccess 0x03252500 false 4 0)) (regsOf [(.dieMapPHYS, 35, 0, 45)] up))
    t.readReg .tunGatehit 0 0 = 0x90000001 ∧ t.readReg .tunGateaddr 0 0 = 0x03252500 := by decide
/-- 06_clocking, trimming against frame marks: windows 1 and 6. -/
theorem test_trim_first_window : (nextOf (exec (.trimWindowEnd 66322) { up with trim := ⟨true, 65536, 0⟩ })).readReg .clkTrotrim 0 0 = 0x388 := by decide
theorem test_trim_fourth_good_window :
    let t := nextOf (exec (.trimWindowEnd 65533) (regsOf [(.clkTrotrimTRIM, 0, 0, 0x389)] { up with trim := ⟨true, 65536, 3⟩ }))
    t.readReg .clkTrotrim 0 0 = 0x80000389 ∧ t.readReg .clkTrocnt 0 0 = 65533 := by decide
/-- 18_casks_taps_events, steps 1 and 2: the first GO, and the GO that collides. -/
theorem test_cask_go_collides : let s := regsOf [(.caskCfgMODE, 37, 0, 1), (.caskEndaACLS, 37, 0, 1)] up
    let t := nextOf (exec (.go 37 false ⟨64, 0⟩) s)
    t.readReg .caskStat 37 0 = 1 ∧ (nextOf (exec (.go 37 false ⟨64, 0⟩) t)).readReg .caskStat 37 0 = 5 := by decide +kernel
/-- 13_ddr5_memory: the home channel and local address of 0x0012_3456_A840 under K = 4 and the identity slot order. -/
theorem test_interleave : let s := regsOf [(.ddrImap0K, 0, 0, 4), (.ddrImap1CH, 0, 0, 0xFEDCBA9876543210)] up
    s.chanOf 0x00123456A840 = 13 ∧ s.localAddr 0x00123456A840 = 0x123456840 := by decide
/-- 17_transceivers_and_wort_links: WORT_LINK0 after the lane is lost. -/
theorem test_wort_link_register : (regsOf [(.wortLinkEN, 0, 0, 1), (.wortLinkSTATE, 0, 0, 3), (.wortLinkLANES, 0, 0, 11), (.wortLinkPEERDEV, 0, 0, 1),
    (.wortLinkSEEN, 0, 0, 1)] up).readReg .wortLink 0 0 = 0x800000000000015F := by decide
/-- 19_power_management: PWR_DCTL12 = 0x00A0_0C94 is AUTO, AUTORET, IDLE 50, RETIDLE 10 ms and REQ Run. -/
theorem test_power_control :
    let t := nextOf (exec (.powerRequest 12 0x00A00C94 ⟨64, 0⟩) { (regsOf [(.kilnStatSTATE, 0, 0, 7)] up) with pos := [(12, ⟨false, false⟩)] })
    t.getF .pwrDctlREQ 12 = 0 ∧ t.getF .pwrDctlAUTO 12 = 1 ∧ t.getF .pwrDctlAUTORET 12 = 1 ∧ t.getF .pwrDctlIDLE 12 = 50 ∧
    t.getF .pwrDctlRETIDLE 12 = 10 := by decide
/-- 03_routing: the gate finds bits 3 and 9 of H[5] of row 70, segment 2 of L27, and records the first. -/
theorem test_span_gate : let k := spanFieldNo ⟨false, 70, 2, 5⟩
    let s := { up with cfg := [(cfgKey 27 (faddrOf 1 (k / 128)), ⟨0x208 * 2 ^ (16 * (k % 128)), 0, 0⟩)] }
    let t := nextOf (exec (.spanGateEvent 27 ⟨false, 70, 2, 5⟩) s)
    t.getF .grnSpantrkENMASK 29 = 0x208 ∧ t.readReg .grnSpanaddr 29 0 = 0x200D91C60 ∧ t.readReg .grnSpanstat 29 0 = 0x80010001 := by decide

/-! ## Hypotheses that can be met: one theorem `hyps_<Name>` for the statement Obligations.<Name>, a witness for each clause -/

theorem hyps_EveryCommandAnswersAndStepsConsumeOne : ∃ s t : State, s.pending = [.featureLock] ∧ step s = .next t :=
  ⟨{ up with pending := [.featureLock] }, nextOf (step { up with pending := [.featureLock] }), rfl, rfl⟩
theorem hyps_EveryStepKeepsTheCanonicalForm :
    ∃ s t : State, s.pending = [.featureLock] ∧ s.canonical = true ∧ step s = .next t :=
  ⟨{ up with pending := [.featureLock] }, nextOf (step { up with pending := [.featureLock] }), rfl, by decide, rfl⟩
theorem hyps_EveryStepKeepsRegistersInTheirWidth :
    ∃ s t : State, s.pending = [.featureLock] ∧ s.regsFit = true ∧ step s = .next t :=
  ⟨{ up with pending := [.featureLock] }, nextOf (step { up with pending := [.featureLock] }), rfl, by decide, rfl⟩
theorem hyps_FeatureLockHoldsUntilDeviceReset :
    ∃ s t : State, s.isSet .tunFeatlockLOCK = true ∧ s.pending.head? ≠ some .perstNAssert ∧ step s = .next t :=
  ⟨regsOf [(.tunFeatlockLOCK, 0, 0, 1)] { up with pending := [.featureLock] },
    nextOf (step (regsOf [(.tunFeatlockLOCK, 0, 0, 1)] { up with pending := [.featureLock] })), by decide, by decide, rfl⟩
theorem hyps_WriteByFieldType :
    Fld.tunFeatackACK ∈ RegName.tunFeatack.fields ∧ Fld.tunFeatackACK.info.type = .rw ∧
    (∃ (r : RegName) (f : Fld), f ∈ r.fields ∧ f.info.type = .w1c) ∧ (∃ (r : RegName) (f : Fld), f ∈ r.fields ∧ f.info.type = .w1s) ∧
    (∃ (r : RegName) (f : Fld), f ∈ r.fields ∧ f.info.type = .ro) ∧ (∃ (r : RegName) (f : Fld), f ∈ r.fields ∧ f.info.type = .wo) :=
  ⟨by decide, by decide, ⟨.clkRootstat, .clkRootstatCOASTSEEN, by decide⟩, ⟨.tunFeatlock, .tunFeatlockLOCK, by decide⟩,
    ⟨.clkRootstat, .clkRootstatLOCK, by decide⟩, ⟨.kilnCtl, .kilnCtlRELOAD, by decide⟩⟩
theorem hyps_KilnJobsEndInDoneOrError :
    (∃ (s : State) (w : W32), s.perst = false ∧ s.unitOn .kiln = true ∧ w.toNat.testBit 2 = true ∧ s.isSet .kilnProgctlBUSY = false ∧
      w.toNat % 4 = 0) ∧
    (∃ (s : State) (w : W32), s.perst = false ∧ s.unitOn .kiln = true ∧ w.toNat.testBit 2 = true ∧ s.isSet .kilnProgctlBUSY = false ∧
      w.toNat % 4 = 1 ∧ s.baseSlot ≠ some 1 ∧ s.getF .kilnProglenLEN ≤ slotSize ∧
      s.memUsable (s.getF .kilnProgsrcADDR * 4096) (s.getF .kilnProglenLEN) = true) ∧
    (∃ (s : State) (slot len a : Nat) (rest : List KilnJob), s.kilnJobs = .slotProg slot len a :: rest ∧ s.memUsable a len = true) ∧
    (∃ (s : State) (w : W32), s.perst = false ∧ s.unitOn .kiln = true ∧ w.toNat.testBit 0 = true ∧ s.isSet .kilnAttctlBUSY = false ∧
      s.attOk = true) ∧
    (∃ (s : State) (rest : List KilnJob), s.kilnJobs = .attest :: rest ∧ s.attOk = true) :=
  ⟨⟨up, 4, by decide⟩, ⟨memOn (regsOf [(.kilnProglenLEN, 0, 0, 64)] up), 5, by decide⟩,
    ⟨memOn { up with kilnJobs := [.slotProg 1 64 0] }, 1, 64, 0, [], rfl, by decide⟩, ⟨memOn up, 1, by decide⟩,
    ⟨memOn { up with kilnJobs := [.attest] }, [], rfl, by decide⟩⟩
def lineReq : PReq := ⟨pk .req .rd 70 3 64 0 63 [], 0, [0], 0, []⟩
def lineState (cache : SMap (Option (Nat × Nat))) : State :=
  memOn (regsOf [(.mempRgnstatSTATE, 0, 0, 2), (.mempRgncfgENABLE, 0, 0, 1), (.mempRgncfgLOG2S, 0, 0, 24)]
    { up with memp.reqs := [lineReq], memp.cache := cache })
theorem hyps_ProtectedLinesAreCheckedAndWritten : ∃ (l : PLine) (q : PReq) (s u : State),
    s.memp.reqs.find? (fun q => q.pkt == l.pkt && q.todo.contains l.k.val) = some q ∧ q.todo = [l.k.val] ∧ q.status = 0 ∧
    (∀ x ∈ s.memp.reqs, x.todo ≠ []) ∧ s.pBlocked q l.k = false ∧ s.getF .mempRgnstatSTATE q.rgn = 2 ∧
    s.isSet .mempRgncfgENABLE q.rgn = true ∧ s.rgnBase q.rgn ≤ 64 * q.line l.k ∧ s.memUsable (64 * q.line l.k) 64 = true ∧
    s.memUsable (s.metaAddr q.rgn (s.pIndex q l.k / 8)) 64 = true ∧ s.rgnMode q.rgn ≠ 2 ∧ isPosted q.pkt.opc = false ∧
    (s.evictMeta l.evict).openMeta q.rgn (s.pIndex q l.k) (isWrite q.pkt.opc) l.mdecc = .ok u ∧
    isWrite q.pkt.opc = false ∧ u.metaWord q.rgn (s.pIndex q l.k) / 2 ^ 24 ≠ poisonMac ∧ l.dataUe = false ∧ s.rgnMode q.rgn = 0 :=
  ⟨⟨pk .req .rd 70 3 64 0 63 [], 0, [], false, false⟩, lineReq, lineState [(229376, some (0, 0))], lineState [(229376, some (0, 0))],
    by decide, by decide, by decide, by decide, by decide, by decide, by decide, by decide, by decide, by decide, by decide, by decide,
    rfl, by decide, by decide, by decide, by decide⟩
theorem hyps_ProtectedLinesAreCheckedAndWritten_poison :
    let s := lineState [(229376, some (0, poisonMac * 2 ^ 24))]
    s.memp.reqs = [lineReq] ∧ s.metaWord 0 0 / 2 ^ 24 = poisonMac ∧ s.isSet .mempAlarmctlZEROIZE = false ∧ s.rgnMode 0 = 0 := by decide
theorem hyps_PartialRecordsAndChecks_record : ∃ (s : State) (n : Pos) (lpos frames off : Nat), s.getF .kilnPldstatSTATE = 3 ∧ s.pld.cleared = true ∧
    s.pld.failed = false ∧ s.sectionOf s.pldSrc n.val = some (lpos, frames, off) ∧ SMap.get (fun _ => 0) s.pld.next n.val < frames :=
  ⟨regsOf [(.kilnPldstatSTATE, 0, 0, 3)] { up with pld := { passed := none, cleared := true, failed := false, code := 4, len := 2, src := 0, timed := true, time := 15, next := [], seen := [] }, mem := [(26, 1), (256, 1), (260, 2)] }, 1, 1, 2, 0, by decide⟩

theorem hyps_StepRunsTheFrontCommand :
    (∃ (s : State) (c : Instr) (rest : List Instr), s.pending = c :: rest) ∧
    (∃ (s : State), s.pending = []) :=
  ⟨⟨{ up with pending := [Instr.featureAcknowledge 0 0] }, (Instr.featureAcknowledge 0 0x00000000#32), [], by decide⟩,
    ⟨up, by decide⟩⟩

theorem hyps_RegisterAccessGoesByFieldTypes :
    (∃ (s : State) (a : Access) (p : RegAt), performed s a ∧ a.posted = false ∧ a.len = 4 ∧ RegAt.ofOffset a.offset.toNat = some p ∧
      p.reg.info.width ≠ 16 ∧ inMsixTab a.offset.toNat = false ∧ inMsixPba a.offset.toNat = false ∧ inCxlComp a.offset.toNat = false ∧ a.write
      = true ∧ plainReg p.reg = true) ∧
    (∃ (s : State) (a : Access) (p : RegAt), performed s a ∧ a.posted = false ∧ a.len = 4 ∧ RegAt.ofOffset a.offset.toNat = some p ∧
      p.reg.info.width ≠ 16 ∧ inMsixTab a.offset.toNat = false ∧ inMsixPba a.offset.toNat = false ∧ inCxlComp a.offset.toNat = false ∧ a.write
      = false ∧ p.reg.info.unit ≠ Unit0.cask ∧ p.reg.info.unit ≠ Unit0.tmu ∧ p.reg ≠ RegName.pwrRes) :=
  ⟨⟨(regsOf [(.wortStatDEVNUM, 0, 0, 1)] (up)),
      { offset := 8388608, len := 4, write := true, masked := false, posted := false, data := 38, src := { node := 16, dev := 1 }, tag := 3305 },
      { reg := RegName.dieCtl, i := 0, j := 0, bit := 0 }, by unfold performed; decide⟩,
    ⟨(regsOf [(.wortStatDEVNUM, 0, 0, 1)] (up)),
      { offset := 8388608, len := 4, write := false, masked := false, posted := false, data := 38, src := { node := 16, dev := 1 }, tag := 3305 },
      { reg := RegName.dieCtl, i := 0, j := 0, bit := 0 }, by unfold performed; decide⟩⟩

theorem hyps_GatedAccessIsCountedAndReadsZeros :
    ∃ (s : State), s.perst = false ∧ s.bar4Gated = true :=
  ⟨(regsOf [(.tunFeatlockLOCK, 0, 0, 1)]
    ({ up with part := { grade := 3, tempE := true, optS := true, optX := false, optG := true, step := 0, serial := 0, attPub := 0 } })), by
    decide⟩

theorem hyps_UnmappedRangesAnswerAddrerr :
    (∃ (s : State) (a : Access) (c : _), s.perst = false ∧ accessForm a = true ∧ (14680064 ≤ a.offset.toNat ∧ a.offset.toNat < 16777216 ∨
      17825792 ≤ a.offset.toNat ∧ a.offset.toNat < 33554432 ∨ 35651584 ≤ a.offset.toNat ∧ a.offset.toNat < 50331648 ∨ 54525952 ≤
      a.offset.toNat) ∧ c ∈ [Instr.unmappedAccess a, Instr.registerWrite a] ∧ a.posted = false) ∧
    (∃ (s : State) (a : Access) (c : _), s.perst = false ∧ accessForm a = true ∧ (14680064 ≤ a.offset.toNat ∧ a.offset.toNat < 16777216 ∨
      17825792 ≤ a.offset.toNat ∧ a.offset.toNat < 33554432 ∨ 35651584 ≤ a.offset.toNat ∧ a.offset.toNat < 50331648 ∨ 54525952 ≤
      a.offset.toNat) ∧ c ∈ [Instr.unmappedAccess a, Instr.registerWrite a] ∧ a.posted = true) :=
  ⟨⟨up,
      { offset := 38327216, len := 4, write := true, masked := false, posted := false, data := 29, src := { node := 127, dev := 2 }, tag := 2052 },
      (Instr.unmappedAccess
      { offset := 0x248d3b0#26, len := 4, write := true, masked := false, posted := false, data := 0x000000000000001d#64, src := { node := 0x7f#7, dev := 0x02#8 }, tag := 0x804#12 }),
      by decide⟩,
    ⟨up,
      { offset := 18984992, len := 4, write := false, masked := false, posted := true, data := 524304, src := { node := 3, dev := 2 }, tag := 1 },
      (Instr.unmappedAccess
      { offset := 0x121b020#26, len := 4, write := false, masked := false, posted := true, data := 0x0000000000080010#64, src := { node := 0x03#7, dev := 0x02#8 }, tag := 0x001#12 }),
      by decide⟩⟩

theorem hyps_FeatureAcknowledgeTakesOfferedBits :
    ∃ (s : State), s.perst = false :=
  ⟨up, by decide⟩

theorem hyps_FeatureLockFreezesTheChoice :
    (∃ (s : State), s.perst = false ∧ s.isSet Fld.tunFeatlockLOCK = true) ∧
    (∃ (s : State), s.perst = false ∧ s.isSet Fld.tunFeatlockLOCK = false) :=
  ⟨⟨(regsOf [(.tunFeatlockLOCK, 0, 0, 1)] (up)), by decide⟩,
    ⟨up, by decide⟩⟩

theorem hyps_RootFollowsItsReferences_1 :
    (∃ (s : State) (r : RefIn) (n : Nat) (c : Bool) (inBand : Bool), (inBand =
      match r with | RefIn.trimref => decide (199 ≤ 2 * n ∧ 2 * n ≤ 201) | RefIn.refclk => decide (995 ≤ n ∧ n ≤ 1005) | RefIn.refclk2 => decide (995 ≤ n ∧ n ≤ 1005)) ∧ s.isSet (refOkFld r) = false ∧ inBand = true ∧ c = true) ∧
    (∃ (s : State) (r : RefIn) (n : Nat) (inBand : Bool), (inBand =
      match r with | RefIn.trimref => decide (199 ≤ 2 * n ∧ 2 * n ≤ 201) | RefIn.refclk => decide (995 ≤ n ∧ n ≤ 1005) | RefIn.refclk2 => decide (995 ≤ n ∧ n ≤ 1005)) ∧ s.isSet (refOkFld r) = true ∧ inBand = false) ∧
    (∃ (s : State) (r : RefIn) (n : Nat) (inBand : Bool), (inBand =
      match r with | RefIn.trimref => decide (199 ≤ 2 * n ∧ 2 * n ≤ 201) | RefIn.refclk => decide (995 ≤ n ∧ n ≤ 1005) | RefIn.refclk2 => decide (995 ≤ n ∧ n ≤ 1005)) ∧ s.isSet (refOkFld r) = inBand) ∧
    (∃ (s : State) (r : RefIn) (n : Nat) (c : Bool) (inBand : Bool), (inBand =
      match r with | RefIn.trimref => decide (199 ≤ 2 * n ∧ 2 * n ≤ 201) | RefIn.refclk => decide (995 ≤ n ∧ n ≤ 1005) | RefIn.refclk2 => decide (995 ≤ n ∧ n ≤ 1005)) ∧ s.isSet (refOkFld r) = false ∧ c = false) ∧
    (∃ (s : State) (r : RefIn) (alt : RefIn), (r = RefIn.refclk ∧ alt = RefIn.refclk2 ∨ r = RefIn.refclk2 ∧ alt = RefIn.refclk) ∧ s.root =
      Root.locked ∧ s.getF Fld.clkRootcfgREFSEL = refSel r ∧ s.isSet (refOkFld r) = true ∧ s.isSet Fld.clkRootcfgAUTOSW = true ∧ s.isSet
      (refOkFld alt) = true) ∧
    (∃ (s : State) (r : RefIn) (alt : RefIn), (r = RefIn.refclk ∧ alt = RefIn.refclk2 ∨ r = RefIn.refclk2 ∧ alt = RefIn.refclk) ∧ s.root =
      Root.locked ∧ s.getF Fld.clkRootcfgREFSEL = refSel r ∧ s.isSet (refOkFld r) = true ∧ ¬(s.isSet Fld.clkRootcfgAUTOSW = true ∧ s.isSet
      (refOkFld alt) = true)) ∧
    (∃ (s : State), s.root = Root.switching) ∧
    (∃ (s : State), s.root = Root.relocking) :=
  ⟨⟨up, .refclk, 1000, true, true, by decide⟩,
    ⟨(regsOf [(.clkRootstatREF0OK, 0, 0, 1)] (up)), .refclk, 7, false, by decide⟩,
    ⟨up, .refclk, 7, false, by decide⟩,
    ⟨up, .refclk, 4, false, false, by decide⟩,
    ⟨(regsOf [(.clkRootstatREF0OK, 0, 0, 1), (.clkRootstatREF1OK, 0, 0, 1)] ({ up with root := .locked })), .refclk, .refclk2, by decide⟩,
    ⟨(regsOf [(.clkRootstatREF0OK, 0, 0, 1)] ({ up with root := .locked })), .refclk, .refclk2, by decide⟩,
    ⟨{ up with root := .switching }, by decide⟩,
    ⟨{ up with root := .relocking }, by decide⟩⟩

theorem hyps_RootFollowsItsReferences_2 :
    ∃ (s : State), s.perst = false :=
  ⟨up, by decide⟩

theorem hyps_UserPllCoastsRelocksAndUnlocks :
    (∃ (s : State) (n : Pos) (u : Fin 4), s.upllEn n.val u.val = true ∧ s.bitF Fld.grnPllstatCOASTNOW (u.val) (s.phys n.val) = false) ∧
    (∃ (s : State) (n : Pos) (u : Fin 4), s.upllEn n.val u.val = true ∧ s.bitF Fld.grnPllstatCOASTNOW (u.val) (s.phys n.val) = true) ∧
    (∃ (s : State) (n : Pos) (u : Fin 4), s.bitF Fld.grnPllstatLOCK (u.val) (s.phys n.val) = true) :=
  ⟨⟨(regsOf [(.grnPllcfgEN, 0, 1, 1)] (up)), 0, 1, by decide⟩,
    ⟨(regsOf [(.grnPllcfgEN, 0, 0, 1), (.grnPllstatCOASTNOW, 0, 0, 9)] (up)), 0, 0, by decide⟩,
    ⟨(regsOf [(.grnPllstatLOCK, 1, 0, 1)] (up)), 1, 0, by decide⟩⟩

theorem hyps_TrimEngineFollowsItsWindows :
    (∃ (s : State), s.trim.on = true ∧ 1024 ≤ s.trim.e) ∧
    (∃ (s : State), s.perst = false) :=
  ⟨⟨{ up with trim := { on := true, e := 1024, good := 4 } }, by decide⟩,
    ⟨up, by decide⟩⟩

theorem hyps_FrequencyMeterMeasures :
    (∃ (s : State), s.perst = false) ∧
    (∃ (s : State) (c : Instr) (n : Nat) (k : Nat), (c = Instr.fmMeasurementDone n ∨ c = Instr.fmGateTimeout n) ∧ s.isSet Fld.clkFmctlBUSY =
      true ∧ k = if 7 ≤ s.getF Fld.clkFmctlMSRC then 0 else n) :=
  ⟨⟨up, by decide⟩,
    ⟨(regsOf [(.clkFmctlBUSY, 0, 0, 1)] (up)), (Instr.fmMeasurementDone 5), 5, 5, by decide⟩⟩

theorem hyps_UnitGatingFollowsTunClken :
    (∃ (s : State), s.perst = false) ∧
    (∃ (s : State) (b : Fin 17), s.bitF Fld.tunClkenEN b.val = false ∧ s.bitF Fld.tunClkstatCLOCKED b.val = true ∧ s.gateReady b.val = true) ∧
    (∃ (s : State) (b : Fin 17), s.bitF Fld.tunClkenEN b.val = true ∧ s.bitF Fld.tunClkstatCLOCKED b.val = false) :=
  ⟨⟨up, by decide⟩,
    ⟨(regsOf [(.tunClkenEN, 0, 0, 8)] (up)), 1, by decide⟩,
    ⟨(regsOf [(.tunClkstatCLOCKED, 0, 0, 0)] (up)), 1, by decide⟩⟩

theorem hyps_StartUpRunsFromPerstToTheRootLock :
    (∃ (s : State), s.perst = true) ∧
    (∃ (s : State), s.perst = false ∧ s.root = Root.locking) :=
  ⟨⟨{ up with perst := true }, by decide⟩,
    ⟨{ up with root := .locking }, by decide⟩⟩

theorem hyps_LinksStartAndDiesAreDiscovered :
    (∃ (s : State) (p : Phys) (d : GPort) (depth : Nat), (s.clkSt p.val).up = none ∧ (s.clkSt p.val).lost = false ∧ s.clockAt (p.val) d =
      some depth) ∧
    (∃ (s : State) (d : Die) (port : GPort), s.crossingRuns = true ∧ s.isSet Fld.dieDiscstatDONE = false ∧ s.tokenPort d port = true) ∧
    (∃ (s : State) (d : Die), SMap.get (fun _ => 0) s.tokens (dieNo d) ≠ 0 ∧ s.isSet Fld.dieDiscstatDONE = false) ∧
    (∃ (s : State) (l : LinkDir), s.crossingRuns = true ∧
      match l with | LinkDir.grain p d => physNbr (p.val) d ≠ Nbr.none ∧ (s.clkSt p.val).lost = false | LinkDir.tun k => s.part.optG = true ∨ k.val ≠ 2 ∧ k.val ≠ 4) :=
  ⟨⟨{ up with root := .coasting, clk := [(2, { up := none, depth := 2, orphan := false, fwd := true, lost := false })] }, 1, .e, 2, by
      decide⟩,
    ⟨{ up with root := .locked }, (.grain (1)), .s, by decide⟩,
    ⟨{ up with tokens := [(7, 1)] }, (.grain (7)), by decide⟩,
    ⟨{ up with root := .locked }, (.tun (4)), by decide⟩⟩

theorem hyps_DiscoveryEndsInALoadOrFailure :
    ∃ (s : State), s.getF Fld.kilnStatSTATE = 2 ∧ s.isSet Fld.dieDiscstatDONE = false ∧ s.fw = FwSt.running :=
  ⟨(regsOf [(.kilnStatSTATE, 0, 0, 2)] ({ up with fw := .running })), by decide⟩

theorem hyps_AttemptsAreCheckedInOrder_1 :
    (∃ (s : State), s.getF Fld.kilnStatSTATE = 3 ∧ s.load.headed = false ∧ s.loadTurn = true) ∧
    (∃ (s : State), s.getF Fld.kilnStatSTATE = 3 ∧ s.load.headed = false ∧ s.loadTurn = true) ∧
    (∃ (s : State), s.getF Fld.kilnStatSTATE = 3 ∧ s.load.headed = true) ∧
    (∃ (s : State), s.getF Fld.kilnStatSTATE = 3 ∧ s.load.headed = true) ∧
    (∃ (s : State) (n : Pos) (lpos : Nat) (frames : Nat) (off : Nat), s.getF Fld.kilnStatSTATE = 4 ∧ s.isOos n.val = false ∧ s.sectionOf
      s.loadSrc n.val = some (lpos, frames, off) ∧ s.load.idx n.val < frames) ∧
    (∃ (s : State), s.getF Fld.kilnStatSTATE = 5) ∧
    (∃ (s : State), s.getF Fld.kilnStatSTATE = 5) ∧
    (∃ (s : State), s.getF Fld.kilnStatSTATE = 8) :=
  ⟨⟨(regsOf [(.kilnStatSTATE, 0, 0, 3)] (up)), by decide⟩,
    ⟨(regsOf [(.kilnStatSTATE, 0, 0, 3)] (up)), by decide⟩,
    ⟨(regsOf [(.kilnStatSTATE, 0, 0, 3)]
      ({ up with load := { order := [], next := [], seen := [], written := [], headed := true, tries := 0 } })), by decide⟩,
    ⟨(regsOf [(.kilnStatSTATE, 0, 0, 3)]
      ({ up with load := { order := [], next := [], seen := [], written := [], headed := true, tries := 0 } })), by decide⟩,
    ⟨(regsOf [(.kilnStatSTATE, 0, 0, 4)] ({ up with store := [(26, some (1)), (260, some (3))] })), 0, 0, 3, 0, by decide⟩,
    ⟨(regsOf [(.kilnStatSTATE, 0, 0, 5)] (up)), by decide⟩,
    ⟨(regsOf [(.kilnStatSTATE, 0, 0, 5)] (up)), by decide⟩,
    ⟨(regsOf [(.kilnStatSTATE, 0, 0, 8)] (up)), by decide⟩⟩

theorem hyps_AttemptsAreCheckedInOrder_2 :
    (∃ (s : State), s.getF Fld.kilnStatSTATE = 8) ∧
    (∃ (s : State) (k : _) (rest : _), s.load.order = k :: rest) ∧
    (∃ (s : State), s.load.order = []) :=
  ⟨⟨(regsOf [(.kilnStatSTATE, 0, 0, 8)] (up)), by decide⟩,
    ⟨{ up with load := { order := [0], next := [], seen := [], written := [], headed := true, tries := 0 } }, 0, [], by decide⟩,
    ⟨up, by decide⟩⟩

theorem hyps_RecordsAreWrittenOrFailTheAttempt :
    ∃ (s : State) (n : Pos) (lpos : Nat) (frames : Nat) (off : Nat), s.getF Fld.kilnStatSTATE = 4 ∧ s.sectionOf s.loadSrc n.val = some
      (lpos, frames, off) ∧ s.load.idx n.val < frames :=
  ⟨(regsOf [(.kilnStatSTATE, 0, 0, 4)] ({ up with store := [(26, some (1)), (260, some (1))] })), 0, 0, 1, 0, by decide⟩

theorem hyps_ReloadsClearThePartAndLoadAgain :
    (∃ (s : State) (w : W32), s.perst = false ∧ s.unitOn Unit0.kiln = true ∧ (BitVec.toNat w).testBit 0 = true) ∧
    (∃ (s : State) (slot : _), s.heldReload = some slot ∧ s.remap.phase = RemapPhase.idle) :=
  ⟨⟨up, 1, by decide⟩,
    ⟨{ up with heldReload := some (0) }, 0, by decide⟩⟩

theorem hyps_PitchesAreScheduledSentAndTaken :
    (∃ (s : State) (w : W32), s.perst = false ∧ s.unitOn Unit0.cap = true ∧ (BitVec.toNat w).testBit 4 = true) ∧
    (∃ (s : State) (r : PitchRef) (p : Pitch), (∀ (c : Timer), r ≠ PitchRef.timer c) ∧ s.pitchAt (pitchKey r) = some p ∧ p.index = none ∧
      s.sendDue p.time = true) ∧
    (∃ (s : State) (c : Timer), s.isSet Fld.tmrCtlARMED c.val = true ∧ s.getF Fld.tmrCtlDEST c.val = 3 ∧ s.tmrUnsent c.val = true ∧ s.sendDue
      (s.tmrSt c.val).next = true ∧ s.pitchAt (22 + c.val) = none) ∧
    (∃ (s : State) (key : _) (kind : _) (p : Pitch) (u : _) (j : Nat), s.takePitch key kind = some (p, u) ∧ j ≠ key) ∧
    (∃ (s : State) (r : PitchRef) (p : Pitch) (u : State), s.takePitch (pitchKey r) 7 = some (p, u)) :=
  ⟨⟨up, 63, by decide⟩,
    ⟨{ up with pitches := [(17, some ({ kind := 0, design := false, time := 0, sel := { floors := 0, base := false, pos := 0 }, index := none }))] },
      .fw, { kind := 0, design := false, time := 0, sel := { floors := 0, base := false, pos := 0 }, index := none }, by decide⟩,
    ⟨(regsOf [(.tmrCtlDEST, 6, 0, 3), (.tmrCtlARMED, 6, 0, 1)] (up)), 6, by decide⟩,
    ⟨{ up with pitches := [(0, some ({ kind := 1, design := false, time := 1, sel := { floors := 1, base := true, pos := 1 }, index := some 0 }))] },
      0, 1, { kind := 1, design := false, time := 1, sel := { floors := 1, base := true, pos := 1 }, index := some 0 },
      { up with pitches := [] }, 4, by decide⟩,
    ⟨{ up with pitches := [(16, some ({ kind := 7, design := false, time := 1, sel := { floors := 1, base := true, pos := 1 }, index := some 0 }))] },
      .kiln, { kind := 7, design := false, time := 1, sel := { floors := 1, base := true, pos := 1 }, index := some 0 },
      { up with pitches := [], lines := [(64, 0)] }, by decide⟩⟩

theorem hyps_PitchesFreezeThawAndCapture :
    ∃ (s : State) (r : PitchRef) (p : Pitch) (u : State), s.takePitch (pitchKey r) 3 = some (p, u) :=
  ⟨{ up with pitches := [(17, some ({ kind := 3, design := false, time := 1, sel := { floors := 1, base := true, pos := 1 }, index := some 0 }))] },
    .fw, { kind := 3, design := false, time := 1, sel := { floors := 1, base := true, pos := 1 }, index := some 0 },
    { up with pitches := [] }, by decide⟩

theorem hyps_CapturesCompleteWithTheirSequence :
    (∃ (s : State) (c : CaptSt), s.capt = some c ∧ (∀ (k : ℕ), SMap.get (fun _ => 0) c.taken k ≤ 65535) ∧ c.remap = false) ∧
    (∃ (s : State) (k : Fin 4), SMap.get (fun x => false) s.capselBusy k.val = false ∧ s.getF Fld.kilnStatSTATE = 7 ∧ s.pitchAt (18 + k.val)
      = none) :=
  ⟨⟨{ up with capt := some ({ sel := { floors := 0, base := false, pos := 0 }, skipPos := 0, skipFlr := 0, taken := [], snapped := [], capsel := none, remap := false }) },
      { sel := { floors := 0, base := false, pos := 0 }, skipPos := 0, skipFlr := 0, taken := [], snapped := [], capsel := none, remap := false },
      ⟨rfl, fun _ => Nat.zero_le _, rfl⟩⟩,
    ⟨(regsOf [(.kilnStatSTATE, 0, 0, 7)] (up)), 3, by decide⟩⟩

theorem hyps_ReleasePutsTheImageInForce :
    ∃ (s : State) (p : Pitch) (u : State), s.getF Fld.kilnStatSTATE = 6 ∧ s.takePitch 16 0 = some (p, u) :=
  ⟨(regsOf [(.kilnStatSTATE, 0, 0, 6)]
    ({ up with pitches := [(16, some ({ kind := 0, design := false, time := 1, sel := { floors := 1, base := true, pos := 1 }, index := some 0 }))] })),
    { kind := 0, design := false, time := 1, sel := { floors := 1, base := true, pos := 1 }, index := some 0 }, (regsOf [(.kilnStatSTATE, 0,
    0, 6)] ({ up with pitches := [] })), by decide⟩

theorem hyps_PartialRecordsAndChecks :
    (∃ (s : State), s.getF Fld.kilnPldstatSTATE = 3 ∧ s.pld.cleared = false) ∧
    (∃ (s : State), s.getF Fld.kilnPldstatSTATE = 3 ∧ s.pld.cleared = false) ∧
    (∃ (s : State), s.getF Fld.kilnPldstatSTATE = 4) ∧
    (∃ (s : State), s.getF Fld.kilnPldstatSTATE = 4) ∧
    (∃ (s : State), s.getF Fld.kilnPldstatSTATE = 3 ∧ s.pld.failed = true ∧ s.pld.cleared = true ∧ ((s.baseOfFloor s.pldFloor).any fun e =>
      exclusionFails e.2.1 e.2.2) = false) ∧
    (∃ (s : State), s.getF Fld.kilnPldstatSTATE = 3 ∧ s.pld.failed = true ∧ s.pld.cleared = true ∧ ((s.baseOfFloor s.pldFloor).any fun e =>
      exclusionFails e.2.1 e.2.2) = false) :=
  ⟨⟨(regsOf [(.kilnPldstatSTATE, 0, 0, 3)] (up)), by decide⟩,
    ⟨(regsOf [(.kilnPldstatSTATE, 0, 0, 3)] (up)), by decide⟩,
    ⟨(regsOf [(.kilnPldstatSTATE, 0, 0, 4)] (up)), by decide⟩,
    ⟨(regsOf [(.kilnPldstatSTATE, 0, 0, 4)] (up)), by decide⟩,
    ⟨(regsOf [(.kilnPldstatSTATE, 0, 0, 3)]
      ({ up with pld := { passed := none, cleared := true, failed := true, code := 0, len := 0, src := 0, timed := false, time := 0, next := [], seen := [] } })),
      by decide⟩,
    ⟨(regsOf [(.kilnPldstatSTATE, 0, 0, 3)]
      ({ up with pld := { passed := none, cleared := true, failed := true, code := 0, len := 0, src := 0, timed := false, time := 0, next := [], seen := [] } })),
      by decide⟩⟩

theorem hyps_PartialLoadsBeginAndEnd :
    (∃ (s : State) (w : W32), s.perst = false ∧ s.unitOn Unit0.kiln = true ∧ (BitVec.toNat w).testBit 0 = true) ∧
    (∃ (s : State), s.pldTurn = true ∧ s.getF Fld.kilnPldstatSTATE = 2 ∧ s.pitchAt 16 = none ∧ s.pld.passed = none) ∧
    (∃ (s : State) (p : Pitch) (u : State), s.takePitch 16 1 = some (p, u) ∧ s.pldFloor < 64) ∧
    (∃ (s : State) (p : Pitch) (u : State), s.takePitch 16 2 = some (p, u)) :=
  ⟨⟨up, 1, by decide⟩,
    ⟨(regsOf [(.kilnPldstatSTATE, 0, 0, 2)] ({ up with kilnJobs := [.partialLoad] })), by decide⟩,
    ⟨{ up with pitches := [(16, some ({ kind := 1, design := false, time := 1, sel := { floors := 1, base := true, pos := 1 }, index := some 0 }))] },
      { kind := 1, design := false, time := 1, sel := { floors := 1, base := true, pos := 1 }, index := some 0 }, { up with pitches := [] },
      by decide⟩,
    ⟨{ up with pitches := [(16, some ({ kind := 2, design := false, time := 1, sel := { floors := 1, base := true, pos := 1 }, index := some 0 }))] },
      { kind := 2, design := false, time := 1, sel := { floors := 1, base := true, pos := 1 }, index := some 0 }, { up with pitches := [] },
      by decide⟩⟩

theorem hyps_SpargeChecksFramesInPasses :
    (∃ (s : State) (n : Pos), s.spargeRuns n.val = true ∧ (s.spgSt n.val).inPass = false ∧ (s.spgSt n.val).start + s.getF Fld.spgCtlINTERVAL
      * 39000000 ≤ s.ran39) ∧
    (∃ (s : State) (n : Pos), s.spargeRuns n.val = true ∧ (s.spgSt n.val).inPass = true) ∧
    (∃ (s : State) (w : W32), s.perst = false ∧ s.unitOn Unit0.spg = true ∧ (BitVec.toNat w).testBit 0 = true) :=
  ⟨⟨(regsOf [(.kilnStatSTATE, 0, 0, 7)] (up)), 8, by decide⟩,
    ⟨(regsOf [(.kilnStatSTATE, 0, 0, 7)] ({ up with spg := [(0, { inPass := true, count := 0, start := 0 })] })), 0, by decide⟩,
    ⟨up, 3, by decide⟩⟩

theorem hyps_UpsetsAndRewritesOfFrames :
    (∃ (s : State) (n : Pos) (sp : Span), (if sp.vert = true then sp.seg.val < 8 else sp.line.val < 128) ∧ 2 ≤ popcount 16 (s.spanField
      (n.val) (spanFieldNo sp))) ∧
    (∃ (s : State) (n : Pos) (fa : W32), (n.val, BitVec.toNat fa) ∈ s.rewrites ∧ s.unitOn Unit0.kiln = true) ∧
    (∃ (s : State) (n : Pos) (fa : W32), (n.val, BitVec.toNat fa) ∈ s.rewrites ∧ s.unitOn Unit0.kiln = true) :=
  ⟨⟨{ up with cfg := [(4563402754, { data := 56216031426184028885141501808345340137732635137879428188901570312522527796957552484331533345359462986889663011326425166284809054000042253664037351383232009581913233789619236977533129114580118926451007279287273399528857980817640416317615268489617473588855576186487739272050881560059187344388523706342816948657408022387975719877443095920195378459673888514025522898345435235694556034820179245963654513660887610716479739052734206053400338828728321774853502691594404886639594889040406591077293101540411983975176494854027547397966306776081315102180681769133448168298628103569686585476617222883127904521293895582853751525, good := 56216031426184028885141501808345340137732635137879428188901570312522527796957552484331533345359462986889663011326425166284809054000042253664037351383232009581913233789619236977533129114580118926451007279287273399528857980817640416317615268489617473588855576186487739272050881560059187344388523706342816948657408022387975719877443095920195378459673888514025522898345435235694556034820179245963654513660887610716479739052734206053400338828728321774853502691594404886639594889040406591077293101540411983975176494854027547397966306776081315102180681769133448168298628103569686585476617222883127904521293895582853751525, status := 2 })] },
      1, { vert := false, line := 1, seg := 6, track := 9 }, by decide⟩,
    ⟨{ up with rewrites := [(1, 1)] }, 1, 1, by decide⟩,
    ⟨{ up with rewrites := [(1, 3)] }, 1, 3, by decide⟩⟩

theorem hyps_ConfigurationPathMovesFrames :
    (∃ (s : State) (w : W32) (op : Nat) (c : Instr), (op, c) ∈ [(0, Instr.accessReadJob w), (1, Instr.accessWriteJob w), (2,
      Instr.accessRestoreJob w)] ∧ BitVec.toNat w % 4 = op ∧ (BitVec.toNat w).testBit 12 = true ∧ s.perst = false ∧ s.unitOn Unit0.cap = true
      ∧ s.isSet Fld.capAccstatBUSY = false) ∧
    (∃ (s : State), s.isSet Fld.capAccstatBUSY = true ∧ s.unitOn Unit0.cap = true) ∧
    (∃ (s : State), s.isSet Fld.capAccstatBUSY = true ∧ s.unitOn Unit0.cap = true) :=
  ⟨⟨up, 21238308, 0, (Instr.accessReadJob 0x01441224#32), by decide⟩,
    ⟨(regsOf [(.capAccstatBUSY, 0, 0, 1)] (up)), by decide⟩,
    ⟨(regsOf [(.capAccstatBUSY, 0, 0, 1)] (up)), by decide⟩⟩

theorem hyps_RemapsAreAcceptedRefusedOrQueued :
    (∃ (s : State) (w : W32), s.perst = false ∧ s.unitOn Unit0.die = true ∧ (BitVec.toNat w).testBit 12 = true) ∧
    (∃ (s : State) (a : Pos) (b : Pos), s.getF Fld.dieCtlREMAPPOL = 2 ∧ s.linkFaulty a.val b.val = true) :=
  ⟨⟨up, 4112, by decide⟩,
    ⟨(regsOf [(.dieCtlREMAPPOL, 0, 0, 2)] (up)), 8, 9, by decide⟩⟩

theorem hyps_RemapsRunTheirSteps_1 :
    (∃ (s : State), s.remap.phase = RemapPhase.preparing ∧ s.remapAwake = true) ∧
    (∃ (s : State), s.remap.phase = RemapPhase.preparing ∧ s.remapAwake = true) ∧
    (∃ (s : State), s.remap.phase = RemapPhase.again) ∧
    (∃ (s : State), s.remap.phase = RemapPhase.again) ∧
    (∃ (s : State) (rest : List KilnJob), s.kilnJobs = KilnJob.remapWrite :: rest ∧ s.remap.phase = RemapPhase.writing) ∧
    (∃ (s : State) (rest : List KilnJob), s.kilnJobs = KilnJob.remapWrite :: rest ∧ s.remap.phase = RemapPhase.writing) ∧
    (∃ (s : State) (p : _) (u : State), s.remap.phase = RemapPhase.switching ∧ s.remap.pos < 60 ∧ SMap.wf (fun x => CfgFrame.zero) s.cfg =
      true ∧ s.takePitch 17 6 = some (p, u)) ∧
    (∃ (s : State) (p : _) (u : State), s.remap.phase = RemapPhase.aborting ∧ s.takePitch 17 6 = some (p, u)) :=
  ⟨⟨{ up with remap := { phase := .preparing, pos := 0, spare := 0, tried := [], nostate := false, old := 0, queued := [] } }, by decide⟩,
    ⟨{ up with remap := { phase := .preparing, pos := 3, spare := 63, tried := [], nostate := false, old := 0, queued := [] } }, by decide⟩,
    ⟨{ up with remap := { phase := .again, pos := 0, spare := 0, tried := [], nostate := false, old := 0, queued := [] } }, by decide⟩,
    ⟨{ up with remap := { phase := .again, pos := 1, spare := 61, tried := [], nostate := false, old := 0, queued := [] } }, by decide⟩,
    ⟨{ up with remap := { phase := .writing, pos := 0, spare := 0, tried := [], nostate := false, old := 0, queued := [] }, kilnJobs := [.remapWrite] },
      [], by decide⟩,
    ⟨{ up with remap := { phase := .writing, pos := 1, spare := 61, tried := [], nostate := false, old := 0, queued := [] }, kilnJobs := [.remapWrite] },
      [], by decide⟩,
    ⟨{ up with remap := { phase := .switching, pos := 2, spare := 62, tried := [], nostate := false, old := 0, queued := [] }, pitches := [(17, some ({ kind := 6, design := false, time := 1, sel := { floors := 1, base := true, pos := 1 }, index := some 0 }))] },
      { kind := 6, design := false, time := 1, sel := { floors := 1, base := true, pos := 1 }, index := some 0 },
      { up with remap := { phase := .switching, pos := 2, spare := 62, tried := [], nostate := false, old := 0, queued := [] }, pitches := [] },
      by decide⟩,
    ⟨{ up with remap := { phase := .aborting, pos := 2, spare := 62, tried := [], nostate := false, old := 0, queued := [] }, pitches := [(17, some ({ kind := 6, design := false, time := 1, sel := { floors := 1, base := true, pos := 1 }, index := some 0 }))] },
      { kind := 6, design := false, time := 1, sel := { floors := 1, base := true, pos := 1 }, index := some 0 },
      { up with remap := { phase := .aborting, pos := 2, spare := 62, tried := [], nostate := false, old := 0, queued := [] }, pitches := [] },
      by decide⟩⟩

theorem hyps_RemapsRunTheirSteps_2 :
    (∃ (s : State), s.remap.phase = RemapPhase.finishing) ∧
    (∃ (s : State), s.remap.phase = RemapPhase.finishing) :=
  ⟨⟨{ up with remap := { phase := .finishing, pos := 0, spare := 0, tried := [], nostate := false, old := 0, queued := [] } }, by decide⟩,
    ⟨{ up with remap := { phase := .finishing, pos := 1, spare := 61, tried := [], nostate := false, old := 0, queued := [] } }, by decide⟩⟩

theorem hyps_DieResetHoldsAndReleases :
    (∃ (s : State), s.perst = false ∧ s.unitOn Unit0.die = true) ∧
    (∃ (s : State) (n : Pos), (s.posSt n.val).inReset = true ∧ s.bitF Fld.dieGrstHOLD n.val = false ∧ s.isOos n.val = false ∧ (s.clkSt
      (s.phys n.val)).lost = false ∧ s.crossingRuns = true ∧ s.xidx % 4096 = 0 ∧ SMap.wf (fun x => CfgFrame.zero) s.cfg = true) :=
  ⟨⟨up, by decide⟩,
    ⟨{ up with root := .locked, pos := [(9, { inReset := true, restore := true })] }, 9, by decide⟩⟩

theorem hyps_LostAndOrphanedGrains :
    (∃ (s : State) (p : Phys) (c : Instr), (c = Instr.grainClockLoss p ∧ (s.clkSt p.val).fwd = true ∨ c = Instr.orphanTimeout p ∧ (s.clkSt
      p.val).orphan = true) ∧ (s.clkSt p.val).lost = false) ∧
    (∃ (s : State) (p : Phys), (s.clkSt p.val).lost = false ∧ ((s.clkSt p.val).orphan = true ∨ s.upstreamBad p.val = true)) ∧
    (∃ (s : State) (p : Phys) (d : GPort) (depth : Nat), (s.clkSt p.val).lost = true ∧ s.clockAt (p.val) d = some depth) :=
  ⟨⟨{ up with clk := [(5, { up := none, depth := 4, orphan := true, fwd := true, lost := false })] }, 5, (Instr.grainClockLoss 5), by
      decide⟩,
    ⟨{ up with clk := [(0, { up := none, depth := 1, orphan := true, fwd := true, lost := false })] }, 0, by decide⟩,
    ⟨{ up with root := .locked, clk := [(1, { up := none, depth := 0, orphan := false, fwd := false, lost := true }), (2, { up := some (63), depth := 3, orphan := false, fwd := true, lost := false })] },
      1, .e, 3, by decide⟩⟩

theorem hyps_LanesAreRetiredToSpares :
    (∃ (s : State) (l : LinkDir) (lane : Fin 104), (s.lnk l).up = true ∧ (s.lnk l).isRetired lane.val = false) ∧
    (∃ (s : State) (l : LinkDir), (s.lnk l).up = true ∧ (s.lnk l).moving ≠ [] ∧ (s.lnk l).copying = false) ∧
    (∃ (s : State) (l : LinkDir) (c : Instr) (logical : Nat) (old : Nat) (spare : Nat) (rest : List (Nat × Nat × Nat)), (c =
      Instr.spareQualified l ∨ c = Instr.spareCompareTimeout l false) ∧ (s.lnk l).copying = true ∧ (s.lnk l).moving = (logical, old, spare) ::
      rest) :=
  ⟨⟨{ up with link := [(258, { up := true, retired := 0, hosts := [], down := 0, moving := [], copying := false, ckLost := 0 })] }, (.tun
      (2)), 7, by decide⟩,
    ⟨{ up with link := [(257, { up := true, retired := 2513382694, hosts := [], down := 2, moving := [(1, (15, 23)), (67, (1, 0))], copying := false, ckLost := 0 })] },
      (.tun (1)), by decide⟩,
    ⟨{ up with link := [(256, { up := false, retired := 0, hosts := [], down := 0, moving := [(0, (0, 0))], copying := true, ckLost := 0 })] },
      (.tun (0)), (Instr.spareQualified (LinkDir.tun 0)), 0, 0, 0, [], by decide⟩⟩

theorem hyps_LanesDieAndLinksFold :
    (∃ (s : State) (l : LinkDir) (lane : Fin 104), (s.lnk l).up = true ∧ (s.lnk l).isRetired lane.val = false) ∧
    (∃ (s : State) (l : LinkDir) (lane : Fin 104) (e : Nat × Nat × Nat), List.find? (fun x => x.2.1 == lane.val) (s.lnk l).moving = some e ∧
      (s.lnk l).isRetired lane.val = true) ∧
    (∃ (s : State) (l : LinkDir) (p : _) (d : _) (n : _), l = LinkDir.grain p d ∧ s.posOf p.val = some n) ∧
    (∃ (s : State) (l : LinkDir) (p : _) (d : _), l = LinkDir.grain p d ∧ s.clockMissing (p.val) d = true) :=
  ⟨⟨{ up with link := [(258, { up := true, retired := 0, hosts := [], down := 0, moving := [], copying := false, ckLost := 0 })] }, (.tun
      (2)), 9, by decide⟩,
    ⟨{ up with link := [(6, { up := true, retired := 1, hosts := [(0, 648561699), (1, 1856404439), (2, 7), (66, 8), (293, 256), (4294967299, 255)], down := 8, moving := [(0, (0, 0)), (1, (65535, 1048576)), (3, (32, 5)), (10, (1000, 5)), (130, (5, 127))], copying := true, ckLost := 1802608075 })] },
      (.grain (1) (.s)), 0, (0, (0, 0)), by decide⟩,
    ⟨up, (.grain (2) (.e)), 2, .e, 2, by decide⟩,
    ⟨{ up with clk := [(1, { up := none, depth := 32, orphan := true, fwd := true, lost := true })] }, (.grain (0) (.e)), 0, .e, by decide⟩⟩

theorem hyps_RigidCrossingsDelaySixCyclesAHop :
    ∃ (s : State) (x : XrRef), s.crossingRuns = true ∧ x.hops ≠ [] ∧ (s.xrEntry x).testBit 14 = true ∧ (SMap.get (fun x => XrSt.initial)
      s.xr (pathKey x.hops)).pipe.length = 6 * x.hops.length ∧ ∀ h ∈ x.hops, s.hopRests (h.pos.val) h.port.num = false ∧ s.hopPairDown
      (h.pos.val) h.port.num h.idx.val = false ∧ s.hopHolds (h.pos.val) h.port.num = false :=
  ⟨{ up with root := .locked, cfg := [(805306376, { data := 6909219575026939381, good := 6909219575026939381, status := 0 })], xr := [(0, { last := true, pipe := [true, false, false, true, false, false], q := true })] },
    { src := 0, hops := [{ pos := 0, port := .n, idx := 0 }] }, by decide⟩

theorem hyps_ElasticChannelsKeepTheirCredits_1 :
    (∃ (s : State) (x : XeRef), x.hops ≠ [] ∧ (s.xeEntry (pathKey x.hops)).testBit 41 = true ∧ s.tileClocked (x.src.val) (s.xeSourceTile
      (s.openChan x)).1 (s.xeSourceTile (s.openChan x)).2 = true ∧ (s.openChan x).srcF.length < 16) ∧
    (∃ (s : State) (x : XeRef) (w : _) (f : _), s.tileClocked (pathKey x.hops / 4096) (s.xeDestTile (pathKey x.hops)).1 (s.xeDestTile
      (pathKey x.hops)).2 = true ∧ (s.chan (pathKey x.hops)).dstF = w :: f) ∧
    (∃ (s : State) (x : XeRef) (w : _) (f : _), s.tileClocked (pathKey x.hops / 4096) (s.xeDestTile (pathKey x.hops)).1 (s.xeDestTile
      (pathKey x.hops)).2 = true ∧ (s.chan (pathKey x.hops)).dstF = w :: f) ∧
    (∃ (s : State) (x : XeRef) (n : BitVec 6), (s.chan (pathKey x.hops)).frozen = false ∧ n.toNat ≤ (s.chan (pathKey x.hops)).owed) ∧
    (∃ (s : State) (x : XeRef) (n : BitVec 6), (s.chan (pathKey x.hops)).frozen = false ∧ n.toNat ≤ (s.chan (pathKey x.hops)).owed) ∧
    (∃ (s : State) (x : XeRef) (w : _) (f : _), (s.chan (pathKey x.hops)).fly = w :: f) ∧
    (∃ (s : State) (x : XeRef) (w : _) (f : _), (s.chan (pathKey x.hops)).fly = w :: f) ∧
    (∃ (s : State) (x : XeRef), (s.chan (pathKey x.hops)).frozen = true ∧ s.xeSourceRests (s.chan (pathKey x.hops)) = false ∧ s.xeDestRests
      (pathKey x.hops) = false) :=
  ⟨⟨{ up with pos := [(0, { inReset := false, restore := false })], cfg := [(805306416, { data := 20492318418962674505174650641224036759682880281589298920374362023168897, good := 20492318418962674505174650641224036759682880281589298920374362023168897, status := 0 })] },
      { src := 0, hops := [{ pos := 0, port := .n, idx := 1 }] }, by decide⟩,
    ⟨{ up with pos := [(0, { inReset := false, restore := false })], xe := [(0, { src := 0, hops := [], srcF := [], slots := 0, fly := [], dstF := [0], spent := 0, owed := 0, frozen := false })] },
      { src := 9, hops := [] }, 0, [], by decide⟩,
    ⟨{ up with pos := [(0, { inReset := false, restore := false })], xe := [(0, { src := 255, hops := [], srcF := [], slots := 7, fly := [], dstF := [0], spent := 15, owed := 8, frozen := true })] },
      { src := 1, hops := [] }, 0, [], by decide⟩,
    ⟨up, { src := 4, hops := [] }, 0, by decide⟩,
    ⟨up, { src := 0, hops := [] }, 0, by decide⟩,
    ⟨{ up with xe := [(0, { src := 0, hops := [], srcF := [], slots := 0, fly := [0], dstF := [], spent := 0, owed := 0, frozen := false })] },
      { src := 1, hops := [] }, 0, [], by decide⟩,
    ⟨{ up with xe := [(0, { src := 256, hops := [], srcF := [4], slots := 8, fly := [16, 7], dstF := [], spent := 3, owed := 4, frozen := true })] },
      { src := 0, hops := [] }, 16, [7], by decide⟩,
    ⟨{ up with pos := [(0, { inReset := false, restore := false })], xe := [(0, { src := 0, hops := [], srcF := [], slots := 0, fly := [], dstF := [], spent := 0, owed := 0, frozen := true })] },
      { src := 35, hops := [] }, by decide⟩⟩

theorem hyps_ElasticChannelsKeepTheirCredits_2 :
    ∃ (s : State) (x : XeRef) (w : _) (f : _), s.xeSourceRests (s.chan (pathKey x.hops)) = false ∧ s.xeDestRests (pathKey x.hops) = false ∧
      s.xeStalled (pathKey x.hops) = false ∧ (s.chan (pathKey x.hops)).slots = 0 ∧ (s.chan (pathKey x.hops)).srcF = w :: f ∧ (s.chan (pathKey
      x.hops)).frozen = false ∧ (s.chan (pathKey x.hops)).spent < xeDepth (s.xeEntry (pathKey x.hops)) ∧ xeW (s.xeEntry (pathKey x.hops)) ≤
      xeSw (s.xeEntry (pathKey x.hops)) :=
  ⟨{ up with pos := [(0, { inReset := false, restore := false })], xe := [(2052, { src := 0, hops := [], srcF := [0], slots := 0, fly := [], dstF := [], spent := 0, owed := 0, frozen := false })] },
    { src := 2, hops := [{ pos := 9, port := .e, idx := 3 }, { pos := 31, port := .n, idx := 824 }, { pos := 0, port := .s, idx := 4 }] },
    0, [], by decide⟩

theorem hyps_FlipFlopsFollowTheirPriorities :
    (∃ (s : State) (tl : Tile) (line : Fin 2), s.tileClocked tl.pos.val tl.col.val tl.row.val = true ∧ s.clockSelLive (tl.pos.val)
      (tl.col.val) (tl.row.val) (bits (s.tileFrame tl.pos.val tl.col.val tl.row.val) (996 + 5 * line.val) 5) = true ∧ s.capt = none) ∧
    (∃ (s : State) (tl : Tile) (line : Fin 2), srAsync (s.tileFrame tl.pos.val tl.col.val tl.row.val) line.val = true) ∧
    (∃ (s : State) (tl : Tile) (line : Fin 2), s.asyncOn (tileKey tl.pos.val tl.col.val tl.row.val) line.val = true) ∧
    (∃ (s : State) (tl : Tile) (line : Fin 2), s.asyncOn (tileKey tl.pos.val tl.col.val tl.row.val) line.val = true) :=
  ⟨⟨{ up with pos := [(0, { inReset := false, restore := false })], cfg := [(0, { data := 811745304227999403326307805983163990115280838380098056645976991060377041342549283022247431163102755412395829383336147626585699786740189205693680780152233593645300303121314692636284580053535007647429158070931364792187391030297313799016700733259003490775280331924051076879506717999030703135267031841134108571514815906802072288530171102186604206130185406108002614670918005576073126108875312265437464122222324163825060480865313055675675492350248352169880836193542051804117171279985481502177463872811463576612895029855058086295817556355551203446255524148909436266394895200802266431979963405776916155860386951981034938606, good := 811745304227999403326307805983163990115280838380098056645976991060377041342549283022247431163102755412395829383336147626585699786740189205693680780152233593645300303121314692636284580053535007647429158070931364792187391030297313799016700733259003490775280331924051076879506717999030703135267031841134108571514815906802072288530171102186604206130185406108002614670918005576073126108875312265437464122222324163825060480865313055675675492350248352169880836193542051804117171279985481502177463872811463576612895029855058086295817556355551203446255524148909436266394895200802266431979963405776916155860386951981034938606, status := 0 }), (1073741824, { data := 2839213766779714416129606757208681249154393217786157697308135246603743448884633939889339989103360004152743003937923499554567132020736, good := 2839213766779714416129606757208681249154393217786157697308135246603743448884633939889339989103360004152743003937923499554567132020736, status := 0 })] },
      { pos := 0, col := 0, row := 0 }, 0, by decide⟩,
    ⟨{ up with cfg := [(0, { data := 240511192116432177163206699721546765314350475205119718288239141041951649715348711221925703102511984293949557215819108387679483083004748304480253410147037865555683296171082961131560930119839181940090556220348869311166256207316420097495854776831363383422789717488655335674742160300175684994620176022187119829930844864071231740282272361997586171267476493277026311960606218150356034440226611940962663699683308695781832904067570357132554855812854065033777817241436798127835254706356376166060489237642803194519827234034466627261548259354065587002097088695207925880794494665623172830506712566120164002685427661267729117242, good := 240511192116432177163206699721546765314350475205119718288239141041951649715348711221925703102511984293949557215819108387679483083004748304480253410147037865555683296171082961131560930119839181940090556220348869311166256207316420097495854776831363383422789717488655335674742160300175684994620176022187119829930844864071231740282272361997586171267476493277026311960606218150356034440226611940962663699683308695781832904067570357132554855812854065033777817241436798127835254706356376166060489237642803194519827234034466627261548259354065587002097088695207925880794494665623172830506712566120164002685427661267729117242, status := 0 })] },
      { pos := 0, col := 0, row := 0 }, 1, by decide⟩,
    ⟨{ up with srOn := [(1, 31)] }, { pos := 0, col := 0, row := 1 }, 1, by decide⟩,
    ⟨{ up with srOn := [(1, 7)] }, { pos := 0, col := 0, row := 1 }, 0, by decide⟩⟩

theorem hyps_BlocksAndSlicesActAtTheirEdges_1 :
    (∃ (s : State) (n : Pos) (k : Fin 288) (p : BPins) (w : Nat), s.capt = none ∧ (s.ramAttrOf n.val k.val).cascLen = 0 ∧ widthOf (if p.portB
      = true then (s.ramAttrOf n.val k.val).widthB else (s.ramAttrOf n.val k.val).widthA) = some w ∧ s.tileClocked (n.val) (ram72Anchor
      k.val).1 (ram72Anchor k.val).2 = true ∧ p.en = true ∧ p.coll = Coll.none ∧ (s.ramAttrOf n.val k.val).ecc = false ∧ ¬((s.ramAttrOf n.val
      k.val).sdp = true ∧ p.portB = true)) ∧
    (∃ (s : State) (n : Pos) (k : Fin 288) (p : BPins) (w : Nat), s.capt = none ∧ (s.ramAttrOf n.val k.val).cascLen = 0 ∧ widthOf (if p.portB
      = true then (s.ramAttrOf n.val k.val).widthB else (s.ramAttrOf n.val k.val).widthA) = some w ∧ s.tileClocked (n.val) (ram72Anchor
      k.val).1 (ram72Anchor k.val).2 = true ∧ p.en = true ∧ p.coll = Coll.none ∧ (s.ramAttrOf n.val k.val).ecc = false ∧ ¬((s.ramAttrOf n.val
      k.val).sdp = true ∧ p.portB = true)) ∧
    (∃ (s : State) (n : Pos) (k : Fin 288) (p : BPins) (w : Nat), s.capt = none ∧ (s.ramAttrOf n.val k.val).cascLen = 0 ∧ widthOf (if p.portB
      = true then (s.ramAttrOf n.val k.val).widthB else (s.ramAttrOf n.val k.val).widthA) = some w ∧ s.tileClocked (n.val) (ram72Anchor
      k.val).1 (ram72Anchor k.val).2 = true ∧ p.en = true ∧ p.coll = Coll.none ∧ (s.ramAttrOf n.val k.val).ecc = false ∧ ¬((s.ramAttrOf n.val
      k.val).sdp = true ∧ p.portB = false) ∧ p.rsto = false) ∧
    (∃ (s : State) (n : Pos) (k : Fin 288) (p : BPins) (w : Nat), s.capt = none ∧ (s.ramAttrOf n.val k.val).cascLen = 0 ∧ widthOf (if p.portB
      = true then (s.ramAttrOf n.val k.val).widthB else (s.ramAttrOf n.val k.val).widthA) = some w ∧ s.tileClocked (n.val) (ram72Anchor
      k.val).1 (ram72Anchor k.val).2 = true ∧ p.en = true ∧ p.coll = Coll.none ∧ (s.ramAttrOf n.val k.val).ecc = false ∧ ¬((s.ramAttrOf n.val
      k.val).sdp = true ∧ p.portB = false) ∧ p.rsto = false) ∧
    (∃ (s : State) (n : Pos) (k : Fin 288) (p : BPins), s.capt = none ∧ bits (s.frame (n.val) (faddrOf 2 (288 + k.val))).data 70 4 = 0 ∧
      s.tileClocked (n.val) (deep2mAnchor k.val).1 (deep2mAnchor k.val).2 = true ∧ p.en = true ∧ p.coll = Coll.none ∧ ¬((s.frame (n.val)
      (faddrOf 2 (288 + k.val))).data.testBit 0 = true ∧ p.portB = true) ∧ ((s.frame (n.val) (faddrOf 2 (288 + k.val))).data.testBit 0 = true
      ∨ (s.frame (n.val) (faddrOf 2 (288 + k.val))).data.testBit 1 = true)) ∧
    (∃ (s : State) (n : Pos) (k : Fin 288) (p : BPins), s.capt = none ∧ bits (s.frame (n.val) (faddrOf 2 (288 + k.val))).data 70 4 = 0 ∧
      s.tileClocked (n.val) (deep2mAnchor k.val).1 (deep2mAnchor k.val).2 = true ∧ p.en = true ∧ p.coll = Coll.none ∧ p.portB = (s.frame
      (n.val) (faddrOf 2 (288 + k.val))).data.testBit 0 ∧ s.deepBad (n.val) (k.val) (p.addr.toNat % 32768) = 0 ∧ p.rsto = false ∧ p.oce = true) ∧
    (∃ (s : State) (n : Pos) (k : Fin 288) (p : BPins), s.capt = none ∧ bits (s.frame (n.val) (faddrOf 2 (288 + k.val))).data 70 4 = 0 ∧
      s.tileClocked (n.val) (deep2mAnchor k.val).1 (deep2mAnchor k.val).2 = true ∧ p.en = true ∧ p.coll = Coll.none ∧ p.portB = (s.frame
      (n.val) (faddrOf 2 (288 + k.val))).data.testBit 0 ∧ s.deepBad (n.val) (k.val) (p.addr.toNat % 32768) = 0 ∧ p.rsto = false ∧ p.oce = true) ∧
    (∃ (s : State) (n : Pos) (k : Fin 288) (b : Bool), s.capt = none ∧ (s.ramAttrOf n.val k.val).cascLen = 0 ∧ (widthOf (if b = true then
      (s.ramAttrOf n.val k.val).widthB else (s.ramAttrOf n.val k.val).widthA)).isSome = true ∧ s.tileClocked (n.val) (ram72Anchor k.val).1
      (ram72Anchor k.val).2 = true) :=
  ⟨⟨{ up with pos := [(0, { inReset := false, restore := false })] }, 0, 0,
      { portB := true, addr := 3, di := 4, be := 12, en := true, oce := true, rsto := true, coll := .none }, 1, by decide⟩,
    ⟨{ up with pos := [(0, { inReset := false, restore := false })] }, 0, 8,
      { portB := true, addr := 2, di := 0, be := 32, en := true, oce := true, rsto := true, coll := .none }, 1, by decide⟩,
    ⟨{ up with pos := [(6, { inReset := false, restore := false })] }, 6, 2,
      { portB := false, addr := 4, di := 1, be := 2, en := true, oce := true, rsto := false, coll := .none }, 1, by decide⟩,
    ⟨{ up with pos := [(0, { inReset := false, restore := false })] }, 0, 7,
      { portB := true, addr := 8, di := 0, be := 40, en := true, oce := true, rsto := false, coll := .none }, 1, by decide⟩,
    ⟨{ up with pos := [(0, { inReset := false, restore := false })], cfg := [(536871203, { data := 9, good := 9, status := 0 })] }, 0, 3,
      { portB := false, addr := 54, di := 5, be := 8, en := true, oce := false, rsto := true, coll := .none }, by decide⟩,
    ⟨{ up with pos := [(2, { inReset := false, restore := false })] }, 2, 1,
      { portB := false, addr := 2, di := 3, be := 2, en := true, oce := true, rsto := false, coll := .none }, by decide⟩,
    ⟨{ up with pos := [(1, { inReset := false, restore := false })] }, 1, 0,
      { portB := false, addr := 0, di := 1, be := 0, en := true, oce := true, rsto := false, coll := .none }, by decide⟩,
    ⟨{ up with pos := [(6, { inReset := false, restore := false })] }, 6, 1, true, by decide⟩⟩

theorem hyps_BlocksAndSlicesActAtTheirEdges_2 :
    (∃ (s : State) (n : Pos) (k : Fin 288) (b : Bool), s.capt = none ∧ (s.ramAttrOf n.val k.val).cascLen = 0 ∧ (widthOf (if b = true then
      (s.ramAttrOf n.val k.val).widthB else (s.ramAttrOf n.val k.val).widthA)).isSome = true ∧ s.tileClocked (n.val) (ram72Anchor k.val).1
      (ram72Anchor k.val).2 = true) ∧
    (∃ (s : State) (r : SliceRef) (p : SPins) (opc : BitVec 4), s.sliceClocked r.pos.val r.idx.val = true ∧ s.capt = none ∧ p.ce = true ∧
      decOpen (s.sliceAttrOf r.pos.val r.idx.val) (s.slice r.pos.val r.idx.val) = false ∧ opIllegal (s.sliceAttrOf r.pos.val r.idx.val).mode
      (opWord opc.toNat p) = true) ∧
    (∃ (s : State) (r : SliceRef) (p : SPins) (opc : BitVec 4), s.sliceClocked r.pos.val r.idx.val = true ∧ s.capt = none ∧ p.ce = true ∧
      decOpen (s.sliceAttrOf r.pos.val r.idx.val) (s.slice r.pos.val r.idx.val) = false ∧ opIllegal (s.sliceAttrOf r.pos.val r.idx.val).mode
      (opWord opc.toNat p) = true) :=
  ⟨⟨{ up with pos := [(1, { inReset := false, restore := false })] }, 1, 1, true, by decide⟩,
    ⟨{ up with pos := [(7, { inReset := false, restore := false })] }, { pos := 7, idx := 1 },
      { split := 3, sat := true, ysrc := true, agadv := true, neg := true, rnd := true, asrc := true, a := 49, ax := 8, b := 2, bx := 2, ce := true },
      10, by decide⟩,
    ⟨{ up with pos := [(1, { inReset := false, restore := false })] }, { pos := 1, idx := 6 },
      { split := 3, sat := true, ysrc := true, agadv := false, neg := false, rnd := true, asrc := false, a := 0, ax := 96, b := 2, bx := 1, ce := true },
      9, by decide⟩⟩

theorem hyps_PacketsReachTheirTargets_1 :
    (∃ (s : State) (p : Packet) (i : Nat) (c : _), arrives s p i ∧ c ∈ reqCmds p ∧ p.opc = c.1 ∧ reqLegal p = false ∧ isPosted p.opc = false) ∧
    (∃ (s : State) (p : Packet) (i : Nat) (c : _), arrives s p i ∧ c ∈ reqCmds p ∧ p.opc = c.1 ∧ reqLegal p = false ∧ isPosted p.opc = false) ∧
    (∃ (s : State) (p : Packet) (i : Nat) (c : Opc × Instr), arrives s p i ∧ c ∈ reqCmds p ∧ p.opc = c.1 ∧ reqLegal p = true ∧ isPosted p.opc
      = false ∧ s.devDecode p.addr.toNat = DevTarget.nowhere) ∧
    (∃ (s : State) (p : Packet) (i : Nat) (c : Opc × Instr), arrives s p i ∧ c ∈ reqCmds p ∧ p.opc = c.1 ∧ reqLegal p = true ∧ isPosted p.opc
      = false ∧ s.devDecode p.addr.toNat = DevTarget.nowhere) ∧
    (∃ (s : State) (p : Packet) (i : Nat) (c : _) (o : _), arrives s p i ∧ c ∈ reqCmds p ∧ p.opc = c.1 ∧ reqLegal p = true ∧ s.devDecode
      p.addr.toNat = DevTarget.bar0 o ∧ p.dnode.toNat = regNode o ∧ nodeDomain p.dnode.toNat = none ∧ Option.all (fun n => s.forwards n)
      (s.windowPos o) = true) ∧
    (∃ (s : State) (p : Packet) (i : Nat) (c : _) (o : _), arrives s p i ∧ c ∈ reqCmds p ∧ p.opc = c.1 ∧ reqLegal p = true ∧ s.devDecode
      p.addr.toNat = DevTarget.bar0 o ∧ p.dnode.toNat = regNode o ∧ nodeDomain p.dnode.toNat = none ∧ Option.all (fun n => s.forwards n)
      (s.windowPos o) = true) ∧
    (∃ (s : State) (p : Packet) (i : Nat) (c : Opc × Instr) (n : Pos) (k : Fin 2), arrives s p i ∧ c ∈ reqCmds p ∧ p.opc = c.1 ∧ reqLegal p =
      true ∧ s.devDecode p.addr.toNat = DevTarget.dnp n.val k.val ∧ p.dnode.toNat = n.val ∧ p.dep.toNat = 1 + k.val ∧ s.isIso (s.phys n.val)
      (4 + k.val) = true ∧ isPosted p.opc = false) ∧
    (∃ (s : State) (p : Packet) (i : Nat) (c : Opc × Instr) (n : Pos) (k : Fin 2), arrives s p i ∧ c ∈ reqCmds p ∧ p.opc = c.1 ∧ reqLegal p =
      true ∧ s.devDecode p.addr.toNat = DevTarget.dnp n.val k.val ∧ p.dnode.toNat = n.val ∧ p.dep.toNat = 1 + k.val ∧ s.isIso (s.phys n.val)
      (4 + k.val) = true ∧ isPosted p.opc = false) :=
  ⟨⟨(regsOf [(.nocRtctlACTIVE, 0, 0, 1), (.nocTrtabbPORTS, 2, 4, 18446744073709551360)]
      ({ up with net := [(pk .req .wr 65 0 65 2199023259584 64 [])] })), (pk .req .wr 65 0 65 2199023259584 64 []), 4, (.wr, Instr.wr (pk .req
      .wr 65 0 65 2199023259584 64 [])), by unfold arrives; decide⟩,
    ⟨(regsOf [(.nocRtctlACTIVE, 0, 0, 1), (.nocTrtabbPORTS, 4, 4, 18446744073693822975), (.wortStatDEVNUM, 0, 0, 15)]
      ({ up with net := [{ (pk .req .wrm 69 3 40 263988073228063 1728 []) with ddev := 15, sep := 7, sdev := 21, tag := 1024, status := 5, segno := 3 }] })),
      { (pk .req .wrm 69 3 40 263988073228063 1728 []) with ddev := 15, sep := 7, sdev := 21, tag := 1024, status := 5, segno := 3 }, 4,
      (.wrm, Instr.wrm
      { (pk .req .wrm 69 3 40 263988073228063 1728 []) with ddev := 15, sep := 7, sdev := 21, tag := 1024, status := 5, segno := 3 }),
      by unfold arrives; decide⟩,
    ⟨(regsOf [(.grnRtabaPORTS, 1, 0, 0)]
      ({ up with net := [{ (pk .req .rd 1 3 64 1856 63 [40]) with sdev := 1, tag := 1179, status := 12, segno := 2 }] })),
      { (pk .req .rd 1 3 64 1856 63 [40]) with sdev := 1, tag := 1179, status := 12, segno := 2 }, 4, (.rd, Instr.rd
      { (pk .req .rd 1 3 64 1856 63 [40]) with sdev := 1, tag := 1179, status := 12, segno := 2 }), ⟨⟨by decide, by decide, by decide, by
      decide, by decide +kernel⟩, by decide, by decide, by decide, by decide, by decide⟩⟩,
    ⟨(regsOf [(.grnRtabaPORTS, 3, 0, 8)]
      ({ up with net := [{ (pk .req .wr 3 3 80 768 64 [66, 4]) with sep := 1, sdev := 1, tag := 1024, status := 1, segno := 3 }] })),
      { (pk .req .wr 3 3 80 768 64 [66, 4]) with sep := 1, sdev := 1, tag := 1024, status := 1, segno := 3 }, 4, (.wr, Instr.wr
      { (pk .req .wr 3 3 80 768 64 [66, 4]) with sep := 1, sdev := 1, tag := 1024, status := 1, segno := 3 }), ⟨⟨by decide, by decide, by
      decide, by decide, by decide +kernel⟩, by decide, by decide, by decide, by decide, by decide⟩⟩,
    ⟨(regsOf [(.nocTrtabaPORTS, 5, 4, 18446744069683019775)] ({ up with net := [(pk .req .wrp 71 0 80 4398112178336 127 [])] })), (pk .req
      .wrp 71 0 80 4398112178336 127 []), 4, (.wrp, Instr.wrp (pk .req .wrp 71 0 80 4398112178336 127 [])), 65667232,
      by unfold arrives; decide⟩,
    ⟨(regsOf [(.nocTrtabaPORTS, 5, 4, 18446744069683019775)]
      ({ up with net := [{ (pk .req .rd 71 0 0 4398055620736 63 [50]) with sdev := 1, tag := 1249, status := 10, split := true }] })),
      { (pk .req .rd 71 0 0 4398055620736 63 [50]) with sdev := 1, tag := 1249, status := 10, split := true }, 4, (.rd, Instr.rd
      { (pk .req .rd 71 0 0 4398055620736 63 [50]) with sdev := 1, tag := 1249, status := 10, split := true }), 9109632,
      by unfold arrives; decide⟩,
    ⟨(regsOf [(.grnRtabaPORTS, 1, 0, 18446744073709551375), (.grnNocisoISO, 1, 0, 20)]
      ({ up with net := [{ (pk .req .wr 1 1 0 5497625247779 64 [64]) with sep := 1, sdev := 1, tag := 9, status := 1, segno := 2, split := true }] })),
      { (pk .req .wr 1 1 0 5497625247779 64 [64]) with sep := 1, sdev := 1, tag := 9, status := 1, segno := 2, split := true }, 4, (.wr,
      Instr.wr { (pk .req .wr 1 1 0 5497625247779 64 [64]) with sep := 1, sdev := 1, tag := 9, status := 1, segno := 2, split := true }), 1,
      0, ⟨⟨by decide, by decide, by decide, by decide, by decide +kernel⟩, by decide, by decide, by decide, by decide, by decide, by decide,
      by decide, by decide⟩⟩,
    ⟨(regsOf [(.grnRtabaPORTS, 1, 0, 2), (.grnNocisoISO, 1, 0, 32)]
      ({ up with net := [{ (pk .req .rd 1 2 65 5497658802176 63 []) with sep := 1, sdev := 1, tag := 628, status := 1, segno := 1 }] })),
      { (pk .req .rd 1 2 65 5497658802176 63 []) with sep := 1, sdev := 1, tag := 628, status := 1, segno := 1 }, 4, (.rd, Instr.rd
      { (pk .req .rd 1 2 65 5497658802176 63 []) with sep := 1, sdev := 1, tag := 628, status := 1, segno := 1 }), 1, 1, ⟨⟨by decide, by
      decide, by decide, by decide, by decide +kernel⟩, by decide, by decide, by decide, by decide, by decide, by decide, by decide, by
      decide⟩⟩⟩

theorem hyps_PacketsReachTheirTargets_2 :
    (∃ (s : State) (p : Packet) (i : Nat) (c : Opc × Instr) (n : Pos) (k : Fin 2), arrives s p i ∧ c ∈ reqCmds p ∧ p.opc = c.1 ∧ reqLegal p =
      true ∧ s.devDecode p.addr.toNat = DevTarget.dnp n.val k.val ∧ p.dnode.toNat = n.val ∧ p.dep.toNat = 1 + k.val ∧ s.isIso (s.phys n.val)
      (4 + k.val) = true ∧ isPosted p.opc = true ∧ p.snode ≠ 64 ∧ s.phys n.val < 64) ∧
    (∃ (s : State) (p : Packet) (i : Nat) (c : Opc × Instr) (n : Pos) (k : Fin 2), arrives s p i ∧ c ∈ reqCmds p ∧ p.opc = c.1 ∧ reqLegal p =
      true ∧ s.devDecode p.addr.toNat = DevTarget.dnp n.val k.val ∧ p.dnode.toNat = n.val ∧ p.dep.toNat = 1 + k.val ∧ s.isIso (s.phys n.val)
      (4 + k.val) = true ∧ isPosted p.opc = true ∧ p.snode ≠ 64 ∧ s.phys n.val < 64) ∧
    (∃ (s : State) (p : Packet) (i : Nat) (c : Opc × Instr) (n : Pos) (k : Fin 2), arrives s p i ∧ c ∈ reqCmds p ∧ p.opc = c.1 ∧ reqLegal p =
      true ∧ s.devDecode p.addr.toNat = DevTarget.dnp n.val k.val ∧ p.dnode.toNat = n.val ∧ p.dep.toNat = 1 + k.val ∧ s.isIso (s.phys n.val)
      (4 + k.val) = false ∧ s.domRuns n.val = true ∧ (s.posSt n.val).inReset = false ∧ s.released = true ∧ isPosted p.opc = true) ∧
    (∃ (s : State) (p : Packet) (i : Nat) (c : Opc × Instr) (n : Pos) (k : Fin 2), arrives s p i ∧ c ∈ reqCmds p ∧ p.opc = c.1 ∧ reqLegal p =
      true ∧ s.devDecode p.addr.toNat = DevTarget.dnp n.val k.val ∧ p.dnode.toNat = n.val ∧ p.dep.toNat = 1 + k.val ∧ s.isIso (s.phys n.val)
      (4 + k.val) = false ∧ s.domRuns n.val = true ∧ (s.posSt n.val).inReset = false ∧ s.released = true ∧ isPosted p.opc = true) ∧
    (∃ (s : State) (p : Packet) (i : Nat) (c : Opc × Instr) (n : Pos) (k : Fin 2), arrives s p i ∧ c ∈ reqCmds p ∧ p.opc = c.1 ∧ reqLegal p =
      true ∧ s.devDecode p.addr.toNat = DevTarget.dnp n.val k.val ∧ p.dnode.toNat = n.val ∧ p.dep.toNat = 1 + k.val ∧ s.isIso (s.phys n.val)
      (4 + k.val) = false ∧ s.domRuns n.val = true ∧ (s.posSt n.val).inReset = false ∧ s.released = true ∧ isPosted p.opc = false ∧ (s.dnpSt
      n.val k.val).held.length + (s.dnpSt n.val k.val).retired.length < 256) ∧
    (∃ (s : State) (p : Packet) (i : Nat) (c : Opc × Instr) (n : Pos) (k : Fin 2), arrives s p i ∧ c ∈ reqCmds p ∧ p.opc = c.1 ∧ reqLegal p =
      true ∧ s.devDecode p.addr.toNat = DevTarget.dnp n.val k.val ∧ p.dnode.toNat = n.val ∧ p.dep.toNat = 1 + k.val ∧ s.isIso (s.phys n.val)
      (4 + k.val) = false ∧ s.domRuns n.val = true ∧ (s.posSt n.val).inReset = false ∧ s.released = true ∧ isPosted p.opc = false ∧ (s.dnpSt
      n.val k.val).held.length + (s.dnpSt n.val k.val).retired.length < 256) ∧
    (∃ (s : State) (p : Packet) (g : Nat), s.perst = false ∧ g < 2 ∧ p.opc = Opc.resv ∧ s.guestOf p = some g ∧ s.guestStopped g = false ∧
      s.gfwRefuses g p = none ∧ SMap.get (fun _ => 0) s.rbGrant g < 16) ∧
    (∃ (s : State) (p : Packet) (g : Nat), s.perst = false ∧ g < 2 ∧ p.opc = Opc.resv ∧ s.guestOf p = some g ∧ s.guestStopped g = false ∧
      s.gfwRefuses g p = none ∧ SMap.get (fun _ => 0) s.rbGrant g < 16) :=
  ⟨⟨(regsOf [(.nocRtctlACTIVE, 0, 0, 1), (.dieMapPHYS, 1, 0, 15), (.grnRtabbPORTS, 15, 0, 18446744073709551375), (.grnNocisoISO, 15, 0,
      16)] ({ up with net := [{ (pk .req .wrp 1 1 1 5497625247762 127 []) with sep := 2, tag := 3271, status := 10, split := true }] })),
      { (pk .req .wrp 1 1 1 5497625247762 127 []) with sep := 2, tag := 3271, status := 10, split := true }, 4, (.wrp, Instr.wrp
      { (pk .req .wrp 1 1 1 5497625247762 127 []) with sep := 2, tag := 3271, status := 10, split := true }), 1, 0, ⟨⟨by decide, by decide, by
      decide, by decide, by decide +kernel⟩, by decide, by decide, by decide, by decide, by decide, by decide, by decide, by decide, by
      decide, by decide⟩⟩,
    ⟨(regsOf [(.dieMapPHYS, 1, 0, 12), (.grnRtabaPORTS, 12, 0, 18446744073709551375), (.grnNocisoISO, 12, 0, 16)]
      ({ up with net := [{ (pk .req .wrp 1 1 1 5497625247788 64 []) with sep := 2, tag := 1708, status := 5 }] })),
      { (pk .req .wrp 1 1 1 5497625247788 64 []) with sep := 2, tag := 1708, status := 5 }, 4, (.wrp, Instr.wrp
      { (pk .req .wrp 1 1 1 5497625247788 64 []) with sep := 2, tag := 1708, status := 5 }), 1, 0, ⟨⟨by decide, by decide, by decide, by
      decide, by decide +kernel⟩, by decide, by decide, by decide, by decide, by decide, by decide, by decide, by decide, by decide, by
      decide⟩⟩,
    ⟨(regsOf [(.nocRtctlACTIVE, 0, 0, 1), (.kilnStatSTATE, 0, 0, 7), (.dieMapPHYS, 1, 0, 15), (.grnRtabbPORTS, 15, 0, 18446744073709551375)]
      ({ up with net := [{ (pk .req .wrp 1 1 1 5497625247762 127 []) with sep := 2, tag := 3271, status := 10, split := true }] })),
      { (pk .req .wrp 1 1 1 5497625247762 127 []) with sep := 2, tag := 3271, status := 10, split := true }, 4, (.wrp, Instr.wrp
      { (pk .req .wrp 1 1 1 5497625247762 127 []) with sep := 2, tag := 3271, status := 10, split := true }), 1, 0, ⟨⟨by decide, by decide, by
      decide, by decide, by decide +kernel⟩, by decide, by decide, by decide, by decide, by decide, by decide, by decide, by decide, by
      decide, by decide, by decide⟩⟩,
    ⟨(regsOf [(.kilnStatSTATE, 0, 0, 7), (.dieMapPHYS, 1, 0, 12), (.grnRtabaPORTS, 12, 0, 18446744073709551375)]
      ({ up with net := [{ (pk .req .wrp 1 1 1 5497625247788 64 []) with sep := 2, tag := 1708, status := 5 }] })),
      { (pk .req .wrp 1 1 1 5497625247788 64 []) with sep := 2, tag := 1708, status := 5 }, 4, (.wrp, Instr.wrp
      { (pk .req .wrp 1 1 1 5497625247788 64 []) with sep := 2, tag := 1708, status := 5 }), 1, 0, ⟨⟨by decide, by decide, by decide, by
      decide, by decide +kernel⟩, by decide, by decide, by decide, by decide, by decide, by decide, by decide, by decide, by decide, by
      decide, by decide⟩⟩,
    ⟨(regsOf [(.kilnStatSTATE, 0, 0, 7), (.grnRtabaPORTS, 2, 0, 0)]
      ({ up with net := [{ (pk .req .rd 2 1 0 5497692356650 127 []) with sdev := 1, tag := 1097, status := 15, segno := 1 }] })),
      { (pk .req .rd 2 1 0 5497692356650 127 []) with sdev := 1, tag := 1097, status := 15, segno := 1 }, 4, (.rd, Instr.rd
      { (pk .req .rd 2 1 0 5497692356650 127 []) with sdev := 1, tag := 1097, status := 15, segno := 1 }), 2, 0, ⟨⟨by decide, by decide, by
      decide, by decide, by decide +kernel⟩, by decide, by decide, by decide, by decide, by decide, by decide, by decide, by decide, by
      decide, by decide, by decide, by decide⟩⟩,
    ⟨(regsOf [(.kilnStatSTATE, 0, 0, 7), (.grnRtabaPORTS, 1, 0, 2)]
      ({ up with net := [{ (pk .req .rd 1 2 65 5497658802176 63 []) with sep := 1, sdev := 1, tag := 628, status := 1, segno := 1 }] })),
      { (pk .req .rd 1 2 65 5497658802176 63 []) with sep := 1, sdev := 1, tag := 628, status := 1, segno := 1 }, 4, (.rd, Instr.rd
      { (pk .req .rd 1 2 65 5497658802176 63 []) with sep := 1, sdev := 1, tag := 628, status := 1, segno := 1 }), 1, 1, ⟨⟨by decide, by
      decide, by decide, by decide, by decide +kernel⟩, by decide, by decide, by decide, by decide, by decide, by decide, by decide, by
      decide, by decide, by decide, by decide, by decide⟩⟩,
    ⟨(regsOf [(.nocGfwctlCLASS, 1, 0, 15), (.nocGfwctlRATE, 1, 0, 32)] (up)), (pk .rsp .resv 0 0 77 16640 19 []), 1, by decide⟩,
    ⟨(regsOf [(.nocGfwctlCLASS, 0, 0, 3), (.nocGfwctlRATE, 0, 0, 2)] (up)), (pk .rsp .resv 0 0 76 2164916368 1024 []), 0, by decide⟩⟩

theorem hyps_PacketsReachTheirTargets_3 :
    (∃ (s : State) (p : Packet) (k : Fin 2) (r : RbReq), s.perst = false ∧ p ∉ s.net ∧ s.portOfPkt p = some k ∧ s.bitF Fld.nocTisoEXT k =
      false ∧ (k < 2 → s.guestStopped k = false ∧ s.gfwRefuses k p = none) ∧ p.opc = Opc.grant ∧ s.rbFind k p false = some r ∧ isPosted
      r.pkt.opc = false) ∧
    (∃ (s : State) (p : Packet) (k : Nat) (r : RbReq), s.perst = false ∧ p ∉ s.net ∧ s.portOfPkt p = some k ∧ s.bitF Fld.nocTisoEXT k = false
      ∧ (k < 2 → s.guestStopped k = false ∧ s.gfwRefuses k p = none) ∧ p.opc = Opc.grant ∧ s.rbFind k p false = some r ∧ isPosted r.pkt.opc =
      true ∧ r.segs.length ≤ 1) ∧
    (∃ (s : State) (p : Packet) (k : Nat) (r : RbReq) (c : _), s.perst = false ∧ p ∉ s.net ∧ s.portOfPkt p = some k ∧ s.bitF Fld.nocTisoEXT k
      = false ∧ (k < 2 → s.guestStopped k = false ∧ s.gfwRefuses k p = none) ∧ c ∈ [(Opc.rdata, Instr.rdata p), (Opc.wcmp, Instr.wcmp p)] ∧
      p.opc = c.1 ∧ s.rbFind k p true = some r ∧ isPosted r.pkt.opc = false ∧ p.status = 0 ∧ r.segs.length ≤ 1) ∧
    (∃ (s : State) (p : Packet) (k : Nat) (r : RbReq) (c : _), s.perst = false ∧ p ∉ s.net ∧ s.portOfPkt p = some k ∧ s.bitF Fld.nocTisoEXT k
      = false ∧ (k < 2 → s.guestStopped k = false ∧ s.gfwRefuses k p = none) ∧ c ∈ [(Opc.rdata, Instr.rdata p), (Opc.wcmp, Instr.wcmp p)] ∧
      p.opc = c.1 ∧ s.rbFind k p true = some r ∧ isPosted r.pkt.opc = false ∧ p.status ≠ 0) ∧
    (∃ (s : State) (p : Packet) (g : Nat) (cause : Nat) (c : _), s.perst = false ∧ p ∉ s.net ∧ s.guestOf p = some g ∧ s.guestStopped g =
      false ∧ s.gfwRefuses g p = some cause ∧ s.rbList g = [] ∧ c ∈ (Opc.resv, Instr.resv p) :: reqCmds p ∧ p.opc = c.1) ∧
    (∃ (s : State) (p : Packet) (g : Nat) (cause : Nat) (c : _), s.perst = false ∧ p ∉ s.net ∧ s.guestOf p = some g ∧ s.guestStopped g =
      false ∧ s.gfwRefuses g p = some cause ∧ s.rbList g = [] ∧ c ∈ (Opc.resv, Instr.resv p) :: reqCmds p ∧ p.opc = c.1) ∧
    (∃ (s : State) (p : Packet) (m : EvtMsg) (i : Nat), p.opc = Opc.evt ∧ p.vn = Vn.evt ∧ p.data = evtBytes m.ekind.toNat m.evnum.toNat
      m.agent.toNat m.tbit.toNat (BitVec.toNat m.payload) ∧ arrives s p i ∧ p.dnode = 68 ∧ m.ekind = 0 ∧ evSource m.evnum.toNat = true) ∧
    (∃ (s : State) (p : Packet) (m : EvtMsg) (i : Nat), p.opc = Opc.evt ∧ p.vn = Vn.evt ∧ p.data = evtBytes m.ekind.toNat m.evnum.toNat
      m.agent.toNat m.tbit.toNat (BitVec.toNat m.payload) ∧ arrives s p i ∧ p.dnode = 68 ∧ m.ekind = 0 ∧ evSource m.evnum.toNat = true) :=
  ⟨⟨(regsOf [(.nocGfwctlCLASS, 0, 0, 15), (.nocGfwctlRATE, 0, 0, 2)]
      ({ up with rb := [(0, [{ pkt := (pk .rsp .wrm 0 0 0 256 64 []), segs := [], done := 16, sent := false, status := 64, got := [] }])] })),
      (pk .rsp .grant 0 0 76 8 1 []), 0,
      { pkt := (pk .rsp .wrm 0 0 0 256 64 []), segs := [], done := 16, sent := false, status := 64, got := [] }, by decide⟩,
    ⟨{ up with rb := [(3, [{ pkt := (pk .req .wrp 65 0 0 2199023259200 7 []), segs := [(2, 255)], done := 1, sent := false, status := 31, got := [] }])] },
      (pk .req .grant 0 0 79 541184 2048 []), 3,
      { pkt := (pk .req .wrp 65 0 0 2199023259200 7 []), segs := [(2, 255)], done := 1, sent := false, status := 31, got := [] }, by decide⟩,
    ⟨{ up with rb := [(3, [{ pkt := (pk .req .wrm 41 0 0 12452101071422 2048 []), segs := [(2, 255)], done := 3, sent := true, status := 8, got := [] }])] },
      (pk .rsp .rdata 0 0 79 2153778241 1093 []), 3,
      { pkt := (pk .req .wrm 41 0 0 12452101071422 2048 []), segs := [(2, 255)], done := 3, sent := true, status := 8, got := [] }, (.rdata,
      Instr.rdata (pk .rsp .rdata 0 0 79 2153778241 1093 [])), by decide⟩,
    ⟨{ up with rb := [(3, [{ pkt := { (pk .req .rd 0 2 0 5497591693312 63 [16]) with status := 11, segno := 2 }, segs := [], done := 16, sent := true, status := 31, got := [8] }])] },
      { (pk .rsp .rdata 0 0 79 137439215616 384 [100, 128]) with status := 2, split := true }, 3,
      { pkt := { (pk .req .rd 0 2 0 5497591693312 63 [16]) with status := 11, segno := 2 }, segs := [], done := 16, sent := true, status := 31, got := [8] },
      (.rdata, Instr.rdata { (pk .rsp .rdata 0 0 79 137439215616 384 [100, 128]) with status := 2, split := true }), by decide⟩,
    ⟨(regsOf [(.nocGfwctlRATE, 0, 0, 31)] (up)), (pk .req .rd 0 0 76 20 2 []), 0, 0, (.rd, Instr.rd (pk .req .rd 0 0 76 20 2 [])), by
      decide⟩,
    ⟨(regsOf [(.nocGfwctlRATE, 0, 0, 1)] (up)), (pk .req .resv 0 0 76 268443648 3 []), 0, 0, (.resv, Instr.resv (pk .req .resv 0 0 76
      268443648 3 [])), by decide⟩,
    ⟨(regsOf [(.nocTrtabaPORTS, 0, 4, 18446744073708507135)]
      ({ up with net := [{ (pk .evt .evt 68 3 65 1408 0 [192, 198, 162, 0, 0, 0, 0, 0, 0, 4, 0, 0, 0, 0, 0, 0, 0, 0, 0, 0, 0, 0, 0, 0, 0, 0, 0, 0, 0, 0, 0, 0]) with sdev := 1, tag := 32, status := 10, split := true }] })),
      { (pk .evt .evt 68 3 65 1408 0 [192, 198, 162, 0, 0, 0, 0, 0, 0, 4, 0, 0, 0, 0, 0, 0, 0, 0, 0, 0, 0, 0, 0, 0, 0, 0, 0, 0, 0, 0, 0, 0]) with sdev := 1, tag := 32, status := 10, split := true },
      { ekind := 0, evnum := 432, agent := 22, tbit := 10, payload := 1024 }, 4, by unfold arrives; decide⟩,
    ⟨(regsOf [(.nocTrtabaPORTS, 0, 4, 18446744073708507135)]
      ({ up with net := [{ (pk .evt .evt 68 3 0 1792 3 [252, 64, 0, 0, 0, 0, 0, 0, 0, 0, 0, 0, 0, 2, 64, 0, 0, 0, 0, 0, 0, 0, 0, 0, 0, 0, 0, 0, 0, 0, 0, 0]) with sep := 1, sdev := 1, tag := 3369, status := 6, segno := 3, split := true }] })),
      { (pk .evt .evt 68 3 0 1792 3 [252, 64, 0, 0, 0, 0, 0, 0, 0, 0, 0, 0, 0, 2, 64, 0, 0, 0, 0, 0, 0, 0, 0, 0, 0, 0, 0, 0, 0, 0, 0, 0]) with sep := 1, sdev := 1, tag := 3369, status := 6, segno := 3, split := true },
      { ekind := 0, evnum := 63, agent := 2, tbit := 0, payload := 18016597532737536 }, 4, by unfold arrives; decide⟩⟩

theorem hyps_PacketsReachTheirTargets_4 :
    ∃ (s : State) (p : Packet) (m : EvtMsg) (i : Nat) (n : Pos), p.opc = Opc.evt ∧ p.vn = Vn.evt ∧ p.data = evtBytes m.ekind.toNat
      m.evnum.toNat m.agent.toNat m.tbit.toNat (BitVec.toNat m.payload) ∧ arrives s p i ∧ p.dnode.toNat = n.val ∧ p.dep = 0 ∧ m.ekind = 1 ∧
      s.portStopped n.val = false ∧ (SMap.get (fun _ => []) s.evFifo n.val).length < 16 :=
  ⟨(regsOf [(.grnRtabaPORTS, 4, 0, 18446744073708568575)]
    ({ up with pos := [(4, { inReset := false, restore := false })], net := [{ (pk .evt .evt 4 0 81 2199023258304 63 [13, 0, 130, 0, 0, 0, 0, 0, 226, 30, 195, 101, 192, 55, 15, 0, 0, 0, 0, 0, 0, 0, 0, 0, 0, 0, 0, 0, 0, 0, 0, 0]) with sep := 2, sdev := 1, tag := 3030, status := 6, segno := 1 }] })),
    { (pk .evt .evt 4 0 81 2199023258304 63 [13, 0, 130, 0, 0, 0, 0, 0, 226, 30, 195, 101, 192, 55, 15, 0, 0, 0, 0, 0, 0, 0, 0, 0, 0, 0, 0, 0, 0, 0, 0, 0]) with sep := 2, sdev := 1, tag := 3030, status := 6, segno := 1 },
    { ekind := 1, evnum := 3, agent := 16, tbit := 8, payload := 4283424131194594 }, 4, 4, ⟨by decide, by decide, by decide, ⟨by decide, by
    decide, by decide, by decide, by decide +kernel⟩, by decide, by decide, by decide, by decide, by decide⟩⟩

theorem hyps_TheNetworkIsControlled_1 :
    (∃ (s : State) (d : DnpRef) (r : DnpReq) (opc : Opc) (nd : _), s.released = true ∧ s.dnpStopped d.pos.val d.k.val = false ∧ s.coreRuns
      d.pos.val = true ∧ dnpOpc r.opc.toNat = some opc ∧ (s.devDecode r.addr.toNat).nodeDep = some nd ∧ s.isSet Fld.nocRtctlDRAINING = false ∧
      isPosted opc = true) ∧
    (∃ (s : State) (d : DnpRef) (r : DnpReq) (opc : _) (nd : _), s.released = true ∧ s.dnpStopped d.pos.val d.k.val = false ∧ s.coreRuns
      d.pos.val = true ∧ dnpOpc r.opc.toNat = some opc ∧ (s.devDecode r.addr.toNat).nodeDep = some nd ∧ s.isSet Fld.nocRtctlDRAINING = false ∧
      isPosted opc = false ∧ (s.dnpSt d.pos.val d.k.val).tags.length < 256) ∧
    (∃ (s : State) (d : DnpRef) (r : DnpReq), s.released = true ∧ s.dnpStopped d.pos.val d.k.val = false ∧ s.coreRuns d.pos.val = true ∧
      dnpOpc r.opc.toNat = none) ∧
    (∃ (s : State) (d : DnpRef) (r : DnpReq) (opc : _), s.released = true ∧ s.dnpStopped d.pos.val d.k.val = false ∧ s.coreRuns d.pos.val =
      true ∧ dnpOpc r.opc.toNat = some opc ∧ isPosted opc = false ∧ (s.dnpSt d.pos.val d.k.val).tags.length < 256 ∧ s.devDecode r.addr.toNat =
      DevTarget.nowhere) ∧
    (∃ (s : State) (d : DnpRef) (r : DnpRsp) (h : TReq), s.released = true ∧ s.dnpStopped d.pos.val d.k.val = false ∧ s.coreRuns d.pos.val =
      true ∧ r.id.toNat ∉ (s.dnpSt d.pos.val d.k.val).retired ∧ List.find? (fun y => y.id == r.id.toNat) (s.dnpSt d.pos.val d.k.val).held =
      some h ∧ isPosted h.pkt.opc = false ∧ (r.status = 0 ∨ r.status = 4 ∨ r.status = 5)) ∧
    (∃ (s : State) (d : DnpRef) (r : DnpRsp), s.released = true ∧ s.dnpStopped d.pos.val d.k.val = false ∧ s.coreRuns d.pos.val = true ∧
      r.id.toNat ∈ (s.dnpSt d.pos.val d.k.val).retired) ∧
    (∃ (s : State) (d : DnpRef) (id : BitVec 8) (h : TReq), List.find? (fun y => y.id == id.toNat) (s.dnpSt d.pos.val d.k.val).held = some h
      ∧ isPosted h.pkt.opc = false ∧ s.isIso (s.phys d.pos.val) (4 + d.k.val) = false) ∧
    (∃ (s : State) (b : HostBar) (off : BitVec 41) (len : Nat) (data : List Byte) (p : Packet), s.perst = false ∧ s.isSet Fld.cxlLnkstatUP =
      true ∧ 0 < len ∧ off.toNat + len ≤ barSize b ∧ (b = HostBar.bar4 → s.part.optX = false ∧ s.bar4Gated = false) ∧ s.isSet
      Fld.nocRtctlDRAINING = false ∧ s.engineReq 64 Opc.wrp (barBase b + off.toNat) len data = some p) :=
  ⟨⟨(regsOf [(.kilnStatSTATE, 0, 0, 7), (.ddrImap0VALID, 0, 0, 1), (.ddrImap0CGIB, 0, 0, 16)] (up)), { pos := 0, k := 1 },
      { ddev := 0, addr := 46, lenm1 := 55, opc := 2, tag := 0, phint := 0, wmask := 0, data := [] }, .wrp, (1, 3), by decide⟩,
    ⟨(regsOf [(.kilnStatSTATE, 0, 0, 7)] (up)), { pos := 2, k := 0 },
      { ddev := 134, addr := 4398048608256, lenm1 := 1025, opc := 1, tag := 144, phint := 3, wmask := 412316860416, data := [179] }, .wr, (71,
      0), by decide⟩,
    ⟨(regsOf [(.kilnStatSTATE, 0, 0, 7)] (up)), { pos := 0, k := 0 },
      { ddev := 4, addr := 2, lenm1 := 0, opc := 9, tag := 203, phint := 1, wmask := 21, data := [] }, by decide⟩,
    ⟨(regsOf [(.kilnStatSTATE, 0, 0, 7)] (up)), { pos := 45, k := 0 },
      { ddev := 40, addr := 2, lenm1 := 129, opc := 0, tag := 2, phint := 0, wmask := 0, data := [] }, .rd, by decide⟩,
    ⟨(regsOf [(.kilnStatSTATE, 0, 0, 7)]
      ({ up with dnp := [(97, { tags := [], held := [{ id := 2, pkt := (pk .req .rd 70 3 2 128 63 []) }], retired := [] })] })),
      { pos := 48, k := 1 }, { id := 2, status := 0, data := [8, 22] }, { id := 2, pkt := (pk .req .rd 70 3 2 128 63 []) }, by decide⟩,
    ⟨(regsOf [(.kilnStatSTATE, 0, 0, 7)] ({ up with dnp := [(1, { tags := [], held := [], retired := [1] })] })), { pos := 0, k := 1 },
      { id := 1, status := 8, data := [] }, by decide⟩,
    ⟨{ up with dnp := [(6, { tags := [], held := [{ id := 0, pkt := (pk .req .rd 0 0 0 0 0 []) }], retired := [] })] },
      { pos := 3, k := 0 }, 0, { id := 0, pkt := (pk .req .rd 0 0 0 0 0 []) }, by decide⟩,
    ⟨(regsOf [(.cxlLnkstatUP, 0, 0, 1)] (up)), .bar2, 8, 1, [], (pk .req .wrp 0 1 64 5497558138888 0 []), ⟨by decide, by decide, by decide,
      by decide, (fun h => by cases h), by decide, by decide⟩⟩⟩

theorem hyps_TheNetworkIsControlled_2 :
    (∃ (s : State) (b : HostBar) (off : BitVec 41) (len : Nat) (tag : BitVec 10) (p : Packet), s.perst = false ∧ s.isSet Fld.cxlLnkstatUP =
      true ∧ 0 < len ∧ off.toNat + len ≤ barSize b ∧ (b = HostBar.bar4 → s.part.optX = false ∧ s.bar4Gated = false) ∧ s.isSet
      Fld.nocRtctlDRAINING = false ∧ s.engineReq 64 Opc.rd (barBase b + off.toNat) len [] = some p ∧ (barBase b + off.toNat) % 4096 + len ≤
      4096 ∧ ∀ r ∈ s.barRds, r.tag ≠ tag.toNat) ∧
    (∃ (s : State) (c : Instr), s.isSet Fld.nocRtctlDRAINING = true ∧ c ∈ [Instr.routeSwitchDone, Instr.drainTimeout] ∧ (c =
      Instr.routeSwitchDone → s.net = [])) ∧
    (∃ (s : State) (x : Target) (p : Phys) (b : Nat) (n : Pos) (c : Instr), grainTarget x = some (p.val, b) ∧ (s.hardIso p.val).testBit b =
      false ∧ s.posOf p.val = some n.val ∧ (∀ (q : TReq), b = 4 ∨ b = 5 → q ∈ (s.dnpSt (n.val) (b - 4)).held → isPosted q.pkt.opc = false) ∧
      (b = 6 → s.memReqs = []) ∧ (c = Instr.targetTimeout x ∨ ∃ a, s.perst = false ∧ s.firmware a = true ∧ c = Instr.declareDead x a)) ∧
    (∃ (s : State) (x : Target) (p : Phys) (b : Nat) (n : Pos) (a : Agent), grainTarget x = some (p.val, b) ∧ s.posOf p.val = some n.val ∧
      s.perst = false ∧ s.firmware a = true) ∧
    (∃ (s : State) (k : Fin 4), s.bitF Fld.nocTisoEXT k.val = false ∧ ∀ r ∈ s.rbList k.val, isPosted r.pkt.opc = false) ∧
    (∃ (s : State) (k : Fin 4), s.bitF Fld.nocTisoLINK k.val = false) ∧
    (∃ (s : State) (k : Fin 4), s.wortIso.testBit k.val = false) ∧
    (∃ (s : State) (a : Agent) (k : Fin 4), s.perst = false ∧ s.unitOn Unit0.noc = true ∧ s.firmware a = true ∧ s.wortUp k.val = true) :=
  ⟨⟨(regsOf [(.cxlLnkstatUP, 0, 0, 1)] (up)), .bar2, 0, 8, 2, (pk .req .rd 0 1 64 5497558138880 7 []), ⟨by decide, by decide, by decide, by
      decide, (fun h => by cases h), by decide, by decide, by decide, by decide⟩⟩,
    ⟨(regsOf [(.nocRtctlDRAINING, 0, 0, 1)] (up)), Instr.drainTimeout, by decide⟩,
    ⟨up, (.dnp (1) (1)), 1, 5, 1, (Instr.targetTimeout (Target.dnp 1 1)), ⟨by decide, by decide, by decide, (fun _ _ h =>
      nomatch h), by decide, Or.inl rfl⟩⟩,
    ⟨(regsOf [(.wortStatDEVNUM, 0, 0, 255)] (up)), (.home (1)), 1, 6, 1, { node := 75, dev := 255 }, by decide⟩,
    ⟨up, 1, by decide⟩,
    ⟨up, 0, by decide⟩,
    ⟨up, 4, by decide⟩,
    ⟨(regsOf [(.wortLinkSTATE, 2, 0, 2)] (up)), { node := 75, dev := 0 }, 2, by decide⟩⟩

theorem hyps_TheNetworkIsControlled_3 :
    (∃ (s : State) (n : Pos), s.going n.val = some 0 ∧ s.posOf (s.phys n.val) = some n.val ∧ ∀ j < 2, (∀ q ∈ (s.dnpSt (n.val) j).held,
      isPosted q.pkt.opc = false) ∧ ∀ e ∈ SMap.get (fun _ => []) s.held (4 * n.val + 1 + j), isReq e.2.opc = true ∧ isPosted e.2.opc = false) ∧
    (∃ (s : State) (n : Pos) (m : Nat), chanOfPos n.val = some m ∧ s.going (256 + m) = some 0 ∧ s.posOf (s.phys n.val) = some n.val ∧
      s.memReqs = [] ∧ ∀ e ∈ SMap.get (fun _ => []) s.held (4 * n.val + 3), isReq e.2.opc = true ∧ isPosted e.2.opc = false) :=
  ⟨⟨{ up with pwrGo := [(1, some (0))] }, 1, by decide⟩,
    ⟨{ up with pwrGo := [(260, some (0))] }, 5, 4, by decide⟩⟩

theorem hyps_MemoryChannelsServeRequests_1 :
    (∃ (s : State) (m : Chan) (p : Packet) (i : Nat) (x : Opc × Instr), arrives s p i ∧ x ∈ reqCmds p ∧ p.opc = x.1 ∧ reqLegal p = true ∧
      s.devDecode p.addr.toNat = DevTarget.home m.val ∧ p.dnode.toNat = posOfChan m.val ∧ p.dep = 3 ∧ s.isIso (s.phys (posOfChan m.val)) 6 =
      false ∧ s.domRuns (posOfChan m.val) = true ∧ s.domRuns (256 + m.val) = true ∧ p.snode ≠ 64 ∧ (s.part.optX = true → s.flipping
      (p.addr.toNat / 4096) = none ∧ s.hostBias (p.addr.toNat / 4096) = false) ∧ s.getF Fld.ddrStatSTATE m.val ≠ 4 ∧ s.getF Fld.ddrStatSTATE
      m.val ≠ 5 ∧ isPosted p.opc = false) ∧
    (∃ (s : State) (m : Chan) (p : Packet) (i : Nat) (x : Opc × Instr), arrives s p i ∧ x ∈ reqCmds p ∧ p.opc = x.1 ∧ reqLegal p = true ∧
      s.devDecode p.addr.toNat = DevTarget.home m.val ∧ p.dnode.toNat = posOfChan m.val ∧ p.dep = 3 ∧ s.isIso (s.phys (posOfChan m.val)) 6 =
      false ∧ s.domRuns (posOfChan m.val) = true ∧ s.domRuns (256 + m.val) = true ∧ p.snode ≠ 64 ∧ (s.part.optX = true → s.flipping
      (p.addr.toNat / 4096) = none ∧ s.hostBias (p.addr.toNat / 4096) = false) ∧ s.getF Fld.ddrStatSTATE m.val ≠ 4 ∧ s.getF Fld.ddrStatSTATE
      m.val ≠ 5 ∧ isPosted p.opc = true) ∧
    (∃ (s : State) (m : Chan) (p : Packet) (i : Nat) (x : Opc × Instr), arrives s p i ∧ x ∈ reqCmds p ∧ p.opc = x.1 ∧ reqLegal p = true ∧
      s.devDecode p.addr.toNat = DevTarget.home m.val ∧ p.dnode.toNat = posOfChan m.val ∧ p.dep = 3 ∧ s.isIso (s.phys (posOfChan m.val)) 6 =
      false ∧ s.domRuns (posOfChan m.val) = true ∧ s.domRuns (256 + m.val) = true ∧ p.snode ≠ 64 ∧ (s.part.optX = true → s.flipping
      (p.addr.toNat / 4096) = none ∧ s.hostBias (p.addr.toNat / 4096) = false) ∧ s.getF Fld.ddrStatSTATE m.val = 4 ∧ lineCount p.addr.toNat
      (pktLen p) = 1 ∧ (s.chanSt m.val).inp = [] ∧ isWrite p.opc = true ∧ (newest (s.chanSt m.val).wbuf (p.addr.toNat / 64) ≠ none ∨ (s.chanSt
      m.val).wbuf.length < (s.chanSt m.val).wbSize ∧ (s.chanSt m.val).reads.length + (s.chanSt m.val).wbuf.length < 128)) ∧
    (∃ (s : State) (m : Chan) (op : LineOp) (q : MemReq) (err : ReadErr), (s.chanSt m.val).inp = [] ∧ List.find? (fun r => !r.wait) (s.chanSt
      m.val).reads = some op ∧ SMap.get (fun _ => none) s.memReqs op.req = some q ∧ q.left = 1 ∧ q.poison = false ∧ isWrite q.pkt.opc = false
      ∧ s.isSet Fld.ddrCtlWBACK m.val = false ∧ ∀ d ∈ err.devs, d.2 = 0) ∧
    (∃ (s : State) (m : Chan) (op : LineOp) (q : MemReq) (err : ReadErr), (s.chanSt m.val).inp = [] ∧ List.find? (fun r => !r.wait) (s.chanSt
      m.val).reads = some op ∧ SMap.get (fun _ => none) s.memReqs op.req = some q ∧ q.left = 1 ∧ q.poison = false ∧ isWrite q.pkt.opc = false
      ∧ s.isSet Fld.ddrCtlWBACK m.val = false ∧ ∀ d ∈ err.devs, d.2 = 0) ∧
    (∃ (s : State) (m : Chan) (op : LineOp) (q : MemReq) (err : ReadErr) (d : Fin 20) (j : Fin 17), (s.chanSt m.val).inp = [] ∧ List.find?
      (fun r => !r.wait) (s.chanSt m.val).reads = some op ∧ SMap.get (fun _ => none) s.memReqs op.req = some q ∧ q.left = 1 ∧ q.poison = false
      ∧ isWrite q.pkt.opc = false ∧ s.isSet Fld.ddrCtlWBACK m.val = false ∧ err.devs = [(d, j)] ∧ 1 ≤ j.val ∧ j.val ≤ 4) ∧
    (∃ (s : State) (m : Chan) (op : LineOp) (q : MemReq) (err : ReadErr) (d : Fin 20) (j : Fin 17), (s.chanSt m.val).inp = [] ∧ List.find?
      (fun r => !r.wait) (s.chanSt m.val).reads = some op ∧ SMap.get (fun _ => none) s.memReqs op.req = some q ∧ q.left = 1 ∧ q.poison = false
      ∧ isWrite q.pkt.opc = false ∧ s.isSet Fld.ddrCtlWBACK m.val = false ∧ err.devs = [(d, j)] ∧ 1 ≤ j.val ∧ j.val ≤ 4) ∧
    (∃ (s : State) (m : Chan) (op : LineOp) (q : MemReq) (err : ReadErr), (s.chanSt m.val).inp = [] ∧ List.find? (fun r => !r.wait) (s.chanSt
      m.val).reads = some op ∧ SMap.get (fun _ => none) s.memReqs op.req = some q ∧ q.left = 1 ∧ q.poison = false ∧ isWrite q.pkt.opc = false
      ∧ s.isSet Fld.ddrCtlWBACK m.val = false ∧ s.isSet Fld.ddrDevfailVALID m.val = false ∧ (if s.isSet Fld.ddrCfgPAIR m.val = true then 16
      else 8) < (List.map (fun d => d.2.val) err.devs).sum) :=
  ⟨⟨(regsOf [(.ddrImap0VALID, 0, 0, 1), (.ddrImap0CGIB, 0, 0, 16), (.grnRtabaPORTS, 1, 0, 1)]
      ({ up with net := [{ (pk .req .wr 1 3 81 1088 7 []) with sdev := 1, tag := 1, status := 5, segno := 1 }] })), 0,
      { (pk .req .wr 1 3 81 1088 7 []) with sdev := 1, tag := 1, status := 5, segno := 1 }, 4, (.wr, Instr.wr
      { (pk .req .wr 1 3 81 1088 7 []) with sdev := 1, tag := 1, status := 5, segno := 1 }), ⟨⟨by decide, by decide, by decide, by decide, by
      decide +kernel⟩, by decide, by decide, by decide, by decide, by decide, by decide, by decide, by decide, by decide, by decide, by
      decide, by decide, by decide, by decide⟩⟩,
    ⟨(regsOf [(.ddrImap0VALID, 0, 0, 1), (.ddrImap0CGIB, 0, 0, 255), (.grnRtabaPORTS, 1, 0, 5)]
      ({ up with net := [{ (pk .req .wrmp 1 3 65 3008 63 [8]) with sep := 3, sdev := 1, tag := 4095, status := 1, segno := 1 }] })), 0,
      { (pk .req .wrmp 1 3 65 3008 63 [8]) with sep := 3, sdev := 1, tag := 4095, status := 1, segno := 1 }, 4, (.wrmp, Instr.wrmp
      { (pk .req .wrmp 1 3 65 3008 63 [8]) with sep := 3, sdev := 1, tag := 4095, status := 1, segno := 1 }), ⟨⟨by decide, by decide, by
      decide, by decide, by decide +kernel⟩, by decide, by decide, by decide, by decide, by decide, by decide, by decide, by decide, by
      decide, by decide, by decide, by decide, by decide, by decide⟩⟩,
    ⟨(regsOf [(.ddrStatSTATE, 0, 0, 4), (.ddrImap0VALID, 0, 0, 1), (.ddrImap0CGIB, 0, 0, 16), (.grnRtabaPORTS, 1, 0, 1)]
      ({ up with net := [{ (pk .req .wr 1 3 81 1088 7 []) with sdev := 1, tag := 1, status := 5, segno := 1 }] })), 0,
      { (pk .req .wr 1 3 81 1088 7 []) with sdev := 1, tag := 1, status := 5, segno := 1 }, 4, (.wr, Instr.wr
      { (pk .req .wr 1 3 81 1088 7 []) with sdev := 1, tag := 1, status := 5, segno := 1 }), ⟨⟨by decide, by decide, by decide, by decide, by
      decide +kernel⟩, by decide, by decide, by decide, by decide, by decide, by decide, by decide, by decide, by decide, by decide, by
      decide, by decide, by decide, by decide, by decide, by decide⟩⟩,
    ⟨(regsOf [(.ddrCtlWBACK, 3, 0, 0)]
      ({ up with ddr := [(3, { dimm := 1, rate := 0, inp := [], reads := [{ req := 0, line := 0, k := 0, write := false, mask := 0, data := 0, wait := false }, { req := 0, line := 0, k := 0, write := false, mask := 0, data := 0, wait := false }], wbuf := [], wbSize := 64, drain := false, tries := 0, pulse := false, retrainDue := false })], memReqs := [(0, some ({ pkt := (pk .req .rd 0 0 77 2199023255584 705 []), left := 1, poison := false, got := [(2, 1), (3, 31), (4, 25784090387939328), (7, 8), (65, 64)] }))] })),
      3, { req := 0, line := 0, k := 0, write := false, mask := 0, data := 0, wait := false },
      { pkt := (pk .req .rd 0 0 77 2199023255584 705 []), left := 1, poison := false, got := [(2, 1), (3, 31), (4, 25784090387939328), (7, 8), (65, 64)] },
      { devs := [] }, by decide⟩,
    ⟨(regsOf [(.ddrCtlWBACK, 0, 0, 0)]
      ({ up with ddr := [(0, { dimm := 2, rate := 0, inp := [], reads := [{ req := 0, line := 0, k := 0, write := false, mask := 0, data := 0, wait := false }], wbuf := [{ line := 7, mask := 18446744073709551615, data := 127, promoted := false, req := some (0) }], wbSize := 64, drain := false, tries := 0, pulse := false, retrainDue := false })], memReqs := [(0, some ({ pkt := (pk .req .rdata 70 3 80 640 64 []), left := 1, poison := false, got := [] }))] })),
      0, { req := 0, line := 0, k := 0, write := false, mask := 0, data := 0, wait := false },
      { pkt := (pk .req .rdata 70 3 80 640 64 []), left := 1, poison := false, got := [] }, { devs := [] }, by decide⟩,
    ⟨(regsOf [(.ddrCtlWBACK, 1, 0, 0)]
      ({ up with ddr := [(1, { dimm := 0, rate := 0, inp := [], reads := [{ req := 0, line := 0, k := 0, write := false, mask := 0, data := 0, wait := false }, { req := 0, line := 0, k := 0, write := false, mask := 0, data := 0, wait := false }], wbuf := [], wbSize := 64, drain := false, tries := 0, pulse := false, retrainDue := false })], memReqs := [(0, some ({ pkt := (pk .req .rd 0 0 77 2199023255584 705 []), left := 1, poison := false, got := [(2, 1), (3, 31), (4, 25784090387939328), (7, 8), (65, 64)] }))] })),
      1, { req := 0, line := 0, k := 0, write := false, mask := 0, data := 0, wait := false },
      { pkt := (pk .req .rd 0 0 77 2199023255584 705 []), left := 1, poison := false, got := [(2, 1), (3, 31), (4, 25784090387939328), (7, 8), (65, 64)] },
      { devs := [(3, 3)] }, 3, 3, by decide⟩,
    ⟨(regsOf [(.ddrCtlWBACK, 0, 0, 0)]
      ({ up with ddr := [(0, { dimm := 2, rate := 0, inp := [], reads := [{ req := 0, line := 0, k := 0, write := false, mask := 0, data := 0, wait := false }], wbuf := [{ line := 7, mask := 18446744073709551615, data := 127, promoted := false, req := some (0) }], wbSize := 64, drain := false, tries := 0, pulse := false, retrainDue := false })], memReqs := [(0, some ({ pkt := (pk .req .rdata 70 3 80 640 64 []), left := 1, poison := false, got := [] }))] })),
      0, { req := 0, line := 0, k := 0, write := false, mask := 0, data := 0, wait := false },
      { pkt := (pk .req .rdata 70 3 80 640 64 []), left := 1, poison := false, got := [] }, { devs := [(1, 4)] }, 1, 4, by decide⟩,
    ⟨(regsOf [(.ddrCtlWBACK, 1, 0, 0)]
      ({ up with ddr := [(1, { dimm := 0, rate := 0, inp := [], reads := [{ req := 0, line := 0, k := 0, write := false, mask := 0, data := 0, wait := false }, { req := 0, line := 0, k := 0, write := false, mask := 0, data := 0, wait := false }], wbuf := [], wbSize := 64, drain := false, tries := 0, pulse := false, retrainDue := false })], memReqs := [(0, some ({ pkt := (pk .req .rd 0 0 77 2199023255584 705 []), left := 1, poison := false, got := [(2, 1), (3, 31), (4, 25784090387939328), (7, 8), (65, 64)] }))] })),
      1, { req := 0, line := 0, k := 0, write := false, mask := 0, data := 0, wait := false },
      { pkt := (pk .req .rd 0 0 77 2199023255584 705 []), left := 1, poison := false, got := [(2, 1), (3, 31), (4, 25784090387939328), (7, 8), (65, 64)] },
      { devs := [(3, 3), (0, 13), (0, 7)] }, by decide⟩⟩

theorem hyps_MemoryChannelsServeRequests_2 :
    (∃ (s : State) (m : Chan) (op : LineOp) (q : MemReq) (err : ReadErr), (s.chanSt m.val).inp = [] ∧ List.find? (fun r => !r.wait) (s.chanSt
      m.val).reads = some op ∧ SMap.get (fun _ => none) s.memReqs op.req = some q ∧ q.left = 1 ∧ q.poison = false ∧ isWrite q.pkt.opc = false
      ∧ s.isSet Fld.ddrCtlWBACK m.val = false ∧ s.isSet Fld.ddrDevfailVALID m.val = false ∧ (if s.isSet Fld.ddrCfgPAIR m.val = true then 16
      else 8) < (List.map (fun d => d.2.val) err.devs).sum) ∧
    (∃ (s : State) (m : Chan) (e : WbEnt) (ue : Bool), (s.chanSt m.val).inp = [] ∧ (List.find? (fun x => x.promoted) (s.chanSt m.val).wbuf =
      some e ∨ List.find? (fun x => x.promoted) (s.chanSt m.val).wbuf = none ∧ (drainFlag (s.chanSt m.val) = true ∨ (s.chanSt m.val).reads =
      []) ∧ (s.chanSt m.val).wbuf.head? = some e) ∧ s.isSet Fld.ddrCfgPAIR m.val = false ∧ (ue = false ∨ e.mask = fullMask)) ∧
    (∃ (s : State) (m : Chan) (e : WbEnt) (ue : Bool), (s.chanSt m.val).inp = [] ∧ (List.find? (fun x => x.promoted) (s.chanSt m.val).wbuf =
      some e ∨ List.find? (fun x => x.promoted) (s.chanSt m.val).wbuf = none ∧ (drainFlag (s.chanSt m.val) = true ∨ (s.chanSt m.val).reads =
      []) ∧ (s.chanSt m.val).wbuf.head? = some e) ∧ s.isSet Fld.ddrCfgPAIR m.val = false ∧ ue = true ∧ e.mask ≠ fullMask) ∧
    (∃ (s : State) (m : Chan) (e : WbEnt) (ue : Bool), (s.chanSt m.val).inp = [] ∧ (List.find? (fun x => x.promoted) (s.chanSt m.val).wbuf =
      some e ∨ List.find? (fun x => x.promoted) (s.chanSt m.val).wbuf = none ∧ (drainFlag (s.chanSt m.val) = true ∨ (s.chanSt m.val).reads =
      []) ∧ (s.chanSt m.val).wbuf.head? = some e) ∧ s.isSet Fld.ddrCfgPAIR m.val = false ∧ ue = true ∧ e.mask ≠ fullMask) ∧
    (∃ (s : State) (m : Chan), s.getF Fld.ddrStatSTATE m.val = 4 ∨ s.getF Fld.ddrStatSTATE m.val = 3 ∧ 2 ≤ s.getF Fld.ddrStatTRSTEP m.val) ∧
    (∃ (s : State) (m : Chan), s.getF Fld.ddrStatSTATE m.val = 4 ∨ s.getF Fld.ddrStatSTATE m.val = 3 ∧ 2 ≤ s.getF Fld.ddrStatTRSTEP m.val) ∧
    (∃ (s : State) (m : Chan), s.getF Fld.ddrStatSTATE m.val = 3 ∧ s.getF Fld.ddrStatTRSTEP m.val ≠ 7) ∧
    (∃ (s : State) (m : Chan), s.getF Fld.ddrStatSTATE m.val = 3 ∧ s.getF Fld.ddrStatTRSTEP m.val ≠ 7) :=
  ⟨⟨(regsOf [(.ddrCtlWBACK, 1, 0, 0)]
      ({ up with ddr := [(1, { dimm := 2, rate := 0, inp := [], reads := [{ req := 0, line := 0, k := 0, write := false, mask := 0, data := 0, wait := false }, { req := 0, line := 0, k := 0, write := false, mask := 0, data := 0, wait := false }], wbuf := [], wbSize := 64, drain := false, tries := 0, pulse := false, retrainDue := false })], memReqs := [(0, some ({ pkt := (pk .req .rdata 70 3 80 640 64 []), left := 1, poison := false, got := [] }))] })),
      1, { req := 0, line := 0, k := 0, write := false, mask := 0, data := 0, wait := false },
      { pkt := (pk .req .rdata 70 3 80 640 64 []), left := 1, poison := false, got := [] }, { devs := [(17, 5), (17, 16)] }, by decide⟩,
    ⟨{ up with ddr := [(3, { dimm := 2, rate := 1, inp := [], reads := [], wbuf := [{ line := 1, mask := 5, data := 2, promoted := true, req := none }], wbSize := 64, drain := false, tries := 0, pulse := false, retrainDue := false })] },
      3, { line := 1, mask := 5, data := 2, promoted := true, req := none }, false, by decide⟩,
    ⟨{ up with ddr := [(3, { dimm := 0, rate := 0, inp := [], reads := [], wbuf := [{ line := 3, mask := 1, data := 7, promoted := true, req := none }], wbSize := 64, drain := false, tries := 0, pulse := false, retrainDue := false })] },
      3, { line := 3, mask := 1, data := 7, promoted := true, req := none }, true, by decide⟩,
    ⟨{ up with ddr := [(5, { dimm := 2, rate := 0, inp := [], reads := [], wbuf := [{ line := 0, mask := 4, data := 0, promoted := true, req := none }, { line := 0, mask := 4, data := 0, promoted := true, req := none }], wbSize := 64, drain := false, tries := 0, pulse := false, retrainDue := false })] },
      5, { line := 0, mask := 4, data := 0, promoted := true, req := none }, true, by decide⟩,
    ⟨(regsOf [(.ddrStatSTATE, 2, 0, 4)] (up)), 2, by decide⟩,
    ⟨(regsOf [(.ddrStatSTATE, 0, 0, 4)] (up)), 0, by decide⟩,
    ⟨(regsOf [(.ddrStatSTATE, 0, 0, 3)] (up)), 0, by decide⟩,
    ⟨(regsOf [(.ddrStatSTATE, 0, 0, 3)] (up)), 0, by decide⟩⟩

theorem hyps_MemoryChannelsServeRequests_3 :
    (∃ (s : State) (m : Chan), s.getF Fld.ddrStatSTATE m.val = 3 ∧ s.getF Fld.ddrStatTRSTEP m.val = 7) ∧
    (∃ (s : State) (m : Chan), s.getF Fld.ddrStatSTATE m.val = 3 ∧ s.getF Fld.ddrStatTRSTEP m.val = 7) ∧
    (∃ (s : State) (m : Chan), s.getF Fld.ddrStatSTATE m.val = 3 ∧ (s.chanSt m.val).tries ≠ 2) ∧
    (∃ (s : State) (m : Chan), s.getF Fld.ddrStatSTATE m.val = 3 ∧ (s.chanSt m.val).tries ≠ 2) ∧
    (∃ (s : State) (m : Chan) (x : Instr), s.getF Fld.ddrStatSTATE m.val = 3 ∧ (x = Instr.trainingAttemptFail m ∧ (s.chanSt m.val).tries = 2
      ∨ x = Instr.trainingTimeout m ∧ 2 ≤ s.getF Fld.ddrStatTRSTEP m.val ∧ s.getF Fld.ddrStatTRSTEP m.val ≤ 6) ∧ s.trWait = none) ∧
    (∃ (s : State) (m : Chan) (x : Instr), s.getF Fld.ddrStatSTATE m.val = 3 ∧ (x = Instr.trainingAttemptFail m ∧ (s.chanSt m.val).tries = 2
      ∨ x = Instr.trainingTimeout m ∧ 2 ≤ s.getF Fld.ddrStatTRSTEP m.val ∧ s.getF Fld.ddrStatTRSTEP m.val ≤ 6) ∧ s.trWait = none) ∧
    (∃ (s : State) (w : W32), s.perst = false ∧ s.unitOn Unit0.ddr = true ∧ (BitVec.toNat w).testBit 5 = false) ∧
    (∃ (s : State) (w : W32), s.perst = false ∧ s.unitOn Unit0.ddr = true ∧ (BitVec.toNat w).testBit 5 = false) :=
  ⟨⟨(regsOf [(.ddrStatSTATE, 0, 0, 3), (.ddrStatTRSTEP, 0, 0, 7)] (up)), 0, by decide⟩,
    ⟨(regsOf [(.ddrStatSTATE, 0, 0, 3), (.ddrStatTRSTEP, 0, 0, 7)] (up)), 0, by decide⟩,
    ⟨(regsOf [(.ddrStatSTATE, 0, 0, 3)] (up)), 0, by decide⟩,
    ⟨(regsOf [(.ddrStatSTATE, 0, 0, 3)] (up)), 0, by decide⟩,
    ⟨(regsOf [(.ddrStatSTATE, 9, 0, 3)]
      ({ up with ddr := [(9, { dimm := 1, rate := 1, inp := [], reads := [], wbuf := [], wbSize := 4, drain := false, tries := 2, pulse := true, retrainDue := true })] })),
      9, (Instr.trainingAttemptFail 9), by decide⟩,
    ⟨(regsOf [(.ddrStatSTATE, 1, 0, 3)]
      ({ up with ddr := [(1, { dimm := 2, rate := 0, inp := [], reads := [], wbuf := [], wbSize := 0, drain := true, tries := 2, pulse := true, retrainDue := true })] })),
      1, (Instr.trainingAttemptFail 1), by decide⟩,
    ⟨up, 8, by decide⟩,
    ⟨up, 9, by decide⟩⟩

theorem hyps_MemoryChannelsServeRequests_4 :
    (∃ (s : State) (m : Chan) (w : W32), s.perst = false ∧ s.unitOn Unit0.ddr = true ∧ (BitVec.toNat w).testBit 5 = true ∧ (s.getF
      Fld.ddrStatSTATE m.val = 4 ∨ s.getF Fld.ddrStatSTATE m.val = 6)) ∧
    (∃ (s : State) (m : Chan) (w : W32), s.perst = false ∧ s.unitOn Unit0.ddr = true ∧ (BitVec.toNat w).testBit 5 = true ∧ (s.getF
      Fld.ddrStatSTATE m.val = 4 ∨ s.getF Fld.ddrStatSTATE m.val = 6)) ∧
    (∃ (s : State) (m : Chan) (w : W32), s.perst = false ∧ s.unitOn Unit0.ddr = true ∧ (BitVec.toNat w).testBit 5 = true ∧ s.getF
      Fld.ddrStatSTATE m.val = 5 ∧ s.going (256 + m.val) = none ∧ s.getF Fld.pwrDstatSTATE (256 + m.val) ≠ 0) ∧
    (∃ (s : State) (m : Chan) (w : W32), s.perst = false ∧ s.unitOn Unit0.ddr = true ∧ (BitVec.toNat w).testBit 5 = true ∧ s.getF
      Fld.ddrStatSTATE m.val = 5 ∧ s.going (256 + m.val) = none ∧ s.getF Fld.pwrDstatSTATE (256 + m.val) ≠ 0) ∧
    (∃ (s : State) (m : Chan) (w : W32), s.perst = false ∧ s.unitOn Unit0.ddr = true ∧ (BitVec.toNat w).testBit 5 = true ∧ s.getF
      Fld.ddrStatSTATE m.val < 4) ∧
    (∃ (s : State) (m : Chan) (w : W32), s.perst = false ∧ s.unitOn Unit0.ddr = true ∧ (BitVec.toNat w).testBit 5 = true ∧ s.getF
      Fld.ddrStatSTATE m.val < 4) ∧
    (∃ (s : State) (m : Chan), (s.chanSt m.val).pulse = true ∧ (s.chanSt m.val).inp = [] ∧ (s.chanSt m.val).reads = [] ∧ (s.chanSt
      m.val).wbuf = [] ∧ s.memReqs = []) :=
  ⟨⟨(regsOf [(.ddrStatSTATE, 0, 0, 4)] (up)), 0, 48, by decide⟩,
    ⟨(regsOf [(.ddrStatSTATE, 0, 0, 4)] (up)), 0, 43, by decide⟩,
    ⟨(regsOf [(.pwrDstatSTATE, 256, 0, 1), (.ddrStatSTATE, 0, 0, 5)] (up)), 0, 48, by decide⟩,
    ⟨(regsOf [(.pwrDstatSTATE, 256, 0, 1), (.ddrStatSTATE, 0, 0, 5)] (up)), 0, 43, by decide⟩,
    ⟨up, 0, 48, by decide⟩,
    ⟨up, 2, 52, by decide⟩,
    ⟨{ up with ddr := [(0, { dimm := 2, rate := 1, inp := [], reads := [], wbuf := [], wbSize := 5, drain := false, tries := 0, pulse := true, retrainDue := true })] },
      0, by decide⟩⟩

theorem hyps_ProtectionEnginesGuardTheirRegions :
    (∃ (s : State) (k : KeyId), s.perst = false ∧ s.unitOn Unit0.memp = true ∧ s.isSet Fld.mempKeystatBUSY = false ∧ s.keyState k.val = 0) ∧
    (∃ (s : State) (k : KeyId) (c : Instr), s.perst = false ∧ s.unitOn Unit0.memp = true ∧ s.isSet Fld.mempKeystatBUSY = false ∧ (c =
      Instr.keyAlloc k ∧ s.keyState k.val ≠ 0 ∨ c = Instr.keyRetire k ∧ (s.keyState k.val ≠ 1 ∨ s.keyUsed k.val = true))) ∧
    (∃ (s : State) (r : Region) (w : W32), s.perst = false ∧ s.unitOn Unit0.memp = true ∧ s.isSet Fld.mempRgncfgENABLE r.val = false ∧ s.getF
      Fld.mempRgnstatSTATE r.val = 0 ∧ (BitVec.toNat w).testBit 0 = true ∧ s.hostPages = [] ∧ s.flips = []) ∧
    (∃ (s : State) (r : Region) (w : W32), s.perst = false ∧ s.unitOn Unit0.memp = true ∧ s.isSet Fld.mempRgncfgENABLE r.val = true ∧
      (BitVec.toNat w).testBit 0 = false ∧ s.getF Fld.mempRgnstatSTATE r.val = 3) ∧
    (∃ (s : State) (r : Region) (w : W32), s.perst = false ∧ s.unitOn Unit0.memp = true ∧ s.isSet Fld.mempRgncfgENABLE r.val = true ∧
      (BitVec.toNat w).testBit 0 = false ∧ s.getF Fld.mempRgnstatSTATE r.val ≠ 3 ∧ s.getF Fld.mempRgnstatSTATE r.val ≠ 0 ∧ ∀ q ∈ s.memp.reqs,
      q.rgn ≠ r.val) ∧
    (∃ (s : State) (r : Region) (w : W32), s.perst = false ∧ s.unitOn Unit0.memp = true ∧ s.isSet Fld.mempRgncfgENABLE r.val = true ∧
      (BitVec.toNat w).testBit 0 = false ∧ s.getF Fld.mempRgnstatSTATE r.val ≠ 3 ∧ ∃ q ∈ s.memp.reqs, q.rgn = r.val) ∧
    (∃ (s : State) (r : Region), s.getF Fld.mempRgnstatSTATE r.val = 1) ∧
    (∃ (s : State) (r : Region) (w : W64), s.perst = false ∧ s.unitOn Unit0.memp = true ∧ (BitVec.toNat w).testBit 41 = true ∧ s.getF
      Fld.mempRgnstatSTATE r.val = 2 ∧ (s.keyState (BitVec.toNat w / 2 ^ 35 % 64) ≠ 1 ∨ s.keyUsed (BitVec.toNat w / 2 ^ 35 % 64) = true)) :=
  ⟨⟨up, 48, by decide⟩,
    ⟨(regsOf [(.mempKeystateST, 0, 0, 18446744073709551615)] (up)), 8, (Instr.keyAlloc 8), by decide⟩,
    ⟨up, 6, 36516655, by decide⟩,
    ⟨(regsOf [(.mempRgncfgENABLE, 0, 0, 1), (.mempRgnstatSTATE, 0, 0, 3)] (up)), 0, 8388624, by decide⟩,
    ⟨(regsOf [(.mempRgncfgENABLE, 0, 0, 1), (.mempRgnstatSTATE, 0, 0, 4)] (up)), 0, 8388624, by decide⟩,
    ⟨(regsOf [(.mempRgncfgENABLE, 16, 0, 1)]
      ({ up with memp := { keys := [(8, some ((256, 255))), (256, some ((31, 64)))], cmd := some (1), top := [], cache := [], reqs := [{ pkt := (pk .rsp .evt 0 4 2 2 640 []), rgn := 256, todo := [4, 1], status := 255, got := [(8, 255), (10, 3259222532), (11, 8)] }, { pkt := (pk .req .wrmp 16 3 80 704 63 []), rgn := 4807900221407232, todo := [], status := 4, got := [] }, { pkt := (pk .req .rd 2 1 81 5497692356652 3 []), rgn := 16, todo := [6966512257728512, 16, 4096], status := 4, got := [(3, 4280658225), (11, 39000000), (1024, 256), (1026, 8)] }], wait := [], walk := [(4, some (2)), (8, some (7)), (11, some (32)), (24577, some (1000))], jump := [], due := [] } })),
      16, 2820672832, by decide⟩,
    ⟨(regsOf [(.mempRgnstatSTATE, 6, 0, 1)] (up)), 6, by decide⟩,
    ⟨(regsOf [(.mempRgnstatSTATE, 2, 0, 2)] (up)), 2, 15030564672431836580, by decide⟩⟩

theorem hyps_HostSharesDeviceMemory_1 :
    (∃ (s : State) (hpa : BitVec 52) (d : _) (p : _), s.hdmDecode hpa.toNat = some d ∧ (∀ (r : ℕ), s.devDecode d ≠ DevTarget.shadowArea r) ∧
      s.engineReq 64 Opc.rd (d / 64 * 64) 64 [] = some p ∧ s.isSet Fld.nocRtctlDRAINING = false) ∧
    (∃ (s : State) (hpa : BitVec 52) (d : _) (p : _), s.hdmDecode hpa.toNat = some d ∧ (∀ (r : ℕ), s.devDecode d ≠ DevTarget.shadowArea r) ∧
      s.engineReq 64 Opc.rd (d / 64 * 64) 64 [] = some p ∧ s.isSet Fld.nocRtctlDRAINING = false) ∧
    (∃ (s : State) (hpa : BitVec 52), s.hdmDecode hpa.toNat = none ∧ s.part.optX = true) ∧
    (∃ (s : State) (w : MemWrite) (d : _) (p : _), s.hdmDecode w.hpa.toNat = some d ∧ (∀ (r : ℕ), s.devDecode d ≠ DevTarget.shadowArea r) ∧
      s.isSet Fld.nocRtctlDRAINING = false ∧ w.mask.toNat = fullMask ∧ s.engineReq 64 Opc.wr (d / 64 * 64) 64 w.data = some p) ∧
    (∃ (s : State) (w : MemWrite) (d : _) (p : _), s.hdmDecode w.hpa.toNat = some d ∧ (∀ (r : ℕ), s.devDecode d ≠ DevTarget.shadowArea r) ∧
      s.isSet Fld.nocRtctlDRAINING = false ∧ ¬w.mask.toNat = fullMask ∧ s.engineReq 64 Opc.wrm (d / 64 * 64) 64 w.data = some p) ∧
    (∃ (s : State) (w : MemWrite), s.hdmDecode w.hpa.toNat = none ∧ s.part.optX = true) ∧
    (∃ (s : State) (page : BitVec 29) (f : FlipSt), s.flipping page.toNat = some f ∧ s.biasCmd = none ∧ noRegionWaits s ∧ f.toHost = true ∧
      s.pageBusy page.toNat = false ∧ (s.filterOf (s.chanOf (4096 * page.toNat))).length < 4096) ∧
    (∃ (s : State) (page : BitVec 29) (f : FlipSt), s.flipping page.toNat = some f ∧ s.biasCmd = none ∧ noRegionWaits s ∧ f.toHost = false) :=
  ⟨⟨(regsOf [(.cxlLnkstatUP, 0, 0, 1), (.cxlLnkstatMEMEN, 0, 0, 1), (.ddrImap0VALID, 0, 0, 1), (.ddrImap0CGIB, 0, 0, 8)]
      ({ up with hdm := [(0, some ({ base := 0, size := 17179869184, ways := 1, granule := 4096, way := 0, dpa := 0 }))] })), 0, 0, (pk .req
      .rd 1 3 64 0 63 []), ⟨by decide, (fun _ h => DevTarget.noConfusion h), by decide, by decide⟩⟩,
    ⟨(regsOf [(.cxlLnkstatUP, 0, 0, 1), (.cxlLnkstatMEMEN, 0, 0, 1), (.ddrImap0VALID, 0, 0, 1), (.ddrImap0CGIB, 0, 0, 16)]
      ({ up with hdm := [(0, some ({ base := 0, size := 17179869184, ways := 1, granule := 4096, way := 0, dpa := 0 }))] })), 0, 0, (pk .req
      .rd 1 3 64 0 63 []), ⟨by decide, (fun _ h => DevTarget.noConfusion h), by decide, by decide⟩⟩,
    ⟨up, 0, by decide⟩,
    ⟨(regsOf [(.cxlLnkstatUP, 0, 0, 1), (.cxlLnkstatMEMEN, 0, 0, 1), (.ddrImap0VALID, 0, 0, 1), (.ddrImap0CGIB, 0, 0, 16)]
      ({ up with hdm := [(0, some ({ base := 0, size := 17179869184, ways := 1, granule := 4096, way := 0, dpa := 0 }))] })),
      { hpa := 0, mask := 18446744073709551615, data := [], tag := 32772 }, 0, (pk .req .wr 1 3 64 0 63 []), ⟨by decide, (fun _ h =>
      DevTarget.noConfusion h), by decide, by decide, by decide⟩⟩,
    ⟨(regsOf [(.cxlLnkstatUP, 0, 0, 1), (.cxlLnkstatMEMEN, 0, 0, 1), (.ddrImap0VALID, 0, 0, 1), (.ddrImap0CGIB, 0, 0, 16)]
      ({ up with hdm := [(0, some ({ base := 0, size := 17179869184, ways := 1, granule := 4096, way := 0, dpa := 0 }))] })),
      { hpa := 0, mask := 12, data := [5], tag := 0 }, 0, (pk .req .wrm 1 3 64 0 63 [5]), ⟨by decide, (fun _ h => DevTarget.noConfusion h), by
      decide, by decide, by decide⟩⟩,
    ⟨up, { hpa := 2, mask := 3, data := [], tag := 52 }, by decide⟩,
    ⟨{ up with flips := [{ page := 1, toHost := true, wait := [] }] }, 1, { page := 1, toHost := true, wait := [] },
      by unfold noRegionWaits; decide⟩,
    ⟨{ up with flips := [{ page := 0, toHost := false, wait := [] }] }, 0, { page := 0, toHost := false, wait := [] },
      by unfold noRegionWaits; decide⟩⟩

theorem hyps_HostSharesDeviceMemory_2 :
    (∃ (s : State) (page : BitVec 29) (f : FlipSt), s.flipping page.toNat = some f ∧ s.biasCmd = none ∧ noRegionWaits s ∧ f.toHost = false) ∧
    (∃ (s : State) (page : BitVec 29) (f : FlipSt) (old : _), s.flipping page.toNat = some f ∧ s.biasCmd = none ∧ noRegionWaits s ∧ f.toHost
      = true ∧ s.pageBusy page.toNat = false ∧ 4096 ≤ (s.filterOf (s.chanOf (4096 * page.toNat))).length ∧ (s.filterOf (s.chanOf (4096 *
      page.toNat))).head? = some old ∧ s.flipping old = none) ∧
    (∃ (s : State) (w : W64) (c : _), s.perst = false ∧ s.unitOn Unit0.coh = true ∧ s.isSet Fld.cohBiasstatBUSY = false ∧ (BitVec.toNat
      w).testBit 30 = true ∧ c ∈ [Instr.biasCommand w, Instr.biasQuery w] ∧ ¬(s.isSet Fld.cxlLnkstatUP = true ∧ s.isSet Fld.cxlLnkstatMEMEN =
      true)) ∧
    (∃ (s : State) (w : W64) (c : _), s.perst = false ∧ s.unitOn Unit0.coh = true ∧ s.isSet Fld.cohBiasstatBUSY = false ∧ (BitVec.toNat
      w).testBit 30 = true ∧ c ∈ [Instr.biasCommand w, Instr.biasQuery w] ∧ (s.isSet Fld.cxlLnkstatUP = true ∧ s.isSet Fld.cxlLnkstatMEMEN =
      true) ∧ ((BitVec.toNat w).testBit 31 = true ∧ s.pageMapped (BitVec.toNat w % 2 ^ 29) = false ∨ (BitVec.toNat w).testBit 31 = false ∧ ∃ x
      ∈ List.map (fun x => BitVec.toNat w % 2 ^ 29 + x) (List.range (BitVec.toNat w / 2 ^ 32 % 512 + 1)), s.pageMapped x = false)) ∧
    (∃ (s : State) (w : W64) (c : _), s.perst = false ∧ s.unitOn Unit0.coh = true ∧ s.isSet Fld.cohBiasstatBUSY = false ∧ (BitVec.toNat
      w).testBit 30 = true ∧ c ∈ [Instr.biasCommand w, Instr.biasQuery w] ∧ (s.isSet Fld.cxlLnkstatUP = true ∧ s.isSet Fld.cxlLnkstatMEMEN =
      true) ∧ ((BitVec.toNat w).testBit 31 = true ∧ s.pageMapped (BitVec.toNat w % 2 ^ 29) = false ∨ (BitVec.toNat w).testBit 31 = false ∧ ∃ x
      ∈ List.map (fun x => BitVec.toNat w % 2 ^ 29 + x) (List.range (BitVec.toNat w / 2 ^ 32 % 512 + 1)), s.pageMapped x = false)) ∧
    (∃ (s : State) (w : W64) (c : _), s.perst = false ∧ s.unitOn Unit0.coh = true ∧ s.isSet Fld.cohBiasstatBUSY = false ∧ (BitVec.toNat
      w).testBit 30 = true ∧ c ∈ [Instr.biasCommand w, Instr.biasQuery w] ∧ (s.isSet Fld.cxlLnkstatUP = true ∧ s.isSet Fld.cxlLnkstatMEMEN =
      true) ∧ (BitVec.toNat w).testBit 31 = true ∧ s.pageMapped (BitVec.toNat w % 2 ^ 29) = true) ∧
    (∃ (s : State) (w : W64) (c : _), s.perst = false ∧ s.unitOn Unit0.coh = true ∧ s.isSet Fld.cohBiasstatBUSY = false ∧ (BitVec.toNat
      w).testBit 30 = true ∧ c ∈ [Instr.biasCommand w, Instr.biasQuery w] ∧ (s.isSet Fld.cxlLnkstatUP = true ∧ s.isSet Fld.cxlLnkstatMEMEN =
      true) ∧ (BitVec.toNat w).testBit 31 = false ∧ BitVec.toNat w / 2 ^ 32 % 512 = 0 ∧ s.pageMapped (BitVec.toNat w % 2 ^ 29) = true ∧
      s.flipping (BitVec.toNat w % 2 ^ 29) = none ∧ s.hostBias (BitVec.toNat w % 2 ^ 29) = (BitVec.toNat w).testBit 29) ∧
    (∃ (s : State) (w : W64) (c : _), s.perst = false ∧ s.unitOn Unit0.coh = true ∧ s.isSet Fld.cohBiasstatBUSY = false ∧ (BitVec.toNat
      w).testBit 30 = true ∧ c ∈ [Instr.biasCommand w, Instr.biasQuery w] ∧ (s.isSet Fld.cxlLnkstatUP = true ∧ s.isSet Fld.cxlLnkstatMEMEN =
      true) ∧ (BitVec.toNat w).testBit 31 = false ∧ BitVec.toNat w / 2 ^ 32 % 512 = 0 ∧ s.pageMapped (BitVec.toNat w % 2 ^ 29) = true ∧
      s.flipping (BitVec.toNat w % 2 ^ 29) = none ∧ s.hostBias (BitVec.toNat w % 2 ^ 29) = (BitVec.toNat w).testBit 29) :=
  ⟨⟨{ up with flips := [{ page := 1, toHost := false, wait := [] }] }, 1, { page := 1, toHost := false, wait := [] },
      by unfold noRegionWaits; decide⟩,
    ⟨(regsOf [(.ddrImap0K, 0, 0, 4), (.ddrImap1CH, 0, 0, 18364758547621372960)]
      { up with hostPages := [(2, (List.range 4096).map (· + 2))], flips := [{ page := 1, toHost := true, wait := [] }] }), 1,
      { page := 1, toHost := true, wait := [] }, 2, by unfold noRegionWaits; decide⟩,
    ⟨up, 3231711745, (Instr.biasQuery 0x00000000c0a00201#64), by decide⟩,
    ⟨(regsOf [(.cxlLnkstatUP, 0, 0, 1), (.cxlLnkstatMEMEN, 0, 0, 1)] (up)), 1082167442, (Instr.biasQuery 0x0000000040809092#64), by decide⟩,
    ⟨(regsOf [(.cxlLnkstatUP, 0, 0, 1), (.cxlLnkstatMEMEN, 0, 0, 1)] (up)), 1486362760, (Instr.biasQuery 0x0000000058981888#64), by decide⟩,
    ⟨(regsOf [(.cxlLnkstatUP, 0, 0, 1), (.cxlLnkstatMEMEN, 0, 0, 1)]
      ({ up with hdm := [(0, some ({ base := 0, size := 17179869184, ways := 1, granule := 4096, way := 0, dpa := 0 }))] })), 3223326160,
      (Instr.biasCommand 0x00000000c0200dd0#64), by decide⟩,
    ⟨(regsOf [(.cxlLnkstatUP, 0, 0, 1), (.cxlLnkstatMEMEN, 0, 0, 1)]
      ({ up with hdm := [(0, some ({ base := 0, size := 17179869184, ways := 1, granule := 4096, way := 0, dpa := 0 }))] })), 1073741824,
      (Instr.biasCommand 0x0000000040000000#64), by decide⟩,
    ⟨(regsOf [(.cxlLnkstatUP, 0, 0, 1), (.cxlLnkstatMEMEN, 0, 0, 1)]
      ({ up with hdm := [(0, some ({ base := 0, size := 17179869184, ways := 1, granule := 4096, way := 0, dpa := 0 }))] })), 1073741824,
      (Instr.biasCommand 0x0000000040000000#64), by decide⟩⟩

theorem hyps_HostSharesDeviceMemory_3 :
    (∃ (s : State) (w : W64) (c : _), s.perst = false ∧ s.unitOn Unit0.coh = true ∧ s.isSet Fld.cohBiasstatBUSY = false ∧ (BitVec.toNat
      w).testBit 30 = true ∧ c ∈ [Instr.biasCommand w, Instr.biasQuery w] ∧ (s.isSet Fld.cxlLnkstatUP = true ∧ s.isSet Fld.cxlLnkstatMEMEN =
      true) ∧ (BitVec.toNat w).testBit 31 = false ∧ BitVec.toNat w / 2 ^ 32 % 512 = 0 ∧ s.pageMapped (BitVec.toNat w % 2 ^ 29) = true ∧
      s.flipping (BitVec.toNat w % 2 ^ 29) = none ∧ s.hostBias (BitVec.toNat w % 2 ^ 29) ≠ (BitVec.toNat w).testBit 29 ∧ s.getF
      Fld.pwrDstatSTATE (posOfChan (s.chanOf (4096 * (BitVec.toNat w % 2 ^ 29)))) = 0 ∧ s.getF Fld.pwrDstatSTATE (256 + s.chanOf (4096 *
      (BitVec.toNat w % 2 ^ 29))) ≠ 1) ∧
    (∃ (s : State) (w : W64) (c : _), s.perst = false ∧ s.unitOn Unit0.coh = true ∧ s.isSet Fld.cohBiasstatBUSY = false ∧ (BitVec.toNat
      w).testBit 30 = true ∧ c ∈ [Instr.biasCommand w, Instr.biasQuery w] ∧ (s.isSet Fld.cxlLnkstatUP = true ∧ s.isSet Fld.cxlLnkstatMEMEN =
      true) ∧ (BitVec.toNat w).testBit 31 = false ∧ BitVec.toNat w / 2 ^ 32 % 512 = 0 ∧ s.pageMapped (BitVec.toNat w % 2 ^ 29) = true ∧
      s.flipping (BitVec.toNat w % 2 ^ 29) = none ∧ s.hostBias (BitVec.toNat w % 2 ^ 29) ≠ (BitVec.toNat w).testBit 29 ∧ s.getF
      Fld.pwrDstatSTATE (posOfChan (s.chanOf (4096 * (BitVec.toNat w % 2 ^ 29)))) = 0 ∧ s.getF Fld.pwrDstatSTATE (256 + s.chanOf (4096 *
      (BitVec.toNat w % 2 ^ 29))) ≠ 1) :=
  ⟨⟨(regsOf [(.cxlLnkstatUP, 0, 0, 1), (.cxlLnkstatMEMEN, 0, 0, 1)]
      ({ up with hostPages := [(3, [0])], hdm := [(0, some ({ base := 0, size := 17179869184, ways := 1, granule := 4096, way := 0, dpa := 0 }))] })),
      1073741824, (Instr.biasCommand 0x0000000040000000#64), by decide⟩,
    ⟨(regsOf [(.cxlLnkstatUP, 0, 0, 1), (.cxlLnkstatMEMEN, 0, 0, 1)]
      ({ up with hdm := [(0, some ({ base := 0, size := 17179869184, ways := 1, granule := 4096, way := 0, dpa := 0 }))] })), 1612844880,
      (Instr.biasCommand 0x0000000060220f50#64), by decide⟩⟩

theorem hyps_CoherenceFollowsTheHostLink_1 :
    (∃ (s : State) (p : Packet) (i : Nat) (c : _), arrives s p i ∧ c ∈ reqCmds p ∧ p.opc = c.1 ∧ reqLegal p = true ∧ s.devDecode p.addr.toNat
      = DevTarget.hostMem ∧ p.dnode = 65 ∧ s.domRuns 295 = true ∧ s.unitOn Unit0.coh = true ∧ isPosted p.opc = false ∧ ¬(s.isSet Fld.cohHwinEN
      = true ∧ s.hostAddr p.addr.toNat < 2 ^ 52)) ∧
    (∃ (s : State) (p : Packet) (i : Nat) (c : _), arrives s p i ∧ c ∈ reqCmds p ∧ p.opc = c.1 ∧ reqLegal p = true ∧ s.devDecode p.addr.toNat
      = DevTarget.hostMem ∧ p.dnode = 65 ∧ s.domRuns 295 = true ∧ s.unitOn Unit0.coh = true ∧ isPosted p.opc = false ∧ (s.isSet Fld.cohHwinEN
      = true ∧ s.hostAddr p.addr.toNat < 2 ^ 52) ∧ ¬(s.isSet Fld.cxlLnkstatUP = true ∧ s.isSet Fld.cxlLnkstatCACHEEN = true)) ∧
    (∃ (s : State) (p : Packet) (i : Nat) (c : _) (x : _), arrives s p i ∧ c ∈ reqCmds p ∧ p.opc = c.1 ∧ reqLegal p = true ∧ s.devDecode
      p.addr.toNat = DevTarget.hostMem ∧ p.dnode = 65 ∧ s.domRuns 295 = true ∧ s.unitOn Unit0.coh = true ∧ isPosted p.opc = false ∧ (s.isSet
      Fld.cohHwinEN = true ∧ s.hostAddr p.addr.toNat < 2 ^ 52) ∧ (s.isSet Fld.cxlLnkstatUP = true ∧ s.isSet Fld.cxlLnkstatCACHEEN = true) ∧
      lineCount (s.hostAddr p.addr.toNat) (pktLen p) = 1 ∧ loneLine s (s.hostAddr p.addr.toNat / 64) ∧ s.hline (s.hostAddr p.addr.toNat / 64)
      = some x ∧ isWrite p.opc = false) ∧
    (∃ (s : State) (p : Packet) (i : Nat) (c : _) (x : _), arrives s p i ∧ c ∈ reqCmds p ∧ p.opc = c.1 ∧ reqLegal p = true ∧ s.devDecode
      p.addr.toNat = DevTarget.hostMem ∧ p.dnode = 65 ∧ s.domRuns 295 = true ∧ s.unitOn Unit0.coh = true ∧ isPosted p.opc = false ∧ (s.isSet
      Fld.cohHwinEN = true ∧ s.hostAddr p.addr.toNat < 2 ^ 52) ∧ (s.isSet Fld.cxlLnkstatUP = true ∧ s.isSet Fld.cxlLnkstatCACHEEN = true) ∧
      lineCount (s.hostAddr p.addr.toNat) (pktLen p) = 1 ∧ loneLine s (s.hostAddr p.addr.toNat / 64) ∧ s.hline (s.hostAddr p.addr.toNat / 64)
      = some x ∧ isWrite p.opc = false) ∧
    (∃ (s : State) (p : Packet) (i : Nat) (c : _) (x : _), arrives s p i ∧ c ∈ reqCmds p ∧ p.opc = c.1 ∧ reqLegal p = true ∧ s.devDecode
      p.addr.toNat = DevTarget.hostMem ∧ p.dnode = 65 ∧ s.domRuns 295 = true ∧ s.unitOn Unit0.coh = true ∧ isPosted p.opc = false ∧ (s.isSet
      Fld.cohHwinEN = true ∧ s.hostAddr p.addr.toNat < 2 ^ 52) ∧ (s.isSet Fld.cxlLnkstatUP = true ∧ s.isSet Fld.cxlLnkstatCACHEEN = true) ∧
      lineCount (s.hostAddr p.addr.toNat) (pktLen p) = 1 ∧ loneLine s (s.hostAddr p.addr.toNat / 64) ∧ s.hline (s.hostAddr p.addr.toNat / 64)
      = some x ∧ isWrite p.opc = true ∧ x.st ≠ LineSt.s) ∧
    (∃ (s : State) (p : Packet) (i : Nat) (c : _) (x : _), arrives s p i ∧ c ∈ reqCmds p ∧ p.opc = c.1 ∧ reqLegal p = true ∧ s.devDecode
      p.addr.toNat = DevTarget.hostMem ∧ p.dnode = 65 ∧ s.domRuns 295 = true ∧ s.unitOn Unit0.coh = true ∧ isPosted p.opc = false ∧ (s.isSet
      Fld.cohHwinEN = true ∧ s.hostAddr p.addr.toNat < 2 ^ 52) ∧ (s.isSet Fld.cxlLnkstatUP = true ∧ s.isSet Fld.cxlLnkstatCACHEEN = true) ∧
      lineCount (s.hostAddr p.addr.toNat) (pktLen p) = 1 ∧ loneLine s (s.hostAddr p.addr.toNat / 64) ∧ s.hline (s.hostAddr p.addr.toNat / 64)
      = some x ∧ isWrite p.opc = true ∧ x.st ≠ LineSt.s) ∧
    (∃ (s : State) (p : Packet) (i : Nat) (c : _), arrives s p i ∧ c ∈ reqCmds p ∧ p.opc = c.1 ∧ reqLegal p = true ∧ s.devDecode p.addr.toNat
      = DevTarget.hostMem ∧ p.dnode = 65 ∧ s.domRuns 295 = true ∧ s.unitOn Unit0.coh = true ∧ isPosted p.opc = false ∧ (s.isSet Fld.cohHwinEN
      = true ∧ s.hostAddr p.addr.toNat < 2 ^ 52) ∧ (s.isSet Fld.cxlLnkstatUP = true ∧ s.isSet Fld.cxlLnkstatCACHEEN = true) ∧ lineCount
      (s.hostAddr p.addr.toNat) (pktLen p) = 1 ∧ loneLine s (s.hostAddr p.addr.toNat / 64) ∧ s.hline (s.hostAddr p.addr.toNat / 64) = none ∧
      isWrite p.opc = false) ∧
    (∃ (s : State) (p : Packet) (i : Nat) (c : _), arrives s p i ∧ c ∈ reqCmds p ∧ p.opc = c.1 ∧ reqLegal p = true ∧ s.devDecode p.addr.toNat
      = DevTarget.hostMem ∧ p.dnode = 65 ∧ s.domRuns 295 = true ∧ s.unitOn Unit0.coh = true ∧ isPosted p.opc = false ∧ (s.isSet Fld.cohHwinEN
      = true ∧ s.hostAddr p.addr.toNat < 2 ^ 52) ∧ (s.isSet Fld.cxlLnkstatUP = true ∧ s.isSet Fld.cxlLnkstatCACHEEN = true) ∧ lineCount
      (s.hostAddr p.addr.toNat) (pktLen p) = 1 ∧ loneLine s (s.hostAddr p.addr.toNat / 64) ∧ s.hline (s.hostAddr p.addr.toNat / 64) = none ∧
      isWrite p.opc = false) :=
  ⟨⟨(regsOf [(.nocTrtabaPORTS, 2, 4, 18446744073709551360)] ({ up with net := [(pk .req .wrm 65 0 64 2199023258560 63 [])] })), (pk .req
      .wrm 65 0 64 2199023258560 63 []), 4, (.wrm, Instr.wrm (pk .req .wrm 65 0 64 2199023258560 63 [])), by unfold arrives; decide⟩,
    ⟨(regsOf [(.nocTrtabaPORTS, 2, 4, 18446744073709551360), (.cohHwinEN, 0, 0, 1)]
      ({ up with net := [(pk .req .rd 65 0 65 2199023256640 7 [])] })), (pk .req .rd 65 0 65 2199023256640 7 []), 4, (.rd, Instr.rd (pk .req
      .rd 65 0 65 2199023256640 7 [])), by unfold arrives; decide⟩,
    ⟨(regsOf [(.nocTrtabaPORTS, 2, 4, 18446744073709551360), (.cohHwinEN, 0, 0, 1), (.cxlLnkstatUP, 0, 0, 1), (.cxlLnkstatCACHEEN, 0, 0, 1)]
      ({ up with net := [(pk .req .rd 65 0 64 2199023257344 63 [])], hcache := [(28, some ({ st := .m, data := 0 }))] })), (pk .req .rd 65 0
      64 2199023257344 63 []), 4, (.rd, Instr.rd (pk .req .rd 65 0 64 2199023257344 63 [])), { st := .m, data := 0 },
      by unfold arrives loneLine; decide⟩,
    ⟨(regsOf [(.nocTrtabaPORTS, 2, 4, 18446744073709551360), (.cohHwinEN, 0, 0, 1), (.cxlLnkstatUP, 0, 0, 1), (.cxlLnkstatCACHEEN, 0, 0, 1)]
      ({ up with net := [{ (pk .req .rd 65 0 80 2199023258240 7 [1, 1]) with sep := 2, sdev := 1, tag := 1024, status := 8, segno := 2, split := true }], hcache := [(42, some ({ st := .m, data := 0 }))] })),
      { (pk .req .rd 65 0 80 2199023258240 7 [1, 1]) with sep := 2, sdev := 1, tag := 1024, status := 8, segno := 2, split := true }, 4, (.rd,
      Instr.rd
      { (pk .req .rd 65 0 80 2199023258240 7 [1, 1]) with sep := 2, sdev := 1, tag := 1024, status := 8, segno := 2, split := true }),
      { st := .m, data := 0 }, by unfold arrives loneLine; decide⟩,
    ⟨(regsOf [(.nocTrtabaPORTS, 2, 4, 18446744073709551360), (.cohHwinEN, 0, 0, 1), (.cxlLnkstatUP, 0, 0, 1), (.cxlLnkstatCACHEEN, 0, 0, 1)]
      ({ up with net := [(pk .req .wrm 65 0 65 2199023256512 63 [])], hcache := [(15, some ({ st := .m, data := 0 }))] })), (pk .req .wrm 65 0
      65 2199023256512 63 []), 4, (.wrm, Instr.wrm (pk .req .wrm 65 0 65 2199023256512 63 [])), { st := .m, data := 0 },
      by unfold arrives loneLine; decide⟩,
    ⟨(regsOf [(.nocRtctlACTIVE, 0, 0, 1), (.nocTrtabbPORTS, 2, 4, 18446744073709551360), (.cohHwinEN, 0, 0, 1), (.cxlLnkstatUP, 0, 0, 1),
      (.cxlLnkstatCACHEEN, 0, 0, 1)]
      ({ up with net := [{ (pk .req .wr 65 0 0 2199023258432 7 [160]) with sep := 2, sdev := 1, status := 5, segno := 2 }], hcache := [(45, some ({ st := .m, data := 0 }))] })),
      { (pk .req .wr 65 0 0 2199023258432 7 [160]) with sep := 2, sdev := 1, status := 5, segno := 2 }, 4, (.wr, Instr.wr
      { (pk .req .wr 65 0 0 2199023258432 7 [160]) with sep := 2, sdev := 1, status := 5, segno := 2 }), { st := .m, data := 0 },
      by unfold arrives loneLine; decide⟩,
    ⟨(regsOf [(.nocTrtabaPORTS, 2, 4, 18446744073709551360), (.cohHwinEN, 0, 0, 1), (.cxlLnkstatUP, 0, 0, 1), (.cxlLnkstatCACHEEN, 0, 0, 1)]
      ({ up with net := [{ (pk .req .rd 65 0 80 2199023258240 7 [1, 1]) with sep := 2, sdev := 1, tag := 1024, status := 8, segno := 2, split := true }] })),
      { (pk .req .rd 65 0 80 2199023258240 7 [1, 1]) with sep := 2, sdev := 1, tag := 1024, status := 8, segno := 2, split := true }, 4, (.rd,
      Instr.rd
      { (pk .req .rd 65 0 80 2199023258240 7 [1, 1]) with sep := 2, sdev := 1, tag := 1024, status := 8, segno := 2, split := true }),
      by unfold arrives loneLine; decide⟩,
    ⟨(regsOf [(.nocTrtabaPORTS, 2, 4, 18446744073709551360), (.cohHwinEN, 0, 0, 1), (.cxlLnkstatUP, 0, 0, 1), (.cxlLnkstatCACHEEN, 0, 0, 1)]
      ({ up with net := [{ (pk .req .rd 65 0 0 2199023258752 7 [64]) with sdev := 1, tag := 36, status := 3, split := true }] })),
      { (pk .req .rd 65 0 0 2199023258752 7 [64]) with sdev := 1, tag := 36, status := 3, split := true }, 4, (.rd, Instr.rd
      { (pk .req .rd 65 0 0 2199023258752 7 [64]) with sdev := 1, tag := 36, status := 3, split := true }),
      by unfold arrives loneLine; decide⟩⟩

theorem hyps_CoherenceFollowsTheHostLink_2 :
    (∃ (s : State) (p : Packet) (i : Nat) (c : _), arrives s p i ∧ c ∈ reqCmds p ∧ p.opc = c.1 ∧ reqLegal p = true ∧ s.devDecode p.addr.toNat
      = DevTarget.hostMem ∧ p.dnode = 65 ∧ s.domRuns 295 = true ∧ s.unitOn Unit0.coh = true ∧ isPosted p.opc = false ∧ (s.isSet Fld.cohHwinEN
      = true ∧ s.hostAddr p.addr.toNat < 2 ^ 52) ∧ (s.isSet Fld.cxlLnkstatUP = true ∧ s.isSet Fld.cxlLnkstatCACHEEN = true) ∧ lineCount
      (s.hostAddr p.addr.toNat) (pktLen p) = 1 ∧ loneLine s (s.hostAddr p.addr.toNat / 64) ∧ s.hline (s.hostAddr p.addr.toNat / 64) = none ∧
      isWrite p.opc = true ∧ ¬(s.isSet Fld.cohCtlNOALLOC = false ∧ s.isSet Fld.cohCtlFLUSHBUSY = false)) ∧
    (∃ (s : State) (p : Packet) (i : Nat) (c : _), arrives s p i ∧ c ∈ reqCmds p ∧ p.opc = c.1 ∧ reqLegal p = true ∧ s.devDecode p.addr.toNat
      = DevTarget.hostMem ∧ p.dnode = 65 ∧ s.domRuns 295 = true ∧ s.unitOn Unit0.coh = true ∧ isPosted p.opc = false ∧ (s.isSet Fld.cohHwinEN
      = true ∧ s.hostAddr p.addr.toNat < 2 ^ 52) ∧ (s.isSet Fld.cxlLnkstatUP = true ∧ s.isSet Fld.cxlLnkstatCACHEEN = true) ∧ lineCount
      (s.hostAddr p.addr.toNat) (pktLen p) = 1 ∧ loneLine s (s.hostAddr p.addr.toNat / 64) ∧ s.hline (s.hostAddr p.addr.toNat / 64) = none ∧
      isWrite p.opc = true ∧ ¬(s.isSet Fld.cohCtlNOALLOC = false ∧ s.isSet Fld.cohCtlFLUSHBUSY = false)) ∧
    (∃ (s : State) (p : Packet) (i : Nat) (c : _), arrives s p i ∧ c ∈ reqCmds p ∧ p.opc = c.1 ∧ reqLegal p = true ∧ s.devDecode p.addr.toNat
      = DevTarget.hostMem ∧ p.dnode = 65 ∧ s.domRuns 295 = true ∧ s.unitOn Unit0.coh = true ∧ isPosted p.opc = false ∧ (s.isSet Fld.cohHwinEN
      = true ∧ s.hostAddr p.addr.toNat < 2 ^ 52) ∧ (s.isSet Fld.cxlLnkstatUP = true ∧ s.isSet Fld.cxlLnkstatCACHEEN = true) ∧ lineCount
      (s.hostAddr p.addr.toNat) (pktLen p) = 1 ∧ loneLine s (s.hostAddr p.addr.toNat / 64) ∧ s.hline (s.hostAddr p.addr.toNat / 64) = none ∧
      isWrite p.opc = true ∧ (s.isSet Fld.cohCtlNOALLOC = false ∧ s.isSet Fld.cohCtlFLUSHBUSY = false) ∧ reqMask p 0 = fullMask) ∧
    (∃ (s : State) (p : Packet) (i : Nat) (c : _), arrives s p i ∧ c ∈ reqCmds p ∧ p.opc = c.1 ∧ reqLegal p = true ∧ s.devDecode p.addr.toNat
      = DevTarget.hostMem ∧ p.dnode = 65 ∧ s.domRuns 295 = true ∧ s.unitOn Unit0.coh = true ∧ isPosted p.opc = false ∧ (s.isSet Fld.cohHwinEN
      = true ∧ s.hostAddr p.addr.toNat < 2 ^ 52) ∧ (s.isSet Fld.cxlLnkstatUP = true ∧ s.isSet Fld.cxlLnkstatCACHEEN = true) ∧ lineCount
      (s.hostAddr p.addr.toNat) (pktLen p) = 1 ∧ loneLine s (s.hostAddr p.addr.toNat / 64) ∧ s.hline (s.hostAddr p.addr.toNat / 64) = none ∧
      isWrite p.opc = true ∧ (s.isSet Fld.cohCtlNOALLOC = false ∧ s.isSet Fld.cohCtlFLUSHBUSY = false) ∧ reqMask p 0 ≠ fullMask) ∧
    (∃ (s : State) (p : Packet) (i : Nat) (c : _), arrives s p i ∧ c ∈ reqCmds p ∧ p.opc = c.1 ∧ reqLegal p = true ∧ s.devDecode p.addr.toNat
      = DevTarget.hostMem ∧ p.dnode = 65 ∧ s.domRuns 295 = true ∧ s.unitOn Unit0.coh = true ∧ isPosted p.opc = false ∧ (s.isSet Fld.cohHwinEN
      = true ∧ s.hostAddr p.addr.toNat < 2 ^ 52) ∧ (s.isSet Fld.cxlLnkstatUP = true ∧ s.isSet Fld.cxlLnkstatCACHEEN = true) ∧ lineCount
      (s.hostAddr p.addr.toNat) (pktLen p) = 1 ∧ loneLine s (s.hostAddr p.addr.toNat / 64) ∧ s.hline (s.hostAddr p.addr.toNat / 64) = none ∧
      isWrite p.opc = true ∧ (s.isSet Fld.cohCtlNOALLOC = false ∧ s.isSet Fld.cohCtlFLUSHBUSY = false) ∧ reqMask p 0 ≠ fullMask) ∧
    (∃ (s : State) (a : HostAns) (op : CohOp) (q : CohReq) (h : HostOp), s.askedOp a.hpa.toNat = some op ∧ s.cohReq op.req = some q ∧ op.sent
      = some h ∧ q.left = 1 ∧ q.status = 0 ∧ isPosted q.pkt.opc = false ∧ (∀ o ∈ s.cohOps.erase op, o.line ≠ op.line) ∧ s.part.optX = true ∧
      a.go = false ∧ a.poison = false ∧ s.isSet Fld.cohCtlFLUSHBUSY = false ∧ roomFor s op.line ∧ h = HostOp.rdShared) ∧
    (∃ (s : State) (a : HostAns) (op : CohOp) (q : CohReq) (h : HostOp), s.askedOp a.hpa.toNat = some op ∧ s.cohReq op.req = some q ∧ op.sent
      = some h ∧ q.left = 1 ∧ q.status = 0 ∧ isPosted q.pkt.opc = false ∧ (∀ o ∈ s.cohOps.erase op, o.line ≠ op.line) ∧ s.part.optX = true ∧
      a.go = false ∧ a.poison = false ∧ s.isSet Fld.cohCtlFLUSHBUSY = false ∧ roomFor s op.line ∧ h = HostOp.rdShared) ∧
    (∃ (s : State) (a : HostAns) (op : CohOp) (q : CohReq) (h : HostOp), s.askedOp a.hpa.toNat = some op ∧ s.cohReq op.req = some q ∧ op.sent
      = some h ∧ q.left = 1 ∧ q.status = 0 ∧ isPosted q.pkt.opc = false ∧ (∀ o ∈ s.cohOps.erase op, o.line ≠ op.line) ∧ s.part.optX = true ∧
      a.go = false ∧ a.poison = false ∧ s.isSet Fld.cohCtlFLUSHBUSY = false ∧ roomFor s op.line ∧ h = HostOp.rdOwn) :=
  ⟨⟨(regsOf [(.nocTrtabaPORTS, 2, 4, 18446744073709551360), (.cohCtlFLUSHBUSY, 0, 0, 1), (.cohHwinEN, 0, 0, 1), (.cxlLnkstatUP, 0, 0, 1),
      (.cxlLnkstatCACHEEN, 0, 0, 1)] ({ up with net := [(pk .req .wrm 65 0 64 2199023258560 63 [])] })), (pk .req .wrm 65 0 64 2199023258560
      63 []), 4, (.wrm, Instr.wrm (pk .req .wrm 65 0 64 2199023258560 63 [])), by unfold arrives loneLine; decide⟩,
    ⟨(regsOf [(.nocTrtabaPORTS, 2, 4, 18446744073709551360), (.cohCtlNOALLOC, 0, 0, 1), (.cohHwinEN, 0, 0, 1), (.cxlLnkstatUP, 0, 0, 1),
      (.cxlLnkstatCACHEEN, 0, 0, 1)] ({ up with net := [(pk .req .wrm 65 0 65 2199023256512 63 [])] })), (pk .req .wrm 65 0 65 2199023256512
      63 []), 4, (.wrm, Instr.wrm (pk .req .wrm 65 0 65 2199023256512 63 [])), by unfold arrives loneLine; decide⟩,
    ⟨(regsOf [(.nocRtctlACTIVE, 0, 0, 1), (.nocTrtabbPORTS, 2, 4, 18446744073709551360), (.cohHwinEN, 0, 0, 1), (.cxlLnkstatUP, 0, 0, 1),
      (.cxlLnkstatCACHEEN, 0, 0, 1)]
      ({ up with net := [{ (pk .req .wr 65 0 2 2199023259328 63 []) with sep := 2, sdev := 1, tag := 15, status := 15, segno := 2, split := true }] })),
      { (pk .req .wr 65 0 2 2199023259328 63 []) with sep := 2, sdev := 1, tag := 15, status := 15, segno := 2, split := true }, 4, (.wr,
      Instr.wr { (pk .req .wr 65 0 2 2199023259328 63 []) with sep := 2, sdev := 1, tag := 15, status := 15, segno := 2, split := true }),
      by unfold arrives loneLine; decide⟩,
    ⟨(regsOf [(.nocTrtabaPORTS, 2, 4, 18446744073709551360), (.cohHwinEN, 0, 0, 1), (.cxlLnkstatUP, 0, 0, 1), (.cxlLnkstatCACHEEN, 0, 0, 1)]
      ({ up with net := [(pk .req .wrm 65 0 65 2199023257472 63 [])] })), (pk .req .wrm 65 0 65 2199023257472 63 []), 4, (.wrm, Instr.wrm (pk
      .req .wrm 65 0 65 2199023257472 63 [])), by unfold arrives loneLine; decide⟩,
    ⟨(regsOf [(.nocTrtabaPORTS, 2, 4, 18446744073709551360), (.cohHwinEN, 0, 0, 1), (.cxlLnkstatUP, 0, 0, 1), (.cxlLnkstatCACHEEN, 0, 0, 1)]
      ({ up with net := [(pk .req .wrm 65 0 65 2199023256512 63 [])] })), (pk .req .wrm 65 0 65 2199023256512 63 []), 4, (.wrm, Instr.wrm (pk
      .req .wrm 65 0 65 2199023256512 63 [])), by unfold arrives loneLine; decide⟩,
    ⟨{ up with cohReqs := [(0, some ({ pkt := (pk .coh .wcmp 73 3 33 256 12 []), hpa := 5, left := 1, status := 0, got := [(3, 3427676673736704), (515, 15), (1024, 8)] }))], cohOps := [{ req := 0, k := 0, line := 2, sent := some (.rdShared) }] },
      { hpa := 0x0000000000080#52, go := false, poison := false, data := [] }, { req := 0, k := 0, line := 2, sent := some (.rdShared) },
      { pkt := (pk .coh .wcmp 73 3 33 256 12 []), hpa := 5, left := 1, status := 0, got := [(3, 3427676673736704), (515, 15), (1024, 8)] },
      .rdShared, by unfold roomFor; decide⟩,
    ⟨{ up with cohReqs := [(2, some ({ pkt := (pk .req .wrm 70 0 81 4398059094144 63 []), hpa := 7, left := 1, status := 0, got := [(2, 26545705821143040), (7, 3), (9, 1000), (10, 56681827), (24704, 8), (294912, 4096)] }))], cohOps := [{ req := 2, k := 0, line := 0, sent := some (.rdShared) }] },
      { hpa := 0x0000000000000#52, go := false, poison := false, data := [] }, { req := 2, k := 0, line := 0, sent := some (.rdShared) },
      { pkt := (pk .req .wrm 70 0 81 4398059094144 63 []), hpa := 7, left := 1, status := 0, got := [(2, 26545705821143040), (7, 3), (9, 1000), (10, 56681827), (24704, 8), (294912, 4096)] },
      .rdShared, by unfold roomFor; decide⟩,
    ⟨{ up with cohReqs := [(2, some ({ pkt := (pk .req .wr 65 0 80 2199023255616 63 []), hpa := 127, left := 1, status := 0, got := [] }))], cohOps := [{ req := 2, k := 0, line := 0, sent := some (.rdOwn) }] },
      { hpa := 0x0000000000000#52, go := false, poison := false, data := [0x02#8, 0x00#8] },
      { req := 2, k := 0, line := 0, sent := some (.rdOwn) },
      { pkt := (pk .req .wr 65 0 80 2199023255616 63 []), hpa := 127, left := 1, status := 0, got := [] }, .rdOwn, by unfold roomFor; decide⟩⟩

theorem hyps_CoherenceFollowsTheHostLink_3 :
    (∃ (s : State) (a : HostAns) (op : CohOp) (q : CohReq) (h : HostOp), s.askedOp a.hpa.toNat = some op ∧ s.cohReq op.req = some q ∧ op.sent
      = some h ∧ q.left = 1 ∧ q.status = 0 ∧ isPosted q.pkt.opc = false ∧ (∀ o ∈ s.cohOps.erase op, o.line ≠ op.line) ∧ s.part.optX = true ∧
      a.go = false ∧ a.poison = false ∧ s.isSet Fld.cohCtlFLUSHBUSY = false ∧ roomFor s op.line ∧ h = HostOp.rdOwn) ∧
    (∃ (s : State) (a : HostAns) (op : CohOp) (q : CohReq) (h : HostOp), s.askedOp a.hpa.toNat = some op ∧ s.cohReq op.req = some q ∧ op.sent
      = some h ∧ q.left = 1 ∧ q.status = 0 ∧ isPosted q.pkt.opc = false ∧ (∀ o ∈ s.cohOps.erase op, o.line ≠ op.line) ∧ s.part.optX = true ∧
      a.go = false ∧ a.poison = false ∧ h = HostOp.rdCurr) ∧
    (∃ (s : State) (a : HostAns) (op : CohOp) (q : CohReq) (h : HostOp), s.askedOp a.hpa.toNat = some op ∧ s.cohReq op.req = some q ∧ op.sent
      = some h ∧ q.left = 1 ∧ q.status = 0 ∧ isPosted q.pkt.opc = false ∧ (∀ o ∈ s.cohOps.erase op, o.line ≠ op.line) ∧ s.part.optX = true ∧
      a.go = false ∧ a.poison = false ∧ h = HostOp.rdCurr) ∧
    (∃ (s : State) (a : HostAns) (op : CohOp) (q : CohReq) (h : HostOp), s.askedOp a.hpa.toNat = some op ∧ s.cohReq op.req = some q ∧ op.sent
      = some h ∧ q.left = 1 ∧ q.status = 0 ∧ isPosted q.pkt.opc = false ∧ (∀ o ∈ s.cohOps.erase op, o.line ≠ op.line) ∧ s.part.optX = true ∧
      a.go = true ∧ s.isSet Fld.cohCtlFLUSHBUSY = false ∧ roomFor s op.line ∧ h = HostOp.itoMWr) ∧
    (∃ (s : State) (a : HostAns) (op : CohOp) (q : CohReq) (h : HostOp), s.askedOp a.hpa.toNat = some op ∧ s.cohReq op.req = some q ∧ op.sent
      = some h ∧ q.left = 1 ∧ q.status = 0 ∧ isPosted q.pkt.opc = false ∧ (∀ o ∈ s.cohOps.erase op, o.line ≠ op.line) ∧ s.part.optX = true ∧
      a.go = true ∧ s.isSet Fld.cohCtlFLUSHBUSY = false ∧ roomFor s op.line ∧ h = HostOp.itoMWr) ∧
    (∃ (s : State) (a : HostAns) (op : CohOp) (q : CohReq) (h : HostOp) (x : _), s.askedOp a.hpa.toNat = some op ∧ s.cohReq op.req = some q ∧
      op.sent = some h ∧ q.left = 1 ∧ q.status = 0 ∧ isPosted q.pkt.opc = false ∧ (∀ o ∈ s.cohOps.erase op, o.line ≠ op.line) ∧ s.part.optX =
      true ∧ a.go = true ∧ s.isSet Fld.cohCtlFLUSHBUSY = false ∧ roomFor s op.line ∧ h = HostOp.rdOwnNoData ∧ s.hline op.line = some x) ∧
    (∃ (s : State) (a : HostAns) (op : CohOp) (q : CohReq) (h : HostOp) (x : _), s.askedOp a.hpa.toNat = some op ∧ s.cohReq op.req = some q ∧
      op.sent = some h ∧ q.left = 1 ∧ q.status = 0 ∧ isPosted q.pkt.opc = false ∧ (∀ o ∈ s.cohOps.erase op, o.line ≠ op.line) ∧ s.part.optX =
      true ∧ a.go = true ∧ s.isSet Fld.cohCtlFLUSHBUSY = false ∧ roomFor s op.line ∧ h = HostOp.rdOwnNoData ∧ s.hline op.line = some x) ∧
    (∃ (s : State) (a : HostAns) (op : CohOp) (q : CohReq) (h : HostOp), s.askedOp a.hpa.toNat = some op ∧ s.cohReq op.req = some q ∧ op.sent
      = some h ∧ q.left = 1 ∧ q.status = 0 ∧ isPosted q.pkt.opc = false ∧ (∀ o ∈ s.cohOps.erase op, o.line ≠ op.line) ∧ s.part.optX = true ∧
      a.go = true ∧ h = HostOp.wrCur) :=
  ⟨⟨{ up with cohReqs := [(2, some ({ pkt := (pk .req .rd 67 0 81 4398087143440 64 []), hpa := 63, left := 1, status := 0, got := [] }))], cohOps := [{ req := 2, k := 0, line := 3, sent := some (.rdOwn) }] },
      { hpa := 0x00000000000c0#52, go := false, poison := false, data := [0x88#8, 0x09#8] },
      { req := 2, k := 0, line := 3, sent := some (.rdOwn) },
      { pkt := (pk .req .rd 67 0 81 4398087143440 64 []), hpa := 63, left := 1, status := 0, got := [] }, .rdOwn, by unfold roomFor; decide⟩,
    ⟨{ up with cohReqs := [(0, some ({ pkt := (pk .rsp .wcmp 0 0 78 13 2636 []), hpa := 3, left := 1, status := 0, got := [(1, 23418688832077824), (3, 127), (4, 127), (7, 1000), (24576, 64)] }))], cohOps := [{ req := 0, k := 0, line := 0, sent := some (.rdCurr) }] },
      { hpa := 0x0000000000000#52, go := false, poison := false, data := [0xaa#8] }, { req := 0, k := 0, line := 0, sent := some (.rdCurr) },
      { pkt := (pk .rsp .wcmp 0 0 78 13 2636 []), hpa := 3, left := 1, status := 0, got := [(1, 23418688832077824), (3, 127), (4, 127), (7, 1000), (24576, 64)] },
      .rdCurr, by decide⟩,
    ⟨{ up with cohReqs := [(1, some ({ pkt := (pk .req .wrm 2 3 0 192 63 []), hpa := 1943733570, left := 1, status := 0, got := [(0, 8), (3, 2), (1026, 2412752486), (5122, 4122083234), (4294967296, 32)] }))], cohOps := [{ req := 1, k := 0, line := 3, sent := some (.rdCurr) }] },
      { hpa := 0x00000000000c0#52, go := false, poison := false, data := [] }, { req := 1, k := 0, line := 3, sent := some (.rdCurr) },
      { pkt := (pk .req .wrm 2 3 0 192 63 []), hpa := 1943733570, left := 1, status := 0, got := [(0, 8), (3, 2), (1026, 2412752486), (5122, 4122083234), (4294967296, 32)] },
      .rdCurr, by decide⟩,
    ⟨{ up with cohReqs := [(2, some ({ pkt := (pk .req .wr 0 1 64 5497558138880 63 []), hpa := 4294967296, left := 1, status := 0, got := [(1, 3002622445), (9, 1), (11, 65536000), (129, 127), (1025, 42263914412376064), (24704, 3793221216)] }))], cohOps := [{ req := 2, k := 0, line := 0, sent := some (.itoMWr) }] },
      { hpa := 0x0000000000000#52, go := true, poison := true, data := [] }, { req := 2, k := 0, line := 0, sent := some (.itoMWr) },
      { pkt := (pk .req .wr 0 1 64 5497558138880 63 []), hpa := 4294967296, left := 1, status := 0, got := [(1, 3002622445), (9, 1), (11, 65536000), (129, 127), (1025, 42263914412376064), (24704, 3793221216)] },
      .itoMWr, by unfold roomFor; decide⟩,
    ⟨{ up with cohReqs := [(0, some ({ pkt := (pk .req .rd 65 0 65 2199023256640 7 []), hpa := 4, left := 1, status := 0, got := [(5, 5), (7, 127)] }))], cohOps := [{ req := 0, k := 0, line := 0, sent := some (.itoMWr) }] },
      { hpa := 0x0000000000000#52, go := true, poison := false, data := [] }, { req := 0, k := 0, line := 0, sent := some (.itoMWr) },
      { pkt := (pk .req .rd 65 0 65 2199023256640 7 []), hpa := 4, left := 1, status := 0, got := [(5, 5), (7, 127)] }, .itoMWr,
      by unfold roomFor; decide⟩,
    ⟨{ up with hcache := [(2, some ({ st := .m, data := 0 }))], cohReqs := [(0, some ({ pkt := (pk .req .wr 70 3 65 3072 64 []), hpa := 4096, left := 1, status := 0, got := [(2, 5), (3, 2), (4, 3), (8, 2)] }))], cohOps := [{ req := 0, k := 0, line := 2, sent := some (.rdOwnNoData) }] },
      { hpa := 0x0000000000080#52, go := true, poison := false, data := [] }, { req := 0, k := 0, line := 2, sent := some (.rdOwnNoData) },
      { pkt := (pk .req .wr 70 3 65 3072 64 []), hpa := 4096, left := 1, status := 0, got := [(2, 5), (3, 2), (4, 3), (8, 2)] }, .rdOwnNoData,
      { st := .m, data := 0 }, by unfold roomFor; decide⟩,
    ⟨{ up with hcache := [(1, some ({ st := .m, data := 0 }))], cohReqs := [(0, some ({ pkt := (pk .req .wr 68 0 64 4398051622936 7 []), hpa := 16, left := 1, status := 0, got := [(130, 15644970420142080), (4096, 4189892195)] }))], cohOps := [{ req := 0, k := 0, line := 1, sent := some (.rdOwnNoData) }] },
      { hpa := 0x0000000000040#52, go := true, poison := false, data := [0x24#8] },
      { req := 0, k := 0, line := 1, sent := some (.rdOwnNoData) },
      { pkt := (pk .req .wr 68 0 64 4398051622936 7 []), hpa := 16, left := 1, status := 0, got := [(130, 15644970420142080), (4096, 4189892195)] },
      .rdOwnNoData, { st := .m, data := 0 }, by unfold roomFor; decide⟩,
    ⟨{ up with cohReqs := [(0, some ({ pkt := (pk .req .rd 1 3 2 1472 7 []), hpa := 0, left := 1, status := 0, got := [] }))], cohOps := [{ req := 0, k := 0, line := 0, sent := some (.wrCur) }] },
      { hpa := 0x0000000000000#52, go := true, poison := false, data := [] }, { req := 0, k := 0, line := 0, sent := some (.wrCur) },
      { pkt := (pk .req .rd 1 3 2 1472 7 []), hpa := 0, left := 1, status := 0, got := [] }, .wrCur, by decide⟩⟩

theorem hyps_CoherenceFollowsTheHostLink_4 :
    (∃ (s : State) (a : HostAns) (op : CohOp) (q : CohReq) (h : HostOp), s.askedOp a.hpa.toNat = some op ∧ s.cohReq op.req = some q ∧ op.sent
      = some h ∧ q.left = 1 ∧ q.status = 0 ∧ isPosted q.pkt.opc = false ∧ (∀ o ∈ s.cohOps.erase op, o.line ≠ op.line) ∧ s.part.optX = true ∧
      a.go = true ∧ h = HostOp.wrCur) ∧
    (∃ (s : State) (a : HostAns) (op : CohOp) (q : CohReq) (h : HostOp), s.askedOp a.hpa.toNat = some op ∧ s.cohReq op.req = some q ∧ op.sent
      = some h ∧ q.left = 1 ∧ q.status = 0 ∧ isPosted q.pkt.opc = false ∧ (∀ o ∈ s.cohOps.erase op, o.line ≠ op.line) ∧ s.part.optX = true ∧
      a.go = false ∧ a.poison = true ∧ (h = HostOp.rdShared ∨ h = HostOp.rdCurr ∨ h = HostOp.rdOwn)) ∧
    (∃ (s : State) (a : HostAns) (op : CohOp) (q : CohReq) (h : HostOp), s.askedOp a.hpa.toNat = some op ∧ s.cohReq op.req = some q ∧ op.sent
      = some h ∧ q.left = 1 ∧ q.status = 0 ∧ isPosted q.pkt.opc = false ∧ (∀ o ∈ s.cohOps.erase op, o.line ≠ op.line) ∧ s.part.optX = true ∧
      a.go = false ∧ a.poison = true ∧ (h = HostOp.rdShared ∨ h = HostOp.rdCurr ∨ h = HostOp.rdOwn)) ∧
    (∃ (s : State) (a : HostAns) (d : Nat) (r : Resolve), s.askedOp a.hpa.toNat = none ∧ s.hdmDecode a.hpa.toNat = some d ∧ s.resolveOf (d /
      64) = some r ∧ a.go = true ∧ r.lines.erase (d / 64) ≠ []) ∧
    (∃ (s : State) (a : HostAns) (d : Nat) (r : Resolve), s.askedOp a.hpa.toNat = none ∧ s.hdmDecode a.hpa.toNat = some d ∧ s.resolveOf (d /
      64) = some r ∧ a.go = true ∧ r.lines.erase (d / 64) = []) ∧
    (∃ (s : State) (a : HostAns) (d : Nat) (r : Resolve), s.askedOp a.hpa.toNat = none ∧ s.hdmDecode a.hpa.toNat = some d ∧ s.resolveOf (d /
      64) = some r ∧ s.part.optX = true ∧ isPosted r.pkt.opc = false) ∧
    (∃ (s : State) (a : HostAns) (d : Nat) (r : Resolve), s.askedOp a.hpa.toNat = none ∧ s.hdmDecode a.hpa.toNat = some d ∧ s.resolveOf (d /
      64) = some r ∧ s.part.optX = true ∧ isPosted r.pkt.opc = false) ∧
    (∃ (s : State) (hpa : BitVec 52), s.isSet Fld.cxlLnkstatUP = true ∧ s.getF Fld.pwrDstatSTATE 295 ≠ 1 ∧ s.hline (hpa.toNat / 64) = none) :=
  ⟨⟨{ up with cohReqs := [(2, some ({ pkt := (pk .req .evt 103 1 49 255544209814529 3 []), hpa := 7, left := 1, status := 0, got := [(1, 2)] }))], cohOps := [{ req := 2, k := 0, line := 0, sent := some (.wrCur) }] },
      { hpa := 0x0000000000000#52, go := true, poison := true, data := [0x40#8, 0x0a#8] },
      { req := 2, k := 0, line := 0, sent := some (.wrCur) },
      { pkt := (pk .req .evt 103 1 49 255544209814529 3 []), hpa := 7, left := 1, status := 0, got := [(1, 2)] }, .wrCur, by decide⟩,
    ⟨{ up with cohReqs := [(1, some ({ pkt := (pk .req .rd 70 3 0 128 7 []), hpa := 3, left := 1, status := 0, got := [] }))], cohOps := [{ req := 1, k := 0, line := 3, sent := some (.rdCurr) }] },
      { hpa := 0x00000000000c0#52, go := false, poison := true, data := [] }, { req := 1, k := 0, line := 3, sent := some (.rdCurr) },
      { pkt := (pk .req .rd 70 3 0 128 7 []), hpa := 3, left := 1, status := 0, got := [] }, .rdCurr, by decide⟩,
    ⟨{ up with cohReqs := [(1, some ({ pkt := (pk .req .wr 64 0 65 4398067679380 127 []), hpa := 255, left := 1, status := 0, got := [] }))], cohOps := [{ req := 1, k := 0, line := 2, sent := some (.rdOwn) }] },
      { hpa := 0x0000000000080#52, go := false, poison := true, data := [] }, { req := 1, k := 0, line := 2, sent := some (.rdOwn) },
      { pkt := (pk .req .wr 64 0 65 4398067679380 127 []), hpa := 255, left := 1, status := 0, got := [] }, .rdOwn, by decide⟩,
    ⟨(regsOf [(.cxlLnkstatUP, 0, 0, 1), (.cxlLnkstatMEMEN, 0, 0, 1)]
      ({ up with resolves := [{ pkt := (pk .evt .rdata 96 1 44 3 1 []), lines := [0, 1, 2] }], hdm := [(0, some ({ base := 0, size := 17179869184, ways := 1, granule := 4096, way := 0, dpa := 0 }))] })),
      { hpa := 0x0000000000080#52, go := true, poison := true, data := [] }, 128,
      { pkt := (pk .evt .rdata 96 1 44 3 1 []), lines := [0, 1, 2] }, by decide⟩,
    ⟨(regsOf [(.cxlLnkstatUP, 0, 0, 1), (.cxlLnkstatMEMEN, 0, 0, 1)]
      ({ up with resolves := [{ pkt := (pk .rsp .grant 0 0 79 0 3 []), lines := [0] }], hdm := [(0, some ({ base := 0, size := 17179869184, ways := 1, granule := 4096, way := 0, dpa := 0 }))] })),
      { hpa := 0x0000000000000#52, go := true, poison := false, data := [] }, 0, { pkt := (pk .rsp .grant 0 0 79 0 3 []), lines := [0] }, by
      decide⟩,
    ⟨(regsOf [(.cxlLnkstatUP, 0, 0, 1), (.cxlLnkstatMEMEN, 0, 0, 1)]
      ({ up with resolves := [{ pkt := (pk .req .rd 68 0 65 4398103724072 0 []), lines := [0] }], hdm := [(0, some ({ base := 0, size := 17179869184, ways := 1, granule := 4096, way := 0, dpa := 0 }))] })),
      { hpa := 0x0000000000000#52, go := true, poison := true, data := [] }, 0,
      { pkt := (pk .req .rd 68 0 65 4398103724072 0 []), lines := [0] }, by decide⟩,
    ⟨(regsOf [(.cxlLnkstatUP, 0, 0, 1), (.cxlLnkstatMEMEN, 0, 0, 1)]
      ({ up with resolves := [{ pkt := (pk .evt (.other (2)) 58 2 0 62 17 []), lines := [0, 1, 2] }], hdm := [(0, some ({ base := 0, size := 17179869184, ways := 1, granule := 4096, way := 0, dpa := 0 }))] })),
      { hpa := 0x0000000000000#52, go := false, poison := false, data := [] }, 0,
      { pkt := (pk .evt (.other (2)) 58 2 0 62 17 []), lines := [0, 1, 2] }, by decide⟩,
    ⟨(regsOf [(.cxlLnkstatUP, 0, 0, 1)] (up)), 0, by decide⟩⟩

theorem hyps_CoherenceFollowsTheHostLink_5 :
    (∃ (s : State) (hpa : BitVec 52), s.isSet Fld.cxlLnkstatUP = true ∧ s.getF Fld.pwrDstatSTATE 295 ≠ 1 ∧ s.hline (hpa.toNat / 64) = none) ∧
    (∃ (s : State) (hpa : BitVec 52) (x : _), s.isSet Fld.cxlLnkstatUP = true ∧ s.getF Fld.pwrDstatSTATE 295 ≠ 1 ∧ s.hline (hpa.toNat / 64) =
      some x) ∧
    (∃ (s : State) (hpa : BitVec 52) (x : _), s.isSet Fld.cxlLnkstatUP = true ∧ s.getF Fld.pwrDstatSTATE 295 ≠ 1 ∧ s.hline (hpa.toNat / 64) =
      some x) ∧
    (∃ (s : State), s.perst = false ∧ s.unitOn Unit0.coh = true ∧ s.isSet Fld.cohCtlFLUSHBUSY = false) ∧
    (∃ (s : State), s.perst = false ∧ s.unitOn Unit0.coh = true ∧ s.isSet Fld.cohCtlFLUSHBUSY = false) ∧
    (∃ (s : State), s.isSet Fld.cohCtlFLUSHBUSY = true) ∧
    (∃ (s : State), s.isSet Fld.cohCtlFLUSHBUSY = true) :=
  ⟨⟨(regsOf [(.cxlLnkstatUP, 0, 0, 1)] (up)), 2, by decide⟩,
    ⟨(regsOf [(.cxlLnkstatUP, 0, 0, 1)] ({ up with hcache := [(0, some ({ st := .m, data := 0 }))] })), 2, { st := .m, data := 0 }, by
      decide⟩,
    ⟨(regsOf [(.cxlLnkstatUP, 0, 0, 1)] ({ up with hcache := [(0, some ({ st := .m, data := 0 }))] })), 2, { st := .m, data := 0 }, by
      decide⟩,
    ⟨up, by decide⟩,
    ⟨up, by decide⟩,
    ⟨(regsOf [(.cohCtlFLUSHBUSY, 0, 0, 1)] (up)), by decide⟩,
    ⟨(regsOf [(.cohCtlFLUSHBUSY, 0, 0, 1)] (up)), by decide⟩⟩

theorem hyps_DeviceTimeCountsAndIsCorrected_1 :
    (∃ (s : State), s.crossingRuns = false) ∧
    (∃ (s : State) (w : W32), s.perst = false ∧ s.unitOn Unit0.tmu = true ∧ 49152 ≤ BitVec.toNat w ∧ BitVec.toNat w ≤ 81920) ∧
    (∃ (s : State) (w : W32), s.perst = false ∧ s.unitOn Unit0.tmu = true ∧ ¬(49152 ≤ BitVec.toNat w ∧ BitVec.toNat w ≤ 81920)) ∧
    (∃ (s : State) (w : W32), s.perst = false ∧ s.unitOn Unit0.tmu = true ∧ (BitVec.toNat w).testBit 0 = true) ∧
    (∃ (s : State) (inc : _) (u : _), s.crossingRuns = true ∧ s.xidx % 4096 = 0 ∧ s.incPend = some (inc, u) ∧ u + 6000 * 39 ≤ s.ran39 ∧
      s.stepPend = none) ∧
    (∃ (s : State) (off : Int) (u : _), s.crossingRuns = true ∧ s.xidx % 4096 = 0 ∧ s.stepPend = some (off, u) ∧ u + 6000 * 39 ≤ s.ran39 ∧
      s.incPend = none) ∧
    (∃ (s : State), s.crossingRuns = false ∨ s.xidx % 4096 ≠ 0 ∨ (∀ (e : ℕ × ℕ), s.incPend = some e → s.ran39 < e.2 + 6000 * 39) ∧ ∀ (e : ℤ ×
      ℕ), s.stepPend = some e → s.ran39 < e.2 + 6000 * 39) ∧
    (∃ (s : State), s.getF Fld.tmuHoldoverINTERVAL ≠ 0 ∧ s.crossingRuns = true ∧ s.isSet Fld.tmuHoldoverACTIVE = false ∧ s.holdAt + s.getF
      Fld.tmuHoldoverINTERVAL * 39000000 ≤ s.ran39) :=
  ⟨⟨up, by decide⟩,
    ⟨up, 81920, by decide⟩,
    ⟨up, 3, by decide⟩,
    ⟨up, 9, by decide⟩,
    ⟨{ up with root := .locked, ran39 := 234000, incPend := some ((0, 0)) }, 0, 0, by decide⟩,
    ⟨{ up with root := .coasting, ran39 := 234000, stepPend := some ((0, 0)) }, 0, 0, by decide⟩,
    ⟨up, by decide⟩,
    ⟨{ up with root := .coasting, ran39 := 1099550627776 }, by decide⟩⟩

theorem hyps_DeviceTimeCountsAndIsCorrected_2 :
    (∃ (s : State), ¬(s.getF Fld.tmuHoldoverINTERVAL ≠ 0 ∧ s.crossingRuns = true ∧ s.isSet Fld.tmuHoldoverACTIVE = false ∧ s.holdAt + s.getF
      Fld.tmuHoldoverINTERVAL * 39000000 ≤ s.ran39)) ∧
    (∃ (s : State), s.crossingRuns = true ∧ s.xidx % 4096 = 0 ∧ SMap.wf (fun _ => none) s.replicas = true) :=
  ⟨⟨up, by decide⟩,
    ⟨{ up with root := .locked }, by decide⟩⟩

theorem hyps_CapturesReachTheRing_1 :
    (∃ (s : State) (k : Fin 16) (falling : Bool), s.getF Fld.kilnStatSTATE = 7 ∧ s.getF Fld.tmuTrigcfgMODE k.val = 1 ∧ s.bitF
      Fld.tmuTrigcfgEDGE falling.toNat k.val = true) ∧
    (∃ (s : State) (falling : Bool), s.isSet Fld.tmuPpsctlINEN = true ∧ s.isSet Fld.tmuPpsctlINEDGE = falling) ∧
    (∃ (s : State), s.isSet Fld.tmuPpsctlINEN = false) ∧
    (∃ (s : State) (n : Pos), s.bitF Fld.tmuDtsenEN n.val = true ∧ s.portStopped n.val = false) ∧
    (∃ (s : State) (n : Pos), s.bitF Fld.tmuDtsenEN n.val = false) ∧
    (∃ (s : State) (x : LaneSym), laneExists x.lane.val = true ∧ s.laneEnabled (1024 + 2 * x.lane.val + x.tx.toNat) = true ∧ (if x.tx = true
      then s.getF Fld.xcvrLstatPSTATE x.lane.val = 0 else s.getF Fld.xcvrLstatRXST x.lane.val = 3) ∧ x.spaced = true ∧ s.laneMode x.lane.val =
      3 ∧ x.isK = true ∧ x.sym = 251 ∧ x.frameNo.toNat % 2 ^ min 24 (s.getF Fld.xcvrTscfgTSDEC x.lane.val) = 0) ∧
    (∃ (s : State) (x : LaneSym), laneExists x.lane.val = true ∧ s.laneEnabled (1024 + 2 * x.lane.val + x.tx.toNat) = true ∧ (if x.tx = true
      then s.getF Fld.xcvrLstatPSTATE x.lane.val = 0 else s.getF Fld.xcvrLstatRXST x.lane.val = 3) ∧ x.spaced = true ∧ s.laneMode x.lane.val =
      1 ∧ BitVec.toNat x.sym = s.getF Fld.xcvrTscfgSOFSYM x.lane.val ∧ x.isK = s.isSet Fld.xcvrTscfgSOFK x.lane.val ∧ SMap.get (fun _ => 0)
      s.laneCnt (2 * x.lane.val + x.tx.toNat) + 1 < 2 ^ min 24 (s.getF Fld.xcvrTscfgTSDEC x.lane.val)) ∧
    (∃ (s : State) (x : LaneSym), laneExists x.lane.val = true ∧ s.laneEnabled (1024 + 2 * x.lane.val + x.tx.toNat) = true ∧ (if x.tx = true
      then s.getF Fld.xcvrLstatPSTATE x.lane.val = 0 else s.getF Fld.xcvrLstatRXST x.lane.val = 3) ∧ x.spaced = true ∧ s.laneMode x.lane.val =
      1 ∧ BitVec.toNat x.sym = s.getF Fld.xcvrTscfgSOFSYM x.lane.val ∧ x.isK = s.isSet Fld.xcvrTscfgSOFK x.lane.val ∧ 2 ^ min 24 (s.getF
      Fld.xcvrTscfgTSDEC x.lane.val) ≤ SMap.get (fun _ => 0) s.laneCnt (2 * x.lane.val + x.tx.toNat) + 1) :=
  ⟨⟨(regsOf [(.tmuTrigcfgMODE, 4, 0, 1), (.tmuTrigcfgEDGE, 4, 0, 3), (.kilnStatSTATE, 0, 0, 7)] (up)), 4, true, by decide⟩,
    ⟨(regsOf [(.tmuPpsctlINEN, 0, 0, 1)] (up)), false, by decide⟩,
    ⟨up, by decide⟩,
    ⟨(regsOf [(.tmuDtsenEN, 0, 0, 15)] ({ up with pos := [(0, { inReset := false, restore := false })] })), 0, by decide⟩,
    ⟨up, 3, by decide⟩,
    ⟨(regsOf [(.tmuLtsenEN, 0, 0, 4), (.xcvrLcfgMODE, 1, 0, 3), (.xcvrLstatRXST, 1, 0, 3)] (up)),
      { lane := 1, tx := false, sym := 251, isK := true, frameNo := 0, time := 1, spaced := true }, by decide⟩,
    ⟨(regsOf [(.tmuLtsenEN, 0, 0, 18446744073709551615), (.xcvrLcfgMODE, 16, 0, 1), (.xcvrLstatPSTATE, 16, 0, 0), (.xcvrTscfgTSDEC, 16, 0,
      1)] (up)), { lane := 16, tx := true, sym := 251, isK := true, frameNo := 2147483648, time := 5, spaced := true }, by decide⟩,
    ⟨(regsOf [(.tmuLtsenEN, 0, 0, 823696318920), (.xcvrLcfgMODE, 16, 0, 1), (.xcvrLstatRXST, 16, 0, 3)] (up)),
      { lane := 16, tx := false, sym := 251, isK := true, frameNo := 4294967295, time := 63, spaced := true }, by decide⟩⟩

theorem hyps_CapturesReachTheRing_2 :
    (∃ (s : State) (e : _) (rest : _), s.ringQ = e :: rest ∧ s.ringOut = none ∧ (s.isSet Fld.tmuTscfgEN = false ∨ (s.getF Fld.tmuTswrWR % 2 ^
      max 8 (min 20 (s.getF Fld.tmuTscfgLOG2N)) + 1) % 2 ^ max 8 (min 20 (s.getF Fld.tmuTscfgLOG2N)) = s.getF Fld.tmuTsrdRD % 2 ^ max 8 (min
      20 (s.getF Fld.tmuTscfgLOG2N)))) ∧
    (∃ (s : State) (e : _) (rest : _) (p : _), s.ringQ = e :: rest ∧ s.ringOut = none ∧ s.isSet Fld.tmuTscfgEN = true ∧ ¬(s.getF
      Fld.tmuTswrWR % 2 ^ max 8 (min 20 (s.getF Fld.tmuTscfgLOG2N)) + 1) % 2 ^ max 8 (min 20 (s.getF Fld.tmuTscfgLOG2N)) = s.getF
      Fld.tmuTsrdRD % 2 ^ max 8 (min 20 (s.getF Fld.tmuTscfgLOG2N)) ∧ s.engineReq 69 Opc.wr (s.getF Fld.tmuTsbaseBASE * 4096 + 16 * (s.getF
      Fld.tmuTswrWR % 2 ^ max 8 (min 20 (s.getF Fld.tmuTscfgLOG2N)))) 16 e.bytes = some p ∧ s.isSet Fld.nocRtctlDRAINING = false) ∧
    (∃ (s : State) (k : Fin 16) (w : W32), s.perst = false ∧ s.unitOn Unit0.tmu = true ∧ s.isSet Fld.winCtlEN k.val = false ∧ (BitVec.toNat
      w).testBit 0 = true) ∧
    (∃ (s : State) (k : Fin 16), s.isSet Fld.winCtlEN k.val = false ∨ s.now < s.timeOf winEndFlds k.val + usUnits) ∧
    (∃ (s : State) (k : Fin 16), s.isSet Fld.winCtlEN k.val = true ∧ s.timeOf winEndFlds k.val + usUnits ≤ s.now ∧ s.getF Fld.winPeriodPERIOD
      k.val = 0) ∧
    (∃ (s : State) (k : Fin 16), s.isSet Fld.winCtlEN k.val = true ∧ s.timeOf winEndFlds k.val + usUnits ≤ s.now ∧ s.getF Fld.winPeriodPERIOD
      k.val ≠ 0) :=
  ⟨⟨{ up with ringQ := [{ time := 0, src := 0, edge := false, pkind := 0, win := false, seq := 0 }] },
      { time := 0, src := 0, edge := false, pkind := 0, win := false, seq := 0 }, [], by decide⟩,
    ⟨(regsOf [(.tmuTscfgEN, 0, 0, 1), (.ddrImap0VALID, 0, 0, 1), (.ddrImap0CGIB, 0, 0, 24)]
      ({ up with ringQ := [{ time := 0, src := 0, edge := false, pkind := 0, win := false, seq := 0 }] })),
      { time := 0, src := 0, edge := false, pkind := 0, win := false, seq := 0 }, [],
      { (pk .req .wr 1 3 69 0 15 []) with data := List.replicate 16 0 }, by decide⟩,
    ⟨up, 0, 3, by decide⟩,
    ⟨up, 6, by decide⟩,
    ⟨(regsOf [(.tmuTimehiSECHI, 0, 0, 1), (.winCtlEN, 4, 0, 1)] (up)), 4, by decide⟩,
    ⟨(regsOf [(.tmuTimehiSECHI, 0, 0, 8), (.winCtlEN, 5, 0, 1), (.winPeriodPERIOD, 5, 0, 1)] (up)), 5, by decide⟩⟩

theorem hyps_TimersFireAndPulsesEnd_1 :
    (∃ (s : State) (c : Timer) (w : W32) (x : _), s.perst = false ∧ s.unitOn Unit0.tmu = true ∧ x ∈ [Instr.timerArm c w, Instr.timerDisarm c
      w] ∧ s.isSet Fld.tmrCtlARMED c.val = false ∧ (BitVec.toNat w).testBit 0 = true) ∧
    (∃ (s : State) (c : Timer) (w : W32) (x : _), s.perst = false ∧ s.unitOn Unit0.tmu = true ∧ x ∈ [Instr.timerArm c w, Instr.timerDisarm c
      w] ∧ s.isSet Fld.tmrCtlARMED c.val = true) ∧
    (∃ (s : State) (c : Timer), ¬(s.isSet Fld.tmrCtlARMED c.val = true ∧ (s.getF Fld.tmrCtlDEST c.val = 1 ∨ s.getF Fld.tmrCtlDEST c.val = 3 →
      ∃ e rest, (s.tmrSt c.val).sent = e :: rest ∧ e.2 ≤ s.xidx) ∧ (¬(s.getF Fld.tmrCtlDEST c.val = 1 ∨ s.getF Fld.tmrCtlDEST c.val = 3) →
      (s.tmrSt c.val).next < s.now + s.incNow))) ∧
    (∃ (s : State) (c : Timer), s.isSet Fld.tmrCtlARMED c.val = true ∧ (s.getF Fld.tmrCtlDEST c.val = 1 ∨ s.getF Fld.tmrCtlDEST c.val = 3 → ∃
      e rest, (s.tmrSt c.val).sent = e :: rest ∧ e.2 ≤ s.xidx) ∧ (¬(s.getF Fld.tmrCtlDEST c.val = 1 ∨ s.getF Fld.tmrCtlDEST c.val = 3) →
      (s.tmrSt c.val).next < s.now + s.incNow)) ∧
    (∃ (s : State) (c : Timer), s.isSet Fld.tmrCtlARMED c.val = true ∧ s.getF Fld.tmrCtlDEST c.val = 1 ∧ s.tmrUnsent c.val = true ∧ (s.tmrSt
      c.val).next ≤ s.now + 5 * usUnits) ∧
    (∃ (s : State) (c : Timer), (s.tmrSt c.val).next > s.now + 5 * usUnits) ∧
    (∃ (s : State) (k : Fin 16) (l : _), SMap.get (fun _ => none) s.trigLeft k.val = some l ∧ l < s.incNow) ∧
    (∃ (s : State) (k : Fin 16), ∀ (l : ℕ), SMap.get (fun _ => none) s.trigLeft k.val = some l → s.incNow ≤ l) :=
  ⟨⟨up, 4, 1, (Instr.timerArm 4 0x00000001#32), by decide⟩,
    ⟨(regsOf [(.tmrCtlARMED, 0, 0, 1)] (up)), 0, 0, (Instr.timerArm 0 0x00000000#32), by decide⟩,
    ⟨up, 7, fun h => absurd h.1 (by decide)⟩,
    ⟨(regsOf [(.tmrCtlARMED, 7, 0, 1)] (up)), 7, ⟨by decide, fun h => absurd h (by decide), fun _ => by decide⟩⟩,
    ⟨(regsOf [(.tmrCtlDEST, 6, 0, 1), (.tmrCtlARMED, 6, 0, 1)] (up)), 6, by decide⟩,
    ⟨{ up with tmr := [(2, { next := 29630599282425856, sent := [] })] }, 2, by decide⟩,
    ⟨{ up with trigLeft := [(2, some (0))] }, 2, 0, by decide⟩,
    ⟨up, 2, by decide⟩⟩

theorem hyps_TimersFireAndPulsesEnd_2 :
    (∃ (s : State) (a : _), s.ppsDue = some a) ∧
    (∃ (s : State), s.ppsDue = none) ∧
    (∃ (s : State) (l : _), s.ppsLeft = some l ∧ l < s.incNow) ∧
    (∃ (s : State), ∀ (l : ℕ), s.ppsLeft = some l → s.incNow ≤ l) :=
  ⟨⟨{ up with ppsDue := some (0) }, 0, by decide⟩,
    ⟨up, by decide⟩,
    ⟨{ up with ppsLeft := some (0) }, 0, by decide⟩,
    ⟨up, by decide⟩⟩

theorem hyps_LanesFollowTheirStates_1 :
    (∃ (s : State) (l : Lane), laneExists l.val = true ∧ s.getF Fld.xcvrLstatRXST l.val = 0 ∧ s.getF Fld.xcvrLstatPSTATE l.val ≤ 1) ∧
    (∃ (s : State) (l : Lane), 2 ≤ s.getF Fld.xcvrLstatPSTATE l.val) ∧
    (∃ (s : State) (l : Lane), s.getF Fld.xcvrLstatRXST l.val = 1) ∧
    (∃ (s : State) (l : Lane), s.getF Fld.xcvrLstatRXST l.val ≠ 1) ∧
    (∃ (s : State) (l : Lane), s.getF Fld.xcvrLstatRXST l.val = 2) ∧
    (∃ (s : State) (l : Lane), s.getF Fld.xcvrLstatRXST l.val ≠ 2) ∧
    (∃ (s : State) (l : Lane), 2 ≤ s.getF Fld.xcvrLstatRXST l.val ∧ s.isSet Fld.xcvrLcfgRAW l.val = false) ∧
    (∃ (s : State) (l : Lane), s.getF Fld.xcvrLstatRXST l.val < 2) :=
  ⟨⟨(regsOf [(.xcvrLstatPSTATE, 0, 0, 1)] (up)), 0, by decide⟩,
    ⟨up, 0, by decide⟩,
    ⟨(regsOf [(.xcvrLstatRXST, 0, 0, 1)] (up)), 0, by decide⟩,
    ⟨up, 0, by decide⟩,
    ⟨(regsOf [(.xcvrLstatRXST, 0, 0, 2)] (up)), 0, by decide⟩,
    ⟨up, 0, by decide⟩,
    ⟨(regsOf [(.xcvrLstatRXST, 0, 0, 2)] (up)), 0, by decide⟩,
    ⟨up, 0, by decide⟩⟩

theorem hyps_LanesFollowTheirStates_2 :
    (∃ (s : State) (l : Lane), s.getF Fld.xcvrLstatRXST l.val ≠ 3) ∧
    (∃ (s : State) (l : Lane), laneLive s l ∧ l.val % 4 = 0) ∧
    (∃ (s : State) (l : Lane), laneExists l.val = true ∧ s.isSet Fld.xcvrQpllEN (l.val / 4 * 4) = true ∧ s.getF Fld.pwrDstatSTATE (quadDom
      l.val) = 0 ∧ s.crossingRuns = true) ∧
    (∃ (s : State) (l : Lane), s.isSet Fld.xcvrQpllEN (l.val / 4 * 4) = false) ∧
    (∃ (s : State) (l : Lane), s.isSet Fld.xcvrQpllLOCK (l.val / 4 * 4) = true) ∧
    (∃ (s : State) (l : Lane), s.isSet Fld.xcvrQpllLOCK (l.val / 4 * 4) = false) ∧
    (∃ (s : State) (l : Lane), laneLive s l ∧ (s.getF Fld.xcvrLstatPSTATE l.val = 3 ∨ s.laneMode l.val = 3)) ∧
    (∃ (s : State) (l : Lane) (w : W32), laneLive s l ∧ s.getF Fld.xcvrLstatPSTATE l.val ≠ 3 ∧ s.laneMode l.val ≠ 3 ∧ 1 ≤ BitVec.toNat w % 4) :=
  ⟨⟨up, 0, by decide⟩,
    ⟨up, 0, by unfold laneLive; decide⟩,
    ⟨(regsOf [(.xcvrQpllEN, 4, 0, 1)] ({ up with root := .locked })), 4, by decide⟩,
    ⟨up, 0, by decide⟩,
    ⟨(regsOf [(.xcvrQpllLOCK, 0, 0, 1)] (up)), 3, by decide⟩,
    ⟨up, 3, by decide⟩,
    ⟨up, 1, by unfold laneLive; decide⟩,
    ⟨(regsOf [(.xcvrLstatPSTATE, 4, 0, 0)] (up)), 4, 2, by unfold laneLive; decide⟩⟩

theorem hyps_LanesFollowTheirStates_3 :
    (∃ (s : State) (l : Lane) (w : W32), laneLive s l ∧ s.getF Fld.xcvrLstatPSTATE l.val ≠ 3 ∧ s.laneMode l.val ≠ 3 ∧ BitVec.toNat w % 4 = 0) ∧
    (∃ (s : State) (l : Lane), SMap.get (fun x => false) s.laneExit l.val = true ∧ s.getF Fld.pwrDstatSTATE (quadDom l.val) = 0) ∧
    (∃ (s : State) (l : Lane), s.isSet Fld.xcvrLpmAUTO l.val = true ∧ s.laneMode l.val = 1 ∧ s.getF Fld.xcvrLpmSBYUS l.val ≠ 0 ∧ s.getF
      Fld.xcvrLstatPSTATE l.val = 0) ∧
    (∃ (s : State) (l : Lane), s.isSet Fld.xcvrLpmAUTO l.val = true ∧ s.laneMode l.val = 1 ∧ s.getF Fld.xcvrLpmSLPMS l.val ≠ 0 ∧ s.getF
      Fld.xcvrLstatPSTATE l.val = 1 ∧ SMap.get (fun x => false) s.laneExit l.val = false) ∧
    (∃ (s : State) (l : Lane), s.isSet Fld.xcvrLpmAUTO l.val = false) ∧
    (∃ (s : State) (l : Lane), s.portOpen l.val = true ∧ s.getF Fld.xcvrLstatPSTATE l.val = 0) ∧
    (∃ (s : State) (l : Lane), s.portOpen l.val = true ∧ (s.getF Fld.xcvrLstatPSTATE l.val = 1 ∨ s.getF Fld.xcvrLstatPSTATE l.val = 2)) ∧
    (∃ (s : State) (l : Lane), s.portOpen l.val = false) :=
  ⟨⟨(regsOf [(.xcvrLstatPSTATE, 1, 0, 2)] (up)), 1, 8, by unfold laneLive; decide⟩,
    ⟨{ up with laneExit := [(1, true)] }, 1, by decide⟩,
    ⟨(regsOf [(.xcvrLcfgMODE, 1, 0, 1), (.xcvrLstatPSTATE, 1, 0, 0), (.xcvrLpmAUTO, 1, 0, 1), (.xcvrLpmSBYUS, 1, 0, 1)] (up)), 1, by decide⟩,
    ⟨(regsOf [(.xcvrLcfgMODE, 1, 0, 1), (.xcvrLstatPSTATE, 1, 0, 1), (.xcvrLpmAUTO, 1, 0, 1), (.xcvrLpmSLPMS, 1, 0, 1)] (up)), 1, by decide⟩,
    ⟨up, 1, by decide⟩,
    ⟨(regsOf [(.kilnStatSTATE, 0, 0, 7), (.xcvrLcfgMODE, 1, 0, 1), (.xcvrLstatPSTATE, 1, 0, 0)]
      ({ up with pos := [(0, { inReset := false, restore := false })] })), 1, by decide⟩,
    ⟨(regsOf [(.kilnStatSTATE, 0, 0, 7), (.xcvrLcfgMODE, 1, 0, 1), (.xcvrLstatPSTATE, 1, 0, 1)]
      ({ up with pos := [(0, { inReset := false, restore := false })] })), 1, by decide⟩,
    ⟨up, 0, by decide⟩⟩

theorem hyps_LanesFollowTheirStates_4 :
    (∃ (s : State) (l : Lane), s.laneMode l.val = 1 ∧ s.getF Fld.xcvrLstatRXST l.val = 3 ∧ (s.isSet Fld.xcvrLcfgBOND l.val = false ∨ SMap.get
      (fun _ => 0) s.bond (l.val / 4) ≠ 1)) ∧
    (∃ (s : State) (l : Lane), SMap.get (fun _ => 0) s.bond (l.val / 4) = 1) ∧
    (∃ (s : State) (l : Lane), SMap.get (fun _ => 0) s.bond (l.val / 4) ≠ 1) ∧
    (∃ (s : State) (l : Lane), laneExists l.val = true ∧ s.laneMode l.val = 2 ∧ 1 ≤ s.getF Fld.xcvrPchkPAT l.val ∧ s.getF Fld.xcvrPchkPAT
      l.val ≤ 5) ∧
    (∃ (s : State) (l : Lane), s.isSet Fld.xcvrPchkLOCK l.val = true) ∧
    (∃ (s : State) (l : Lane), s.isSet Fld.xcvrPchkLOCK l.val = false) ∧
    (∃ (s : State) (l : Lane) (w : W32), laneLive s l ∧ (BitVec.toNat w).testBit 12 = true ∧ (BitVec.toNat w % 4 = 1 ∨ BitVec.toNat w % 4 =
      2)) :=
  ⟨⟨(regsOf [(.xcvrLcfgMODE, 4, 0, 1), (.xcvrLstatRXST, 4, 0, 3)] (up)), 4, by decide⟩,
    ⟨{ up with bond := [(0, 1)] }, 3, by decide⟩,
    ⟨up, 0, by decide⟩,
    ⟨(regsOf [(.xcvrLcfgMODE, 0, 0, 2), (.xcvrPchkPAT, 0, 0, 1)] (up)), 0, by decide⟩,
    ⟨(regsOf [(.xcvrPchkLOCK, 9, 0, 1)] (up)), 9, by decide⟩,
    ⟨up, 9, by decide⟩,
    ⟨up, 9, 3351123021, by unfold laneLive; decide⟩⟩

theorem hyps_WortLinksJoinDevices_1 :
    (∃ (s : State) (k : Fin 120), s.perst = false ∧ s.unitOn Unit0.xcvr = true ∧ s.isSet Fld.wortLinkEN k.val = false ∧ (Machine.interior
      (k.val / 2) = true ∨ ∃ j : Fin 4, s.laneD (4 * k.val + j.val) ≠ s.laneD (4 * k.val))) ∧
    (∃ (s : State) (k : Fin 120), s.perst = false ∧ s.unitOn Unit0.xcvr = true ∧ s.isSet Fld.wortLinkEN k.val = false ∧ ¬(Machine.interior
      (k.val / 2) = true ∨ ∃ j : Fin 4, s.laneD (4 * k.val + j.val) ≠ s.laneD (4 * k.val))) ∧
    (∃ (s : State) (k : Fin 120), s.perst = false ∧ s.unitOn Unit0.xcvr = true ∧ s.isSet Fld.wortLinkEN k.val = true ∧ Machine.interior
      (k.val / 2) = false) ∧
    (∃ (s : State) (k : Fin 120), s.isSet Fld.wortLinkEN k.val = true ∧ s.getF Fld.wortLinkSTATE k.val < 2 ∧ s.wortIso.testBit k.val = false) ∧
    (∃ (s : State) (k : Fin 120), ¬(s.isSet Fld.wortLinkEN k.val = true ∧ s.getF Fld.wortLinkSTATE k.val < 2 ∧ s.wortIso.testBit k.val =
      false)) ∧
    (∃ (s : State) (k : Fin 120) (lane : Fin 4), s.isSet Fld.wortLinkEN k.val = true ∧ s.getF Fld.xcvrLstatRXST (4 * k.val + lane.val) = 3) ∧
    (∃ (s : State) (k : Fin 120), s.isSet Fld.wortLinkEN k.val = false) ∧
    (∃ (s : State) (k : Fin 120) (c : WCell), 2 ≤ s.getF Fld.wortLinkSTATE k.val ∧ c.crcOk = false) :=
  ⟨⟨up, 33, by decide⟩,
    ⟨up, 5, by decide⟩,
    ⟨(regsOf [(.wortLinkEN, 5, 0, 1)] (up)), 5, by decide⟩,
    ⟨(regsOf [(.wortLinkEN, 1, 0, 1)] (up)), 1, by decide⟩,
    ⟨up, 5, by decide⟩,
    ⟨(regsOf [(.xcvrLstatRXST, 1, 0, 3), (.wortLinkEN, 0, 0, 1)] (up)), 0, 1, by decide⟩,
    ⟨up, 5, by decide⟩,
    ⟨(regsOf [(.wortLinkSTATE, 9, 0, 2)] (up)), 9,
      { type := 0, vn := 1, seq := 3, ackseq := 2, nak := true, crv := true, crvn := 2, crcnt := 6, crcOk := false, flit := 0 }, by decide⟩⟩

theorem hyps_WortLinksJoinDevices_2 :
    (∃ (s : State) (k : Fin 120) (c : WCell), 2 ≤ s.getF Fld.wortLinkSTATE k.val ∧ c.crcOk = true) ∧
    (∃ (s : State) (ds : List WDevice) (self : Nat) (n : _), s.perst = false ∧ self < ds.length ∧ s.isSet Fld.wortStatDONE = false ∧ (∀ d ∈
      ds, d.held = none) ∧ List.find? (fun e => e.1 == self) (numbers ds) = some (self, n)) :=
  ⟨⟨(regsOf [(.wortLinkSTATE, 2, 0, 2)] (up)), 2,
      { type := 6, vn := 1, seq := 1, ackseq := 0, nak := true, crv := true, crvn := 3, crcnt := 2, crcOk := true, flit := 1 }, by decide⟩,
    ⟨up, [{ serial := 0, isRoot := true, hops := 7, held := none }], 0, 0, ⟨by decide, by decide, by decide, by decide, by simp [numbers,
      rootPlace, giveNumbers, numberOrder]⟩⟩⟩

theorem hyps_CasksPassMessages_1 :
    (∃ (s : State) (c : Cask) (e : Bool) (a : Agent), caskLive s ∧ ¬(s.getF Fld.caskCfgMODE c.val = 1 ∧ (s.getF (if e = true then
      Fld.caskEndbACLS else Fld.caskEndaACLS) c.val = 0 ∨ s.getF (if e = true then Fld.caskEndbACLS else Fld.caskEndaACLS) c.val = 1 ∧ a.node
      = 64 ∨ s.getF (if e = true then Fld.caskEndbACLS else Fld.caskEndaACLS) c.val = 2 ∧ a.node.toNat = 72 + s.getF (if e = true then
      Fld.caskEndbAID else Fld.caskEndaAID) c.val ∨ s.getF (if e = true then Fld.caskEndbACLS else Fld.caskEndaACLS) c.val = 3 ∧ a.node.toNat
      = s.getF (if e = true then Fld.caskEndbAID else Fld.caskEndaAID) c.val ∨ s.getF (if e = true then Fld.caskEndbACLS else
      Fld.caskEndaACLS) c.val = 4 ∧ a.dev.toNat = s.getF (if e = true then Fld.caskEndbAID else Fld.caskEndaAID) c.val ∧ a.dev.toNat ≠
      s.devNum))) ∧
    (∃ (s : State) (c : Cask) (e : Bool) (a : Agent), caskLive s ∧ s.getF Fld.caskCfgMODE c.val = 1 ∧ (s.getF (if e = true then
      Fld.caskEndbACLS else Fld.caskEndaACLS) c.val = 0 ∨ s.getF (if e = true then Fld.caskEndbACLS else Fld.caskEndaACLS) c.val = 1 ∧ a.node
      = 64 ∨ s.getF (if e = true then Fld.caskEndbACLS else Fld.caskEndaACLS) c.val = 2 ∧ a.node.toNat = 72 + s.getF (if e = true then
      Fld.caskEndbAID else Fld.caskEndaAID) c.val ∨ s.getF (if e = true then Fld.caskEndbACLS else Fld.caskEndaACLS) c.val = 3 ∧ a.node.toNat
      = s.getF (if e = true then Fld.caskEndbAID else Fld.caskEndaAID) c.val ∨ s.getF (if e = true then Fld.caskEndbACLS else
      Fld.caskEndaACLS) c.val = 4 ∧ a.dev.toNat = s.getF (if e = true then Fld.caskEndbAID else Fld.caskEndaAID) c.val ∧ a.dev.toNat ≠
      s.devNum)) ∧
    (∃ (s : State) (c : Cask) (e : Bool) (a : Agent) (i : Fin 16), caskLive s ∧ s.getF Fld.caskCfgMODE c.val = 1 ∧ (s.getF (if e = true then
      Fld.caskEndbACLS else Fld.caskEndaACLS) c.val = 0 ∨ s.getF (if e = true then Fld.caskEndbACLS else Fld.caskEndaACLS) c.val = 1 ∧ a.node
      = 64 ∨ s.getF (if e = true then Fld.caskEndbACLS else Fld.caskEndaACLS) c.val = 2 ∧ a.node.toNat = 72 + s.getF (if e = true then
      Fld.caskEndbAID else Fld.caskEndaAID) c.val ∨ s.getF (if e = true then Fld.caskEndbACLS else Fld.caskEndaACLS) c.val = 3 ∧ a.node.toNat
      = s.getF (if e = true then Fld.caskEndbAID else Fld.caskEndaAID) c.val ∨ s.getF (if e = true then Fld.caskEndbACLS else
      Fld.caskEndaACLS) c.val = 4 ∧ a.dev.toNat = s.getF (if e = true then Fld.caskEndbAID else Fld.caskEndaAID) c.val ∧ a.dev.toNat ≠
      s.devNum) ∧ i.val < match s.getF Fld.caskCfgNREG c.val with | 0 => 8 | 1 => 12 | x => 16) ∧
    (∃ (s : State) (c : Cask) (i : Fin 16), caskLive s ∧ (¬s.getF Fld.caskCfgMODE c.val = 1 ∨
      (match s.getF Fld.caskCfgNREG c.val with | 0 => 8 | 1 => 12 | x => 16) ≤ i.val)) ∧
    (∃ (s : State) (c : Cask) (e : Bool) (a : Agent), caskLive s ∧ ¬(s.getF Fld.caskCfgMODE c.val = 2 ∧ s.endMatches (c.val) e a = true)) ∧
    (∃ (s : State) (c : Cask) (e : Bool) (a : Agent), caskLive s ∧ s.getF Fld.caskCfgMODE c.val = 2 ∧ s.endMatches (c.val) e a = true) ∧
    (∃ (s : State) (c : Cask) (e : Bool) (a : Agent), caskLive s ∧ (s.getF Fld.caskCfgMODE c.val = 2 ∧ s.endMatches (c.val) e a = true) ∧
      (fun t d toB => SMap.get (fun _ => []) t.caskQ (2 * d.val + if toB = true then 0 else 1)) s c e = []) ∧
    (∃ (s : State) (c : Cask) (e : Bool) (a : Agent) (w : Nat) (q : List Nat), caskLive s ∧ (s.getF Fld.caskCfgMODE c.val = 2 ∧ s.endMatches
      (c.val) e a = true) ∧ (fun t d toB => SMap.get (fun _ => []) t.caskQ (2 * d.val + if toB = true then 0 else 1)) s c e = w :: q) :=
  ⟨⟨up, 1, true, { node := 8, dev := 5 }, by unfold caskLive; decide⟩,
    ⟨(regsOf [(.caskCfgMODE, 1, 0, 1)] (up)), 1, true, { node := 3, dev := 3 }, by unfold caskLive; decide⟩,
    ⟨(regsOf [(.caskCfgMODE, 4, 0, 1)] (up)), (⟨4, by decide⟩), true, { node := 0, dev := 5 }, 1, ⟨⟨by decide, by decide⟩, by decide, by
      decide, by decide⟩⟩,
    ⟨up, 6, 8, by unfold caskLive; decide⟩,
    ⟨up, 2, true, { node := 8, dev := 0 }, by unfold caskLive; decide⟩,
    ⟨(regsOf [(.caskCfgMODE, 8, 0, 2)] (up)), (⟨8, by decide⟩), true, { node := 0, dev := 2 }, ⟨⟨by decide, by decide⟩, by decide, by
      decide⟩⟩,
    ⟨(regsOf [(.caskCfgMODE, 9, 0, 2)] (up)), (⟨9, by decide⟩), true, { node := 4, dev := 0 }, ⟨⟨by decide, by decide⟩, by decide, by
      decide⟩⟩,
    ⟨(regsOf [(.caskCfgMODE, 4, 0, 2)] ({ up with caskQ := [(8, [0])] })), (⟨4, by decide⟩), true, { node := 9, dev := 2 }, 0, [], ⟨⟨by
      decide, by decide⟩, by decide, by decide⟩⟩⟩

theorem hyps_CasksPassMessages_2 :
    (∃ (s : State) (a : Agent), caskLive s ∧ ¬(a.node = 64 ∨ 72 ≤ a.node.toNat ∧ a.node.toNat ≤ 75)) ∧
    (∃ (s : State) (a : Agent), caskLive s ∧ (a.node = 64 ∨ 72 ≤ a.node.toNat ∧ a.node.toNat ≤ 75)) :=
  ⟨⟨up, { node := 4, dev := 1 }, by unfold caskLive; decide⟩,
    ⟨up, { node := 64, dev := 5 }, by unfold caskLive; decide⟩⟩

theorem hyps_EventsReachTheirRoutes_1 :
    (∃ (s : State) (a : Fin 92), (a.val ≤ 19 ∨ 32 ≤ a.val) ∧ s.perst = false ∧ s.unitOn Unit0.evr = true) ∧
    (∃ (s : State) (a : Fin 92), 32 ≤ a.val ∧ s.portStopped (a.val - 32) = false) ∧
    (∃ (s : State) (a : Fin 92), a.val < 32 ∨ s.portStopped (a.val - 32) = true) ∧
    (∃ (s : State) (v : BitVec 11), s.msixReady = true ∧ v.toNat ∈ s.msixHeld) ∧
    (∃ (s : State) (v : BitVec 11), s.msixReady = false ∨ v.toNat ∉ s.msixHeld) ∧
    (∃ (s : State) (e : EvSrc), s.perst = false ∧ evSource e.val = true) ∧
    (∃ (s : State) (e : EvSrc), s.perst = true ∨ evSource e.val = false) ∧
    (∃ (s : State) (e : EvSrc), s.isSet Fld.evrRoutePEND e.val = false ∨ s.unitOn Unit0.evr = false) :=
  ⟨⟨up, 1, by decide⟩,
    ⟨{ up with pos := [(0, { inReset := false, restore := false })] }, 32, by decide⟩,
    ⟨up, 1, by decide⟩,
    ⟨(regsOf [(.cxlLnkstatUP, 0, 0, 1)] ({ up with msixEn := true, msixHeld := [5] })), 5, by decide⟩,
    ⟨up, 2, by decide⟩,
    ⟨up, 1, by decide⟩,
    ⟨up, 960, by decide⟩,
    ⟨up, 2, by decide⟩⟩

theorem hyps_EventsReachTheirRoutes_2 :
    (∃ (s : State) (e : EvSrc), s.isSet Fld.evrRoutePEND e.val = true ∧ s.unitOn Unit0.evr = true ∧ s.isSet Fld.evrRouteMSIEN e.val = true ∧
      s.isSet Fld.evrRouteDESEN e.val = false ∧ s.isSet Fld.evrRouteTAPEN e.val = false ∧ (SMap.get (fun _ => 0) s.evDone e.val).testBit 0 =
      false ∧ s.msixReady = true) ∧
    (∃ (s : State) (e : EvSrc), s.isSet Fld.evrRoutePEND e.val = true ∧ s.unitOn Unit0.evr = true ∧ s.isSet Fld.evrRouteMSIEN e.val = true ∧
      s.isSet Fld.evrRouteDESEN e.val = false ∧ s.isSet Fld.evrRouteTAPEN e.val = false ∧ (SMap.get (fun _ => 0) s.evDone e.val).testBit 0 =
      false ∧ s.msixReady = false) ∧
    (∃ (s : State) (e : EvSrc), s.isSet Fld.evrRoutePEND e.val = true ∧ s.unitOn Unit0.evr = true ∧ s.isSet Fld.evrRouteMSIEN e.val = false ∧
      s.isSet Fld.evrRouteDESEN e.val = false ∧ s.isSet Fld.evrRouteTAPEN e.val = true ∧ (SMap.get (fun _ => 0) s.evDone e.val).testBit 1 =
      false ∧ s.getF Fld.evrRouteTBIT e.val < 32) ∧
    (∃ (s : State) (e : EvSrc) (n : Pos), s.isSet Fld.evrRoutePEND e.val = true ∧ s.unitOn Unit0.evr = true ∧ s.isSet Fld.evrRouteMSIEN e.val
      = false ∧ s.isSet Fld.evrRouteDESEN e.val = true ∧ s.isSet Fld.evrRouteTAPEN e.val = false ∧ s.getF Fld.evrRouteDPOS e.val = n.val ∧
      (SMap.get (fun _ => 0) s.evDone e.val).testBit (2 + n.val) = false ∧ s.portStopped n.val = false ∧ s.coreRuns n.val = true) ∧
    (∃ (s : State) (e : EvSrc) (n : Pos), s.isSet Fld.evrRoutePEND e.val = true ∧ s.unitOn Unit0.evr = true ∧ s.isSet Fld.evrRouteMSIEN e.val
      = false ∧ s.isSet Fld.evrRouteDESEN e.val = true ∧ s.isSet Fld.evrRouteTAPEN e.val = false ∧ s.getF Fld.evrRouteDPOS e.val = n.val ∧
      (SMap.get (fun _ => 0) s.evDone e.val).testBit (2 + n.val) = false ∧ s.portStopped n.val = false ∧ s.coreRuns n.val = false) ∧
    (∃ (s : State) (n : Pos), s.portStopped n.val = true) :=
  ⟨⟨(regsOf [(.evrRouteMSIEN, 5, 0, 1), (.evrRoutePEND, 5, 0, 1), (.cxlLnkstatUP, 0, 0, 1)] ({ up with msixEn := true })), 5, by decide⟩,
    ⟨(regsOf [(.evrRouteMSIEN, 0, 0, 1), (.evrRoutePEND, 0, 0, 1)] (up)), 0, by decide⟩,
    ⟨(regsOf [(.evrRouteTAPEN, 1, 0, 1), (.evrRoutePEND, 1, 0, 1)] (up)), 1, by decide⟩,
    ⟨(regsOf [(.evrRouteDESEN, 17, 0, 1), (.evrRoutePEND, 17, 0, 1)] ({ up with pos := [(0, { inReset := false, restore := false })] })),
      17, 0, by decide⟩,
    ⟨(regsOf [(.pwrDstatSTATE, 0, 0, 3), (.evrRouteDESEN, 5, 0, 1), (.evrRoutePEND, 5, 0, 1)]
      ({ up with pos := [(0, { inReset := false, restore := false })] })), 5, 0, by decide⟩,
    ⟨up, 6, by decide⟩⟩

theorem hyps_DomainsChangeState_1 :
    (∃ (s : State) (d : Domain) (w : W32), domainAllows (d.val) (BitVec.toNat w % 4) = true ∧ d.val < 60 ∧ 2 ≤ BitVec.toNat w % 4 ∧
      s.remap.phase ≠ RemapPhase.idle ∧ s.remap.pos = d.val) ∧
    (∃ (s : State) (d : Domain) (w : W32), domainAllows (d.val) (BitVec.toNat w % 4) = true ∧ 128 ≤ d.val ∧ d.val < 248 ∧ BitVec.toNat w % 4
      = 3 ∧ s.isSet Fld.wortLinkEN (d.val - 128) = true) ∧
    (∃ (s : State) (d : Domain) (a : Agent), s.perst = false ∧ s.domainExists d.val = true ∧ ¬(a.dev.toNat = s.devNum ∧ (a.node.toNat = 64 ∨
      72 ≤ a.node.toNat ∧ a.node.toNat ≤ 75))) ∧
    (∃ (s : State) (d : Domain) (w : W32) (a : Agent), (s.perst = false ∧ s.domainExists d.val = true ∧ a.dev.toNat = s.devNum ∧
      (a.node.toNat = 64 ∨ 72 ≤ a.node.toNat ∧ a.node.toNat ≤ 75)) ∧ s.pwrCode (d.val) (BitVec.toNat w % 4) ≠ 0) ∧
    (∃ (s : State) (d : Domain) (w : W32) (a : Agent), (s.perst = false ∧ s.domainExists d.val = true ∧ a.dev.toNat = s.devNum ∧
      (a.node.toNat = 64 ∨ 72 ≤ a.node.toNat ∧ a.node.toNat ≤ 75)) ∧ s.pwrCode (d.val) (BitVec.toNat w % 4) = 0 ∧ s.pwrDefers (d.val)
      (BitVec.toNat w % 4) = true ∧ s.getF Fld.pwrDstatSTATE d.val ≠ BitVec.toNat w % 4) ∧
    (∃ (s : State) (d : Domain) (w : W32) (a : Agent), (s.perst = false ∧ s.domainExists d.val = true ∧ a.dev.toNat = s.devNum ∧
      (a.node.toNat = 64 ∨ 72 ≤ a.node.toNat ∧ a.node.toNat ≤ 75)) ∧ s.pwrCode (d.val) (BitVec.toNat w % 4) = 0 ∧ (s.pwrDefers (d.val)
      (BitVec.toNat w % 4) = false ∨ s.getF Fld.pwrDstatSTATE d.val = BitVec.toNat w % 4) ∧ s.going d.val = none ∧ s.getF Fld.pwrDstatSTATE
      d.val = BitVec.toNat w % 4) ∧
    (∃ (s : State) (d : Domain) (w : W32) (a : Agent), (s.perst = false ∧ s.domainExists d.val = true ∧ a.dev.toNat = s.devNum ∧
      (a.node.toNat = 64 ∨ 72 ≤ a.node.toNat ∧ a.node.toNat ≤ 75)) ∧ s.pwrCode (d.val) (BitVec.toNat w % 4) = 0 ∧ (s.pwrDefers (d.val)
      (BitVec.toNat w % 4) = false ∨ s.getF Fld.pwrDstatSTATE d.val = BitVec.toNat w % 4) ∧ s.going d.val = none ∧ s.getF Fld.pwrDstatSTATE
      d.val ≠ BitVec.toNat w % 4) ∧
    (∃ (s : State) (d : Domain) (w : W32) (a : Agent) (g : Nat), (s.perst = false ∧ s.domainExists d.val = true ∧ a.dev.toNat = s.devNum ∧
      (a.node.toNat = 64 ∨ 72 ≤ a.node.toNat ∧ a.node.toNat ≤ 75)) ∧ s.pwrCode (d.val) (BitVec.toNat w % 4) = 0 ∧ (s.pwrDefers (d.val)
      (BitVec.toNat w % 4) = false ∨ s.getF Fld.pwrDstatSTATE d.val = BitVec.toNat w % 4) ∧ s.going d.val = some g) :=
  ⟨⟨{ up with remap := { phase := .switching, pos := 1, spare := 61, tried := [], nostate := false, old := 29, queued := [] } }, 1, 3, by
      decide⟩,
    ⟨(regsOf [(.wortLinkEN, 14, 0, 1)] (up)), 142, 3, by decide⟩,
    ⟨up, 9, { node := 1, dev := 2 }, by decide⟩,
    ⟨up, 2, 3, { node := 64, dev := 0 }, by decide⟩,
    ⟨(regsOf [(.kilnStatSTATE, 0, 0, 7), (.capAccstatBUSY, 0, 0, 1), (.wortStatDEVNUM, 0, 0, 8)] (up)), 0, 2, { node := 64, dev := 8 }, by
      decide⟩,
    ⟨up, 16, 8, { node := 64, dev := 0 }, by decide⟩,
    ⟨up, 0, 41, { node := 64, dev := 0 }, by decide⟩,
    ⟨{ up with pwrGo := [(8, some (0))] }, 8, 0, { node := 64, dev := 0 }, 0, by decide⟩⟩

theorem hyps_DomainsChangeState_2 :
    (∃ (s : State) (d : Domain), (s.isSet Fld.pwrDstatBUSY d.val = true ∧ s.going d.val = none ∧ s.getF Fld.pwrDstatSTATE d.val ≠ s.getF
      Fld.pwrDctlREQ d.val) ∧ s.pwrDefers (d.val) (s.getF Fld.pwrDctlREQ d.val) = false ∧ s.pwrCode (d.val) (s.getF Fld.pwrDctlREQ d.val) = 0) ∧
    (∃ (s : State) (d : Domain), (s.isSet Fld.pwrDstatBUSY d.val = true ∧ s.going d.val = none ∧ s.getF Fld.pwrDstatSTATE d.val ≠ s.getF
      Fld.pwrDctlREQ d.val) ∧ s.pwrDefers (d.val) (s.getF Fld.pwrDctlREQ d.val) = false ∧ s.pwrCode (d.val) (s.getF Fld.pwrDctlREQ d.val) ≠ 0) ∧
    (∃ (s : State) (d : Domain), ¬(s.isSet Fld.pwrDstatBUSY d.val = true ∧ s.going d.val = none ∧ s.getF Fld.pwrDstatSTATE d.val ≠ s.getF
      Fld.pwrDctlREQ d.val) ∨ s.pwrDefers (d.val) (s.getF Fld.pwrDctlREQ d.val) = true) ∧
    (∃ (s : State) (d : Domain), s.domainExists d.val = true ∧ s.isSet Fld.pwrDctlAUTO d.val = true ∧ s.getF Fld.pwrDctlREQ d.val = 0 ∧
      s.getF Fld.pwrDstatSTATE d.val = 0 ∧ s.going d.val = none ∧ s.getF Fld.kilnStatSTATE = 7 ∧ s.pwrIdle d.val = true) ∧
    (∃ (s : State) (d : Domain), s.isSet Fld.pwrDctlAUTO d.val = false) ∧
    (∃ (s : State) (d : Domain), d.val < 60 ∧ s.isSet Fld.pwrDctlAUTO d.val = true ∧ s.isSet Fld.pwrDctlAUTORET d.val = true ∧ s.getF
      Fld.pwrDctlREQ d.val = 0 ∧ s.getF Fld.pwrDstatSTATE d.val = 1 ∧ s.going d.val = none ∧ s.pwrCode (d.val) 2 = 0 ∧ s.pwrDefers (d.val) 2 =
      false) ∧
    (∃ (s : State) (d : Domain) (c : WakeCause), s.domainExists d.val = true ∧ domainAllows (d.val) 0 = true ∧ s.going d.val = none ∧ (c =
      WakeCause.delivery → d.val < 60) ∧ s.getF Fld.pwrDstatSTATE d.val = 0) ∧
    (∃ (s : State) (d : Domain) (c : WakeCause), s.domainExists d.val = true ∧ domainAllows (d.val) 0 = true ∧ s.going d.val = none ∧ (c =
      WakeCause.delivery → d.val < 60) ∧ s.getF Fld.pwrDstatSTATE d.val ≠ 0 ∧ (s.getF Fld.pwrDstatSTATE d.val = 3 → (c = WakeCause.request ∨
      s.isSet Fld.pwrDctlWAKE_ON_OFF d.val = true) ∧ (d.val < 128 ∨ 272 ≤ d.val))) :=
  ⟨⟨(regsOf [(.pwrDctlREQ, 7, 0, 1), (.pwrDstatBUSY, 7, 0, 1)] (up)), 7, by decide⟩,
    ⟨(regsOf [(.pwrDctlREQ, 4, 0, 2), (.pwrDstatBUSY, 4, 0, 1)] (up)), 4, by decide⟩,
    ⟨up, 2, by decide⟩,
    ⟨(regsOf [(.pwrDctlAUTO, 1, 0, 1), (.kilnStatSTATE, 0, 0, 7)] (up)), 1, by decide⟩,
    ⟨up, 2, by decide⟩,
    ⟨(regsOf [(.pwrDctlAUTO, 2, 0, 1), (.pwrDctlAUTORET, 2, 0, 1), (.pwrDstatSTATE, 2, 0, 1), (.kilnStatSTATE, 0, 0, 7)] (up)), 2, by
      decide⟩,
    ⟨up, 4, .packet, by decide⟩,
    ⟨(regsOf [(.pwrDstatSTATE, 3, 0, 1)] (up)), 3, .packet, by decide⟩⟩

theorem hyps_DomainsChangeState_3 :
    (∃ (s : State) (d : Domain) (c : WakeCause), s.domainExists d.val = true ∧ domainAllows (d.val) 0 = true ∧ s.going d.val = none ∧ (c =
      WakeCause.delivery → d.val < 60) ∧ s.getF Fld.pwrDstatSTATE d.val = 3 ∧ c ≠ WakeCause.request ∧ s.isSet Fld.pwrDctlWAKE_ON_OFF d.val =
      false) ∧
    (∃ (s : State) (d : Domain) (n : Pos), d.val = n.val ∧ s.getF Fld.pwrDstatSTATE d.val = 3 ∧ s.going d.val ≠ none ∧ s.getF
      Fld.kilnStatSTATE = 7) ∧
    (∃ (s : State) (d : Domain) (n : Pos), d.val = n.val ∧ (s.getF Fld.pwrDstatSTATE d.val ≠ 3 ∨ s.going d.val = none)) ∧
    (∃ (s : State) (d : Domain) (n : Pos) (g : Nat), d.val = n.val ∧ s.isSet Fld.pwrDstatISO n.val = true ∧ s.xidx % 4096 = 0 ∧ s.coreReady
      n.val = true ∧ s.going n.val = some g ∧ (g < 2 ∨ s.getF Fld.pwrDstatSTATE d.val = 3)) ∧
    (∃ (s : State) (d : Domain) (n : Pos), d.val = n.val ∧ (s.isSet Fld.pwrDstatISO n.val = false ∨ s.xidx % 4096 ≠ 0)) ∧
    (∃ (s : State) (d : Domain), ∃ g < 4, s.going d.val = some g ∧ s.mayEnter (d.val) (s.getF Fld.pwrDstatSTATE d.val) g = true ∧ ¬(256 ≤
      d.val ∧ d.val < 272 ∧ s.getF Fld.pwrDstatSTATE d.val = 3 ∧ g = 1 ∧ s.getF Fld.ddrStatSTATE (d.val - 256) = 2 ∧ s.isSet Fld.ddrCfgINMAP
      (d.val - 256) = true)) ∧
    (∃ (s : State), s.perst = false ∧ s.unitOn Unit0.pwr = true) :=
  ⟨⟨(regsOf [(.pwrDstatSTATE, 0, 0, 3)] (up)), 0, .packet, by decide⟩,
    ⟨(regsOf [(.pwrDstatSTATE, 0, 0, 3), (.kilnStatSTATE, 0, 0, 7)] ({ up with pwrGo := [(0, some (31))] })), 0, 0, by decide⟩,
    ⟨up, 0, 0, by decide⟩,
    ⟨(regsOf [(.pwrDstatISO, 0, 0, 1)] ({ up with pwrGo := [(0, some (0))] })), 0, 0, 0, by decide⟩,
    ⟨up, 6, 6, by decide⟩,
    ⟨{ up with pwrGo := [(0, some (0))] }, 0, ⟨0, by decide⟩⟩,
    ⟨up, by decide⟩⟩

theorem hyps_TestPortAndPins_1 :
    (∃ (s : State) (row : Byte), (s.perst = true ∧ s.jtag.op = none) ∧ (8 ≤ BitVec.toNat row ∨ s.lockBit 1 = false)) ∧
    (∃ (s : State) (row : Byte), ¬((s.perst = true ∧ s.jtag.op = none) ∧ (8 ≤ BitVec.toNat row ∨ s.lockBit 1 = false))) ∧
    (∃ (s : State), (s.perst = true ∧ s.jtag.op = none) ∧ s.lockBit 1 = false) ∧
    (∃ (s : State), ¬((s.perst = true ∧ s.jtag.op = none) ∧ s.lockBit 1 = false)) ∧
    (∃ (s : State) (len : W64), (s.perst = true ∧ s.jtag.op = none) ∧ s.lockBit 2 = false ∧ BitVec.toNat len ≤ 1287651328) ∧
    (∃ (s : State) (len : W64), ¬((s.perst = true ∧ s.jtag.op = none) ∧ s.lockBit 2 = false ∧ BitVec.toNat len ≤ 1287651328)) ∧
    (∃ (s : State), s.jtag.op = none) ∧
    (∃ (s : State) (row : Nat) (data : Nat), s.jtag.op = some (JtagOp.fuseprog row data)) :=
  ⟨⟨{ up with perst := true }, 2, by decide⟩,
    ⟨up, 0, by decide⟩,
    ⟨{ up with perst := true }, by decide⟩,
    ⟨up, by decide⟩,
    ⟨{ up with perst := true }, 7, by decide⟩,
    ⟨up, 2, by decide⟩,
    ⟨up, by decide⟩,
    ⟨{ up with jtag := { ir := .bypass, cells := [], op := some (.fuseprog (2) (5)), done := true, err := true, tdo := 32 } }, 2, 5, by
      decide⟩⟩

theorem hyps_TestPortAndPins_2 :
    (∃ (s : State) (key : Nat), s.jtag.op = some (JtagOp.keyram key)) ∧
    (∃ (s : State) (bytes : List Byte), s.jtag.op = some (JtagOp.slotprog bytes)) ∧
    (∃ (s : State), s.railsBad.Nodup) ∧
    (∃ (s : State), s.railsBad = [] ∧ s.scanDrives = false ∧ (s.perst = true ∨ s.getF Fld.kilnStatSTATE ≠ 7) ∧ s.perst = true) :=
  ⟨⟨{ up with jtag := { ir := .clamp, cells := [], op := some (.keyram (0)), done := true, err := true, tdo := 4 } }, 0, by decide⟩,
    ⟨{ up with jtag := { ir := .idcode, cells := [], op := some (.slotprog ([])), done := false, err := true, tdo := 1 } }, [], by decide⟩,
    ⟨up, by decide⟩,
    ⟨{ up with perst := true }, by decide⟩⟩

end Sys2Proof.Tests
end

section
/-! SUPPORT. The register tables as a whole: what holds of every register and of every field is checked on the numbered lists. -/

namespace Sys2Proof.Machine

theorem Fld.ctorIdx_lt (f : Fld) : f.ctorIdx < 655 := by cases f <;> decide

theorem RegName.ctorIdx_lt (r : RegName) : r.ctorIdx < 206 := by cases r <;> decide

/-- What holds of the numbered fields holds of every field. -/
theorem Fld.forall_of_ofNat {p : Fld → Prop} (h : ∀ n < 655, p (.ofNat n)) : ∀ f, p f :=
  fun f => Fld.ofNat_ctorIdx f ▸ h _ f.ctorIdx_lt

/-- What holds of the numbered registers holds of every register. -/
theorem RegName.forall_of_ofNat {p : RegName → Prop} (h : ∀ n < 206, p (.ofNat n)) : ∀ r, p r :=
  fun r => RegName.ofNat_ctorIdx r ▸ h _ r.ctorIdx_lt

/-- No write of 1 to a field clears TUN_FEATLOCK. -/
theorem featlock_notMem_clears : ∀ f : Fld, .tunFeatlockLOCK ∉ f.info.clears := by
  apply Fld.forall_of_ofNat
  decide +kernel

/-- TUN_FEATLOCK is a field of its own register alone. -/
theorem featlock_notMem_fields : ∀ r : RegName, r ≠ .tunFeatlock → .tunFeatlockLOCK ∉ r.fields := by
  apply RegName.forall_of_ofNat
  decide +kernel

/-- A register of another unit than TUN is not TUN_FEATLOCK. -/
theorem RegName.ne_featlock {r : RegName} {u : Unit0} (h : r.info.unit = u) (hu : u ≠ .tun := by simp) : r ≠ .tunFeatlock :=
  fun e => hu (by rw [← h, e]; rfl)

@[simp] theorem refOkFld_ne_featlock (r : RefIn) : refOkFld r ≠ .tunFeatlockLOCK := by cases r <;> simp [refOkFld]

@[simp] theorem replayFld_ne_featlock (d : Nat) : replayFld d ≠ .tunFeatlockLOCK := by
  unfold replayFld
  split <;> [skip; split <;> [skip; split]] <;> simp

end Sys2Proof.Machine
end

section
/-! SUPPORT. The one thing that every command but device reset does to the register store: it writes fields, cut to their widths, and
never clears TUN_FEATLOCK. What such writes keep is proved here once; the files after this one show that every operation is such a
sequence of writes. -/

namespace Sys2Proof.Machine

/-- The part, the queue and the register store. -/
def State.core : State → Part × List Instr × SMap Nat
  | { part, pending, regs, .. } => (part, pending, regs)

/-- What the commands do to a state, but for device reset: fields of registers are written, TUN_FEATLOCK only to 1; fields other than
TUN_FEATLOCK go back to their reset values; and what is neither a register nor the part nor the queue changes freely. -/
inductive Evolves (s : State) : State → Prop where
  | refl : Evolves s s
  | write {t : State} {f : Fld} {v i j : Nat} : Evolves s t → (f ≠ .tunFeatlockLOCK ∨ v = 1) → Evolves s (t.setF f v i j)
  | resetFields {t : State} {p : Fld → Nat → Nat → Bool} :
    Evolves s t → (∀ i j, p .tunFeatlockLOCK i j = false) → Evolves s (t.resetFields p)
  | other {t u : State} : Evolves s t → u.core = (t.part, t.pending, t.regs) → Evolves s u

/-- The outcome is a state that has evolved from s. -/
def EvolvesTo (s : State) (o : Res) : Prop := ∃ t, o = .next t ∧ Evolves s t

/-- The states that an optional result holds have evolved from s. -/
def MayEvolve {α : Type} (s : State) (get : α → State) (o : Option α) : Prop := ∀ x, o = some x → Evolves s (get x)

variable {s t u : State}

theorem MayEvolve.none {α : Type} {get : α → State} : MayEvolve s get Option.none := fun _ h => nomatch h

theorem MayEvolve.some {α : Type} {get : α → State} {x : α} (h : Evolves s (get x)) : MayEvolve s get (Option.some x) :=
  fun _ e => Option.some.inj e ▸ h

theorem MayEvolve.ite {α : Type} {get : α → State} {c : Prop} [Decidable c] {x y : Option α} (h : MayEvolve s get x)
    (h' : MayEvolve s get y) : MayEvolve s get (if c then x else y) := by
  split
  · exact h
  · exact h'

namespace Evolves

theorem next (h : Evolves s t) : EvolvesTo s (.next t) := ⟨t, rfl, h⟩
theorem setF {f v i j} (h : Evolves s t) (hf : f ≠ .tunFeatlockLOCK := by simp) : Evolves s (t.setF f v i j) := h.write (.inl hf)
theorem setOn {f i j} (h : Evolves s t) (hf : f ≠ .tunFeatlockLOCK := by simp) : Evolves s (t.setOn f i j) := h.setF hf
theorem setOff {f i j} (h : Evolves s t) (hf : f ≠ .tunFeatlockLOCK := by simp) : Evolves s (t.setOff f i j) := h.setF hf
theorem count {f n i j} (h : Evolves s t) (hf : f ≠ .tunFeatlockLOCK := by simp) : Evolves s (t.count f n i j) := h.setF hf
theorem countWrap {f i j} (h : Evolves s t) (hf : f ≠ .tunFeatlockLOCK := by simp) : Evolves s (t.countWrap f i j) := h.setF hf
theorem setBitF {f b v i j} (h : Evolves s t) (hf : f ≠ .tunFeatlockLOCK := by simp) : Evolves s (t.setBitF f b v i j) := h.setF hf
theorem emit {m} (h : Evolves s t) : Evolves s (t.emit m) := other h rfl
theorem free (h : Evolves s t) : Evolves s t.free.2 := other h rfl

theorem ite {c : Prop} [Decidable c] (h : Evolves s t) (h' : Evolves s u) : Evolves s (if c then t else u) := by
  split
  · exact h
  · exact h'

theorem ite1 {α : Type} {c : Prop} [Decidable c] {x y : State × α} (h : Evolves s x.1) (h' : Evolves s y.1) :
    Evolves s (if c then x else y).1 := by
  split
  · exact h
  · exact h'

theorem ite2 {α : Type} {c : Prop} [Decidable c] {x y : α × State} (h : Evolves s x.2) (h' : Evolves s y.2) :
    Evolves s (if c then x else y).2 := by
  split
  · exact h
  · exact h'

theorem fst {α : Type} {a : α} (h : Evolves s t) : Evolves s (t, a).1 := h
theorem snd {α : Type} {a : α} (h : Evolves s t) : Evolves s (a, t).2 := h

theorem optElim {α : Type} {f : α → State} {o : Option α} (h : Evolves s t) (hf : ∀ a, Evolves s (f a)) : Evolves s (o.elim t f) := by
  cases o with
  | none => exact h
  | some a => exact hf a

theorem foldl {α : Type} {f : State → α → State} {l : List α} (h : Evolves s t) (hf : ∀ {t a}, Evolves s t → Evolves s (f t a)) :
    Evolves s (l.foldl f t) := by
  induction l generalizing t with
  | nil => exact h
  | cons a l ih => exact ih (hf h)

theorem foldlMem {α : Type} {f : State → α → State} {l : List α} (h : Evolves s t)
    (hf : ∀ {t a}, a ∈ l → Evolves s t → Evolves s (f t a)) : Evolves s (l.foldl f t) := by
  induction l generalizing t with
  | nil => exact h
  | cons a l ih => exact ih (hf (List.mem_cons_self) h) fun ha => hf (List.mem_cons_of_mem _ ha)

theorem foldlBy {α β : Type} (get : β → State) {f : β → α → β} {l : List α} {b : β} (h : Evolves s (get b))
    (hf : ∀ {b a}, Evolves s (get b) → Evolves s (get (f b a))) : Evolves s (get (l.foldl f b)) := by
  induction l generalizing b with
  | nil => exact h
  | cons a l ih => exact ih (hf h)

theorem each {n f} (h : Evolves s t) (hf : ∀ {t k}, Evolves s t → Evolves s (f k t)) : Evolves s (State.each n f t) := h.foldl hf

theorem nextOf {o} (ho : EvolvesTo s o) : Evolves s (nextOf t o) := by
  obtain ⟨u, rfl, hu⟩ := ho
  exact hu

end Evolves

/-! ## What evolving keeps -/

theorem core_eq_iff {r : Part × List Instr × SMap Nat} : u.core = r ↔ u.part = r.1 ∧ u.pending = r.2.1 ∧ u.regs = r.2.2 := by
  cases u
  simp only [State.core, Prod.ext_iff]

/-- No command but device reset changes the part or the queue. -/
theorem Evolves.part_eq_and_pending_eq (h : Evolves s t) : t.part = s.part ∧ t.pending = s.pending := by
  induction h with
  | refl => exact ⟨rfl, rfl⟩
  | write _ _ ih => exact ih
  | resetFields _ _ ih => exact ih
  | other _ e ih =>
    obtain ⟨hpart, hpending, -⟩ := core_eq_iff.mp e
    exact ⟨hpart.trans ih.1, hpending.trans ih.2⟩

theorem SMap.mem_of_mem_erase {ν : Type} {m : SMap ν} {k : Nat} {e : Nat × ν} (h : e ∈ m.erase k) : e ∈ m := by
  induction m with
  | nil => exact h
  | cons a m ih =>
    simp only [SMap.erase] at h
    split at h
    · exact List.mem_cons_of_mem _ (ih h)
    · exact List.mem_cons.mpr ((List.mem_cons.mp h).imp_right ih)

theorem SMap.mem_of_mem_insert {ν : Type} {m : SMap ν} {k : Nat} {v : ν} {e : Nat × ν} (h : e ∈ m.insert k v) :
    e = (k, v) ∨ e ∈ m := by
  induction m with
  | nil => exact .inl (List.mem_singleton.mp h)
  | cons a m ih =>
    simp only [SMap.insert] at h
    split at h
    · exact (List.mem_cons.mp h).imp_right (List.mem_cons_of_mem _)
    · split at h
      · exact List.mem_cons.mp h
      · obtain rfl | h := List.mem_cons.mp h
        · exact .inr List.mem_cons_self
        · exact (ih h).imp_right (List.mem_cons_of_mem _)

/-- What a map holds after a write is what was written or what it held. -/
theorem SMap.mem_of_mem_set {ν : Type} [DecidableEq ν] {d : Nat → ν} {m : SMap ν} {k : Nat} {v : ν} {e : Nat × ν}
    (h : e ∈ m.set d k v) : e = (k, v) ∨ e ∈ m := by
  simp only [SMap.set] at h
  split at h
  · exact .inr (SMap.mem_of_mem_erase h)
  · exact SMap.mem_of_mem_insert h

theorem State.regsFit_iff : s.regsFit = true ↔ ∀ e ∈ s.regs, e.2 < 2 ^ (Fld.ofNat (e.1 / 0x10000000000)).info.len := by
  simp only [State.regsFit, List.all_eq_true, decide_eq_true_eq]

theorem State.regsFit_of_regs_eq (h : s.regsFit = true) (e : t.regs = s.regs) : t.regsFit = true := by
  rw [State.regsFit, e]
  exact h

/-- A write is cut to the width of its field. -/
theorem State.regsFit_setF {f : Fld} {v i j : Nat} (h : s.regsFit = true) : (s.setF f v i j).regsFit = true := by
  rw [State.regsFit_iff] at h ⊢
  intro e he
  obtain rfl | he := SMap.mem_of_mem_set he
  · simp only [regKey_fld, Fld.ofNat_ctorIdx]
    exact Nat.mod_lt _ (Nat.two_pow_pos _)
  · exact h e he

theorem State.regsFit_resetFields {p : Fld → Nat → Nat → Bool} (h : s.regsFit = true) : (s.resetFields p).regsFit = true := by
  rw [State.regsFit_iff] at h ⊢
  exact fun e he => h e (List.mem_of_mem_filter he)

theorem Evolves.regsFit (h : Evolves s t) (hs : s.regsFit = true) : t.regsFit = true := by
  induction h with
  | refl => exact hs
  | write _ _ ih => exact State.regsFit_setF ih
  | resetFields _ _ ih => exact State.regsFit_resetFields ih
  | other _ e ih => exact State.regsFit_of_regs_eq ih (core_eq_iff.mp e).2.2

theorem State.getF_of_core_eq {f : Fld} {i j : Nat} (e : u.core = (t.part, t.pending, t.regs)) : u.getF f i j = t.getF f i j := by
  obtain ⟨hp, -, hr⟩ := core_eq_iff.mp e
  simp only [State.getF, hp, hr]

/-- TUN_FEATLOCK, once set, stays set. -/
theorem Evolves.locked (h : Evolves s t) (hs : s.isSet .tunFeatlockLOCK = true) : t.isSet .tunFeatlockLOCK = true := by
  induction h with
  | refl => exact hs
  | write _ hf ih =>
    simp only [State.isSet, State.getF_setF] at ih ⊢
    split
    case isTrue e =>
      obtain ⟨rfl, -⟩ := e
      obtain rfl := hf.resolve_left (· rfl)
      rfl
    case isFalse => exact ih
  | resetFields _ hp ih => simpa only [State.isSet, State.getF_resetFields, hp, Bool.false_eq_true, if_false] using ih
  | other _ e ih => simpa only [State.isSet, State.getF_of_core_eq e] using ih

end Sys2Proof.Machine
end

section

/-! SUPPORT. Every operation of the model evolves the state: one lemma per operation, in the order of the model's files. A lemma mirrors
the definition that it is about: a chain of updates is a chain of lemmas read from the left (`h.count.setOn.raise`), `ite` follows an
`if`, `foldl` a sweep, `split` a `match`, and `other` an update of something that is no register. Where a definition names intermediate
states, so does the proof. -/

namespace Sys2Proof.Machine
namespace Evolves

variable {s t u : State}

-- One after another, the many lemmas stay within the number of threads that the check allows.
set_option Elab.async false

/-! ## Whole registers by type -/

theorem writeFld {i j w m f} (h : Evolves s t) (hf : f ≠ .tunFeatlockLOCK := by simp) : Evolves s (t.writeFld i j w m f) := by
  unfold State.writeFld
  split
  · exact h.setF hf
  · exact ite (h.setF hf) ((h.setF hf).foldlMem fun hg h => h.setF fun e => featlock_notMem_clears f (e ▸ hg))
  · exact h.setF hf
  · exact h
  · exact h

theorem writeReg {r i j w m} (h : Evolves s t) (hr : r ≠ .tunFeatlock := by simp) : Evolves s (t.writeReg r i j w m) :=
  h.foldlMem fun hf h => h.writeFld fun e => featlock_notMem_fields _ hr (e ▸ hf)

/-! ## Gated units -/

theorem gateHit {unit off a} (h : Evolves s t) : Evolves s (t.gateHit unit off a) := h.count.setF.setOn.setF.setF
theorem gateHit4 {off} (h : Evolves s t) : Evolves s (t.gateHit4 off) := h.count.setF.setOn.setF.setF.setF

theorem viaUnit {r i j a k} (h : Evolves s t) (hk : ∀ {t}, Evolves s t → Evolves s (k t)) : Evolves s (t.viaUnit r i j a k) :=
  ite h (ite (hk h) h.gateHit)

/-! ## MSI-X -/

theorem msixWrite {v} (h : Evolves s t) : Evolves s (t.msixWrite v) := ite (other h rfl) h.emit
theorem msixSendOrHold {v} (h : Evolves s t) : Evolves s (t.msixSendOrHold v) := ite h.msixWrite (ite h (other h rfl))
theorem execMsixSend {v} (h : Evolves s t) : EvolvesTo s (execMsixSend v t) := next (ite (msixWrite (other h rfl)) h)

/-! ## Taps -/

theorem ring {a b} (h : Evolves s t) : Evolves s (t.ring a b) := ite h (ite h.setBitF.msixSendOrHold h.setBitF)
theorem tapClear {a w} (h : Evolves s t) : Evolves s (t.tapClear a w) := ite h h.setF

theorem execTapClear {a w pin} (h : Evolves s t) : EvolvesTo s (execTapClear a w pin t) :=
  next (ite (ite h.tapClear h) (h.viaUnit fun h => h.tapClear))

theorem execTapMaskWrite {a w} (h : Evolves s t) : EvolvesTo s (execTapMaskWrite a w t) :=
  next (h.viaUnit fun h => ite h (ite h.setF.msixSendOrHold h.setF))

/-! ## Events -/

theorem raise {e payload} (h : Evolves s t) : Evolves s (t.raise e payload) :=
  ite h (ite h.setF.count.setOn.emit.setOn h.setF.count.setOn.emit)

theorem raiseG {n k payload} (h : Evolves s t) : Evolves s (t.raiseG n k payload) := h.raise
theorem execEventRaise {e payload} (h : Evolves s t) : EvolvesTo s (execEventRaise e payload t) := next (ite h h.raise)

theorem deliverTo {n e} (h : Evolves s t) : Evolves s (t.deliverTo n e) :=
  ite h (ite (other h rfl) (ite h.count.setOn h.count.setOn.raise))

theorem markDelivered {e b} (h : Evolves s t) : Evolves s (t.markDelivered e b) := other h rfl
theorem deliverMsi {e} (h : Evolves s t) : Evolves s (t.deliverMsi e) := ite h.markDelivered.msixWrite h

theorem deliverDes {e} (h : Evolves s t) : Evolves s (t.deliverDes e) :=
  foldl h fun h => ite h (ite h.markDelivered.deliverTo h)

theorem deliverTap {e} (h : Evolves s t) : Evolves s (t.deliverTap e) := ite h.markDelivered.ring h

theorem deliver {e} (h : Evolves s t) : Evolves s (t.deliver e) :=
  have ht := h.deliverMsi.deliverDes.deliverTap
  ite ht (other ht.setOff rfl)

theorem execEventDelivery {e} (h : Evolves s t) : EvolvesTo s (execEventDelivery e t) := next (ite h.deliver h)
theorem execEvtake {n} (h : Evolves s t) : EvolvesTo s (execEvtake n t) := next (ite h (other h rfl))

/-! ## Frames -/

theorem setFrame {n faddr f} (h : Evolves s t) : Evolves s (t.setFrame n faddr f) := other h rfl

/-! ## Floors and gating -/

theorem setPos {n p} (h : Evolves s t) : Evolves s (t.setPos n p) := other h rfl

/-! ## Flip-flops -/

theorem setTileQ {key v} (h : Evolves s t) : Evolves s (t.setTileQ key v) := other h rfl

theorem captureBits {n col row cells} (h : Evolves s t) : Evolves s (t.captureBits n col row cells) := by
  unfold State.captureBits
  split
  exacts [h, ite h (other h rfl)]

theorem execActiveClockEdge {x line a recoveryViolated} (h : Evolves s t) : EvolvesTo s (execActiveClockEdge x line a recoveryViolated t) :=
  next (ite h (ite h.captureBits.setTileQ h.captureBits.free.setTileQ))

theorem execAsyncSetReset {x line} (h : Evolves s t) : EvolvesTo s (execAsyncSetReset x line t) :=
  next (ite h (setTileQ (other h rfl)))

theorem execAsyncSetResetRelease {x line a removalViolated} (h : Evolves s t) :
    EvolvesTo s (execAsyncSetResetRelease x line a removalViolated t) :=
  next (ite h (ite (other h rfl) (setTileQ (free (other h rfl)))))

/-! ## Spans -/

theorem updSpanActive {n} (h : Evolves s t) : Evolves s (t.updSpanActive n) := h.setF

theorem execConfigUpset {pos fa flips} (h : Evolves s t) : EvolvesTo s (execConfigUpset pos fa flips t) :=
  next (ite h h.setFrame.updSpanActive)

theorem execSpanGateEvent {pos sp} (h : Evolves s t) : EvolvesTo s (execSpanGateEvent pos sp t) :=
  next (ite h h.setFrame.count.setOn.updSpanActive.setF.setF.setF.setF.setF.raiseG)

/-! ## Block RAM -/

theorem setRamRow {n k row v m} (h : Evolves s t) : Evolves s (t.setRamRow n k row v m) := other h rfl
theorem setLast {n b l} (h : Evolves s t) : Evolves s (t.setLast n b l) := other h rfl

theorem collideWrite {ecc coll l portB cur new} (h : Evolves s t) : Evolves s (t.collideWrite ecc coll l portB cur new).2 := by
  unfold State.collideWrite
  split
  · exact h.snd
  · exact ite2 h.snd (by
      split
      exacts [h.snd, ite2 h.snd (ite2 h.snd h.snd), ite2 h.free.snd h.free.snd])

theorem collideRead {ecc coll l cur} (h : Evolves s t) : Evolves s (t.collideRead ecc coll l cur).2 := by
  unfold State.collideRead
  split
  · exact h.snd
  · exact ite2 h.snd (by
      split
      exacts [h.snd, h.snd, ite2 h.free.snd h.free.snd])

theorem setPort {n b portB p} (h : Evolves s t) : Evolves s (t.setPort n b portB p) := other h rfl

theorem eccRecord {n b row portB dbe synd} (h : Evolves s t) : Evolves s (t.eccRecord n b row portB dbe synd) :=
  have ht := ite h.count.setOn h.count.setOn
  have hu := ite ht.setF.setF.setF.setF.setF ht
  ite hu.raiseG hu

theorem secded {word bad} (h : Evolves s t) : Evolves s (t.secded word bad).2 := by
  unfold State.secded
  split
  exacts [h.snd, h.snd, h.snd, h.free.snd]

theorem ramRead {n k row lo w ecc portB rowSeen} (h : Evolves s t) : Evolves s (t.ramRead n k row lo w ecc portB rowSeen).2 :=
  ite2 h.snd (snd (ite h.secded.eccRecord h.secded))

theorem ramEdge {n k we p} (h : Evolves s t) : Evolves s (t.ramEdge n k we p) := by
  unfold State.ramEdge
  dsimp only
  split
  · exact h
  · exact ite h (ite h.setPort (ite
      (setPort (setLast (setRamRow (ite h.collideWrite h.collideWrite.ramRead))))
      (ite h.collideRead.ramRead.setLast.setPort h.setPort)))

/-! ## DEEP2M -/

theorem setDeep {n k word v} (h : Evolves s t) : Evolves s (t.setDeep n k word v) := other h rfl

theorem deepEdge {n k we p} (h : Evolves s t) : Evolves s (t.deepEdge n k we p) := by
  unfold State.deepEdge
  extract_lets +onlyGivenNames fr sdp rdwNo cascPos cascLen casc ca reach kb ko anchor write read outPort orv isOut fin word
  have hfin {t raw res} (h : Evolves s t) : Evolves s (fin t raw res) := ite h.setPort h
  refine ite h (ite (hfin h) ?_)
  extract_lets +onlyGivenNames cur last readWord
  have hread {t v} (h : Evolves s t) : Evolves s (readWord t v).2 := snd (ite h.secded.eccRecord h.secded)
  exact ite (hfin (setLast (setDeep (ite h (hread h))))) (ite (hfin (setLast (hread h.collideRead))) (hfin h))

/-! ## Snapshots at an edge (R295, R298) -/

theorem captureBlock {n col row key snapKey v} (h : Evolves s t) : Evolves s (t.captureBlock n col row key snapKey v) := by
  unfold State.captureBlock
  split
  exacts [h, ite h (other h rfl)]

theorem blockEdge {n b we p} (h : Evolves s t) : Evolves s (t.blockEdge n b we p) := by
  unfold State.blockEdge
  split
  exacts [ramEdge (ite h.captureBlock h), deepEdge (ite h.captureBlock h)]

theorem execBlockRead {pos b p} (h : Evolves s t) : EvolvesTo s (execBlockRead pos b p t) := next h.blockEdge
theorem execBlockWrite {pos b p} (h : Evolves s t) : EvolvesTo s (execBlockWrite pos b p t) := next h.blockEdge
theorem execOutputReset {pos b portB} (h : Evolves s t) : EvolvesTo s (execOutputReset pos b portB t) := next h.blockEdge

/-! ## Upsets of stored words (R104, R128) -/

theorem execStoredBitFlip {pos w flips} (h : Evolves s t) : EvolvesTo s (execStoredBitFlip pos w flips t) :=
  next (by
    split <;> exact other h rfl)

/-! ## ACS slices -/

theorem setSlice {n k v} (h : Evolves s t) : Evolves s (t.setSlice n k v) := other h rfl

/-! ## Coefficient RAM (R128, R141) -/

theorem coefWord {n k w} (h : Evolves s t) : Evolves s (t.coefWord n k w).2 := by
  unfold State.coefWord
  dsimp only
  split
  exacts [h.snd, h.snd, h.snd, h.free.snd]

theorem coefRecord {n k w dbe} (h : Evolves s t) : Evolves s (t.coefRecord n k w dbe) :=
  have ht := (h.count (by split <;> simp)).setOn
  have hu := ite ht.setF.setF.setF ht
  ite hu.raiseG hu

theorem coefRead {n k w} (h : Evolves s t) : Evolves s (t.coefRead n k w).2 := snd (ite h.coefWord.coefRecord h.coefWord)
theorem coefWrite {n k w v} (h : Evolves s t) : Evolves s (t.coefWrite n k w v) := other h rfl

/-! ## The pipeline (R124) -/

theorem illRecord {n k op} (h : Evolves s t) : Evolves s (t.illRecord n k op) :=
  ite h.count.setOn.setF.setF h.count.setOn.setF.setF.raiseG

theorem sliceIssue {n k op p x c} (h : Evolves s t) : Evolves s (t.sliceIssue n k op p x c).2 :=
  have hread := ite2 h.coefRead h.snd
  have hu := ite (coefWrite hread) hread
  snd (ite hu.illRecord hu)

theorem captureSlice {n k} (h : Evolves s t) : Evolves s (t.captureSlice n k) := h.captureBlock

theorem sliceEdge {r opc p} (h : Evolves s t) : Evolves s (t.sliceEdge r opc p) :=
  ite h (ite h.captureSlice (setSlice (sliceIssue (ite2 h.captureSlice.free h.captureSlice.snd))))

theorem execNop {r p} (h : Evolves s t) : EvolvesTo s (execNop r p t) := next h.sliceEdge
theorem execMul {r p} (h : Evolves s t) : EvolvesTo s (execMul r p t) := next h.sliceEdge
theorem execMac {r p} (h : Evolves s t) : EvolvesTo s (execMac r p t) := next h.sliceEdge
theorem execMacc {r p} (h : Evolves s t) : EvolvesTo s (execMacc r p t) := next h.sliceEdge
theorem execLda {r p} (h : Evolves s t) : EvolvesTo s (execLda r p t) := next h.sliceEdge
theorem execCwr {r p} (h : Evolves s t) : EvolvesTo s (execCwr r p t) := next h.sliceEdge
theorem execAgset {r p} (h : Evolves s t) : EvolvesTo s (execAgset r p t) := next h.sliceEdge
theorem execAcs {r p} (h : Evolves s t) : EvolvesTo s (execAcs r p t) := next h.sliceEdge
theorem execMinmax {r p} (h : Evolves s t) : EvolvesTo s (execMinmax r p t) := next h.sliceEdge

theorem execIllegalOperation {r opc p} (h : Evolves s t) : EvolvesTo s (execIllegalOperation r opc p t) :=
  next (ite h.sliceEdge h)

theorem execSliceReset {r} (h : Evolves s t) : EvolvesTo s (execSliceReset r t) := next (ite h h.captureSlice.setSlice)

/-! ## Link directions and their registers -/

theorem setLink {l f g v} (h : Evolves s t) (hf : f ≠ .tunFeatlockLOCK := by simp) (hg : g ≠ .tunFeatlockLOCK := by simp) :
    Evolves s (t.setLink l f g v) := by
  unfold State.setLink
  split
  · exact h.setF hf
  · exact h.setF hg

theorem setLnk {l v} (h : Evolves s t) : Evolves s (t.setLnk l v) := other h rfl
theorem raiseLink {l k} (h : Evolves s t) : Evolves s (t.raiseLink l k) := optElim h fun _ => h.raiseG

theorem setLaneCnt {l lane v} (h : Evolves s t) : Evolves s (t.setLaneCnt l lane v) := by
  unfold State.setLaneCnt
  split
  exacts [h.setF, h]

/-! ## The fold (R211–R213) -/

theorem dieFault {l kind surv noc} (h : Evolves s t) : Evolves s (t.dieFault l kind surv noc) :=
  h.setF.setF.setF.setF.setF.setF.count.setOn

theorem updLanes {l} (h : Evolves s t) : Evolves s (t.updLanes l) := by
  unfold State.updLanes
  split
  exacts [h.setLink.setLink, h.setLink.setLink.setF.setF.setF.setF]

theorem evalLink {l start} (h : Evolves s t) : Evolves s (t.evalLink l start) := by
  unfold State.evalLink
  split
  exacts [h, ite h (ite h.setF.raiseLink h.setF.raiseLink.dieFault.raiseLink)]

theorem evalNoc {l before} (h : Evolves s t) : Evolves s (t.evalNoc l before) :=
  ite h.dieFault.raiseLink (ite h.dieFault.raiseLink h)

/-! ## Retirement -/

theorem retireLane {l lane} (h : Evolves s t) : Evolves s (t.retireLane l lane) := h.setLnk.setLaneCnt.setLink.setLink.raiseLink
theorem lanesChanged {l nocBefore} (h : Evolves s t) : Evolves s (t.lanesChanged l nocBefore) := h.updLanes.evalLink.evalNoc

theorem retireDone {l} (h : Evolves s t) : Evolves s (t.retireDone l) := by
  unfold State.retireDone
  dsimp only
  split
  exacts [h, h.setLnk.retireLane.lanesChanged]

theorem retireByFold {l logical lane} (h : Evolves s t) : Evolves s (t.retireByFold l logical lane) :=
  h.setLnk.retireLane.lanesChanged

theorem startRetire {l lane} (h : Evolves s t) : Evolves s (t.startRetire l lane) := by
  unfold State.startRetire
  dsimp only
  split
  · exact h.retireLane.lanesChanged
  · split
    exacts [h.setLnk, h.retireByFold]

theorem execMarginWindowEnd {l lane count} (h : Evolves s t) : EvolvesTo s (execMarginWindowEnd l lane count t) :=
  next (ite h (ite h.setLaneCnt.startRetire h.setLaneCnt))

theorem execSpareCopyRequest {l} (h : Evolves s t) : EvolvesTo s (execSpareCopyRequest l t) := next (ite h.setLnk h)
theorem execSpareQualified {l} (h : Evolves s t) : EvolvesTo s (execSpareQualified l t) := next (ite h.retireDone h)

theorem execSpareCompareTimeout {l spareHadMargin} (h : Evolves s t) : EvolvesTo s (execSpareCompareTimeout l spareHadMargin t) :=
  next (ite h (ite h.retireDone (by
    dsimp only
    split
    exacts [h, h.setLnk.retireLane.lanesChanged.startRetire])))

/-! ## Pair loss (R175) -/

theorem pairLosses {l lane} (h : Evolves s t) : Evolves s (t.pairLosses l lane) := by
  unfold State.pairLosses
  split
  exacts [ite (foldl h fun h => ite h.setBitF.setF.setF.raiseG h) h, h]

theorem execLaneDeath {l lane} (h : Evolves s t) : EvolvesTo s (execLaneDeath l lane t) :=
  next (ite h (ite (ite h.setLnk.setLink h.setLnk) (by
    dsimp only
    split
    exacts [h.setLnk.retireLane.lanesChanged, h.setLnk.retireLane.lanesChanged.pairLosses])))

theorem execDeadLaneMoved {l lane} (h : Evolves s t) : EvolvesTo s (execDeadLaneMoved l lane t) :=
  next (by
    dsimp only
    split
    exacts [ite h.setLnk.lanesChanged h, h])

theorem execFoldChange {l} (h : Evolves s t) : EvolvesTo s (execFoldChange l t) :=
  next (by
    split
    exacts [h.setLnk.setF.setF, h])

theorem execNocFlitReplay {l} (h : Evolves s t) : EvolvesTo s (execNocFlitReplay l t) := next h

/-! ## Clock lanes (R202) -/

theorem updCkb {l} (h : Evolves s t) : Evolves s (t.updCkb l) := h.setLink
theorem execClockLaneLoss {l noc} (h : Evolves s t) : EvolvesTo s (execClockLaneLoss l noc t) := next h.setLnk.updCkb
theorem execClockLaneReturn {l noc} (h : Evolves s t) : EvolvesTo s (execClockLaneReturn l noc t) := next h.setLnk.updCkb

/-! ## Link start (R207) -/

theorem trainedBad {l lane} (h : Evolves s t) : Evolves s (t.trainedBad l lane) :=
  ite h.retireLane (by
    split <;> exact h.retireLane.setLnk)

/-! ## Time -/

theorem setTime {x v i} (h : Evolves s t) (hx : .tunFeatlockLOCK ∉ [x.frac, x.ns, x.seclo, x.sechi] := by decide) :
    Evolves s (t.setTime x v i) := by
  simp only [List.mem_cons, List.not_mem_nil, or_false, not_or] at hx
  obtain ⟨hfrac, hns, hlo, hhi⟩ := hx
  exact (((h.setF (Ne.symm hfrac)).setF (Ne.symm hns)).setF (Ne.symm hlo)).setF (Ne.symm hhi)

theorem mapReplicas {f} (h : Evolves s t) : Evolves s (t.mapReplicas f) := foldl h fun h => by
  split
  exacts [other h rfl, h]

theorem loadReplicas {p} (h : Evolves s t) : Evolves s (t.loadReplicas p) := other h rfl
theorem timeEdge (h : Evolves s t) : Evolves s (t.timeEdge) := other h.mapReplicas rfl

/-! ## Rigid crossings -/

theorem xrEdge {x d} (h : Evolves s t) : Evolves s (t.xrEdge x d) := ite h (other h rfl)

/-! ## Elastic channels -/

theorem setChan {key c} (h : Evolves s t) : Evolves s (t.setChan key c) := other h rfl
theorem xeEdge {key} (h : Evolves s t) : Evolves s (t.xeEdge key) := ite h.setChan.setBitF (ite h h.setChan)

theorem execCrossingClockEdge {ds} (h : Evolves s t) : EvolvesTo s (execCrossingClockEdge ds t) :=
  next (ite h (other (timeEdge (foldl (foldl h fun h => h.xrEdge) fun h => h.xeEdge)) rfl))

theorem execXePush {x word} (h : Evolves s t) : EvolvesTo s (execXePush x word t) := next (ite h h.setChan)

theorem execXePop {x} (h : Evolves s t) : EvolvesTo s (execXePop x t) :=
  next (ite h (by
    split
    exacts [h, h.setChan]))

theorem execCreditReturn {x n} (h : Evolves s t) : EvolvesTo s (execCreditReturn x n t) := next (ite h h.setChan)

theorem execWordLanded {x} (h : Evolves s t) : EvolvesTo s (execWordLanded x t) :=
  next (by
    split
    exacts [h, h.setChan])

theorem execXeResync {x} (h : Evolves s t) : EvolvesTo s (execXeResync x t) := next (ite h h.setChan.setBitF)

/-! ## Replays (R181) -/

theorem execGroupCrcFailure {l group seq} (h : Evolves s t) : EvolvesTo s (execGroupCrcFailure l group seq t) :=
  next (by
    split
    exacts [h, ite (raiseLink (other h rfl)) (setBitF (count (other h rfl)))])

/-! ## Missing clock (R188) -/

theorem execMissingClockDetect {l} (h : Evolves s t) : EvolvesTo s (execMissingClockDetect l t) :=
  next (by
    split
    · exact h
    · exact ite (by
        split
        · exact ite h.setBitF.setBitF.setBitF h.setBitF.setBitF
        · exact h.setBitF.setBitF
        · exact h.setBitF.setBitF) h)

/-! ## Power operations -/

theorem retainCopy {n} (h : Evolves s t) : Evolves s (t.retainCopy n) := setF (foldl (other h rfl) fun h => other h rfl)

theorem startTransition {d x} (h : Evolves s t) : Evolves s (t.startTransition d x) :=
  ite (setOn (ite (retainCopy (other h.setOn rfl)) (other h.setOn rfl))) (ite (retainCopy (other h.setOn rfl)) (other h.setOn rfl))

theorem wake {d cause} (h : Evolves s t) : Evolves s (t.wake d cause) := by
  unfold State.wake
  split
  exacts [h.setF.setF, other h.setF.setF rfl, ite h h.setF.setF.startTransition]

theorem setDom {d st} (h : Evolves s t) : Evolves s (t.setDom d st) := other h.setF rfl
theorem pwrRefuse {d code} (h : Evolves s t) : Evolves s (t.pwrRefuse d code) := h.setOn.setF

/-! ## Alarms -/

theorem requeue {ps} (h : Evolves s t) : Evolves s (t.requeue ps) := other h rfl

/-! ## Keys and alarms -/

theorem setKeyState {k v} (h : Evolves s t) : Evolves s (t.setKeyState k v) := h.setF
theorem zeroKeys (h : Evolves s t) : Evolves s (t.zeroKeys) := other h.setF.setF rfl
theorem rgnFault {r} (h : Evolves s t) : Evolves s (t.rgnFault r) := other h.setF rfl
theorem faultRegions (h : Evolves s t) : Evolves s (t.faultRegions) := h.each fun h => ite h h.rgnFault

theorem mempAlarm {cause r addr snode} (h : Evolves s t) : Evolves s (t.mempAlarm cause r addr snode) :=
  have hu := ite h.setBitF.count.setF.setF.setF.setF h.setBitF.count
  ite hu.raise.zeroKeys.faultRegions hu.raise

theorem mempReset (h : Evolves s t) : Evolves s (t.mempReset) :=
  other (requeue (h.zeroKeys.each fun h => h.setF.setOff.setOff.setF)) rfl

theorem retrainRegions (h : Evolves s t) : Evolves s (t.retrainRegions) := h.each fun h => ite h h.rgnFault.mempAlarm

/-! ## Bias -/

theorem rgnGo (h : Evolves s t) : Evolves s (t.rgnGo) := h.each fun h => ite h.setF h
theorem biasCmdDone {last} (h : Evolves s t) : Evolves s (t.biasCmdDone last) := raise (setF (setOn (setOff (other h rfl))))

theorem biasClear (h : Evolves s t) : Evolves s (t.biasClear) :=
  rgnGo (by
    split
    exacts [biasCmdDone (other h.requeue rfl), other h.requeue rfl])

theorem biasLost (h : Evolves s t) : Evolves s (t.biasLost) := ite h.biasClear.setOn h

/-! ## Errors towards the host -/

theorem herr {addr cause} (h : Evolves s t) : Evolves s (t.herr addr cause) := ite h (raise (count (setOn (ite h h.setF.setF))))
theorem postedFail {p} (h : Evolves s t) : Evolves s (t.postedFail p) := ite h.herr h

/-! ## Packets -/

theorem inject {p} (h : Evolves s t) : Evolves s (t.inject p) := ite (other h rfl) (other h rfl)
theorem respond {p status data} (h : Evolves s t) : Evolves s (t.respond p status data) := ite (ite h h.postedFail) h.inject

/-! ## Isolation (R321–R324) -/

theorem updIso {p} (h : Evolves s t) : Evolves s (t.updIso p) := optElim h.setF fun _ => h.setF.setBitF

theorem isolate {p x} (h : Evolves s t) : Evolves s (t.isolate p x) :=
  optElim (setOn (updIso (other h rfl))) fun _ => raiseG (setOn (updIso (other h rfl)))

theorem restIso {p x on} (h : Evolves s t) : Evolves s (t.restIso p x on) := h.setBitF.updIso
theorem isolateExt {k} (h : Evolves s t) : Evolves s (t.isolateExt k) := h.setBitF.setOn.raise
theorem isolateLink {k} (h : Evolves s t) : Evolves s (t.isolateLink k) := h.setBitF.setOn.raise

/-! ## Routers and routes (R302, R304) -/

theorem absorb {r p} (h : Evolves s t) : Evolves s (t.absorb r p) := ite (respond (ite h (ite h.count h.count))) (ite h.count h)

/-! ## Taking a packet out of the network -/

theorem netTake {p} (h : Evolves s t) : MayEvolve s id (t.netTake p) := by
  unfold State.netTake
  refine .ite (.some h) ?_
  split
  · exact .ite (.some (other h rfl)) .none
  · exact .some h

/-! ## Design NoC ports -/

theorem setDnp {n k d} (h : Evolves s t) : Evolves s (t.setDnp n k d) := other h rfl
theorem dnpRest {n k} (h : Evolves s t) : Evolves s (t.dnpRest n k) := setDnp (foldl h.restIso fun h => h.respond)
theorem dnpUnrest {n k} (h : Evolves s t) : Evolves s (t.dnpUnrest n k) := h.restIso

/-! ## Contents -/

theorem storeLine {line mask data} (h : Evolves s t) : Evolves s (t.storeLine line mask data) :=
  foldl h fun h => ite (other h rfl) h

theorem setChanSt {m c} (h : Evolves s t) : Evolves s (t.setChanSt m c) := setF (setF (other h rfl))

theorem memWrite {a bs} (h : Evolves s t) : Evolves s (t.memWrite a bs) :=
  foldl h fun h => ite (setChanSt (other h rfl)) (other h rfl)

/-! ## ECC (R336, R337, R349, R356) -/

theorem eccInfo {m line dev nsym ue wrfail multi erase} (h : Evolves s t) : Evolves s (t.eccInfo m line dev nsym ue wrfail multi erase) :=
  h.setF.setF.setF.setF.setF.setF.setF.setF.setF

theorem eccUe {m line wrfail erase} (h : Evolves s t) : Evolves s (t.eccUe m line wrfail erase) := h.count.setOn.eccInfo.raiseG

theorem devCorrected {m rank dev} (h : Evolves s t) : Evolves s (t.devCorrected m rank dev) :=
  ite (raiseG (setF (setF (setOn (other h rfl))))) (other h rfl)

theorem eccCe {m line devs erase} (h : Evolves s t) : Evolves s (t.eccCe m line devs erase) :=
  foldl (ite h.count.setOn h.count.setOn.eccInfo) fun h => h.devCorrected

theorem decode {m line e} (h : Evolves s t) : Evolves s (t.decode m line e).2 :=
  ite2 h.snd (ite2 h.snd (ite2 h.free.snd h.free.snd))

/-! ## Requests and line operations (R344–R348) -/

theorem lineDone {req k data poison} (h : Evolves s t) : Evolves s (t.lineDone req k data poison) := by
  unfold State.lineDone
  split
  exacts [h, ite (ite (respond (other h rfl)) (respond (other h rfl))) (other h rfl)]

theorem acceptLine {m op} (h : Evolves s t) : MayEvolve s id (t.acceptLine m op) := by
  unfold State.acceptLine
  dsimp only
  refine .ite ?_ (.ite .none ?_)
  · split
    · exact .some h.setChanSt.lineDone
    · exact .ite (.some h.setChanSt.lineDone) .none
  · split
    · exact .some h.setChanSt
    · exact .ite (.some h.countWrap.lineDone) (.some h.countWrap.setChanSt)

theorem pump {n m} (h : Evolves s t) : Evolves s (State.pump n m t) := by
  induction n generalizing t with
  | zero => exact h
  | succ n ih =>
    unfold State.pump
    dsimp only
    split
    · exact h
    · split
      next e => exact ih (h.setChanSt.acceptLine _ e)
      · exact h

theorem pumpChan {m} (h : Evolves s t) : Evolves s (t.pumpChan m) := h.pump

theorem homeAccept {m p} (h : Evolves s t) : Evolves s (t.homeAccept m p) :=
  ite (respond (ite h.count h)) (pumpChan (setChanSt (other h rfl)))

theorem execDramReadData {m err} (h : Evolves s t) : EvolvesTo s (execDramReadData m err t) :=
  next (by
    split
    · exact h
    · extract_lets t₁ d erase u
      have hd : Evolves s d.2 := h.setChanSt.decode
      have hu : Evolves s u := by
        unfold u
        split
        · exact hd.lineDone
        · exact hd.eccUe.lineDone
        · exact ite hd.eccCe.lineDone.setChanSt hd.eccCe.lineDone
      exact hu.pumpChan)

theorem execWriteDrain {m rmwUncorrectable} (h : Evolves s t) : EvolvesTo s (execWriteDrain m rmwUncorrectable t) :=
  next (by
    split
    · exact h
    · refine ite (pumpChan ?_) (pumpChan ?_)
      · split
        · exact other h.setChanSt.eccUe rfl
        · exact h.setChanSt.eccUe
      · split
        · exact h.setChanSt.storeLine.storeLine
        · exact h.setChanSt.storeLine)

/-! ## Rows (R350, R352, R354) -/

theorem execDramCommandIssue {m sub c} (h : Evolves s t) : EvolvesTo s (execDramCommandIssue m sub c t) :=
  next (ite h (by
    split
    · exact ite (count (other h.free rfl)) (other h.free rfl)
    · exact ite h (other h rfl)
    · exact other h rfl))

theorem execPageTimeout {m bank rank} (h : Evolves s t) : EvolvesTo s (execPageTimeout m bank rank t) :=
  next (other (other h rfl) rfl)

theorem closeRows {m} (h : Evolves s t) : Evolves s (t.closeRows m) := other h rfl
theorem execRefresh {m} (h : Evolves s t) : EvolvesTo s (execRefresh m t) := next (ite h.closeRows h)

theorem execSpdTemperatureRead {m reading} (h : Evolves s t) : EvolvesTo s (execSpdTemperatureRead m reading t) :=
  next (by
    split
    exacts [h.setOn, ite h.setF.setOff.setOn.setOn.raiseG h.setF.setOff.setOff])

/-! ## Training (R341–R343) -/

theorem dropRequests {m} (h : Evolves s t) : Evolves s (t.dropRequests m) :=
  setChanSt (foldl h fun h => by
    split
    exacts [respond (other h rfl), h])

theorem loseContents {m} (h : Evolves s t) : Evolves s (t.loseContents m) := other h rfl

theorem startTraining {m} (h : Evolves s t) : Evolves s (t.startTraining m) :=
  other h.dropRequests.loseContents.setChanSt.setF.setF.setF.setF.setOff.closeRows rfl

theorem trArrived {m} (h : Evolves s t) : Evolves s (t.trArrived m) := by
  unfold State.trArrived
  split
  exacts [h, ite (raise (other h rfl)) (other h rfl)]

theorem trainEnd {m st} (h : Evolves s t) : Evolves s (t.trainEnd m st) := h.setF.setOn.raiseG.trArrived
theorem ddrStart (h : Evolves s t) : Evolves s (t.ddrStart) := ite h.raise (other (foldl h fun h => h.startTraining) rfl)

theorem ddrReset (h : Evolves s t) : Evolves s (t.ddrReset) :=
  other (foldl h fun h => have hw := h.dropRequests.setChanSt
  ite hw.setF.closeRows hw) rfl

theorem execTrainingStepDone {m} (h : Evolves s t) : EvolvesTo s (execTrainingStepDone m t) :=
  next (ite h (ite h.setChanSt.setF.loseContents.trainEnd h.setChanSt.setF))

theorem execTrainingAttemptFail {m} (h : Evolves s t) : EvolvesTo s (execTrainingAttemptFail m t) :=
  next (ite h (ite h.setChanSt.trainEnd h.setChanSt))

theorem execTrainingTimeout {m} (h : Evolves s t) : EvolvesTo s (execTrainingTimeout m t) := next (ite h.trainEnd h)
theorem retrainPulse {m} (h : Evolves s t) : Evolves s (t.retrainPulse m) := h.setChanSt.setF.retrainRegions.biasLost

theorem ddrCtlWrite {m w} (h : Evolves s t) : Evolves s (t.ddrCtlWrite m w) :=
  ite h.writeReg (by
    split
    · exact h.writeReg.retrainPulse
    · exact h.writeReg.retrainPulse
    · exact h.writeReg.setChanSt.wake
    · exact h.writeReg.setOn)

theorem execRetrain {m w} (h : Evolves s t) : EvolvesTo s (execRetrain m w t) := next (h.viaUnit fun h => h.ddrCtlWrite)
theorem execRetrainPulseEnd {m} (h : Evolves s t) : EvolvesTo s (execRetrainPulseEnd m t) := next (ite h.startTraining h)

/-! ## Flips -/

theorem askHost {op line} (h : Evolves s t) : Evolves s (t.askHost op line) := by
  unfold State.askHost
  split
  exacts [h.emit, h]

theorem wakeHome {page} (h : Evolves s t) : Evolves s (t.wakeHome page) := ite (wake (ite h.wake h)) (ite h.wake h)

theorem startFlip {page toHost wait} (h : Evolves s t) : Evolves s (t.startFlip page toHost wait) :=
  ite h (ite (wakeHome (other h rfl)) (each (wakeHome (other h rfl)) fun h => h.askHost))

theorem setTable {page host} (h : Evolves s t) : Evolves s (t.setTable page host) := h.memWrite

theorem biasAdvance (h : Evolves s t) : Evolves s (t.biasAdvance) := by
  unfold State.biasAdvance
  split
  · exact h
  · extract_lets r
    have hr : Evolves s r.1 := foldlBy Prod.fst (fst h) fun h => ite1 (fst h) (ite1 h (fst h.startFlip))
    exact ite hr.biasCmdDone (other hr rfl)

theorem flipEnd {f} (h : Evolves s t) : Evolves s (t.flipEnd f) := rgnGo (biasAdvance (requeue (other h rfl)))

theorem execBiasFlipToHostDone {page} (h : Evolves s t) : EvolvesTo s (execBiasFlipToHostDone page t) :=
  next (by
    split
    · exact h
    · exact ite h (ite (by
        split
        exacts [ite h h.startFlip.count, h]) (flipEnd (countWrap (setTable (other h rfl))))))

theorem execBiasFlipToDeviceDone {page} (h : Evolves s t) : EvolvesTo s (execBiasFlipToDeviceDone page t) :=
  next (by
    dsimp only
    split
    exacts [h, ite h (flipEnd (countWrap (setTable (other h rfl))))])

theorem biasCmdWrite {w m} (h : Evolves s t) : Evolves s (t.biasCmdWrite w m) :=
  have ht := h.writeReg
  ite ht (ite ht.setOn.setF (ite (ite ht.biasCmdDone ht.setOn.setF)
    (ite ht.setOn.setF (biasAdvance (other ht.setOn rfl)))))

theorem execBiasCommand {w} (h : Evolves s t) : EvolvesTo s (execBiasCommand w t) := next (h.viaUnit fun h => h.biasCmdWrite)
theorem execBiasQuery {w} (h : Evolves s t) : EvolvesTo s (execBiasQuery w t) := next (h.viaUnit fun h => h.biasCmdWrite)

theorem execHdmCommit {k base size skip ways granule way} (h : Evolves s t) :
    EvolvesTo s (execHdmCommit k base size skip ways granule way t) :=
  next (ite (other h rfl) (other h rfl))

/-! ## Casks -/

theorem caskFail {c} (h : Evolves s t) : Evolves s (t.caskFail c).1 := h.setOn.fst
theorem caskRing {c endB} (h : Evolves s t) : Evolves s (t.caskRing c endB) := ite h (ite h.inject h.ring)
theorem caskCollide {c} (h : Evolves s t) : Evolves s (t.caskCollide c) := ite h.setOn h.setOn.raise

theorem caskGo {c endB a} (h : Evolves s t) : Evolves s (t.caskGo c endB a).1 :=
  ite1 h.caskFail (fst (caskRing (ite h.setOn.setF.caskCollide h.setOn.setF)))

theorem caskTake {c endB a} (h : Evolves s t) : Evolves s (t.caskTake c endB a).1 := ite1 h.caskFail (fst (ite h.setOff h))

theorem caskMsgWrite {c i w m a} (h : Evolves s t) : Evolves s (t.caskMsgWrite c i w m a).1 :=
  ite1 h.caskFail (fst (ite h.writeFld.caskCollide h.writeFld))

theorem caskMsgRead {c i a} (h : Evolves s t) : Evolves s (t.caskMsgRead c i a).1 := ite1 h.caskFail.fst h.fst

theorem setCaskQueue {c toB q} (h : Evolves s t) : Evolves s (t.setCaskQueue c toB q) :=
  ite (setF (other h rfl)) (setF (other h rfl))

theorem caskPush {c endB w a} (h : Evolves s t) : Evolves s (t.caskPush c endB w a).1 :=
  ite1 h.caskFail (fst (caskRing (ite h.setCaskQueue h.setCaskQueue.count.caskCollide)))

theorem caskPop {c endB a} (h : Evolves s t) : Evolves s (t.caskPop c endB a).1 :=
  ite1 h.caskFail.fst (by
    split
    exacts [h.setOn.fst, h.setCaskQueue.fst])

theorem caskCfgWrite {c w m a} (h : Evolves s t) : Evolves s (t.caskCfgWrite c w m a) :=
  ite h.setOn (h.writeReg.setCaskQueue.setCaskQueue.foldlMem fun hf h => h.setF (by rintro rfl; simp at hf))

theorem caskEndWrite {c endB w m a} (h : Evolves s t) : Evolves s (t.caskEndWrite c endB w m a) :=
  ite h.setOn (h.writeReg (by split <;> simp))

theorem execGo {c endB a} (h : Evolves s t) : EvolvesTo s (execGo c endB a t) := next (h.viaUnit fun h => h.caskGo)
theorem execTake {c endB a} (h : Evolves s t) : EvolvesTo s (execTake c endB a t) := next (h.viaUnit fun h => h.caskTake)

theorem execMessageWrite {c i w a} (h : Evolves s t) : EvolvesTo s (execMessageWrite c i w a t) :=
  next (h.viaUnit fun h => h.caskMsgWrite)

theorem execPush {c endB w a} (h : Evolves s t) : EvolvesTo s (execPush c endB w a t) := next (h.viaUnit fun h => h.caskPush)

theorem execPop {c endB a tag} (h : Evolves s t) : EvolvesTo s (execPop c endB a tag t) :=
  next (ite h (ite h.caskPop.emit h.gateHit.emit))

theorem execCaskCfgWrite {c w a} (h : Evolves s t) : EvolvesTo s (execCaskCfgWrite c w a t) :=
  next (h.viaUnit fun h => h.caskCfgWrite)

theorem execCaskEndWrite {c endB w a} (h : Evolves s t) : EvolvesTo s (execCaskEndWrite c endB w a t) :=
  next (h.viaUnit fun h => h.caskEndWrite)

/-! ## References and the root PLL -/

theorem coast (h : Evolves s t) : Evolves s (t.coast) := raise (setOn (setOn (setOff (other h rfl))))
theorem activeLost (h : Evolves s t) : Evolves s (t.activeLost) := ite (raise (setOn (setF (other h rfl)))) h.coast

theorem rootOnQualified {r} (h : Evolves s t) : Evolves s (t.rootOnQualified r) :=
  ite h (by
    split
    exacts [ite h (other h.setF rfl), ite (other h.setF rfl) h, h, h, h, h])

theorem refLost {r} (h : Evolves s t) : Evolves s (t.refLost r) :=
  ite h.setOff (by
    split
    · exact h.setOff.activeLost
    · exact h.setOff.coast
    · exact other h.setOff rfl
    · exact ite (other h.setOff.setF rfl) (other h.setOff rfl)
    · exact h.setOff
    · exact h.setOff)

theorem execMeasurementWindowEnd {r edges continuous} (h : Evolves s t) : EvolvesTo s (execMeasurementWindowEnd r edges continuous t) :=
  next (ite (ite h h.refLost) (ite h.setOn.rootOnQualified h))

theorem execReferenceLossInterval {r} (h : Evolves s t) : EvolvesTo s (execReferenceLossInterval r t) := next (ite h.refLost h)
theorem execSwitchComplete (h : Evolves s t) : EvolvesTo s (execSwitchComplete t) := next (ite (other h rfl) h)
theorem execRootRelock (h : Evolves s t) : EvolvesTo s (execRootRelock t) := next (ite (setOn (setOff (other h rfl))) h)

theorem execRefselWrite {w} (h : Evolves s t) : EvolvesTo s (execRefselWrite w t) :=
  next (ite h (ite h.writeFld (by
    split
    · exact other h.writeFld.setF rfl
    · exact other h.writeFld.setF rfl
    · exact h.writeFld
    · exact h.writeFld
    · exact h.writeFld
    · exact h.writeFld)))

/-! ## User PLLs -/

theorem execUpllReferenceLoss {n w} (h : Evolves s t) : EvolvesTo s (execUpllReferenceLoss n w t) :=
  next (ite h.setBitF.setBitF.setBitF.raiseG h)

theorem execUpllRelock {n w} (h : Evolves s t) : EvolvesTo s (execUpllRelock n w t) := next (ite h.setBitF.setBitF h)
theorem execUpllUnlock {n w} (h : Evolves s t) : EvolvesTo s (execUpllUnlock n w t) := next (ite h.setBitF.setBitF.raiseG h)
theorem execUpllLock {n w} (h : Evolves s t) : EvolvesTo s (execUpllLock n w t) := next (ite h.setBitF h)

/-! ## Trim oscillators -/

theorem trimWindowStart (h : Evolves s t) : Evolves s (t.trimWindowStart) := other h rfl

theorem execTrimWindowEnd {m} (h : Evolves s t) : EvolvesTo s (execTrimWindowEnd m t) :=
  next (ite h (trimWindowStart (other (ite h.setF.setF.setOn (ite h.setF.setF.setOff h.setF.setF)) rfl)))

theorem execTrimSourceLost (h : Evolves s t) : EvolvesTo s (execTrimSourceLost t) := next (ite h.setOn.raise h)
theorem trimRelock (h : Evolves s t) : Evolves s (t.trimRelock) := ite (other h.setOff rfl) h
theorem execTroexpWrite {w} (h : Evolves s t) : EvolvesTo s (execTroexpWrite w t) := next (ite h h.trimRelock.setF)

theorem execTroctlWrite {w} (h : Evolves s t) : EvolvesTo s (execTroctlWrite w t) :=
  next (ite h (ite h.trimRelock.writeReg (other h.trimRelock.writeReg rfl)))

theorem execGrainTroTrimmed {p} (h : Evolves s t) : EvolvesTo s (execGrainTroTrimmed p t) := next h.setOn

/-! ## Frequency meter (R164) -/

theorem execFmStart {w} (h : Evolves s t) : EvolvesTo s (execFmStart w t) :=
  next (ite h (ite h.writeReg.setOff.setOff.setOn h.writeReg))

theorem fmEnd {n} (h : Evolves s t) : Evolves s (t.fmEnd n) := ite h.setF.setOff.setOn.setOn h.setF.setOff.setOn
theorem execFmMeasurementDone {count} (h : Evolves s t) : EvolvesTo s (execFmMeasurementDone count t) := next (ite h.fmEnd h)
theorem execFmGateTimeout {count} (h : Evolves s t) : EvolvesTo s (execFmGateTimeout count t) := next (ite h.fmEnd.setOn h)

/-! ## Unit gating -/

theorem execClkenWrite {w} (h : Evolves s t) : EvolvesTo s (execClkenWrite w t) :=
  next (ite h (foldl h fun h => ite h (ite h.setBitF (ite h h.setBitF))))

theorem execUnitGated {b} (h : Evolves s t) : EvolvesTo s (execUnitGated b t) := next (ite h.setBitF h)
theorem execUnitUngated {b} (h : Evolves s t) : EvolvesTo s (execUnitUngated b t) := next (ite h.setBitF h)

/-! ## Keys and cryptography (R363, R364, R366) -/

theorem allocKey {k} (h : Evolves s t) : Evolves s (t.allocKey k) := other h.free.free.setKeyState rfl
theorem retireKey {k} (h : Evolves s t) : Evolves s (t.retireKey k) := other h.setKeyState rfl

theorem keyCtlWrite {w m} (h : Evolves s t) : Evolves s (t.keyCtlWrite w m) :=
  ite h.writeReg (by
    split
    · exact ite h.writeReg.allocKey h.writeReg.setOn
    · exact ite (other h.writeReg.retireKey.setOn rfl) h.writeReg.setOn
    · exact h.writeReg)

theorem execKeyAlloc {k} (h : Evolves s t) : EvolvesTo s (execKeyAlloc k t) := next (h.viaUnit fun h => h.keyCtlWrite)
theorem execKeyRetire {k} (h : Evolves s t) : EvolvesTo s (execKeyRetire k t) := next (h.viaUnit fun h => h.keyCtlWrite)

/-! ## The cache and the tree (R365, R373) -/

theorem evictMeta {as} (h : Evolves s t) : Evolves s (t.evictMeta as) := other h rfl
theorem metaCache {kid addr v} (h : Evolves s t) : Evolves s (t.metaCache kid addr v) := other h rfl

theorem writePath {r kid v path} (h : Evolves s t) : Evolves s (t.writePath r kid v path) := by
  induction path generalizing t v with
  | nil => exact other h rfl
  | cons e path ih => exact ite (ih h.memWrite.metaCache) h.memWrite.metaCache

theorem putMeta {r i w} (h : Evolves s t) : Evolves s (t.putMeta r i w) := h.writePath
theorem putLine {r i kid ctr data} (h : Evolves s t) : Evolves s (t.putLine r i kid ctr data) := h.putMeta.memWrite
theorem poisonLine {r i} (h : Evolves s t) : Evolves s (t.poisonLine r i) := h.putMeta

/-! ## Walks (R374–R377) -/

theorem setJump {r l} (h : Evolves s t) : Evolves s (t.setJump r l) := other h.setF rfl
theorem startWalk {r k} (h : Evolves s t) : Evolves s (t.startWalk r k) := setJump (other h.setF.setF.setF rfl)

theorem autoWalk {r} (h : Evolves s t) : Evolves s (t.autoWalk r) := ite h (by
  split
  exacts [h.allocKey.startWalk, h.setOn])

theorem rekeyDue {r newKey} (h : Evolves s t) : Evolves s (t.rekeyDue r newKey) :=
  ite (ite (other (ite h h.setOn.raise) rfl) (ite h h.setOn.raise)) (ite h (autoWalk (ite h h.setOn.raise)))

theorem execKeyRetireDone {k} (h : Evolves s t) : EvolvesTo s (execKeyRetireDone k t) :=
  next (ite h (by
    extract_lets +onlyGivenNames s₁ m₁ t₁ s₂ m₂ u
    have h₁ : Evolves s t₁ := raise (other h.setKeyState rfl)
    have hu : Evolves s u := ite (other h₁.setOff rfl) h₁
    exact hu.each fun h => ite h.autoWalk h))

theorem rgnWalkWrite {r w m} (h : Evolves s t) : Evolves s (t.rgnWalkWrite r w m) :=
  ite h.writeReg (ite h.writeReg.setOn h.writeReg.startWalk)

theorem execWalkStart {r w} (h : Evolves s t) : EvolvesTo s (execWalkStart r w t) := next (h.viaUnit fun h => h.rgnWalkWrite)

theorem walkDone {r} (h : Evolves s t) : Evolves s (t.walkDone r) := by
  unfold State.walkDone
  extract_lets +onlyGivenNames old t₁ m₁ u
  have h₁ : Evolves s t₁ := h.setF.setJump.setOff.count.setF
  have hu : Evolves s u := retireKey (raise (other h₁ rfl))
  exact ite (autoWalk (setOn (other hu rfl))) hu

theorem walkPast {r} (h : Evolves s t) : Evolves s (t.walkPast r) := ite h.setF.setJump.walkDone h.setF.setJump
theorem walkLine {r i} (h : Evolves s t) : Evolves s (t.walkLine r i) := ite h.putMeta (ite h.poisonLine.mempAlarm h.putLine)

theorem openMeta {r i whole mdecc u} (h : Evolves s t) (e : t.openMeta r i whole mdecc = .ok u) : Evolves s u := by
  unfold State.openMeta at e
  dsimp only at e
  split at e
  · cases e
  · split at e
    · cases e
    · cases e
      exact h.foldl fun h => h.metaCache

theorem execWalkStep {r evict mdecc} (h : Evolves s t) : EvolvesTo s (execWalkStep r evict mdecc t) :=
  next (ite h (ite h.walkPast (ite h (by
    split
    · exact h.evictMeta.rgnFault.mempAlarm
    next u e =>
      have hu : Evolves s u := h.evictMeta.openMeta e
      exact ite hu.walkLine.walkPast hu.walkLine))))

/-! ## Enabling and disabling (R368, R369) -/

theorem dropRgn {r} (h : Evolves s t) : Evolves s (t.dropRgn r) := other h rfl
theorem rgnSettle {r} (h : Evolves s t) : Evolves s (t.rgnSettle r) := ite h (requeue (other h.dropRgn.setF rfl))

theorem rgnEnable {r} (h : Evolves s t) : Evolves s (t.rgnEnable r) :=
  ite h.setOn (rgnGo (foldl h.setOn.setOff fun h => h.startFlip))

theorem rgnCfgWrite {r w m} (h : Evolves s t) : Evolves s (t.rgnCfgWrite r w m) :=
  have hacc := h.writeFld
  have hoff := h.writeReg.setOff
  ite (ite hacc (ite (ite hacc hacc.setOn) (ite hacc hacc.setOff.rgnSettle))) (ite hoff.rgnEnable hoff)

theorem execRegionEnable {r w} (h : Evolves s t) : EvolvesTo s (execRegionEnable r w t) :=
  next (h.viaUnit fun h => h.rgnCfgWrite)

theorem execRegionDisable {r w} (h : Evolves s t) : EvolvesTo s (execRegionDisable r w t) :=
  next (h.viaUnit fun h => h.rgnCfgWrite)

theorem buildTree {r kid} (h : Evolves s t) : Evolves s (t.buildTree r kid) :=
  other (foldl h.free fun h => h.each fun h => h.memWrite) rfl

theorem initLine {r kid i} (h : Evolves s t) : Evolves s (t.initLine r kid i) := h.memWrite.memWrite

theorem execRegionInitDone {r} (h : Evolves s t) : EvolvesTo s (execRegionInitDone r t) :=
  have ht := h.dropRgn.each fun h => h.initLine
  next (ite h (raise (setF (ite ht.buildTree ht))))

/-! ## Line operations (R358, R359, R370, R371, R376) -/

theorem shadowHit {r p} (h : Evolves s t) : Evolves s (t.shadowHit r p) := ite h.mempAlarm.postedFail h.respond

theorem mempAccept {p} (h : Evolves s t) : Evolves s (t.mempAccept p) := by
  unfold State.mempAccept
  dsimp only
  split
  · exact h.homeAccept
  · exact ite h.mempAlarm.respond (by
      split
      exacts [h.respond, h.respond, ite (other h rfl) (other h rfl)])

theorem pAnswer {q} (h : Evolves s t) : Evolves s (t.pAnswer q) := h.respond.rgnSettle

theorem pWrite {r i data} (h : Evolves s t) : MayEvolve s Prod.fst (t.pWrite r i data) :=
  .ite (.ite (.ite .none (.some (fst h.setJump.putLine))) (.some (fst h.setOn.raise)))
    (.some (fst (ite h.putLine.rekeyDue h.putLine)))

theorem pOpened {q k dataUe} (h : Evolves s t) : MayEvolve s Prod.fst (t.pOpened q k dataUe) :=
  .ite h.pWrite (.ite (.some (fst h.mempAlarm)) (.ite (.some (fst h)) (.ite (.some (fst h.poisonLine.mempAlarm))
    (.ite h.pWrite (.some (fst h))))))

theorem pLine {q k evict mdecc dataUe} (h : Evolves s t) : MayEvolve s Prod.fst (t.pLine q k evict mdecc dataUe) :=
  .ite (.some (fst h)) (.ite (.some (fst h)) (by
    dsimp only
    split
    · exact .some (fst h.evictMeta.rgnFault.mempAlarm)
    next e => exact pOpened (h.evictMeta.openMeta e)))

theorem execProtectedLineOperation {l} (h : Evolves s t) : EvolvesTo s (execProtectedLineOperation l t) :=
  next (by
    split
    · exact h
    · refine ite h ?_
      split
      · exact h
      next e =>
        have h' : Evolves s _ := h.pLine _ e
        exact ite (pAnswer (other h' rfl)) (other h' rfl))

/-! ## Device memory under bias (R390–R392) -/

theorem memServe {p} (h : Evolves s t) : Evolves s (t.memServe p) := ite h.mempAccept h.homeAccept
theorem startResolve {p} (h : Evolves s t) : Evolves s (t.startResolve p) := foldl (wakeHome (other h rfl)) fun h => h.askHost

theorem memArrive {p} (h : Evolves s t) : Evolves s (t.memArrive p) :=
  ite h.memServe (by
    split
    · exact ite h.memServe (other h rfl)
    · exact ite (ite h.memServe h.startFlip) (ite h.startResolve h.memServe))

/-! ## The coherent cache (R394) -/

theorem setHline {l v} (h : Evolves s t) : Evolves s (t.setHline l v) := other h rfl

theorem evictLine {l} (h : Evolves s t) : Evolves s (t.evictLine l) := by
  unfold State.evictLine
  split
  exacts [h, h.emit.setHline]

theorem fillLine {l v} (h : Evolves s t) : Evolves s (t.fillLine l v) := ite h.setHline h.free.evictLine.setHline
theorem ownLine {l data} (h : Evolves s t) : Evolves s (t.ownLine l data) := ite h.emit.setHline h.fillLine

theorem cohDone {op status data} (h : Evolves s t) : Evolves s (t.cohDone op status data) := by
  unfold State.cohDone
  dsimp only
  split
  exacts [other h rfl, ite (respond (other (other h rfl) rfl)) (other (other h rfl) rfl)]

theorem cohAsk {op y mask data} (h : Evolves s t) : Evolves s (t.cohAsk op y mask data) := emit (other h rfl)

theorem cohStart {op q} (h : Evolves s t) : Evolves s (t.cohStart op q) := by
  unfold State.cohStart
  split
  · exact ite h.cohDone (by
      split
      exacts [h.setHline.cohDone, h.setHline.cohDone, h.cohAsk])
  · exact ite h.cohAsk (ite h.cohAsk (ite h.cohAsk h.cohAsk))

theorem cohPump {n l} (h : Evolves s t) : Evolves s (State.cohPump n l t) := by
  induction n generalizing t with
  | zero => exact h
  | succ n ih =>
    unfold State.cohPump
    split
    · exact h
    · exact ite h (by
        split
        · exact ih (other h rfl)
        · exact ih h.cohStart)

theorem cohGo {l} (h : Evolves s t) : Evolves s (t.cohGo l) := h.cohPump

theorem cohArrive {p} (h : Evolves s t) : Evolves s (t.cohArrive p) :=
  ite h.respond (ite h.respond (foldl (other h rfl) fun h => h.cohGo))

theorem cohAnswer {op q y a} (h : Evolves s t) : Evolves s (t.cohAnswer op q y a) :=
  ite h (ite h.herr.cohDone.cohGo (cohGo (by
    split
    · exact cohDone (ite h h.fillLine)
    · exact h.cohDone
    · exact h.ownLine.cohDone
    · exact h.ownLine.cohDone
    · split
      exacts [h.ownLine.cohDone, other h rfl]
    · exact h.cohDone
    · exact h.cohDone
    · exact h.cohDone)))

theorem resolveGo {r line} (h : Evolves s t) : Evolves s (t.resolveGo r line) := ite (memServe (other h rfl)) (other h rfl)

theorem execHostResponse {a} (h : Evolves s t) : EvolvesTo s (execHostResponse a t) :=
  next (by
    split
    · split
      exacts [h.cohAnswer, h]
    · split
      · exact h
      · split
        exacts [ite h.resolveGo h, h])

theorem execHostTimeout {hpa} (h : Evolves s t) : EvolvesTo s (execHostTimeout hpa t) :=
  next (by
    split
    · exact h.herr.cohDone.cohGo
    · split
      · exact h
      · split
        exacts [respond (herr (other h rfl)), ite h.herr h])

theorem execHostSnoop {k hpa} (h : Evolves s t) : EvolvesTo s (execHostSnoop k hpa t) :=
  have ht := ite h.wake h
  next (ite h (by
    dsimp only
    split
    · exact ht.emit
    · split
      · exact ht.setHline.emit
      · exact ht.setHline.emit
      · exact ht.emit))

/-! ## Flushes (R395) -/

theorem cohFlush (h : Evolves s t) : Evolves s (t.cohFlush) :=
  other (setOn (foldl h fun h => by
    split
    exacts [h.emit, h])) rfl

theorem cohCtlWrite {w m} (h : Evolves s t) : Evolves s (t.cohCtlWrite w m) := ite h.writeReg.cohFlush h.writeReg
theorem execFlush (h : Evolves s t) : EvolvesTo s (execFlush t) := next (h.viaUnit fun h => ite h h.cohFlush)
theorem execFlushDone (h : Evolves s t) : EvolvesTo s (execFlushDone t) := next (ite h.setOff.setOn.raise h)

/-! ## CXL.mem (R387, R390, R398) -/

theorem hostSend {p x} (h : Evolves s t) : Evolves s (t.hostSend p x) := inject (other h rfl)

theorem memReply {write tag hpa dpa status data} (h : Evolves s t) : Evolves s (t.memReply write tag hpa dpa status data) :=
  ite (ite h.emit (ite h.emit.herr h.emit.herr)) (ite h.emit h.emit.herr)

theorem memSend {write opc tag hpa dpa mask data} (h : Evolves s t) : Evolves s (t.memSend write opc tag hpa dpa mask data) := by
  unfold State.memSend
  split
  · exact h.memReply
  · split
    exacts [h.hostSend, h.memReply]

theorem execMemrd {hpa tag} (h : Evolves s t) : EvolvesTo s (execMemrd hpa tag t) :=
  next (by
    split
    exacts [h.memSend, h.free.memReply])

theorem execMemwr {w} (h : Evolves s t) : EvolvesTo s (execMemwr w t) :=
  next (by
    split
    exacts [ite h.memSend h.memSend, h.memReply])

/-! ## The link (R380, R399) -/

theorem dropHost (h : Evolves s t) : Evolves s (t.dropHost) :=
  other (foldl (foldl h fun h => cohDone (ite h.herr h)) fun h => respond (foldl h fun h => h.herr)) rfl

theorem execLinkDown (h : Evolves s t) : EvolvesTo s (execLinkDown t) :=
  next (ite h (by
    extract_lets +onlyGivenNames t₁ dirty s₁ u v
    have h₁ : Evolves s t₁ := h.setOff.setOn.raise
    have hu : Evolves s u := other h₁.count.dropHost rfl
    have hv : Evolves s v := ite hu.biasClear.setOn hu
    exact other hv.setOff.setOff rfl))

theorem execLinkUp {speed width cxl cacheEn memEn msixEn} (h : Evolves s t) :
    EvolvesTo s (execLinkUp speed width cxl cacheEn memEn msixEn t) := by
  unfold Machine.execLinkUp
  extract_lets +onlyGivenNames mode change t₁ u v
  have hv : Evolves s v := other h.setOn.setF.setF.setF.setF.setF rfl
  exact next (ite h (ite hv.setOn.raise hv))

/-! ## Counting and correction -/

theorem execTimeClockTick (h : Evolves s t) : EvolvesTo s (execTimeClockTick t) :=
  next (ite h (by
    extract_lets t₁ u
    have hu : Evolves s u := h.setTime.foldl fun h => other h rfl
    exact other hu rfl))

theorem corrAccepted (h : Evolves s t) : Evolves s (t.corrAccepted) := other h.setOff rfl

theorem execIncWrite {w} (h : Evolves s t) : EvolvesTo s (execIncWrite w t) :=
  next (h.viaUnit fun h => ite (other h.setF.setOn.corrAccepted rfl) h.setOn)

theorem execStepgo {w} (h : Evolves s t) : EvolvesTo s (execStepgo w t) :=
  next (h.viaUnit fun h => ite h.writeReg (ite h.writeReg.setOn (other h.writeReg.setOn.corrAccepted rfl)))

/-! ## Timer channels -/

theorem setTmr {c v} (h : Evolves s t) : Evolves s (t.setTmr c v) := other h rfl
theorem disarm {c} (h : Evolves s t) : Evolves s (t.disarm c) := h.setOff.setOff.setTmr
theorem tmrSent {c idx} (h : Evolves s t) : Evolves s (t.tmrSent c idx) := h.setTmr
theorem tmrShow {c} (h : Evolves s t) : Evolves s (t.tmrShow c) := h.setTime

theorem tmrCtlWrite {c w m} (h : Evolves s t) : Evolves s (t.tmrCtlWrite c w m) :=
  ite (ite h.writeFld.disarm h.writeFld) (ite h.writeReg (ite h.writeReg.setOn.setTmr h.writeReg.setOff.setOn.setF))

theorem execTimerArm {c w} (h : Evolves s t) : EvolvesTo s (execTimerArm c w t) := next (h.viaUnit fun h => h.tmrCtlWrite)
theorem execTimerDisarm {c w} (h : Evolves s t) : EvolvesTo s (execTimerDisarm c w t) := next (h.viaUnit fun h => h.tmrCtlWrite)
theorem tmrEvt {c} (h : Evolves s t) : Evolves s (t.tmrEvt c) := ite h (ite h.setBitF h.setBitF.raise)

theorem tmrAdvance {c} (h : Evolves s t) : Evolves s (t.tmrAdvance c) :=
  ite h.disarm (ite h.setTmr.tmrShow (ite h.setTmr.tmrShow.setF.disarm h.setTmr.tmrShow.setF))

theorem trigPulse {k v} (h : Evolves s t) : Evolves s (t.trigPulse k v) := ite h (other h rfl)

theorem execTimerFire {c} (h : Evolves s t) : EvolvesTo s (execTimerFire c t) :=
  next (ite h (ite (by
    split
    exacts [h, ite h h.tmrEvt.tmrAdvance]) (ite h (tmrAdvance (tmrEvt (ite h.trigPulse h))))))

theorem execTimedLineSend {c} (h : Evolves s t) : EvolvesTo s (execTimedLineSend c t) := next (ite h (other h.tmrSent rfl))

theorem execTriggerPulseEnd {k} (h : Evolves s t) : EvolvesTo s (execTriggerPulseEnd k t) :=
  next (by
    split
    exacts [ite (other h rfl) h, h])

theorem execPpsOutPulse (h : Evolves s t) : EvolvesTo s (execPpsOutPulse t) :=
  next (by
    split
    exacts [h, ite (other h rfl) (other h rfl)])

theorem execPpsOutPulseEnd (h : Evolves s t) : EvolvesTo s (execPpsOutPulseEnd t) :=
  next (by
    split
    exacts [ite (other h rfl) h, h])

/-! ## The correction boundary -/

theorem tmrStep {v c} (h : Evolves s t) : Evolves s (t.tmrStep v c) :=
  have hu := h.setOn.setTmr.tmrShow
  ite h (ite h (ite h.setOn.disarm (ite hu (ite hu.setF.disarm hu.setF))))

theorem pitchStep (h : Evolves s t) : Evolves s (t.pitchStep) := foldl h fun h => by
  split
  exacts [ite (other h rfl) h, h]

theorem applyStep {off} (h : Evolves s t) : Evolves s (t.applyStep off) :=
  ite (other h.setTime.mapReplicas rfl) (pitchStep (foldl (other h.setTime.mapReplicas rfl) fun h => h.tmrStep))

theorem execCorrectionBoundary (h : Evolves s t) : EvolvesTo s (execCorrectionBoundary t) :=
  next (ite h (by
    extract_lets +onlyGivenNames s₁ t₁
    have h₁ : Evolves s t₁ := by
      unfold t₁
      split
      · exact ite (other h.setOff.setOn rfl) h
      · exact h
    clear_value t₁
    split
    · exact ite h₁ (ite (setOn (other h₁.setOff rfl)) (setOn (applyStep (other h₁.setOff rfl))))
    · exact h₁))

theorem execHoldover (h : Evolves s t) : EvolvesTo s (execHoldover t) := next (ite h.setOn.setOn.raise h)
theorem execReplicaCheck (h : Evolves s t) : EvolvesTo s (execReplicaCheck t) := next (ite h.mapReplicas h)

/-! ## Captures -/

theorem takeSeq (h : Evolves s t) : Evolves s (t.takeSeq) := other h rfl
theorem capLost (h : Evolves s t) : Evolves s (t.capLost) := ite h.count.setOn h.count.setOn.raise

theorem windowHit {w v} (h : Evolves s t) : Evolves s (t.windowHit w v) :=
  have hu := h.count.setTime.setOn
  ite h.count (ite hu (ite hu.setBitF hu.setBitF.raise))

theorem capture {code edge pkind v spaced} (h : Evolves s t) : Evolves s (t.capture code edge pkind v spaced) :=
  have ht := foldl h fun h => h.windowHit
  ite h.takeSeq.capLost (ite ht (other ht.takeSeq rfl))

theorem execTriggerInputEdge {k falling time spaced} (h : Evolves s t) : EvolvesTo s (execTriggerInputEdge k falling time spaced t) :=
  next (ite h.capture h)

theorem execPpsInEdge {falling time} (h : Evolves s t) : EvolvesTo s (execPpsInEdge falling time t) := next (ite h.capture h)
theorem execTsreq {pos} (h : Evolves s t) : EvolvesTo s (execTsreq pos t) := next (ite h.capture h)
theorem pitchStamp {kind} (h : Evolves s t) : Evolves s (t.pitchStamp kind) := ite h.capture h

theorem execCapturePathFail {code} (h : Evolves s t) : EvolvesTo s (execCapturePathFail code t) :=
  next (ite (raise (setOn (other h rfl))) h)

/-! ## The ring -/

theorem ringMark {before} (h : Evolves s t) : Evolves s (t.ringMark before) := ite h.setOn.raise h

theorem ringComplete {status} (h : Evolves s t) : Evolves s (t.ringComplete status) := by
  unfold State.ringComplete
  split
  exacts [h, ite (capLost (other h rfl)) (ringMark (setF (other h rfl)))]

theorem execRingWrite (h : Evolves s t) : EvolvesTo s (execRingWrite t) :=
  next (by
    split
    · exact h
    · refine ite h ?_
      extract_lets t₁
      have h₁ : Evolves s t₁ := other h rfl
      refine ite h₁.capLost ?_
      dsimp only
      split
      · exact other h₁.inject rfl
      · exact h₁.capLost)

theorem tscfgWrite {w m} (h : Evolves s t) : Evolves s (t.tscfgWrite w m) :=
  have hu := writeFld (writeFld (writeFld (ite h h.writeFld)))
  ite (other hu.setF.setF rfl) hu

theorem execRingEnable {w} (h : Evolves s t) : EvolvesTo s (execRingEnable w t) := next (h.viaUnit fun h => h.tscfgWrite)

/-! ## Windows -/

theorem winCtlWrite {w v m} (h : Evolves s t) : Evolves s (t.winCtlWrite w v m) :=
  ite h.writeFld.writeFld.writeFld.writeFld (ite h.writeReg (ite h.writeReg.setOff.setOn h.writeReg.setF))

theorem execWindowEnable {k w} (h : Evolves s t) : EvolvesTo s (execWindowEnable k w t) :=
  next (h.viaUnit fun h => h.winCtlWrite)

theorem execOccurrenceEnd {k} (h : Evolves s t) : EvolvesTo s (execOccurrenceEnd k t) :=
  next (ite h (ite h.setF.setOff h.setF.setTime.setTime))

/-! ## Registers with rules of their own -/

theorem timeWrite {r f i w m} (h : Evolves s t) (hr : r ≠ .tunFeatlock := by simp) : Evolves s (t.timeWrite r f i w m) :=
  ite h (h.writeReg hr)

theorem holdoverWrite {w m} (h : Evolves s t) : Evolves s (t.holdoverWrite w m) := ite h.writeReg.setOff h.writeReg
theorem tsrdWrite {w m} (h : Evolves s t) : Evolves s (t.tsrdWrite w m) := h.writeReg.ringMark

/-! ## Lanes -/

theorem viaLane {r l j k} (h : Evolves s t) (hk : ∀ {t}, Evolves s t → Evolves s (k t)) : Evolves s (t.viaLane r l j k) :=
  ite h (ite h.gateHit (h.viaUnit hk))

/-! ## States of a lane -/

theorem leaveUp {l} (h : Evolves s t) : Evolves s (t.leaveUp l) := ite h.setF.setOn.raiseG h.setF
theorem rxOff {l} (h : Evolves s t) : Evolves s (t.rxOff l) := h.leaveUp.setOff.setOff
theorem injectNow {l} (h : Evolves s t) : Evolves s (t.injectNow l) := ite h.setOff.emit h
theorem quadSettle {l} (h : Evolves s t) : Evolves s (t.quadSettle l) := ite (ite h.setOff.startTransition h.setOff) h

theorem laneEnter {l st} (h : Evolves s t) : Evolves s (t.laneEnter l st) :=
  quadSettle (injectNow (ite (other (other (setF (ite h.rxOff h)) rfl) rfl) (other (setF (ite h.rxOff h)) rfl)))

theorem laneApply {l} (h : Evolves s t) : Evolves s (t.laneApply l) := ite h h.laneEnter
theorem lanesApply (h : Evolves s t) : Evolves s (t.lanesApply) := h.each fun h => h.laneApply
theorem laneWake {l} (h : Evolves s t) : Evolves s (t.laneWake l) := ite (ite (wake (other h rfl)) (other h rfl)) h
theorem execLaneExitDone {l} (h : Evolves s t) : EvolvesTo s (execLaneExitDone l t) := next (ite h.laneEnter h)

theorem lpmWrite {l w m} (h : Evolves s t) : Evolves s (t.lpmWrite l w m) :=
  ite h.writeReg (by
    split
    exacts [h.writeReg.laneWake, h.writeReg.laneEnter, h.writeReg.laneEnter])

theorem execLanePowerRequest {l w} (h : Evolves s t) : EvolvesTo s (execLanePowerRequest l w t) :=
  next (h.viaLane fun h => h.lpmWrite)

theorem execStandbyTimeout {l} (h : Evolves s t) : EvolvesTo s (execStandbyTimeout l t) :=
  next (ite (laneEnter (other h rfl)) h)

theorem execSleepTimeout {l} (h : Evolves s t) : EvolvesTo s (execSleepTimeout l t) := next (ite h.laneEnter h)

/-! ## Settings -/

theorem qpllSet {l w m} (h : Evolves s t) : Evolves s (t.qpllSet l w m) :=
  have hu := ite h.writeReg h.writeReg.setF.setF
  ite hu hu.setOff

theorem execQpllWrite {l w} (h : Evolves s t) : EvolvesTo s (execQpllWrite l w t) := next (h.viaLane fun h => h.qpllSet)
theorem execQpllLock {l} (h : Evolves s t) : EvolvesTo s (execQpllLock l t) := next (ite h.setOn h)
theorem execQpllLossOfLock {l} (h : Evolves s t) : EvolvesTo s (execQpllLossOfLock l t) := next (ite h.setOff.setOn h)
theorem setBond {l v} (h : Evolves s t) : Evolves s (t.setBond l v) := other h rfl
theorem bondFail {l} (h : Evolves s t) : Evolves s (t.bondFail l) := setBond (foldl h fun h => h.setOn)

theorem bondEval {l} (h : Evolves s t) : Evolves s (t.bondEval l) := by
  unfold State.bondEval
  split
  exacts [h.setBond, ite h.setBond h.bondFail]

theorem lcfgWrite {l w m} (h : Evolves s t) : Evolves s (t.lcfgWrite l w m) :=
  have hu := ite h.writeReg.setF h.writeReg
  ite (ite hu.bondEval hu) (laneApply (ite hu.bondEval hu))

theorem execBondAligned {l within} (h : Evolves s t) : EvolvesTo s (execBondAligned l within t) :=
  next (ite (ite h.setBond h.bondFail) h)

/-! ## Bring-up (R441) -/

theorem execSignalDetected {l} (h : Evolves s t) : EvolvesTo s (execSignalDetected l t) := next (ite h.setOn.setOn.setF h)
theorem execCommaFound {l} (h : Evolves s t) : EvolvesTo s (execCommaFound l t) := next (ite h.setF h)
theorem execValidSymbolRun {l} (h : Evolves s t) : EvolvesTo s (execValidSymbolRun l t) := next (ite h.setF.setOn h)

theorem execInvalidSymbol {l disparity} (h : Evolves s t) : EvolvesTo s (execInvalidSymbol l disparity t) :=
  have ht := (h.count (by split <;> simp)).setOn
  next (ite h (ite ht.setF ht))

/-! ## The lane port (R437–R440) -/

theorem execTxBeat {l data k sent} (h : Evolves s t) : EvolvesTo s (execTxBeat l data k sent t) :=
  next (ite h (laneWake (other h rfl)))

theorem execRxBeat {l data k bv err taken} (h : Evolves s t) : EvolvesTo s (execRxBeat l data k bv err taken t) :=
  next (ite h (ite (other h rfl) (setOn (other h rfl))))

/-! ## Test (R444, R445) -/

theorem execCheckerLock {l} (h : Evolves s t) : EvolvesTo s (execCheckerLock l t) := next (ite h.setOn h)

theorem execCheckerLost {l errs bits} (h : Evolves s t) : EvolvesTo s (execCheckerLost l errs bits t) :=
  next (ite h (other h.setOff.setOn.count.setF rfl))

theorem pchkWrite {l w m} (h : Evolves s t) : Evolves s (t.pchkWrite l w m) :=
  have hu := ite h.writeReg h.writeReg.setOff
  ite (other hu.setF.setF rfl) hu

theorem execCheckerClear {l w} (h : Evolves s t) : EvolvesTo s (execCheckerClear l w t) := next (h.viaLane fun h => h.pchkWrite)
theorem injWrite {l w m} (h : Evolves s t) : Evolves s (t.injWrite l w m) := ite h.writeReg.setOn.injectNow h.writeReg
theorem execInjectGo {l w} (h : Evolves s t) : EvolvesTo s (execInjectGo l w t) := next (h.viaLane fun h => h.injWrite)

/-! ## Timestamps (R412, R414, R446) -/

theorem execLaneSymbolCapture {x} (h : Evolves s t) : EvolvesTo s (execLaneSymbolCapture x t) :=
  next (ite h (ite (ite h.capture h) (ite (ite (capture (other h rfl)) (other h rfl)) h)))

/-! ## Wort links -/

theorem setWort {k v} (h : Evolves s t) : Evolves s (t.setWort k v) := other h rfl
theorem wortState {k st} (h : Evolves s t) : Evolves s (t.wortState k st) := ite h h.setF.setOn.raise

/-! ## Sending (R449, R450, R454) -/

theorem wortPump {n k} (h : Evolves s t) : Evolves s (State.wortPump n k t) := by
  induction n generalizing t with
  | zero => exact h
  | succ n ih =>
    unfold State.wortPump
    dsimp only
    split
    · exact h
    · exact ite h (ih h.setWort.emit)

theorem wortGo {k} (h : Evolves s t) : Evolves s (t.wortGo k) := h.wortPump
theorem wortFlits {k p} (h : Evolves s t) : Evolves s (t.wortFlits k p) := h.setWort.wortGo
theorem wortSend {k p} (h : Evolves s t) : Evolves s (t.wortSend k p) := ite h.setWort.wortFlits h.wortFlits

theorem wortGrant {k p} (h : Evolves s t) : Evolves s (t.wortGrant k p) := by
  unfold State.wortGrant
  dsimp only
  split
  exacts [h, h.setWort.wortFlits]

/-! ## Receiving -/

theorem wortIn {k p} (h : Evolves s t) : Evolves s (t.wortIn k p) := by
  unfold State.wortIn
  split
  exacts [h.wortGrant, h.wortFlits, other h rfl]

theorem wortFlit {k type vn flit} (h : Evolves s t) : Evolves s (t.wortFlit k type vn flit) := ite h.setWort.wortIn h.setWort
theorem wortAck {k c} (h : Evolves s t) : Evolves s (t.wortAck k c) := wortGo (ite (foldl h.setWort fun h => h.emit) h.setWort)

theorem execCell {k c} (h : Evolves s t) : EvolvesTo s (execCell k c t) :=
  have ht := h.wortAck
  next (ite h (ite h.setWort.emit (ite ht (ite (ite ht.setWort ht) (wortFlit (ite ht.setWort.count ht.setWort))))))

theorem execLinkCell {k farUp nextSet} (h : Evolves s t) : EvolvesTo s (execLinkCell k farUp nextSet t) :=
  next (ite h h.setWort)

theorem execWortFrame {k lane frameNo skipAdjust} (h : Evolves s t) : EvolvesTo s (execWortFrame k lane frameNo skipAdjust t) :=
  next (ite h (by
    dsimp only
    split
    exacts [h.setWort, h.setWort.setF.wortState.wortGo]))

theorem wortSettle {k} (h : Evolves s t) : Evolves s (t.wortSettle k) := ite h.setF.wortState h

theorem execLaneDown {l signal cdr} (h : Evolves s t) : EvolvesTo s (execLaneDown l signal cdr t) :=
  next (ite h h.leaveUp.setF.setF.wortSettle)

/-! ## Enabling (R447) -/

theorem wortMode {k mode} (h : Evolves s t) : Evolves s (t.wortMode k mode) := foldl h fun h => h.setF.setOff.laneApply
theorem wortOff {k} (h : Evolves s t) : Evolves s (t.wortOff k) := h.setOff.wortMode.setF.wortState.setWort
theorem wortOn {k} (h : Evolves s t) : Evolves s (t.wortOn k) := ite h.setOn h.setOn.wortMode.wortState

theorem wortLinkWrite {k w m} (h : Evolves s t) : Evolves s (t.wortLinkWrite k w m) :=
  ite h.writeReg.setF (ite h.writeReg.setF.wortOn (ite h.writeReg.setF.wortOff h.writeReg.setF))

theorem execWortLinkEnable {k} (h : Evolves s t) : EvolvesTo s (execWortLinkEnable k t) :=
  next (h.viaUnit fun h => h.wortLinkWrite)

theorem execWortLinkDisable {k} (h : Evolves s t) : EvolvesTo s (execWortLinkDisable k t) :=
  next (h.viaUnit fun h => h.wortLinkWrite)

theorem execWortLinkDownTimeout {k} (h : Evolves s t) : EvolvesTo s (execWortLinkDownTimeout k t) :=
  next (ite h (raiseG (setOn (other h rfl))))

/-! ## Discovery (R451, R452, R454) -/

theorem putRoute {d r} (h : Evolves s t) : Evolves s (t.putRoute d r) := by
  unfold State.putRoute
  split
  exacts [h.setF.setF.setOn, h.setF.setF.setOff]

theorem putPeer {nums k p} (h : Evolves s t) : Evolves s (t.putPeer nums k p) := by
  unfold State.putPeer
  split
  exacts [h, h.setF.setF.setF]

theorem execWortDiscovery {devs self routes peers} (h : Evolves s t) : EvolvesTo s (execWortDiscovery devs self routes peers t) :=
  next (ite h (by
    dsimp only
    split
    · exact h.setOn.each fun h => ite h.wortOff h
    · exact raise (setOn (each (h.setF.setOn.setF.setF.setF.each fun h => h.putRoute) fun h => h.putPeer))))

theorem wortReload (h : Evolves s t) : Evolves s (t.wortReload) := h.lanesApply.each fun h => ite h.setF.wortState.setWort h

/-! ## Start and clear -/

theorem startTiles {n p} (h : Evolves s t) : Evolves s (t.startTiles n p) :=
  foldl (other h rfl) fun h => ite (by
    dsimp only
    split
    exacts [setSlice (other h rfl), other h rfl]) h

theorem updFrozen {n} (h : Evolves s t) : Evolves s (t.updFrozen n) := h.setF
theorem setFrozen {n part on} (h : Evolves s t) : Evolves s (t.setFrozen n part on) := updFrozen (other h rfl)
theorem thawAll {n} (h : Evolves s t) : Evolves s (t.thawAll n) := updFrozen (other h rfl)
theorem clearFrames {n p} (h : Evolves s t) : Evolves s (t.clearFrames n p) := other h rfl
theorem clearPos {n} (h : Evolves s t) : Evolves s (t.clearPos n) := h.clearFrames.updSpanActive

/-! ## Frames -/

theorem writeContent {n fa data} (h : Evolves s t) : Evolves s (t.writeContent n fa data) := by
  unfold State.writeContent
  split
  · exact foldl h fun h => h.setRamRow
  · exact foldl h fun h => h.setDeep
  · exact foldl h fun h => h.coefWrite
  · exact h

theorem writeFrame {n fa data} (h : Evolves s t) : Evolves s (t.writeFrame n fa data) :=
  ite h.writeContent (ite h.setFrame.updSpanActive h.setFrame)

theorem frameSecded {f} (h : Evolves s t) : Evolves s (t.frameSecded f).2 :=
  foldlBy Prod.snd (snd h) fun h => snd h.secded

theorem writeState {n type idx data} (h : Evolves s t) : Evolves s (t.writeState n type idx data) :=
  ite (setF (foldl h fun h => other h rfl)) (foldl h fun h => other h rfl)

theorem restoreQ {n p} (h : Evolves s t) : Evolves s (t.restoreQ n p) := foldl (other h rfl) fun h => other h rfl

theorem restoreSnaps {n} (h : Evolves s t) : Evolves s (t.restoreSnaps n) :=
  foldl (foldl h fun h => h.setSlice) fun h => ite h.setPort.setPort h.setPort

/-! ## Pitch entries (R289–R291) -/

theorem setPitch {k p} (h : Evolves s t) : Evolves s (t.setPitch k p) := setF (other h rfl)
theorem takeSecHi {k} (h : Evolves s t) : Evolves s (t.takeSecHi k) := other h rfl

theorem pitchStart (h : Evolves s t) : Evolves s (t.pitchStart) :=
  ite h.setOn (by
    split
    exacts [h.setOn, ite h.setOn h.setPitch])

theorem execPitchSchedule {w} (h : Evolves s t) : EvolvesTo s (execPitchSchedule w t) :=
  next (h.viaUnit fun h => ite h.writeReg.pitchStart h.writeReg)

theorem sendTimerPitch {c} (h : Evolves s t) : Evolves s (t.sendTimerPitch c) := ite h h.tmrSent.setPitch

theorem execPitchSend {r} (h : Evolves s t) : EvolvesTo s (execPitchSend r t) :=
  next (by
    split
    · exact h.sendTimerPitch
    · split
      exacts [ite h.setPitch h, h]
    · split
      exacts [ite h.setPitch h, h]
    · split
      exacts [ite h.setPitch h, h]
    · split
      exacts [ite h.setPitch h, h])

theorem takePitch {key kind} (h : Evolves s t) : MayEvolve s Prod.snd (t.takePitch key kind) := by
  unfold State.takePitch
  split
  · exact .none
  · split
    · exact .none
    · exact .ite .none (.some (pitchStamp (ite (other h.setPitch rfl) h.setPitch)))

theorem execDesignPitch {r} (h : Evolves s t) : EvolvesTo s (execDesignPitch r t) :=
  next (by
    split
    next e => exact h.takePitch _ e
    · exact h)

/-! ## Freeze and thaw (R293, R294) -/

theorem freezeSel {sel on} (h : Evolves s t) : Evolves s (t.freezeSel sel on) :=
  foldl h fun h => ite (foldl h fun h => h.setFrozen) h

theorem execFreezePitch {r} (h : Evolves s t) : EvolvesTo s (execFreezePitch r t) :=
  next (by
    split
    next e => exact freezeSel (h.takePitch _ e)
    · exact h)

theorem execThawPitch {r} (h : Evolves s t) : EvolvesTo s (execThawPitch r t) :=
  next (by
    split
    next e => exact freezeSel (h.takePitch _ e)
    · exact h)

/-! ## Capture (R294–R297) -/

theorem tear {ns} (h : Evolves s t) : Evolves s (t.tear ns) := ite h.setOn h
theorem setCapsel {k busy} (h : Evolves s t) : Evolves s (t.setCapsel k busy) := other h rfl

theorem remapStop (h : Evolves s t) : Evolves s (t.remapStop) :=
  other (foldl h fun h => by
    dsimp only
    split
    exacts [h.setBitF.setBitF, h]) rfl

theorem captureEnd (h : Evolves s t) : Evolves s (t.captureEnd) := by
  unfold State.captureEnd
  split
  · exact h
  · extract_lets ns tiles t₁ u seq v w x
    have h₁ : Evolves s t₁ := h.foldl fun h => h.captureBits
    have hu : Evolves s u := h₁.foldl fun h => foldl (h.foldl fun h => h.captureSlice) fun h => h.captureBlock
    have hv : Evolves s v := hu.foldl fun h => h.setF.setF
    have hw : Evolves s w := tear (setOn (setF (other hv rfl)))
    have hx : Evolves s x := raise (optElim hw fun _ => hw.setCapsel)
    exact ite hx.remapStop hx

theorem captureAt {sel capsel remap} (h : Evolves s t) : Evolves s (t.captureAt sel capsel remap) :=
  have ht := optElim h.setOn fun _ => h.setOn.setCapsel
  ite (ite ht.remapStop ht) (tear (setF (setF (other h.captureEnd rfl))))

theorem execCapturePitch {r} (h : Evolves s t) : EvolvesTo s (execCapturePitch r t) :=
  next (by
    split
    · exact h
    next e =>
      have h' := h.takePitch _ e
      split
      · exact h'.captureAt
      · exact h'.setF.dnpRest.dnpRest.captureAt
      · exact h'.captureAt
      · exact h'.captureAt
      · exact h'.captureAt)

theorem execCaptureComplete (h : Evolves s t) : EvolvesTo s (execCaptureComplete t) := next h.captureEnd

theorem execCapselRequest {k sel lead} (h : Evolves s t) : EvolvesTo s (execCapselRequest k sel lead t) :=
  next (ite h h.setCapsel.setPitch)

/-! ## Configuration-path access (R298, R299) -/

theorem accEnd {code} (h : Evolves s t) : Evolves s (t.accEnd code) := raise (ite h.setOff.setOn h.setOff.setOn.setF)

theorem accCtlWrite {w m} (h : Evolves s t) : Evolves s (t.accCtlWrite w m) :=
  ite h.writeReg (ite (accEnd (setF (setOff (setOn (other h.writeReg rfl))))) (setF (setOff (setOn (other h.writeReg rfl)))))

theorem execAccessReadJob {w} (h : Evolves s t) : EvolvesTo s (execAccessReadJob w t) := next (h.viaUnit fun h => h.accCtlWrite)

theorem execAccessWriteJob {w} (h : Evolves s t) : EvolvesTo s (execAccessWriteJob w t) :=
  next (h.viaUnit fun h => h.accCtlWrite)

theorem execAccessRestoreJob {w} (h : Evolves s t) : EvolvesTo s (execAccessRestoreJob w t) :=
  next (h.viaUnit fun h => h.accCtlWrite)

theorem accRead {j} (h : Evolves s t) : Evolves s (t.accRead j) := ite h.frameSecded.memWrite (ite h.memWrite h.memWrite)
theorem accWrite {j} (h : Evolves s t) : Evolves s (t.accWrite j) := ite h.writeContent h.writeState

theorem execAccessFrame {memError} (h : Evolves s t) : EvolvesTo s (execAccessFrame memError t) :=
  have ht := ite h.accRead (ite h.accWrite h.restoreQ)
  next (ite h (ite h.accEnd (ite (accEnd (setF (other ht rfl))) (setF (other ht rfl)))))

/-! ## The pass (R282, R283) -/

theorem setSpg {n v} (h : Evolves s t) : Evolves s (t.setSpg n v) := other h rfl
theorem passStart {n} (h : Evolves s t) : Evolves s (t.passStart n) := h.setSpg.setF
theorem passDrop {n} (h : Evolves s t) : Evolves s (t.passDrop n) := h.setSpg.setF
theorem execSpargePassStart {pos} (h : Evolves s t) : EvolvesTo s (execSpargePassStart pos t) := next (ite h h.passStart)

/-! ## Findings (R286–R288) -/

theorem updFindings (h : Evolves s t) : Evolves s (t.updFindings) := h.setF.setF.setF.setF.setF.setF.setF.setF.setF
theorem findingOvf (h : Evolves s t) : Evolves s (t.findingOvf) := ite h.count.setOn h.count.setOn.raise

theorem finding {n cls fa wrong} (h : Evolves s t) : Evolves s (t.finding n cls fa wrong) := by
  unfold State.finding
  extract_lets +onlyGivenNames p f info t₁ u
  have h₁ : Evolves s t₁ := ite h.count.setOn (ite h.count.setOn h.count.setOn)
  have hu : Evolves s u := ite (updFindings (other h₁ rfl)) h₁.findingOvf
  exact ite hu.raiseG (ite hu.setSpg.raiseG hu.setSpg)

theorem execFindingPop {w} (h : Evolves s t) : EvolvesTo s (execFindingPop w t) :=
  next (h.viaUnit fun h => ite (updFindings (other h rfl)) h)

/-! ## The check of a frame (R284) -/

theorem frameFixed {n fa} (h : Evolves s t) : Evolves s (t.frameFixed n fa) := h.setFrame.updSpanActive

theorem checkFrame {n fa} (h : Evolves s t) : Evolves s (t.checkFrame n fa) :=
  ite h.setFrame (ite h (ite h.setFrame (ite h.setFrame.frameFixed.finding (finding (other h.setFrame rfl)))))

theorem execFrameCheck {pos} (h : Evolves s t) : EvolvesTo s (execFrameCheck pos t) :=
  next (ite h (ite h.checkFrame.setF h.checkFrame.setSpg.setF.countWrap))

/-! ## Rewrites (R285) -/

theorem execFrameRewrite {pos fa sourceOk readBack} (h : Evolves s t) : EvolvesTo s (execFrameRewrite pos fa sourceOk readBack t) :=
  next (ite h (ite (finding (setFrame (other h rfl))) (by
    split
    · exact frameFixed (setFrame (other h rfl))
    · exact ite (frameFixed (setFrame (other h rfl))) (finding (updSpanActive (setFrame (setFrame (other h rfl))))))))

/-! ## The clock tree (R203, R204) -/

theorem setClk {p v} (h : Evolves s t) : Evolves s (t.setClk p v) := other h rfl
theorem adopt {p d depth} (h : Evolves s t) : Evolves s (t.adopt p d depth) := foldl h.setClk fun h => h.setF

theorem execClockAdopted {l} (h : Evolves s t) : EvolvesTo s (execClockAdopted l t) :=
  next (by
    split
    · exact h
    · exact ite h (by
        split
        · exact h
        · exact ite h.adopt.loadReplicas (optElim h.adopt.loadReplicas fun _ => h.adopt.loadReplicas.clearPos)))

theorem execOrphan {p} (h : Evolves s t) : EvolvesTo s (execOrphan p t) :=
  next (ite h (by
    split
    exacts [optElim h.adopt fun _ => h.adopt.raiseG, h.setClk]))

/-! ## Die reset (R229) -/

theorem dieReset {n} (h : Evolves s t) : Evolves s (t.dieReset n) := setDnp (setDnp (other h.setPos rfl))
theorem linkOff {key} (h : Evolves s t) : Evolves s (t.linkOff key) := other h rfl

theorem grainLinksOff {p} (h : Evolves s t) : Evolves s (t.grainLinksOff p) :=
  foldl h fun h => by
    split
    exacts [h.linkOff.linkOff, h.linkOff, h]

theorem grainLost {p} (h : Evolves s t) : Evolves s (t.grainLost p) :=
  raise (setOn (setOff (setF (setF (setF (optElim h.setClk.grainLinksOff fun _ => h.setClk.grainLinksOff.setBitF.dieReset))))))

theorem execOrphanTimeout {p} (h : Evolves s t) : EvolvesTo s (execOrphanTimeout p t) := next (ite h.grainLost h)
theorem execGrainClockLoss {p} (h : Evolves s t) : EvolvesTo s (execGrainClockLoss p t) := next (ite h.grainLost h)

theorem execClockRegained {l} (h : Evolves s t) : EvolvesTo s (execClockRegained l t) :=
  next (by
    split
    · exact h
    · exact ite h (by
        split
        exacts [h, ite h.adopt.loadReplicas.setOn h.adopt.loadReplicas]))

theorem grstWrite {w m} (h : Evolves s t) : Evolves s (t.grstWrite w m) := ite h (foldl h.writeReg fun h => ite h.dieReset h)

theorem execHoldWrite {w lowHalf highHalf} (h : Evolves s t) : EvolvesTo s (execHoldWrite w lowHalf highHalf t) :=
  next (h.viaUnit fun h => h.grstWrite)

theorem execHoldRelease {pos} (h : Evolves s t) : EvolvesTo s (execHoldRelease pos t) :=
  next (ite h (ite h.setPos.thawAll h.setPos.thawAll.startTiles))

/-! ## Link start (R207) -/

theorem execLinkTrainingDone {l bad} (h : Evolves s t) : EvolvesTo s (execLinkTrainingDone l bad t) :=
  next (ite h (by
    split
    · exact setBitF (setBitF (evalLink (updLanes (foldl h.setLnk fun h => h.trainedBad))))
    · exact evalLink (updLanes (foldl h.setLnk fun h => h.trainedBad))))

/-! ## Discovery (R215, R216) -/

theorem execDiscoveryToken {d port} (h : Evolves s t) : EvolvesTo s (execDiscoveryToken d port t) := next (ite h (other h rfl))

theorem portStarts {d a} (h : Evolves s t) : Evolves s (t.portStarts d a) := by
  unfold State.portStarts
  split
  exacts [h, other h.setF.setF rfl, other h.setF.setF rfl]

theorem execDiscoveryAnswer {d a} (h : Evolves s t) : EvolvesTo s (execDiscoveryAnswer d a t) :=
  next (ite h (portStarts (setF (other h rfl))))

/-! ## Time and the load log (R262) -/

theorem loadLog {code slot lpos frame} (h : Evolves s t) : Evolves s (t.loadLog code slot lpos frame) :=
  h.setF.setF.setF.setF.setF.setF.setOn.setF

/-! ## Jobs (R259) -/

theorem jobStart (h : Evolves s t) : Evolves s (t.jobStart) := by
  unfold State.jobStart
  split
  exacts [other h rfl, h.setF, h.ddrReset, h, h, h]

theorem jobAdd {j} (h : Evolves s t) : Evolves s (t.jobAdd j) := ite (jobStart (other h rfl)) (other h rfl)
theorem jobEnd (h : Evolves s t) : Evolves s (t.jobEnd) := jobStart (other h rfl)

theorem loadJobEnd (h : Evolves s t) : Evolves s (t.loadJobEnd) := by
  unfold State.loadJobEnd
  split
  exacts [h.jobEnd, h, h, h, h, h]

/-! ## Attempts (R248, R253, R254) -/

theorem kilnFailed (h : Evolves s t) : Evolves s (t.kilnFailed) :=
  loadJobEnd (ite (ddrStart (raise (other h.setF rfl))) (raise (other h.setF rfl)))

theorem nextAttempt (h : Evolves s t) : Evolves s (t.nextAttempt) := by
  unfold State.nextAttempt
  split
  exacts [h.kilnFailed, setF (setF (setF (setF (other h rfl))))]

theorem beginLoad {order} (h : Evolves s t) : Evolves s (t.beginLoad order) :=
  ite (nextAttempt (other h rfl)) (kilnFailed (loadLog (other h rfl)))

theorem loadFail {code lpos frame} (h : Evolves s t) : Evolves s (t.loadFail code lpos frame) :=
  ite h.loadLog.raise.nextAttempt h.loadLog.raise.setF

theorem execHeaderCheck (h : Evolves s t) : EvolvesTo s (execHeaderCheck t) := next (ite h (ite (other h rfl) h.loadFail))
theorem execTrailerCheck (h : Evolves s t) : EvolvesTo s (execTrailerCheck t) := next (ite h (ite h.setF h.loadFail))

/-! ## Records (R246, R250, R251) -/

theorem updPllcfg {n} (h : Evolves s t) : Evolves s (t.updPllcfg n) :=
  h.foldl fun h => h.foldlMem fun hf h => h.setF fun e => featlock_notMem_fields .grnPllcfg (by simp) (e ▸ hf)

theorem loadFrame {n fa data} (h : Evolves s t) : Evolves s (t.loadFrame n fa data) := ite h.writeFrame.updPllcfg h.writeFrame

theorem execFrameRecord {pos readError readBack} (h : Evolves s t) : EvolvesTo s (execFrameRecord pos readError readBack t) :=
  next (ite h (by
    split
    · exact h
    · extract_lets +onlyGivenNames i off r fa seen c l₀ l t₁ v l₁ u
      have h₁ : Evolves s t₁ := other h rfl
      have hu : Evolves s u := ite h₁ (other h₁.loadFrame.count rfl)
      exact ite h (ite h.loadFail (ite hu.loadFail (ite hu.setF hu)))))

theorem execGrainNoProgress {pos} (h : Evolves s t) : EvolvesTo s (execGrainNoProgress pos t) :=
  next (ite h (by
    split
    exacts [h, ite h h.loadFail]))

theorem execFinalChecks (h : Evolves s t) : EvolvesTo s (execFinalChecks t) := next (ite h (ite h.loadFail h.setF.setPitch))

theorem execGrainClearDone (h : Evolves s t) : EvolvesTo s (execGrainClearDone t) :=
  next (ite h (nextAttempt (foldl h fun h => h.clearPos.updPllcfg)))

/-! ## Release (R256) -/

theorem bankCheck {n} (h : Evolves s t) : Evolves s (t.bankCheck n) := ite h.setOn h

theorem releasePos {n} (h : Evolves s t) : Evolves s (t.releasePos n) :=
  have ht := h.setPos.thawAll
  have hu := dnpUnrest (dnpUnrest (ite ht ht.startTiles))
  ite h.setPos (setF (passStart (ite hu hu.setF.setOn.bankCheck)))

theorem baseReleased (h : Evolves s t) : Evolves s (t.baseReleased) := by
  unfold State.baseReleased
  extract_lets src dig t₁ u floors v
  have hu : Evolves s u := h.setF.setF.foldl fun h => h.setF
  have hv : Evolves s v := hu.foldl fun h => setF (other h rfl)
  exact other hv rfl

theorem execReleasePitch (h : Evolves s t) : EvolvesTo s (execReleasePitch t) :=
  next (ite h (by
    split
    · exact h
    next e he =>
      extract_lets +onlyGivenNames s₁ t₁ u slot v
      have h₁ : Evolves s t₁ := baseReleased (other (h.takePitch _ he) rfl)
      have hu : Evolves s u := h₁.foldl fun h => h.releasePos
      have hv : Evolves s v := hu.foldl fun h => ite h.loadLog h
      exact hv.loadLog.setF.raise.ddrStart.loadJobEnd.lanesApply))

/-! ## Slot programming (R235) -/

theorem progCtlWrite {w m} (h : Evolves s t) : Evolves s (t.progCtlWrite w m) :=
  ite h.writeReg (ite h.writeReg.setOn.setF h.writeReg.setOn.jobAdd)

theorem execSlotProgramStart {w} (h : Evolves s t) : EvolvesTo s (execSlotProgramStart w t) :=
  next (h.viaUnit fun h => h.progCtlWrite)

theorem slotWrite {slot bs} (h : Evolves s t) : Evolves s (t.slotWrite slot bs) := other h rfl

theorem execSlotProgramDone {writeFailed memError} (h : Evolves s t) : EvolvesTo s (execSlotProgramDone writeFailed memError t) :=
  next (by
    split
    · exact jobEnd (ite h.setOff.setOn.setF (ite h.setOff.setOn.setF h.setOff.slotWrite.setOn.raise))
    · exact h
    · exact h
    · exact h
    · exact h
    · exact h)

/-! ## Attestation (R261) -/

theorem attCtlWrite {w m} (h : Evolves s t) : Evolves s (t.attCtlWrite w m) :=
  ite h.writeReg (ite h.writeReg.setOn h.writeReg.setOn.jobAdd)

theorem execAttestationRequest {w} (h : Evolves s t) : EvolvesTo s (execAttestationRequest w t) :=
  next (h.viaUnit fun h => h.attCtlWrite)

theorem execAttestationReport (h : Evolves s t) : EvolvesTo s (execAttestationReport t) :=
  next (by
    split
    exacts [jobEnd (ite h.setOff.memWrite.setOn.raise h.setOff.setOn), h, h, h, h, h])

/-! ## What a floor owns -/

theorem mergeSpan {f n fa v} (h : Evolves s t) : Evolves s (t.mergeSpan f n fa v) := h.frameSecded.writeFrame

theorem clearFloor {f} (h : Evolves s t) : Evolves s (t.clearFloor f) :=
  foldl h fun h => foldl h.clearFrames fun h => ite h.mergeSpan h

theorem shelfClear {f} (h : Evolves s t) : Evolves s (t.shelfClear f) := other h rfl
theorem updShelf (h : Evolves s t) : Evolves s (t.updShelf) := h.setF

/-! ## The load in progress -/

theorem remapPrepare (h : Evolves s t) : Evolves s (t.remapPrepare) := other (h.resetFields fun _ _ => rfl) rfl
theorem remapResume (h : Evolves s t) : Evolves s (t.remapResume) := ite h.remapPrepare h
theorem pldEnd (h : Evolves s t) : Evolves s (t.pldEnd) := remapResume (jobEnd (setF (other h rfl)))
theorem pldReject {code} (h : Evolves s t) : Evolves s (t.pldReject code) := h.setOn.setF.pldEnd
theorem pldFail {code} (h : Evolves s t) : Evolves s (t.pldFail code) := other h rfl

theorem pldCtlWrite {w m} (h : Evolves s t) : Evolves s (t.pldCtlWrite w m) :=
  ite h.writeReg (ite h.writeReg.setOn (ite h.writeReg.setOn.setF (jobAdd (setF (other h.writeReg rfl)))))

theorem execPartialLoadStart {w} (h : Evolves s t) : EvolvesTo s (execPartialLoadStart w t) :=
  next (h.viaUnit fun h => h.pldCtlWrite)

/-! ## The header check (R272) -/

theorem pldProceed {passed} (h : Evolves s t) : Evolves s (t.pldProceed passed) :=
  ite (jobStart (setF (other h rfl))) (ite (foldl h fun h => ite h.wake h) h.setPitch)

theorem execPartialHeaderCheck (h : Evolves s t) : EvolvesTo s (execPartialHeaderCheck t) :=
  next (ite h (by
    split
    exacts [h.pldProceed, ite h.setF.pldReject (pldProceed (other h.setF rfl))]))

/-! ## Steeping -/

theorem execFloorStartPitch (h : Evolves s t) : EvolvesTo s (execFloorStartPitch t) :=
  next (by
    split
    · exact h
    next e =>
      have h' := h.takePitch _ e
      exact h'.setF.setF.shelfClear.updShelf.foldl fun h => h.dnpRest)

theorem execFloorClearDone (h : Evolves s t) : EvolvesTo s (execFloorClearDone t) := next (ite h (other h.clearFloor rfl))
theorem shelfPut {f n fa data} (h : Evolves s t) : Evolves s (t.shelfPut f n fa data) := other h rfl

theorem execPartialRecord {pos readError readBack} (h : Evolves s t) :
    EvolvesTo s (execPartialRecord pos readError readBack t) :=
  next (ite h (by
    split
    · exact h
    · extract_lets +onlyGivenNames i off r fa cur t₁ c p₀ p d u
      have h₁ : Evolves s t₁ := ite h.frameSecded h
      have hu : Evolves s u := shelfPut (writeFrame (other h₁ rfl))
      exact ite h (ite h₁.pldFail (ite hu.pldFail (ite hu.setF hu)))))

theorem execPartialFinalChecks (h : Evolves s t) : EvolvesTo s (execPartialFinalChecks t) :=
  next (ite h (ite h.setF.pldFail (setPitch (setF (ite (setOn (updShelf (other h rfl))) (updShelf (other h rfl)))))))

theorem execFloorBaseRewriteDone {ok} (h : Evolves s t) : EvolvesTo s (execFloorBaseRewriteDone ok t) :=
  have ht := (foldl h fun h => ite h.mergeSpan h.writeFrame).shelfClear.updShelf
  next (ite h (ite h.setF.setOn.setF.raise.pldEnd ht.setF.setPitch))

theorem execFloorReleasePitch (h : Evolves s t) : EvolvesTo s (execFloorReleasePitch t) :=
  next (by
    split
    · exact h
    next e =>
      have h' := h.takePitch _ e
      exact pldEnd (foldl (foldl (ite h'.setF.setOn.setF.raise h'.setF.count.setOn.raise) fun h =>
        ite h.setFrozen h.setFrozen.startTiles) fun h => h.dnpUnrest))

/-! ## The test access port -/

theorem setIr {i} (h : Evolves s t) : Evolves s (t.setIr i) := other h rfl
theorem irInReset {i} (h : Evolves s t) : Evolves s (t.irInReset i) := h.setIr
theorem jtagStart {i allowed op} (h : Evolves s t) : Evolves s (t.jtagStart i allowed op) := ite (other h rfl) (other h rfl)
theorem execExtest (h : Evolves s t) : EvolvesTo s (execExtest t) := next h.irInReset
theorem execIdcode (h : Evolves s t) : EvolvesTo s (execIdcode t) := next (other h rfl)
theorem execSamplePreload {cells} (h : Evolves s t) : EvolvesTo s (execSamplePreload cells t) := next (other h rfl)
theorem execHighz (h : Evolves s t) : EvolvesTo s (execHighz t) := next h.irInReset
theorem execClamp (h : Evolves s t) : EvolvesTo s (execClamp t) := next h.irInReset
theorem execFuseprog {row data} (h : Evolves s t) : EvolvesTo s (execFuseprog row data t) := next h.jtagStart
theorem execKeyram {key} (h : Evolves s t) : EvolvesTo s (execKeyram key t) := next h.jtagStart
theorem eraseSlot0 (h : Evolves s t) : Evolves s (t.eraseSlot0) := other h rfl

theorem execSlotprog {length bytes} (h : Evolves s t) : EvolvesTo s (execSlotprog length bytes t) :=
  next (jtagStart (ite h.eraseSlot0 h))

theorem execStatus (h : Evolves s t) : EvolvesTo s (execStatus t) := next (other h rfl)
theorem execBypass (h : Evolves s t) : EvolvesTo s (execBypass t) := next h.setIr

theorem execJtagOperationDone (h : Evolves s t) : EvolvesTo s (execJtagOperationDone t) :=
  next (by
    split
    · exact h
    · split
      · exact ite (other (other h rfl) rfl) (other h rfl)
      · exact other (other h rfl) rfl
      · exact slotWrite (other h rfl))

theorem jtagAbandon (h : Evolves s t) : Evolves s (t.jtagAbandon) := ite (other h rfl) h

/-! ## Requests (R224–R226) -/

theorem remapRefuse {n spare reason} (h : Evolves s t) : Evolves s (t.remapRefuse n spare reason) :=
  h.setF.setF.setF.setF.setOff.setOn

theorem remapAccept {n spare} (h : Evolves s t) : Evolves s (t.remapAccept n spare) :=
  remapResume (other h.setF.setF.setF.setF.setF rfl)

theorem remapTry {n spare f} (h : Evolves s t) : Evolves s (t.remapTry n spare f) := ite h.remapAccept h.remapRefuse

theorem remapCtlWrite {w m f} (h : Evolves s t) : Evolves s (t.remapCtlWrite w m f) :=
  ite h.writeReg (ite h.writeReg.setF h.writeReg.remapTry)

theorem remapFault {a b f} (h : Evolves s t) : Evolves s (t.remapFault a b f) :=
  ite h (ite (ite h (other h rfl)) (by
    dsimp only
    split
    exacts [other h rfl, remapTry (other h rfl)]))

theorem execRemapRequest {r f} (h : Evolves s t) : EvolvesTo s (execRemapRequest r f t) :=
  next (by
    split
    exacts [h.viaUnit fun h => h.remapCtlWrite, h.remapFault])

/-! ## Steps 2 to 8 (R227, R228) -/

theorem remapAbort (h : Evolves s t) : Evolves s (t.remapAbort) := setPitch (other h rfl)

theorem remapFailed (h : Evolves s t) : Evolves s (t.remapFailed) := by
  unfold State.remapFailed
  split
  · exact h.remapAbort
  · extract_lets +onlyGivenNames m₁ t₁
    have h₁ : Evolves s t₁ := remapPrepare (other h rfl)
    exact setF (other h₁ rfl)

theorem execSparePrepared {linkFault} (h : Evolves s t) : EvolvesTo s (execSparePrepared linkFault t) :=
  next (by
    split
    · exact ite (remapRefuse (other h rfl)) (ite h.wake (setPitch (other h rfl)))
    · exact ite h.remapFailed (jobAdd (other h rfl))
    · exact h
    · exact h
    · exact h
    · exact h
    · exact h
    · exact h
    · exact h)

theorem execRemapWriteDone {ok oldReadable} (h : Evolves s t) : EvolvesTo s (execRemapWriteDone ok oldReadable t) :=
  next (by
    split
    · exact ite h (ite h.jobEnd.remapFailed (jobEnd (setPitch (setF (other h rfl)))))
    · exact h
    · exact h
    · exact h
    · exact h
    · exact h)

/-! ## Switchover, abort, end -/

theorem updIdinfo (h : Evolves s t) : Evolves s (t.updIdinfo) := foldl h fun h => h.setF.setF
theorem freshFrames {n} (h : Evolves s t) : Evolves s (t.freshFrames n) := updSpanActive (foldl h fun h => h.setFrame)
theorem initialContent {n} (h : Evolves s t) : Evolves s (t.initialContent n) := foldl h.clearFrames fun h => h.writeContent

theorem crossingsResume {n} (h : Evolves s t) : Evolves s (t.crossingsResume n) :=
  foldl h fun h => by
    split
    exacts [ite (ite h h.setBitF) (setBitF (ite h h.setBitF)), h]

theorem remapResumes {n} (h : Evolves s t) : Evolves s (t.remapResumes n) := h.crossingsResume.dnpUnrest.dnpUnrest.passStart

theorem execSwitchoverPitch (h : Evolves s t) : EvolvesTo s (execSwitchoverPitch t) :=
  next (ite h (by
    split
    · exact h
    next e he =>
      extract_lets +onlyGivenNames n was t₁ m₁ u v w
      have h' : Evolves s e.2 := h.takePitch _ he
      have hu : Evolves s u := other h'.freshFrames.setF rfl
      have hv : Evolves s v := ite hu.setPos hu
      have hw : Evolves s w := ite hv.initialContent.startTiles hv.restoreQ.restoreSnaps
      exact hw.updPllcfg.updIdinfo.remapResumes))

theorem execAbortPitch (h : Evolves s t) : EvolvesTo s (execAbortPitch t) :=
  next (ite h (by
    split
    · exact h
    next e => exact remapResumes (setOn (setF (setF (other (h.takePitch _ e) rfl))))))

theorem writeRepair (h : Evolves s t) : Evolves s (t.writeRepair) := other h rfl

theorem execRemapFinish (h : Evolves s t) : EvolvesTo s (execRemapFinish t) :=
  next (ite h (raise (setOn (setF (writeRepair (grainLinksOff (other h rfl)))))))

/-! ## Discovery (R217, R218) -/

theorem putAnswer {p} (h : Evolves s t) : Evolves s (t.putAnswer p) := by
  unfold State.putAnswer
  split
  · exact h
  · exact ite h.setF.setF.setF.setF.setF.setF.setF h.setF.setF.setF.setF.setF.setF.setF.setOn

theorem putXanswer {k} (h : Evolves s t) : Evolves s (t.putXanswer k) := by
  unfold State.putXanswer
  split
  · exact h
  · exact ite h.setF.setF.setF.setF.setF h.setF.setF.setF.setF.setF.setOn

theorem mapTo {n p} (h : Evolves s t) : Evolves s (t.mapTo n p) := h.setF

theorem autoRepair {n} (h : Evolves s t) : MayEvolve s id (t.autoRepair n) := by
  refine .ite .none fun u e => ?_
  obtain ⟨p, -, rfl⟩ := Option.map_eq_some_iff.mp e
  exact setOn (other h.mapTo.loadLog rfl)

theorem getD {o} (ho : MayEvolve s id o) (h : Evolves s t) : Evolves s (o.getD t) := by
  cases o with
  | none => exact h
  | some u => exact ho u rfl

theorem placePos {n} (h : Evolves s t) : Evolves s (t.placePos n) :=
  ite h (getD (autoRepair (other h rfl)) (other h rfl))

theorem missingLink {e} (h : Evolves s t) : Evolves s (t.missingLink e) := by
  unfold State.missingLink
  extract_lets l t₁ serves
  have h₁ : Evolves s t₁ := h.linkOff.setOn
  split
  · split
    · exact h₁
    · extract_lets u
      have hu : Evolves s u := h₁.setF.dieFault.raiseG
      split
      · exact getD hu.autoRepair hu
      · exact hu
  · exact h₁

theorem putDimm {m d} (h : Evolves s t) : Evolves s (t.putDimm m d) := by
  unfold State.putDimm
  split
  · exact h.setF
  · exact ite (setF (other h rfl)) (setF (setF (setF (setF (setF (setF (other h rfl)))))))

theorem buildMap {dimms} (h : Evolves s t) : Evolves s (t.buildMap dimms) := by
  unfold State.buildMap
  extract_lets t₁ ok
  have h₁ : Evolves s t₁ := h.foldl fun h => ite h h.putDimm
  exact ite h₁ (foldl h₁.setF.setOn.setF.setF fun h => h.setF.setOn.setF)

theorem applyMap (h : Evolves s t) : Evolves s (t.applyMap) := foldl (ite h.setOn.loadLog h) fun h => h.mapTo
theorem preRelease (h : Evolves s t) : Evolves s (t.preRelease) := foldl h fun h => h.dnpRest.dnpRest
theorem emptyGuests (h : Evolves s t) : Evolves s (t.emptyGuests) := foldl h fun h => ite h.isolateExt h

theorem execDiscoveryComplete {adjacencyOk dimms} (h : Evolves s t) : EvolvesTo s (execDiscoveryComplete adjacencyOk dimms t) :=
  have ht := foldl (foldl h fun h => h.putAnswer) fun h => h.putXanswer
  have hw := foldl (foldl ht.applyMap fun h => h.placePos) fun h => h.missingLink
  have hx := ite hw.writeRepair hw
  next (ite h (ite (kilnFailed (loadLog (raise (setOn (setOn (other ht rfl))))))
    hx.updIdinfo.buildMap.preRelease.emptyGuests.setOn.raise.beginLoad))

/-! ## Requests -/

theorem pwrGoTo {d x} (h : Evolves s t) : Evolves s (t.pwrGoTo d x) := by
  unfold State.pwrGoTo
  split
  exacts [ite h (other h rfl), ite h.setOff (ite h.wake (startTransition (ite h.setF h)))]

theorem dctlWrite {d w m} (h : Evolves s t) : Evolves s (t.dctlWrite d w m) :=
  ite h.writeReg (ite h.writeReg.setF.pwrRefuse (ite h.writeReg.setOn h.writeReg.pwrGoTo))

theorem viaPwr {r d j a k} (h : Evolves s t) (hk : ∀ {t}, Evolves s t → Evolves s (k t)) : Evolves s (t.viaPwr r d j a k) :=
  ite h (ite h.gateHit (ite (hk h) h))

theorem execPowerRequest {d w src} (h : Evolves s t) : EvolvesTo s (execPowerRequest d w src t) :=
  next (h.viaPwr fun h => h.dctlWrite)

theorem execDeferredRequestApply {d} (h : Evolves s t) : EvolvesTo s (execDeferredRequestApply d t) :=
  next (ite h (ite h.setOff.setF.pwrRefuse h.pwrGoTo))

theorem execAutoDoze {d} (h : Evolves s t) : EvolvesTo s (execAutoDoze d t) := next (ite h.startTransition h)
theorem execAutoRetain {d} (h : Evolves s t) : EvolvesTo s (execAutoRetain d t) := next (ite h.startTransition h)

/-! ## Wakes -/

theorem wakeBy {d cause} (h : Evolves s t) : Evolves s (t.wakeBy d cause) := ite (ite h (ite h.pwrRefuse h.wake)) h.wake
theorem packetWake {n} (h : Evolves s t) : Evolves s (t.packetWake n) := ite h.wakeBy.count.setOn h.wakeBy

theorem execWake {d c} (h : Evolves s t) : EvolvesTo s (execWake d c t) :=
  next (ite h (by
    split
    exacts [h.wakeBy, ite h.packetWake h.wakeBy, ite h.wakeBy h]))

/-! ## The wake of a core from Off, and clamps (R483) -/

theorem execOffWakeRewriteDone {pos} (h : Evolves s t) : EvolvesTo s (execOffWakeRewriteDone pos t) :=
  next (ite h (other (startTiles (foldl h.clearPos fun h => h.writeFrame)) rfl))

theorem execClampRelease {pos} (h : Evolves s t) : EvolvesTo s (execClampRelease pos t) :=
  next (ite h (by
    split
    exacts [ite h (setOff (ite h.restoreQ h)), h]))

/-! ## Ends of transitions -/

theorem coreLost {n} (h : Evolves s t) : Evolves s (t.coreLost n) := other h.clearPos.startTiles.passDrop rfl
theorem releaseHeld {key} (h : Evolves s t) : Evolves s (t.releaseHeld key) := other h.requeue rfl

theorem coreRun {n} (h : Evolves s t) : Evolves s (t.coreRun n) :=
  passDrop (setF (foldl (restIso (ite (ite h h.dnpUnrest) (dnpUnrest (ite h h.dnpUnrest)))) fun h => h.releaseHeld))

theorem ddrPower {m st to_} (h : Evolves s t) : Evolves s (t.ddrPower m st to_) := by
  unfold State.ddrPower
  split
  · exact ite h.dropRequests.loseContents.setF.closeRows h.dropRequests.loseContents
  · exact ite h.setF h
  · refine ite (ite h.startTraining.biasLost h) ?_
    extract_lets +onlyGivenNames t₁
    have h₁ : Evolves s t₁ := releaseHeld (ite h.setF h)
    exact ite h₁.retrainPulse h₁

theorem domEntered {d st to_} (h : Evolves s t) : Evolves s (t.domEntered d st to_) :=
  have hcore := ite h.coreLost (ite (ite h.retainCopy.setOn h) (ite h.coreRun h))
  have hlanes := foldl (ite h h.setOff) fun h => h.laneApply
  have hddr := ite h.ddrPower.restIso h.ddrPower
  ite hcore (ite hlanes (ite hddr (ite (ite (other h.zeroKeys rfl) h.releaseHeld)
    (ite (ite (other h rfl) h.releaseHeld) (ite h.releaseHeld (ite h.releaseHeld h))))))

theorem execTransitionComplete {d} (h : Evolves s t) : EvolvesTo s (execTransitionComplete d t) :=
  next (by
    split
    · exact h
    · refine ite h.startTraining.biasLost (ite h ?_)
      extract_lets +onlyGivenNames s₁ t₁ u
      have h₁ : Evolves s t₁ := setOn (setOff (other h.setDom rfl))
      have hu : Evolves s u := domEntered (ite h₁.setOff h₁)
      split
      · exact hu
      · extract_lets +onlyGivenNames v
        have hv : Evolves s v := other hu rfl
        exact ite (ite hv hv.startTransition) hv.pwrGoTo)

/-! ## Residency and reload -/

theorem resClear (h : Evolves s t) : Evolves s (t.resClear) := other h rfl
theorem execResidencyClear (h : Evolves s t) : EvolvesTo s (execResidencyClear t) := next (h.viaUnit fun h => h.resClear)
theorem pwrReload (h : Evolves s t) : Evolves s (t.pwrReload) := h.each fun h => ite h (ite h.setF h.setF.wake)

/-! ## Network control -/

theorem viaGrain {r p j a k} (h : Evolves s t) (hk : ∀ {t}, Evolves s t → Evolves s (k t)) : Evolves s (t.viaGrain r p j a k) :=
  ite h (ite (hk h) h.gateHit)

/-! ## Route switch (R305) -/

theorem routeFlip (h : Evolves s t) : Evolves s (t.routeFlip) :=
  raise (setOn (foldl (other h.setF.setOff rfl) fun h => h.inject))

theorem rtCtlWrite {w m a} (h : Evolves s t) : Evolves s (t.rtCtlWrite w m a) := ite h.writeReg.setOn h.writeReg
theorem execRouteSwitch {w a} (h : Evolves s t) : EvolvesTo s (execRouteSwitch w a t) := next (h.viaUnit fun h => h.rtCtlWrite)
theorem execRouteSwitchDone (h : Evolves s t) : EvolvesTo s (execRouteSwitchDone t) := next (ite h.routeFlip h)
theorem execDrainTimeout (h : Evolves s t) : EvolvesTo s (execDrainTimeout t) := next (ite h.routeFlip.setOn h)

/-! ## Isolation by timeout or declaration (R321, R322) -/

theorem dnpAnswerHeld {n k} (h : Evolves s t) : Evolves s (t.dnpAnswerHeld n k) := foldl h.setDnp fun h => h.respond

theorem homeAnswerAll {m} (h : Evolves s t) : Evolves s (t.homeAnswerAll m) :=
  setChanSt (foldl h fun h => by
    split
    exacts [respond (other h rfl), h])

theorem isolateGrain {p x} (h : Evolves s t) : Evolves s (t.isolateGrain p x) :=
  ite h (by
    split
    · exact h.isolate
    · exact ite h.isolate.dnpAnswerHeld (ite (optElim h.isolate fun _ => h.isolate.homeAnswerAll) h.isolate))

theorem isolateNode {k} (h : Evolves s t) : Evolves s (t.isolateNode k) :=
  ite h (foldl (isolateExt (other h rfl)) fun h => h.respond)

theorem isolateWort {k} (h : Evolves s t) : Evolves s (t.isolateWort k) := ite h (raiseG (setOn (other h rfl)))

theorem execTargetTimeout {x} (h : Evolves s t) : EvolvesTo s (execTargetTimeout x t) :=
  next (by
    split
    · exact h.isolateGrain
    · exact h.isolateGrain
    · exact h.isolateGrain
    · exact h.isolateNode
    · exact ite h h.isolateLink
    · exact h.isolateWort)

theorem nocisoWrite {p w m a} (h : Evolves s t) : Evolves s (t.nocisoWrite p w m a) :=
  ite h.writeReg (foldl h.writeReg fun h => ite (isolateGrain (ite (updIso (other h rfl)) h)) (ite (updIso (other h rfl)) h))

theorem tisoWrite {w m a} (h : Evolves s t) : Evolves s (t.tisoWrite w m a) :=
  ite h.writeReg (foldl (foldl h.writeReg fun h => ite h.setBitF h) fun h => ite h.setBitF h)

theorem execDeclareDead {x a} (h : Evolves s t) : EvolvesTo s (execDeclareDead x a t) :=
  next (by
    split
    exacts [h.viaGrain fun h => h.nocisoWrite, h])

theorem execClearIsolation {x a} (h : Evolves s t) : EvolvesTo s (execClearIsolation x a t) :=
  next (by
    split
    · exact h.viaGrain fun h => h.nocisoWrite
    · exact h.viaGrain fun h => h.nocisoWrite
    · exact h.viaGrain fun h => h.nocisoWrite
    · exact h.viaUnit fun h => h.tisoWrite
    · exact h.viaUnit fun h => h.tisoWrite
    · exact ite (other h rfl) h)

/-! ## Sleeping targets (R325) -/

theorem absorbHeld {key p} (h : Evolves s t) : Evolves s (t.absorbHeld key p) := foldl (other h rfl) fun h => h.absorb

theorem execWakeTimeout {pos home} (h : Evolves s t) : EvolvesTo s (execWakeTimeout pos home t) :=
  next (ite (by
    split
    exacts [ite h.isolateGrain.absorbHeld h, h]) (ite h.isolateGrain.isolateGrain.absorbHeld.absorbHeld.setF h))

/-! ## Reloads -/

theorem reloadPos {n} (h : Evolves s t) : Evolves s (t.reloadPos n) :=
  other h.setPos.clearPos.startTiles.thawAll.dnpRest.dnpRest.setF rfl

theorem reloadFloors (h : Evolves s t) : Evolves s (t.reloadFloors) :=
  ite (setF (setOn (other (h.resetFields fun _ _ => rfl) rfl))) (other (h.resetFields fun _ _ => rfl) rfl)

theorem reloadJobs (h : Evolves s t) : Evolves s (t.reloadJobs) := ite (other h rfl) (jobStart (other h rfl))

theorem reloadGo {slot} (h : Evolves s t) : Evolves s (t.reloadGo slot) := by
  unfold State.reloadGo
  extract_lets +onlyGivenNames s₁ t₁ u v s₂ w x
  have h₁ : Evolves s t₁ := other h.reloadJobs.reloadFloors rfl
  have hu : Evolves s u := (h₁.each fun h => h.reloadPos).mempReset.biasLost
  have hv : Evolves s v := ite hu.cohFlush hu
  have hw : Evolves s w := other hv.setF rfl
  have hx : Evolves s x := ite hw.jobAdd.beginLoad hw.ddrReset.beginLoad
  exact hx.pwrReload.wortReload

theorem kilnCtlWrite {w m} (h : Evolves s t) : Evolves s (t.kilnCtlWrite w m) :=
  ite h.writeReg (ite h.writeReg.setOn (ite (other h.writeReg rfl) h.writeReg.reloadGo))

theorem execReload {w} (h : Evolves s t) : EvolvesTo s (execReload w t) := next (h.viaUnit fun h => h.kilnCtlWrite)

theorem execHeldReloadStart (h : Evolves s t) : EvolvesTo s (execHeldReloadStart t) :=
  next (by
    split
    exacts [h, ite h.reloadGo h])

/-! ## Features (R7, R385, R386) -/

theorem featAckWrite {i w m} (h : Evolves s t) : Evolves s (t.featAckWrite i w m) := ite h h.writeReg.setF
theorem lockUnit {b} (h : Evolves s t) : Evolves s (t.lockUnit b) := ite h h.setBitF.setBitF

theorem featLock (h : Evolves s t) : Evolves s (t.featLock) :=
  have ht := lockUnit (lockUnit (h.write (.inr rfl)))
  ite h (ite (other ht.setOff.setOff rfl) ht)

/-! ## Writes -/

theorem fwStore {r i j w m a} (h : Evolves s t) (hr : r ≠ .tunFeatlock := by simp) : Evolves s (t.fwStore r i j w m a) :=
  ite h (h.foldlMem fun hf h => h.setF fun e => featlock_notMem_fields _ hr (e ▸ hf))

theorem tmuWrite {p w m} (h : Evolves s t) (hp : p.reg ≠ .tunFeatlock) : Evolves s (t.tmuWrite p w m) := by
  unfold State.tmuWrite
  split
  · exact nextOf h.execIncWrite
  · exact nextOf h.execStepgo
  · exact h.holdoverWrite
  · exact h.timeWrite
  · exact ite h h.writeReg
  · exact h.tscfgWrite
  · exact h.tsrdWrite
  · exact h.tmrCtlWrite
  · exact ite h h.timeWrite
  · exact ite h h.writeReg
  · exact ite h h.writeReg
  · exact h.winCtlWrite
  · exact ite h h.timeWrite
  · exact ite h h.writeReg
  · exact ite h h.timeWrite
  · exact ite h h.writeReg
  · exact ite h h.writeReg
  · exact h.writeReg hp

theorem caskWrite {p w m a} (h : Evolves s t) (hp : p.reg ≠ .tunFeatlock) : Evolves s (t.caskWrite p w m a).1 := by
  unfold State.caskWrite
  split
  · exact h.caskCfgWrite.fst
  · exact h.caskEndWrite.fst
  · exact h.caskEndWrite.fst
  · exact h.caskMsgWrite
  · exact ite1 h.caskFail (ite1 (caskTake (ite1 h.caskGo h.fst)) (ite1 h.caskGo h.fst))
  · exact h.caskPush
  · exact ite1 h.caskFail h.fst
  · exact (h.writeReg hp).fst

theorem alarmstatWrite {w m} (h : Evolves s t) : Evolves s (t.alarmstatWrite w m) := ite h.writeReg.setF h.writeReg
theorem remapAccess {w m} (h : Evolves s t) : Evolves s (t.remapAccess w m) := h.free.free.remapCtlWrite

theorem tunWrite {p w m a} (h : Evolves s t) : Evolves s (t.tunWrite p w m a) := by
  unfold State.tunWrite
  split
  · exact h.featAckWrite
  · exact ite h.featLock h
  · exact nextOf h.execClkenWrite
  · exact nextOf h.execRefselWrite
  · exact nextOf h.execTroctlWrite
  · exact nextOf h.execTroexpWrite
  · exact ite h h.writeReg
  · exact nextOf h.execFmStart
  · exact ite h.resClear h
  · exact ite h.dctlWrite h
  · exact ite h.writeReg h
  · exact h.rtCtlWrite
  · exact h.tisoWrite
  · exact h.fwStore
  · exact h.fwStore
  · exact h.tapClear
  · exact nextOf h.execTapMaskWrite
  · exact nextOf h.execFindingPop
  · exact nextOf h.execPitchSchedule
  · exact h.writeReg.takeSecHi
  · exact h.accCtlWrite
  · exact h.cohCtlWrite
  · exact h.biasCmdWrite
  · exact h.alarmstatWrite
  · exact h.keyCtlWrite
  · exact ite h h.writeReg
  · exact h.rgnCfgWrite
  · exact h.rgnWalkWrite
  · exact h.ddrCtlWrite
  next => exact h.writeReg (by assumption)

theorem dieWrite {p w m a} (h : Evolves s t) (hp : p.reg ≠ .tunFeatlock) : Evolves s (t.dieWrite p w m a) := by
  unfold State.dieWrite
  split
  · exact h.kilnCtlWrite
  · exact h.progCtlWrite
  · exact h.attCtlWrite
  · exact h.pldCtlWrite
  · exact h.writeReg.takeSecHi
  · exact h.remapAccess
  · exact h.grstWrite
  · exact h.lcfgWrite
  · exact h.qpllSet
  · exact h.lpmWrite
  · exact h.pchkWrite
  · exact h.writeReg
  · exact h.injWrite
  · exact h.wortLinkWrite
  · exact h.nocisoWrite
  · exact h.fwStore
  · exact h.fwStore
  · exact h.fwStore
  · exact h.writeReg hp

theorem regWrite {p w m a} (h : Evolves s t) : Evolves s (t.regWrite p w m a).1 := by
  unfold State.regWrite
  split
  next e => exact h.caskWrite (RegName.ne_featlock e)
  next e => exact fst (h.tmuWrite (RegName.ne_featlock e))
  iterate 4 next e => exact fst (h.dieWrite (RegName.ne_featlock e))
  all_goals exact fst h.tunWrite

/-! ## Reads -/

theorem tmuRead {p} (h : Evolves s t) : Evolves s (t.tmuRead p).1 := by
  unfold State.tmuRead
  split
  · exact fst (other h rfl)
  · dsimp only
    split
    · exact fst (other h rfl)
    · exact fst h

theorem regRead {p a} (h : Evolves s t) : Evolves s (t.regRead p a).1 := by
  unfold State.regRead
  split
  · exact h.caskMsgRead.fst
  · exact h.caskPop.fst
  · exact ite1 h.caskFail.fst h.fst
  · exact ite1 h.caskFail.fst h.fst
  · exact h.fst
  · exact ite1 h.tmuRead.fst h.fst

/-! ## MSI-X and the CXL component registers -/

theorem msixTabWrite {o w} (h : Evolves s t) : Evolves s (t.msixTabWrite o w) :=
  ite (emit (other (other h rfl) rfl)) (other h rfl)

theorem cxlWord {o} (h : Evolves s t) : Evolves s (t.cxlWord o).1 := ite1 h.fst (ite1 h.fst h.free.fst)

theorem cxlAccess {a} (h : Evolves s t) : Evolves s (t.cxlAccess a).1 :=
  ite1 (fst (h.foldl fun h => ite h.msixTabWrite h)) (fst (foldlBy Prod.fst (fst h) fun h => fst h.cxlWord))

/-! ## The front door -/

theorem writePieces {a} (h : Evolves s t) : Evolves s (t.writePieces a).1 := foldlBy Prod.fst (fst h) fun h => fst h.regWrite
theorem readPieces {a} (h : Evolves s t) : Evolves s (t.readPieces a).1 := foldlBy Prod.fst (fst h) fun h => fst h.regRead

theorem regAccess {a} (h : Evolves s t) : Evolves s (t.regAccess a).1 :=
  ite1 h.fst (by
    split
    · exact h.fst
    · exact ite1 h.fst (ite1 h.gateHit.fst (ite1 h.cxlAccess (ite1 h.writePieces.fst h.readPieces))))

theorem answerAccess {a status data} (h : Evolves s t) : Evolves s (t.answerAccess a status data) := ite h.emit (ite h.herr h)
theorem execRegisterWrite {a} (h : Evolves s t) : EvolvesTo s (execRegisterWrite a t) := next (ite h h.regAccess.answerAccess)

theorem execGatedAccess {x} (h : Evolves s t) : EvolvesTo s (execGatedAccess x t) :=
  next (ite h (by
    split
    · exact ite (by
        split
        exacts [h.gateHit.answerAccess, h]) h
    · exact ite (ite h.gateHit4 h.gateHit4.emit) h))

theorem execUnmappedAccess {a} (h : Evolves s t) : EvolvesTo s (execUnmappedAccess a t) := next (ite h h.answerAccess)

theorem execFeatureAcknowledge {i w} (h : Evolves s t) : EvolvesTo s (execFeatureAcknowledge i w t) :=
  next (ite h h.featAckWrite)

theorem execFeatureLock (h : Evolves s t) : EvolvesTo s (execFeatureLock t) := next (ite h h.featLock)

/-! ## Reserved-buffer ports (R316–R319) -/

theorem setRb {k rs} (h : Evolves s t) : Evolves s (t.setRb k rs) := other h rfl
theorem rbTake {k p} (h : Evolves s t) : Evolves s (t.rbTake k p) := emit (setRb (ite h.count h))

theorem rbSegDone {k r status data} (h : Evolves s t) : Evolves s (t.rbSegDone k r status data) :=
  ite (respond (ite h.setRb.setF.setOn h.setRb)) (ite h.setRb.respond h.setRb.emit)

theorem rbGranted {k r} (h : Evolves s t) : Evolves s (t.rbGranted k r) := ite h.emit.rbSegDone h.emit.setRb

/-! ## Guest firewall (R320) -/

theorem violation {g p cause} (h : Evolves s t) : Evolves s (t.violation g p cause) :=
  h.setF.setF.setF.setF.setOn.raise.isolateNode

/-! ## Registers as targets -/

theorem regArrive {p o} (h : Evolves s t) : Evolves s (t.regArrive p o) := ite h.respond h.regAccess.respond

/-! ## Sleeping endpoints (R325, R326) -/

theorem hold {key inPort p} (h : Evolves s t) : MayEvolve s id (t.hold key inPort p) := .ite .none (.some (other h rfl))
theorem updHeld {n key inPort} (h : Evolves s t) : Evolves s (t.updHeld n key inPort) := ite h.setBitF h

theorem atGrain {s₀ p n dep i k} (h : Evolves s t) (h₀ : Evolves s s₀) (hk : ∀ {t}, Evolves s t → Evolves s (k t)) :
    Evolves s (t.atGrain s₀ p n dep i k) :=
  ite h.absorb (ite (hk h) (ite h.restIso.absorb (by
    split
    · exact h₀
    next e => exact packetWake (updHeld (h.hold _ e)))))

theorem chanWake {n m} (h : Evolves s t) : Evolves s (t.chanWake n m) := ite h.wakeBy.count.setOn h.wakeBy

theorem atHome {s₀ p n m i} (h : Evolves s t) (h₀ : Evolves s s₀) : Evolves s (t.atHome s₀ p n m i) :=
  ite h.restIso.absorb (ite h.chanWake.memArrive (ite h.memArrive (by
    split
    · exact h₀
    next e => exact chanWake (updHeld (h.hold _ e)))))

theorem atTun {s₀ p i k} (h : Evolves s t) (h₀ : Evolves s s₀) (hk : ∀ {t}, Evolves s t → Evolves s (k t)) :
    Evolves s (t.atTun s₀ p i k) := by
  unfold State.atTun
  split
  · exact hk h
  · exact ite (hk h) (ite h.absorb (by
      split
      · exact h₀
      next e => exact wakeBy (h.hold _ e)))

theorem tunRouters {p} (h : Evolves s t) : Evolves s (t.tunRouters p) := ite h.wakeBy h

/-! ## Arrival -/

theorem atPort {k p} (h : Evolves s t) : Evolves s (t.atPort k p) := ite h.absorb (ite h.rbTake h.emit)

theorem egress {p} (h : Evolves s t) : Evolves s (t.egress p) :=
  ite (ite h.respond h) (by
    split
    exacts [ite h.absorb h.wortSend, h.absorb, h.absorb])

theorem arrive {p k} (h : Evolves s t) (hk : ∀ {t i}, Evolves s t → Evolves s (k t i)) : Evolves s (t.arrive p k) := by
  unfold State.arrive
  split
  · exact h
  next t₁ e =>
    refine ite (other h rfl) ?_
    extract_lets u
    have hu : Evolves s u := tunRouters (h.netTake _ e)
    refine ite hu.egress ?_
    split
    · exact hu.absorb
    · exact hu.atPort
    · exact ite (hk hu) hu.absorb

theorem dnpTake {s₀ n k p} (h : Evolves s t) (h₀ : Evolves s s₀) : Evolves s (t.dnpTake s₀ n k p) :=
  ite h₀ (ite h.absorb (ite h.emit (by
    dsimp only
    split
    · exact h₀
    · exact h.setDnp.emit)))

theorem takeReq {s₀ p i} (h : Evolves s t) (h₀ : Evolves s s₀) : Evolves s (t.takeReq s₀ p i) := by
  refine ite h.respond ?_
  split
  · exact ite (h.atTun h₀ fun h => h.regArrive) (ite h.regArrive h.respond)
  · exact ite (h.atGrain h₀ fun h => h.dnpTake h₀) h.respond
  · exact ite h.respond (h.atTun h₀ fun h => ite h.cohArrive h₀)
  · exact h.shadowHit
  · refine ite (h.atTun h₀ fun h => h.memArrive) (ite h.respond ?_)
    split
    · exact h.atGrain h₀ fun h => h.atHome h₀
    · exact h.respond
  · refine ite (h.atTun h₀ fun h => h.memArrive) (ite h.respond ?_)
    split
    · exact h.atGrain h₀ fun h => h.atHome h₀
    · exact h.respond
  · exact h.respond

theorem reqArrive {p} (h : Evolves s t) : Evolves s (t.reqArrive p) :=
  ite h (by
    split
    · exact h.arrive fun h' => h'.takeReq h
    · refine ite (h.arrive fun h' => h'.takeReq h) (ite h ?_)
      split
      · exact h.violation
      · exact ite h (arrive (other h rfl) fun h' => h'.takeReq h))

theorem execRd {p} (h : Evolves s t) : EvolvesTo s (execRd p t) := next (ite h.reqArrive h)
theorem execWr {p} (h : Evolves s t) : EvolvesTo s (execWr p t) := next (ite h.reqArrive h)
theorem execWrp {p} (h : Evolves s t) : EvolvesTo s (execWrp p t) := next (ite h.reqArrive h)
theorem execWrm {p} (h : Evolves s t) : EvolvesTo s (execWrm p t) := next (ite h.reqArrive h)
theorem execWrmp {p} (h : Evolves s t) : EvolvesTo s (execWrmp p t) := next (ite h.reqArrive h)

theorem execResv {p} (h : Evolves s t) : EvolvesTo s (execResv p t) :=
  next (ite h (by
    split
    · exact h.arrive fun h' => h'.takeReq h
    · refine ite h ?_
      split
      · exact h.violation
      · exact ite h (emit (other h rfl))))

/-! ## Responses (R309) -/

theorem barPart {rd tag status data} (h : Evolves s t) : Evolves s (t.barPart rd tag status data) := by
  unfold State.barPart
  split
  exacts [h, ite (emit (other h rfl)) (other h rfl)]

theorem hostRsp {p} (h : Evolves s t) : Evolves s (t.hostRsp p) := by
  unfold State.hostRsp
  dsimp only
  split
  exacts [h, barPart (other h rfl), memReply (other h rfl)]

theorem dnpRsp {n k p} (h : Evolves s t) : Evolves s (t.dnpRsp n k p) := by
  unfold State.dnpRsp
  dsimp only
  split
  exacts [h, h.setDnp.emit]

theorem takeRsp {s₀ p i} (h : Evolves s t) (h₀ : Evolves s s₀) : Evolves s (t.takeRsp s₀ p i) :=
  ite (ite (h.atGrain h₀ fun h => h.dnpRsp) h) (ite h.hostRsp (ite h.ringComplete (ite (h.atTun h₀ fun h => h.emit) h)))

theorem portRsp {k p} (h : Evolves s t) : Evolves s (t.portRsp k p) :=
  ite h (by
    split
    · exact h.violation
    · split
      exacts [ite h.violation h, ite h.rbGranted h.rbSegDone])

theorem rspArrive {p} (h : Evolves s t) : Evolves s (t.rspArrive p) :=
  ite h (by
    split
    · exact h.portRsp
    · exact h.arrive fun h' => h'.takeRsp h)

theorem execRdata {p} (h : Evolves s t) : EvolvesTo s (execRdata p t) := next (ite h.rspArrive h)
theorem execWcmp {p} (h : Evolves s t) : EvolvesTo s (execWcmp p t) := next (ite h.rspArrive h)
theorem execGrant {p} (h : Evolves s t) : EvolvesTo s (execGrant p t) := next (ite h.rspArrive h)

/-! ## Event messages (R470) -/

theorem takeEvt {node dep m} (h : Evolves s t) : Evolves s (t.takeEvt node dep m) :=
  ite (by
    split
    exacts [h.raise, h.ring, h]) (ite h.deliverTo h)

theorem execEvt {p m} (h : Evolves s t) : EvolvesTo s (execEvt p m t) :=
  next (ite h (by
    split
    · exact h.arrive fun h => h.takeEvt
    · exact ite h (by
        split
        exacts [h.violation, h.arrive fun h => h.takeEvt])))

/-! ## Design NoC ports (R327, R527) -/

theorem dnpSend {n k p} (h : Evolves s t) : Evolves s (t.dnpSend n k p) := inject (ite h h.setDnp)
theorem dnpAnswer {n k r posted status} (h : Evolves s t) : Evolves s (t.dnpAnswer n k r posted status) := ite h h.emit

theorem execDnpRequest {d r} (h : Evolves s t) : EvolvesTo s (execDnpRequest d r t) := by
  unfold Machine.execDnpRequest
  extract_lets +onlyGivenNames n k
  refine next (ite h ?_)
  split
  · exact h.emit
  · refine ite h ?_
    extract_lets +onlyGivenNames dt
    clear_value dt
    split
    · exact h.dnpSend
    · split
      · exact ite h.shadowHit h.dnpAnswer
      · exact h.dnpAnswer

theorem execDnpResponse {d r} (h : Evolves s t) : EvolvesTo s (execDnpResponse d r t) :=
  next (ite h (ite h.count (by
    split
    exacts [h, ite h.setDnp.respond h])))

theorem execDnpResponseTimeout {d id} (h : Evolves s t) : EvolvesTo s (execDnpResponseTimeout d id t) :=
  next (by
    split
    exacts [h, ite h h.setDnp.respond])

theorem execRetiredTIdReuse {d id} (h : Evolves s t) : EvolvesTo s (execRetiredTIdReuse d id t) := next h.setDnp

/-! ## Host accesses through a BAR (R331, R383, R384, R386) -/

theorem barReadPart {rd a len} (h : Evolves s t) : Evolves s (t.barReadPart rd a len) := by
  unfold State.barReadPart
  split
  exacts [hostSend (other h rfl), other h rfl]

theorem barWrite {a len data} (h : Evolves s t) : Evolves s (t.barWrite a len data) := by
  unfold State.barWrite
  split
  · exact h.inject
  · split
    exacts [h.mempAlarm.herr, h.herr]

theorem execBarAccess {b offset write len data tag} (h : Evolves s t) :
    EvolvesTo s (execBarAccess b offset write len data tag t) :=
  next (ite h (ite (ite h.gateHit4 h.gateHit4.emit) (ite h.barWrite
    (foldl (foldl (other h rfl) fun h => h.barReadPart) fun h => h.barPart))))

/-! ## Commands -/

theorem execVccoChange {pos present level} (h : Evolves s t) : EvolvesTo s (execVccoChange pos present level t) :=
  next (ite h h.setF.setF.bankCheck)

theorem execRailOutOfRange {r} (h : Evolves s t) : EvolvesTo s (execRailOutOfRange r t) := next (ite h (other h rfl))

theorem execRailInOperatingConditions {r} (h : Evolves s t) : EvolvesTo s (execRailInOperatingConditions r t) :=
  next (other h rfl)

/-! ## The whole system -/

theorem rootStart (h : Evolves s t) : Evolves s (t.rootStart) := ite h.rootOnQualified (ite h.rootOnQualified h)

theorem execPerstNDeassert {bootsel cfgpull} (h : Evolves s t) : EvolvesTo s (execPerstNDeassert bootsel cfgpull t) :=
  next (ite h (rootStart (setF (setF (setF (setF (jtagAbandon (other (ite h.eraseSlot0 h) rfl))))))))

theorem execRootLock {fwA fwB} (h : Evolves s t) : EvolvesTo s (execRootLock fwA fwB t) :=
  next (ite h (ite (setF (setOn (other h.free rfl))) (kilnFailed (loadLog (setF (setOn (other h.free rfl)))))))

end Evolves
end Sys2Proof.Machine
end

section
/-! SUPPORT. Every command but the assertion of PERST_N evolves the state; what that keeps, every step keeps. -/

namespace Sys2Proof.Machine

variable {s t : State}

/-- The commands, one by one. -/
theorem exec_evolves (c : Instr) (hc : c ≠ .perstNAssert) (h : Evolves s t) : EvolvesTo s (exec c t) :=
  match c with
  | .registerWrite _ => h.execRegisterWrite
  | .gatedAccess _ => h.execGatedAccess
  | .unmappedAccess _ => h.execUnmappedAccess
  | .featureAcknowledge _ _ => h.execFeatureAcknowledge
  | .featureLock => h.execFeatureLock
  | .perstNAssert => absurd rfl hc
  | .perstNDeassert _ _ => h.execPerstNDeassert
  | .measurementWindowEnd _ _ _ => h.execMeasurementWindowEnd
  | .referenceLossInterval _ => h.execReferenceLossInterval
  | .rootLock _ _ => h.execRootLock
  | .switchComplete => h.execSwitchComplete
  | .rootRelock => h.execRootRelock
  | .refselWrite _ => h.execRefselWrite
  | .upllReferenceLoss _ _ => h.execUpllReferenceLoss
  | .upllRelock _ _ => h.execUpllRelock
  | .upllUnlock _ _ => h.execUpllUnlock
  | .trimWindowEnd _ => h.execTrimWindowEnd
  | .trimSourceLost => h.execTrimSourceLost
  | .troexpWrite _ => h.execTroexpWrite
  | .troctlWrite _ => h.execTroctlWrite
  | .grainTroTrimmed _ => h.execGrainTroTrimmed
  | .fmStart _ => h.execFmStart
  | .fmMeasurementDone _ => h.execFmMeasurementDone
  | .fmGateTimeout _ => h.execFmGateTimeout
  | .clkenWrite _ => h.execClkenWrite
  | .unitGated _ => h.execUnitGated
  | .unitUngated _ => h.execUnitUngated
  | .clockAdopted _ => h.execClockAdopted
  | .linkTrainingDone _ _ => h.execLinkTrainingDone
  | .discoveryToken _ _ => h.execDiscoveryToken
  | .discoveryAnswer _ _ => h.execDiscoveryAnswer
  | .discoveryComplete _ _ => h.execDiscoveryComplete
  | .headerCheck => h.execHeaderCheck
  | .trailerCheck => h.execTrailerCheck
  | .frameRecord _ _ _ => h.execFrameRecord
  | .grainNoProgress _ => h.execGrainNoProgress
  | .finalChecks => h.execFinalChecks
  | .grainClearDone => h.execGrainClearDone
  | .reload _ => h.execReload
  | .heldReloadStart => h.execHeldReloadStart
  | .slotProgramStart _ => h.execSlotProgramStart
  | .slotProgramDone _ _ => h.execSlotProgramDone
  | .attestationRequest _ => h.execAttestationRequest
  | .attestationReport => h.execAttestationReport
  | .pitchSchedule _ => h.execPitchSchedule
  | .pitchSend _ => h.execPitchSend
  | .releasePitch => h.execReleasePitch
  | .floorStartPitch => h.execFloorStartPitch
  | .floorReleasePitch => h.execFloorReleasePitch
  | .capturePitch _ => h.execCapturePitch
  | .freezePitch _ => h.execFreezePitch
  | .thawPitch _ => h.execThawPitch
  | .switchoverPitch => h.execSwitchoverPitch
  | .abortPitch => h.execAbortPitch
  | .designPitch _ => h.execDesignPitch
  | .captureComplete => h.execCaptureComplete
  | .capselRequest _ _ _ => h.execCapselRequest
  | .spargePassStart _ => h.execSpargePassStart
  | .frameCheck _ => h.execFrameCheck
  | .frameRewrite _ _ _ _ => h.execFrameRewrite
  | .findingPop _ => h.execFindingPop
  | .configUpset _ _ _ => h.execConfigUpset
  | .spanGateEvent _ _ => h.execSpanGateEvent
  | .accessReadJob _ => h.execAccessReadJob
  | .accessWriteJob _ => h.execAccessWriteJob
  | .accessRestoreJob _ => h.execAccessRestoreJob
  | .accessFrame _ => h.execAccessFrame
  | .partialLoadStart _ => h.execPartialLoadStart
  | .partialHeaderCheck => h.execPartialHeaderCheck
  | .floorClearDone => h.execFloorClearDone
  | .partialRecord _ _ _ => h.execPartialRecord
  | .partialFinalChecks => h.execPartialFinalChecks
  | .floorBaseRewriteDone _ => h.execFloorBaseRewriteDone
  | .remapRequest _ _ => h.execRemapRequest
  | .sparePrepared _ => h.execSparePrepared
  | .remapWriteDone _ _ => h.execRemapWriteDone
  | .remapFinish => h.execRemapFinish
  | .holdWrite _ _ _ => h.execHoldWrite
  | .holdRelease _ => h.execHoldRelease
  | .grainClockLoss _ => h.execGrainClockLoss
  | .clockRegained _ => h.execClockRegained
  | .orphan _ => h.execOrphan
  | .orphanTimeout _ => h.execOrphanTimeout
  | .clockLaneLoss _ _ => h.execClockLaneLoss
  | .missingClockDetect _ => h.execMissingClockDetect
  | .marginWindowEnd _ _ _ => h.execMarginWindowEnd
  | .spareCopyRequest _ => h.execSpareCopyRequest
  | .spareQualified _ => h.execSpareQualified
  | .spareCompareTimeout _ _ => h.execSpareCompareTimeout
  | .laneDeath _ _ => h.execLaneDeath
  | .deadLaneMoved _ _ => h.execDeadLaneMoved
  | .foldChange _ => h.execFoldChange
  | .nocFlitReplay l => h.execNocFlitReplay (l := l)
  | .groupCrcFailure _ _ _ => h.execGroupCrcFailure
  | .xePush _ _ => h.execXePush
  | .xePop _ => h.execXePop
  | .creditReturn _ _ => h.execCreditReturn
  | .wordLanded _ => h.execWordLanded
  | .xeResync _ => h.execXeResync
  | .asyncSetReset _ _ => h.execAsyncSetReset
  | .blockRead _ _ _ => h.execBlockRead
  | .blockWrite _ _ _ => h.execBlockWrite
  | .outputReset _ _ _ => h.execOutputReset
  | .nop _ _ => h.execNop
  | .mul _ _ => h.execMul
  | .mac _ _ => h.execMac
  | .macc _ _ => h.execMacc
  | .lda _ _ => h.execLda
  | .cwr _ _ => h.execCwr
  | .agset _ _ => h.execAgset
  | .acs _ _ => h.execAcs
  | .minmax _ _ => h.execMinmax
  | .illegalOperation _ _ _ => h.execIllegalOperation
  | .sliceReset _ => h.execSliceReset
  | .rd _ => h.execRd
  | .wr _ => h.execWr
  | .wrp _ => h.execWrp
  | .wrm _ => h.execWrm
  | .wrmp _ => h.execWrmp
  | .resv _ => h.execResv
  | .rdata _ => h.execRdata
  | .wcmp _ => h.execWcmp
  | .grant _ => h.execGrant
  | .evt _ _ => h.execEvt
  | .routeSwitch _ _ => h.execRouteSwitch
  | .routeSwitchDone => h.execRouteSwitchDone
  | .drainTimeout => h.execDrainTimeout
  | .targetTimeout _ => h.execTargetTimeout
  | .declareDead _ _ => h.execDeclareDead
  | .clearIsolation _ _ => h.execClearIsolation
  | .wakeTimeout _ _ => h.execWakeTimeout
  | .dnpRequest _ _ => h.execDnpRequest
  | .dnpResponse _ _ => h.execDnpResponse
  | .dnpResponseTimeout _ _ => h.execDnpResponseTimeout
  | .barAccess _ _ _ _ _ _ => h.execBarAccess
  | .trainingStepDone _ => h.execTrainingStepDone
  | .trainingAttemptFail _ => h.execTrainingAttemptFail
  | .trainingTimeout _ => h.execTrainingTimeout
  | .retrain _ _ => h.execRetrain
  | .retrainPulseEnd _ => h.execRetrainPulseEnd
  | .refresh _ => h.execRefresh
  | .dramCommandIssue _ _ _ => h.execDramCommandIssue
  | .dramReadData _ _ => h.execDramReadData
  | .writeDrain _ _ => h.execWriteDrain
  | .pageTimeout _ _ _ => h.execPageTimeout
  | .spdTemperatureRead _ _ => h.execSpdTemperatureRead
  | .keyAlloc _ => h.execKeyAlloc
  | .keyRetire _ => h.execKeyRetire
  | .keyRetireDone _ => h.execKeyRetireDone
  | .regionEnable _ _ => h.execRegionEnable
  | .regionInitDone _ => h.execRegionInitDone
  | .regionDisable _ _ => h.execRegionDisable
  | .protectedLineOperation _ => h.execProtectedLineOperation
  | .walkStart _ _ => h.execWalkStart
  | .walkStep _ _ _ => h.execWalkStep
  | .memrd _ _ => h.execMemrd
  | .memwr _ => h.execMemwr
  | .biasFlipToHostDone _ => h.execBiasFlipToHostDone
  | .biasCommand _ => h.execBiasCommand
  | .biasQuery _ => h.execBiasQuery
  | .biasFlipToDeviceDone _ => h.execBiasFlipToDeviceDone
  | .hostSnoop _ _ => h.execHostSnoop
  | .hostResponse _ => h.execHostResponse
  | .hostTimeout _ => h.execHostTimeout
  | .flush => h.execFlush
  | .flushDone => h.execFlushDone
  | .linkDown => h.execLinkDown
  | .linkUp _ _ _ _ _ _ => h.execLinkUp
  | .hdmCommit _ _ _ _ _ _ _ => h.execHdmCommit
  | .incWrite _ => h.execIncWrite
  | .stepgo _ => h.execStepgo
  | .correctionBoundary => h.execCorrectionBoundary
  | .holdover => h.execHoldover
  | .replicaCheck => h.execReplicaCheck
  | .triggerInputEdge _ _ _ _ => h.execTriggerInputEdge
  | .ppsInEdge _ _ => h.execPpsInEdge
  | .tsreq _ => h.execTsreq
  | .laneSymbolCapture _ => h.execLaneSymbolCapture
  | .ringWrite => h.execRingWrite
  | .ringEnable _ => h.execRingEnable
  | .capturePathFail _ => h.execCapturePathFail
  | .windowEnable _ _ => h.execWindowEnable
  | .occurrenceEnd _ => h.execOccurrenceEnd
  | .timerArm _ _ => h.execTimerArm
  | .timerDisarm _ _ => h.execTimerDisarm
  | .timerFire _ => h.execTimerFire
  | .timedLineSend _ => h.execTimedLineSend
  | .triggerPulseEnd _ => h.execTriggerPulseEnd
  | .ppsOutPulse => h.execPpsOutPulse
  | .ppsOutPulseEnd => h.execPpsOutPulseEnd
  | .qpllWrite _ _ => h.execQpllWrite
  | .signalDetected _ => h.execSignalDetected
  | .commaFound _ => h.execCommaFound
  | .validSymbolRun _ => h.execValidSymbolRun
  | .invalidSymbol _ _ => h.execInvalidSymbol
  | .laneDown _ _ _ => h.execLaneDown
  | .txBeat _ _ _ _ => h.execTxBeat
  | .rxBeat _ _ _ _ _ _ => h.execRxBeat
  | .bondAligned _ _ => h.execBondAligned
  | .lanePowerRequest _ _ => h.execLanePowerRequest
  | .standbyTimeout _ => h.execStandbyTimeout
  | .sleepTimeout _ => h.execSleepTimeout
  | .laneExitDone _ => h.execLaneExitDone
  | .checkerLock _ => h.execCheckerLock
  | .checkerLost _ _ _ => h.execCheckerLost
  | .checkerClear _ _ => h.execCheckerClear
  | .injectGo _ _ => h.execInjectGo
  | .wortLinkEnable _ => h.execWortLinkEnable
  | .wortLinkDisable _ => h.execWortLinkDisable
  | .wortFrame _ _ _ skip => h.execWortFrame (skipAdjust := skip)
  | .cell _ _ => h.execCell
  | .linkCell _ _ _ => h.execLinkCell
  | .wortDiscovery _ _ _ _ => h.execWortDiscovery
  | .wortLinkDownTimeout _ => h.execWortLinkDownTimeout
  | .go _ _ _ => h.execGo
  | .take _ _ _ => h.execTake
  | .messageWrite _ _ _ _ => h.execMessageWrite
  | .push _ _ _ _ => h.execPush
  | .pop _ _ _ _ => h.execPop
  | .caskCfgWrite _ _ _ => h.execCaskCfgWrite
  | .caskEndWrite _ _ _ _ => h.execCaskEndWrite
  | .eventRaise _ _ => h.execEventRaise
  | .eventDelivery _ => h.execEventDelivery
  | .msixSend _ => h.execMsixSend
  | .tapClear _ _ _ => h.execTapClear
  | .tapMaskWrite _ _ => h.execTapMaskWrite
  | .evtake _ => h.execEvtake
  | .powerRequest _ _ _ => h.execPowerRequest
  | .deferredRequestApply _ => h.execDeferredRequestApply
  | .autoDoze _ => h.execAutoDoze
  | .autoRetain _ => h.execAutoRetain
  | .wake _ _ => h.execWake
  | .transitionComplete _ => h.execTransitionComplete
  | .offWakeRewriteDone _ => h.execOffWakeRewriteDone
  | .clampRelease _ => h.execClampRelease
  | .residencyClear => h.execResidencyClear
  | .extest => h.execExtest
  | .idcode => h.execIdcode
  | .samplePreload _ => h.execSamplePreload
  | .highz => h.execHighz
  | .clamp => h.execClamp
  | .fuseprog _ _ => h.execFuseprog
  | .keyram _ => h.execKeyram
  | .slotprog _ _ => h.execSlotprog
  | .status => h.execStatus
  | .bypass => h.execBypass
  | .jtagOperationDone => h.execJtagOperationDone
  | .vccoChange _ _ _ => h.execVccoChange
  | .railOutOfRange _ => h.execRailOutOfRange
  | .activeClockEdge _ _ _ _ => h.execActiveClockEdge
  | .asyncSetResetRelease _ _ _ _ => h.execAsyncSetResetRelease
  | .crossingClockEdge _ => h.execCrossingClockEdge
  | .timeClockTick => h.execTimeClockTick
  | .upllLock _ _ => h.execUpllLock
  | .clockLaneReturn _ _ => h.execClockLaneReturn
  | .qpllLock _ => h.execQpllLock
  | .qpllLossOfLock _ => h.execQpllLossOfLock
  | .railInOperatingConditions _ => h.execRailInOperatingConditions
  | .retiredTIdReuse _ _ => h.execRetiredTIdReuse
  | .storedBitFlip _ _ _ => h.execStoredBitFlip

/-- A step of an empty queue changes nothing; any other runs the front command on the state with the queue's rest. -/
theorem step_cases (h : step s = .next t) :
    (s.pending = [] ∧ t = s) ∨ ∃ c rest, s.pending = c :: rest ∧ exec c { s with pending := rest } = .next t := by
  unfold step at h
  split at h
  next hp => exact .inl ⟨hp, (Host.Outcome.next.inj h).symm⟩
  next c rest hp => exact .inr ⟨c, rest, hp, h⟩

/-- Device reset writes fields of the reset state. -/
theorem State.regsFit_deviceReset (s : State) : s.deviceReset.regsFit = true :=
  (Evolves.refl.each fun h => h.setF.setF).regsFit (State.regsFit_of_regs_eq (s := State.reset) rfl rfl)

theorem State.regsFit_of_exec {c : Instr} (hs : s.regsFit = true) (h : exec c s = .next t) : t.regsFit = true := by
  by_cases hc : c = .perstNAssert
  · subst hc
    obtain rfl : s.deviceReset = t := Host.Outcome.next.inj h
    exact s.regsFit_deviceReset
  · obtain ⟨u, hu, hsu⟩ := exec_evolves c hc (.refl (s := s))
    obtain rfl : u = t := Host.Outcome.next.inj (hu.symm.trans h)
    exact hsu.regsFit hs

end Sys2Proof.Machine

open Sys2Proof Sys2Proof.Machine

/-- Settles O4: every command but device reset only writes fields, cut to their widths, and device reset starts from an empty store. -/
theorem everyStepKeepsRegistersInTheirWidth : Obligations.EveryStepKeepsRegistersInTheirWidth := by
  intro s t hs h
  rcases step_cases h with ⟨-, rfl⟩ | ⟨c, rest, -, h⟩
  · exact hs
  · exact State.regsFit_of_exec (s := { s with pending := rest }) hs h

/-- Settles O7: what evolves the state never clears TUN_FEATLOCK, and every command but the assertion of PERST_N evolves it. -/
theorem featureLockHoldsUntilDeviceReset : Obligations.FeatureLockHoldsUntilDeviceReset := by
  intro s t hs hc h
  rcases step_cases h with ⟨-, rfl⟩ | ⟨c, rest, hp, h⟩
  · exact hs
  · have hne : c ≠ .perstNAssert := fun e => hc (by rw [hp, e]; rfl)
    obtain ⟨u, hu, hsu⟩ := exec_evolves c hne (.refl (s := { s with pending := rest }))
    obtain rfl : u = t := Host.Outcome.next.inj (hu.symm.trans h)
    exact hsu.locked hs
end

section
/-! SUPPORT. What a register takes and keeps when it is written by the types of its fields, and what it reads at reset. -/

namespace Sys2Proof.Machine

/-! ## Reset values -/

/-- The bits that a source of reset values has. -/
def ResetFrom.width : ResetFrom → Nat
  | .val n => n.log2 + 1
  | .grade => 2
  | .temp | .optS | .optX | .optG | .noX => 1
  | .step => 4
  | .serial => 64
  | .clken => 17
  | .domain => 2
  | .attPub => 32
  | .home => 6

theorem homeOf_lt (n : Nat) : homeOf n < 2 ^ 6 := by
  by_cases h : n < homeTable.length
  · have hall : ∀ p ∈ homeTable, p < 2 ^ 6 := by decide
    rw [homeOf, List.getD_eq_getElem _ _ h]
    exact hall _ (List.getElem_mem h)
  · rw [homeOf, List.getD_eq_default _ _ (Nat.le_of_not_lt h)]
    decide

theorem Part.clken_lt (p : Part) : p.clken < 2 ^ 17 :=
  Nat.lt_of_le_of_lt ((Nat.sub_le _ _).trans (Nat.sub_le _ _)) (by decide)

/-- Every source of reset values stays within its bits. -/
theorem Fld.reset_lt_width (p : Part) (f : Fld) (i : Nat) : f.reset p i < 2 ^ f.info.reset.width := by
  rw [Fld.reset]
  cases f.info.reset with
  | val n => exact Nat.lt_log2_self
  | grade => exact p.grade.isLt
  | temp => exact p.tempE.toNat_lt
  | step => exact p.step.isLt
  | serial => exact p.serial.isLt
  | optS => exact p.optS.toNat_lt
  | optX => exact p.optX.toNat_lt
  | optG => exact p.optG.toNat_lt
  | noX => exact (!p.optX).toNat_lt
  | clken => exact p.clken_lt
  | domain =>
    dsimp only [ResetFrom.width]
    split <;> decide
  | attPub => exact Nat.mod_lt _ (Nat.two_pow_pos 32)
  | home => exact homeOf_lt i

theorem Fld.reset_width_le : ∀ f : Fld, f.info.reset.width ≤ f.info.len := by
  apply Fld.forall_of_ofNat
  decide +kernel

theorem Fld.reset_lt (p : Part) (f : Fld) (i : Nat) : f.reset p i < 2 ^ f.info.len :=
  Nat.lt_of_lt_of_le (f.reset_lt_width p i) (Nat.pow_le_pow_right (by decide) f.reset_width_le)

/-! ## Fields written by their types -/

/-- What the tables say of a register: it names no field twice, and only W1C fields clear others, of its own only RO and WO ones. -/
def RegName.fieldsApart (r : RegName) : Prop :=
  r.fields.Nodup ∧ ∀ g ∈ r.fields, ∀ f ∈ g.info.clears, g.info.type = .w1c ∧ (f ∈ r.fields → f.info.type = .ro ∨ f.info.type = .wo)

theorem RegName.fieldsApart_all : ∀ r : RegName, r.fieldsApart := by
  apply RegName.forall_of_ofNat
  unfold RegName.fieldsApart
  decide +kernel

/-- What a write of w under mask m leaves in a field of its own type that holds x. -/
def Fld.taken (f : Fld) (w m x : Nat) : Nat :=
  let v := bits w f.info.lo f.info.len
  let k := bits m f.info.lo f.info.len
  match f.info.type with
  | .rw => (x &&& (2 ^ f.info.len - 1 - k)) ||| (v &&& k)
  | .w1c => x &&& (2 ^ f.info.len - 1 - (v &&& k))
  | .w1s => x ||| (v &&& k)
  | .ro => x
  | .wo => x

/-- The write strikes field f: it is written 1 in a bit that the access reaches. -/
def Fld.struck (f : Fld) (w m : Nat) : Prop := bits w f.info.lo f.info.len &&& bits m f.info.lo f.info.len ≠ 0

/-- What a write can touch: the fields of the register and those that their bits clear. -/
def RegName.keys (r : RegName) (i j : Nat) : List FKey :=
  r.fields.flatMap fun f => fk f i j :: f.info.clears.map fun g => fk g i j

variable {s t : State} {f g : Fld} {i j w m : Nat}

theorem State.getF_foldl_clear {ks : List Fld} :
    (ks.foldl (fun u g => u.setF g 0 i j) s).getF f i j = if f ∈ ks then 0 else s.getF f i j := by
  induction ks generalizing s with
  | nil => rfl
  | cons g ks ih =>
    rw [List.foldl_cons, ih, State.getF_setF]
    by_cases hg : f = g <;> simp [hg]

/-- A field written takes what its type lets through. -/
theorem State.getF_writeFld_self (hf : f ∉ f.info.clears) :
    (s.writeFld i j w m f).getF f i j % 2 ^ f.info.len = f.taken w m (s.getF f i j) % 2 ^ f.info.len := by
  unfold State.writeFld Fld.taken
  cases f.info.type with
  | rw => simp only [State.getF_setF_self, Nat.mod_mod]
  | w1c =>
    dsimp only
    split
    · simp only [State.getF_setF_self, Nat.mod_mod]
    · simp only [State.getF_foldl_clear, if_neg hf, State.getF_setF_self, Nat.mod_mod]
  | w1s => simp only [State.getF_setF_self, Nat.mod_mod]
  | ro => rfl
  | wo => rfl

/-- A write of field g leaves another field alone, or clears it with a bit that is written 1. -/
theorem State.getF_writeFld_ne (h : f ≠ g) :
    (s.writeFld i j w m g).getF f i j = s.getF f i j ∨
      (s.writeFld i j w m g).getF f i j = 0 ∧ f ∈ g.info.clears ∧ g.struck w m := by
  have hset (v : Nat) : (s.setF g v i j).getF f i j = s.getF f i j := State.getF_setF_ne s v i j i j h
  unfold State.writeFld Fld.struck
  cases g.info.type with
  | rw => exact .inl (hset _)
  | w1c =>
    dsimp only
    split
    · exact .inl (hset _)
    next hs =>
      rw [State.getF_foldl_clear, hset]
      by_cases hf : f ∈ g.info.clears
      · exact .inr ⟨if_pos hf, hf, hs⟩
      · exact .inl (if_neg hf)
  | w1s => exact .inl (hset _)
  | ro => exact .inl rfl
  | wo => exact .inl rfl

theorem State.writeFld_eq_self (h : f.info.type = .ro ∨ f.info.type = .wo) : s.writeFld i j w m f = s := by
  unfold State.writeFld
  rcases h with h | h <;> rw [h]

/-- Fields that neither are nor clear f leave it alone. -/
theorem State.getF_foldl_writeFld_of_apart {l : List Fld} (h : ∀ g ∈ l, f ≠ g ∧ f ∉ g.info.clears) :
    (l.foldl (fun t g => t.writeFld i j w m g) s).getF f i j = s.getF f i j := by
  induction l generalizing s with
  | nil => rfl
  | cons g l ih =>
    obtain ⟨hne, hcl⟩ := h g List.mem_cons_self
    rw [List.foldl_cons, ih fun g' hg' => h g' (List.mem_cons_of_mem _ hg')]
    exact (State.getF_writeFld_ne hne).resolve_right fun e => hcl e.2.1

/-- A field of the register that no other clears takes what its type lets through. -/
theorem State.getF_writeReg_of_mem {r : RegName} (hf : f ∈ r.fields) (hcl : ∀ g ∈ r.fields, f ∉ g.info.clears) :
    (s.writeReg r i j w m).getF f i j % 2 ^ f.info.len = f.taken w m (s.getF f i j) % 2 ^ f.info.len := by
  obtain ⟨l, l', hl⟩ := List.append_of_mem hf
  have hnd := r.fieldsApart_all.1
  rw [hl, List.nodup_append, List.nodup_cons] at hnd
  obtain ⟨-, ⟨hl', -⟩, hdis⟩ := hnd
  have hbefore : ∀ g ∈ l, f ≠ g ∧ f ∉ g.info.clears := fun g hg =>
    ⟨fun e => hdis g hg f List.mem_cons_self e.symm, hcl g (by rw [hl]; exact List.mem_append_left _ hg)⟩
  have hafter : ∀ g ∈ l', f ≠ g ∧ f ∉ g.info.clears := fun g hg =>
    ⟨fun e => hl' (e ▸ hg), hcl g (by rw [hl]; exact List.mem_append_right _ (List.mem_cons_of_mem _ hg))⟩
  rw [State.writeReg, hl, List.foldl_append, List.foldl_cons, State.getF_foldl_writeFld_of_apart hafter,
    State.getF_writeFld_self (hcl f hf), State.getF_foldl_writeFld_of_apart hbefore]

/-- A field that only the device writes stays, or a bit written 1 clears it. -/
theorem State.getF_foldl_writeFld_of_kept {l : List Fld} (hf : f.info.type = .ro ∨ f.info.type = .wo) :
    (l.foldl (fun t g => t.writeFld i j w m g) s).getF f i j = s.getF f i j ∨
      (l.foldl (fun t g => t.writeFld i j w m g) s).getF f i j = 0 ∧ ∃ g ∈ l, f ∈ g.info.clears ∧ g.struck w m := by
  induction l generalizing s with
  | nil => exact .inl rfl
  | cons g l ih =>
    have hg : (s.writeFld i j w m g).getF f i j = s.getF f i j ∨
        (s.writeFld i j w m g).getF f i j = 0 ∧ f ∈ g.info.clears ∧ g.struck w m := by
      by_cases e : f = g
      · exact .inl (by rw [← e, State.writeFld_eq_self hf])
      · exact State.getF_writeFld_ne e
    rcases ih (s := s.writeFld i j w m g) with h | ⟨h, g', hg', hs⟩
    · rw [List.foldl_cons, h]
      exact hg.imp_right fun ⟨h0, hs⟩ => ⟨h0, g, List.mem_cons_self, hs⟩
    · exact .inr ⟨h, g', List.mem_cons_of_mem _ hg', hs⟩

/-! ## What a register write leaves alone -/

theorem RegsOnly.setF_of_mem {ks : List FKey} {v : Nat} (h : RegsOnly ks s t) (hk : fk f i j ∈ ks) :
    RegsOnly ks s (t.setF f v i j) :=
  (h.setF f v i j).mono fun _ hk' => (List.mem_cons.mp hk').elim (· ▸ hk) id

theorem RegsOnly.writeFld {ks : List FKey} (h : RegsOnly ks s t) (hf : fk f i j ∈ ks)
    (hcl : ∀ g ∈ f.info.clears, fk g i j ∈ ks) : RegsOnly ks s (t.writeFld i j w m f) := by
  have hclear {u : State} (hu : RegsOnly ks s u) : RegsOnly ks s (f.info.clears.foldl (fun u g => u.setF g 0 i j) u) :=
    List.foldlRecOn _ _ hu fun _ hu _ hg => hu.setF_of_mem (hcl _ hg)
  unfold State.writeFld
  cases f.info.type with
  | rw => exact h.setF_of_mem hf
  | w1c =>
    dsimp only
    split
    · exact h.setF_of_mem hf
    · exact hclear (h.setF_of_mem hf)
  | w1s => exact h.setF_of_mem hf
  | ro => exact h
  | wo => exact h

theorem RegName.mem_keys {r : RegName} {k : FKey} :
    k ∈ r.keys i j ↔ ∃ f ∈ r.fields, k = fk f i j ∨ ∃ g ∈ f.info.clears, k = fk g i j := by
  simp only [RegName.keys, List.mem_flatMap, List.mem_cons, List.mem_map, eq_comm]

/-- A register write changes fields of the register and those that they clear, in its own copy, and nothing else. -/
theorem RegsOnly.writeReg (s : State) (r : RegName) (i j w m : Nat) : RegsOnly (r.keys i j) s (s.writeReg r i j w m) :=
  List.foldlRecOn _ _ ⟨SameBut.refl _ s, rfl⟩ fun _ h f hf =>
    h.writeFld (RegName.mem_keys.mpr ⟨f, hf, .inl rfl⟩) fun g hg => RegName.mem_keys.mpr ⟨f, hf, .inr ⟨g, hg, rfl⟩⟩

/-! ## Masks cut to a width -/

theorem bits_lt (w lo len : Nat) : bits w lo len < 2 ^ len := Nat.mod_lt _ (Nat.two_pow_pos len)

theorem bits_and_mod (a b lo lo' len : Nat) : (bits a lo len &&& bits b lo' len) % 2 ^ len = bits a lo len &&& bits b lo' len :=
  Nat.mod_eq_of_lt (Nat.lt_of_le_of_lt Nat.and_le_left (bits_lt _ _ _))

theorem two_pow_sub_one_sub_mod (len k : Nat) : (2 ^ len - 1 - k) % 2 ^ len = 2 ^ len - 1 - k :=
  Nat.mod_eq_of_lt (by have := Nat.two_pow_pos len; omega)

/-- What is taken, cut to the field, is what a field that holds the cut value takes. -/
theorem Fld.taken_mod (x : Nat) : f.taken w m x % 2 ^ f.info.len = f.taken w m (x % 2 ^ f.info.len) := by
  unfold Fld.taken
  cases f.info.type with
  | rw => simp only [Nat.or_mod_two_pow, Nat.and_mod_two_pow (b := _ - _ - _), two_pow_sub_one_sub_mod, bits_and_mod]
  | w1c => simp only [Nat.and_mod_two_pow (b := _ - _ - _), two_pow_sub_one_sub_mod]
  | w1s => simp only [Nat.or_mod_two_pow, bits_and_mod]
  | ro => rfl
  | wo => rfl

end Sys2Proof.Machine

open Sys2Proof Sys2Proof.Machine

/-- Settles O9: the register's fields are written one after another, no field that software writes is cleared by another, and only the
register's own fields and those that they clear are touched. -/
theorem writeByFieldType : Obligations.WriteByFieldType := by
  intro s r i j w m
  obtain ⟨-, hclears⟩ := r.fieldsApart_all
  obtain ⟨hsame, hrest⟩ := RegsOnly.writeReg s r i j w m
  refine ⟨fun f hf => ?_, fun f a b h => hsame f a b fun hk => ?_, hrest⟩
  · have htaken (ht : ¬(f.info.type = .ro ∨ f.info.type = .wo)) :
        (s.writeReg r i j w m).getF f i j % 2 ^ f.info.len = f.taken w m (s.getF f i j % 2 ^ f.info.len) := by
      rw [State.getF_writeReg_of_mem hf fun g hg hfg => ht ((hclears g hg f hfg).2 hf), Fld.taken_mod]
    refine ⟨fun ht => ?_, fun ht => ?_, fun ht => ?_, fun ht => ?_⟩
    · rw [htaken (by simp [ht]), Fld.taken, ht]
      rfl
    · rw [htaken (by simp [ht]), Fld.taken, ht]
      rfl
    · rw [htaken (by simp [ht]), Fld.taken, ht]
      rfl
    · rcases State.getF_foldl_writeFld_of_kept (s := s) (l := r.fields) (i := i) (j := j) (w := w) (m := m) ht with h | ⟨h, hg⟩
      · exact .inl (congrArg (· % _) h)
      · exact .inr ⟨(congrArg (· % _) h).trans (Nat.zero_mod _), hg⟩
  · obtain ⟨g, hg, hk⟩ := RegName.mem_keys.mp hk
    simp only [fk, Prod.mk.injEq] at hk
    rcases h with ⟨hf, hcl⟩ | ha | hb
    · rcases hk with ⟨rfl, -⟩ | ⟨g', hg', rfl, -⟩
      · exact hf hg
      · exact hcl g hg hg'
    · rcases hk with ⟨-, h, -⟩ | ⟨_, _, -, h, -⟩ <;> exact ha h
    · rcases hk with ⟨-, -, h⟩ | ⟨_, _, -, -, h⟩ <;> exact hb h

/-- Settles O5: nothing is stored at reset, and every source of reset values stays within the field that it resets. -/
theorem resetMeetsTheInvariants : Obligations.ResetMeetsTheInvariants :=
  ⟨by decide, by decide, fun p f i => f.reset_lt p i⟩
end

section
/-! SUPPORT. The front door of the registers: a plain register is written and read by its types, and a gated access is recorded. -/

namespace Sys2Proof.Machine

variable {s t : State} {p : RegAt} {a : Access} {u : Unit0}

/-! ## Plain registers -/

/-- A register without a rule of its own is written by the types of its fields: `plainReg` leaves out the register of every other arm. -/
theorem State.regWrite_of_plain (h : plainReg p.reg = true) (w m : Nat) (src : Agent) :
    s.regWrite p w m src = (s.writeReg p.reg p.i p.j w m, stOk) := by
  have htmu : s.tmuWrite p w m = s.writeReg p.reg p.i p.j w m := by
    unfold State.tmuWrite
    split
    case h_18 => rfl
    all_goals simp_all [plainReg]
  have hdie : s.dieWrite p w m src = s.writeReg p.reg p.i p.j w m := by
    unfold State.dieWrite
    split
    case h_19 => rfl
    all_goals simp_all [plainReg]
  have htun : s.tunWrite p w m src = s.writeReg p.reg p.i p.j w m := by
    unfold State.tunWrite
    dsimp only
    split
    case h_30 => rfl
    all_goals simp_all [plainReg]
  have hcask : p.reg.info.unit ≠ .cask := by
    rintro e
    simp [plainReg, e] at h
  unfold State.regWrite
  split
  case h_1 e => exact absurd e hcask
  all_goals simp only [htmu, hdie, htun]

/-- A register outside CASK and TMU, but for PWR_RES, reads its fields and changes nothing. -/
theorem State.regRead_of_plain (hc : p.reg.info.unit ≠ .cask) (ht : p.reg.info.unit ≠ .tmu) (hr : p.reg ≠ .pwrRes) (src : Agent) :
    s.regRead p src = (s, stOk, s.readReg p.reg p.i p.j) := by
  unfold State.regRead
  split
  case h_6 => rw [if_neg ht]
  case h_5 e => exact absurd e hr
  all_goals
    rename_i e
    exact absurd (by rw [e]; rfl) hc

theorem accessPieces_four {o : Nat} (h : RegAt.ofOffset o = some p) (hw : p.reg.info.width ≠ 16) :
    accessPieces o 4 = [⟨p, full32 * 2 ^ p.bit, p.bit, 0⟩] := by
  simp only [accessPieces, wordPieces, h, if_neg hw, if_true]

/-- A word of a register, masked in place and moved down. -/
theorem and_mask_div (x b : Nat) : (x &&& full32 * 2 ^ b) / 2 ^ b = x / 2 ^ b % 2 ^ 32 := by
  rw [← Nat.shiftRight_eq_div_pow, ← Nat.shiftRight_eq_div_pow, Nat.shiftRight_and_distrib, Nat.shiftRight_eq_div_pow (full32 * _),
    Nat.mul_div_cancel _ (Nat.two_pow_pos b)]
  exact Nat.and_two_pow_sub_one_eq_mod (x >>> b) 32

/-- An access that is performed reaches the pieces of registers at its offset. -/
theorem State.regAccess_of_performed (h : performed s a) (htab : inMsixTab a.offset.toNat = false)
    (hpba : inMsixPba a.offset.toNat = false) (hcxl : inCxlComp a.offset.toNat = false) :
    s.regAccess a = if a.write then ((s.writePieces a).1, (s.writePieces a).2, 0) else s.readPieces a := by
  obtain ⟨-, hform, hsrc, u, hu, hg⟩ := h
  simp [State.regAccess, hform, hsrc, hu, hg, htab, hpba, hcxl]

theorem State.answerAccess_of_nonposted (h : a.posted = false) (status data : Nat) :
    s.answerAccess a status data = s.emit (.answer a.src a.tag.toNat status data) := by
  simp [State.answerAccess, h]

/-! ## Gated accesses -/

theorem Unit0.bit_lt (u : Unit0) : u.bit < 2 ^ 5 := by cases u <;> decide

theorem State.srcCode_lt (s : State) (src : Agent) : s.srcCode src < 2 ^ 4 := by
  unfold State.srcCode
  split_ifs <;> omega

/-- The record of a gated access: its unit, its offset and the code of its source. -/
def State.gateRecord (s : State) (unit off src : Nat) : State :=
  ((((s.count .tunGatehitCOUNT).setF .tunGatehitUNIT unit).setOn .tunGatehitSEEN).setF .tunGateaddrOFFSET off).setF .tunGateaddrSRC src

theorem State.gateHit_eq (s : State) (unit off : Nat) (src : Agent) : s.gateHit unit off src = s.gateRecord unit off (s.srcCode src) := rfl

theorem State.gateHit4_eq (s : State) (off : Nat) : s.gateHit4 off = (s.gateRecord 31 0x3FFFFFF 0).setF .tunGateaddr4OFFSET off := rfl

/-- What the record of a gated access reads in t, counted on from s. -/
structure GateRead (s t : State) (unit off src : Nat) : Prop where
  count_eq : t.getF .tunGatehitCOUNT = min (s.getF .tunGatehitCOUNT + 1) 0xFFFFFF
  unit_eq : t.getF .tunGatehitUNIT = unit
  seen_eq : t.getF .tunGatehitSEEN = 1
  offset_eq : t.getF .tunGateaddrOFFSET = off
  src_eq : t.getF .tunGateaddrSRC = src

theorem State.gateRecord_read (s : State) {unit off src : Nat} (hu : unit < 2 ^ 5) (ho : off < 2 ^ 26) (hs : src < 2 ^ 4) :
    GateRead s (s.gateRecord unit off src) unit off src where
  count_eq := by simp [State.gateRecord, State.count, State.setOn]
  unit_eq := by simpa [State.gateRecord, State.setOn] using hu
  seen_eq := by simp [State.gateRecord, State.setOn]
  offset_eq := by simpa [State.gateRecord] using ho
  src_eq := by simpa [State.gateRecord] using hs

/-- A write of another register leaves the record alone. -/
theorem GateRead.setF_gateaddr4 {unit off src v : Nat} (h : GateRead s t unit off src) :
    GateRead s (t.setF .tunGateaddr4OFFSET v) unit off src where
  count_eq := by simpa using h.count_eq
  unit_eq := by simpa using h.unit_eq
  seen_eq := by simpa using h.seen_eq
  offset_eq := by simpa using h.offset_eq
  src_eq := by simpa using h.src_eq

theorem GateRead.emit {unit off src : Nat} (h : GateRead s t unit off src) (m : OutMsg) : GateRead s (t.emit m) unit off src := by
  obtain ⟨hc, hu, hs, ho, hsrc⟩ := h
  exact ⟨hc, hu, hs, ho, hsrc⟩

/-- The fields that the record of a gated access takes. -/
def gateKeys : List FKey :=
  [fk .tunGatehitCOUNT, fk .tunGatehitUNIT, fk .tunGatehitSEEN, fk .tunGateaddrOFFSET, fk .tunGateaddrSRC]

theorem State.gateRecord_frame (s : State) (unit off src : Nat) : RegsOnly gateKeys s (s.gateRecord unit off src) :=
  ((((((RegsOnly.refl s).setF _ _ _ _).setF _ _ _ _).setF _ _ _ _).setF _ _ _ _).setF _ _ _ _).mono (by simp [gateKeys])

theorem exec_registerWrite (a : Access) (s : State) : exec (.registerWrite a) s = execRegisterWrite a s := rfl

theorem exec_gatedAccess (x : GateTarget) (s : State) : exec (.gatedAccess x) s = execGatedAccess x s := rfl

/-- A gated access is recorded and answered, whichever command it comes by. -/
theorem exec_of_accessGated (hs : s.perst = false) (hu : Unit0.ofOffset a.offset.toNat = some u) (hg : s.accessGated a = true) :
    ∀ c ∈ [Instr.gatedAccess (.bar0 a), .registerWrite a],
      exec c s = .next ((s.gateHit u.bit a.offset.toNat a.src).answerAccess a stOk 0) := by
  have hacc : s.regAccess a = (s.gateHit u.bit a.offset.toNat a.src, stOk, 0) := by
    simp only [State.accessGated, hu, Option.any_some, Bool.and_eq_true, Bool.or_eq_true, beq_iff_eq] at hg
    obtain ⟨hform, hsrc, hgated⟩ := hg
    have hreach : (!s.fullSource a.src && u != .cask) = false := by
      rcases hsrc with h | h <;> simp [h]
    simp [State.regAccess, hform, hu, hreach, hgated]
  intro c hc
  simp only [List.mem_cons, List.not_mem_nil, or_false] at hc
  rcases hc with rfl | rfl
  · rw [exec_gatedAccess, execGatedAccess]
    simp only [hs, hg, hu, if_true, Bool.false_eq_true, if_false]
  · rw [exec_registerWrite, execRegisterWrite]
    simp only [hs, hacc, Bool.false_eq_true, if_false]

theorem exec_of_bar4Gated (hs : s.perst = false) (hg : s.bar4Gated = true) (off : BitVec 41) (w : Bool) (tag : BitVec 12) :
    exec (.gatedAccess (.bar4 off w tag)) s =
      .next (if w then s.gateHit4 off.toNat else (s.gateHit4 off.toNat).emit (.answer s.hostAgent tag.toNat stOk 0)) := by
  rw [exec_gatedAccess, execGatedAccess]
  simp only [hs, hg, if_true, Bool.false_eq_true, if_false]

theorem State.answerAccess_ok (s : State) (a : Access) (data : Nat) :
    s.answerAccess a stOk data = if a.posted then s else s.emit (.answer a.src a.tag.toNat stOk data) := by
  cases h : a.posted <;> simp [State.answerAccess, h, stOk]

/-! ## Feature acknowledgement -/

theorem exec_featureAcknowledge (hs : s.perst = false) (i : Fin 4) (w : W32) :
    exec (.featureAcknowledge i w) s = .next (s.featAckWrite i w.toNat full32) :=
  congrArg Host.Outcome.next (if_neg (by simp [hs]))

/-- A whole write of TUN_FEATACKi takes every bit. -/
theorem State.getF_writeReg_featack (s : State) (i : Nat) (w : W32) :
    (s.writeReg .tunFeatack i 0 w.toNat full32).getF .tunFeatackACK i = w.toNat := by
  have hw : w.toNat % 2 ^ 32 = w.toNat := Nat.mod_eq_of_lt w.isLt
  have htaken (x : Nat) : Fld.tunFeatackACK.taken w.toNat full32 x = w.toNat :=
    calc Fld.tunFeatackACK.taken w.toNat full32 x
        = (x &&& 0) ||| (w.toNat / 1 % 2 ^ 32 &&& (2 ^ 32 - 1)) := rfl
      _ = w.toNat := by rw [Nat.and_zero, Nat.zero_or, Nat.and_two_pow_sub_one_eq_mod, Nat.div_one, hw, hw]
  calc (s.writeReg .tunFeatack i 0 w.toNat full32).getF .tunFeatackACK i
      = (s.setF .tunFeatackACK (Fld.tunFeatackACK.taken w.toNat full32 (s.getF .tunFeatackACK i)) i).getF .tunFeatackACK i := rfl
    _ = w.toNat := by rw [htaken, State.getF_setF_self, Fld.tunFeatackACK_len, hw]

/-- A write of TUN_FEATACKi leaves the named bits that are offered. -/
theorem State.getF_featAckWrite (s : State) (h : s.isSet .tunFeatlockLOCK = false) (i : Nat) (w : W32) :
    (s.featAckWrite i w.toNat full32).getF .tunFeatackACK i = w.toNat &&& s.featWord i := by
  simp only [State.featAckWrite, h, Bool.false_eq_true, if_false, State.getF_setF_self, State.getF_writeReg_featack,
    Fld.tunFeatackACK_len]
  exact Nat.mod_eq_of_lt (Nat.lt_of_le_of_lt Nat.and_le_left w.isLt)

theorem State.featAckWrite_of_locked (h : s.isSet .tunFeatlockLOCK = true) (i w m : Nat) : s.featAckWrite i w m = s := if_pos h

theorem State.featAckWrite_frame (s : State) (i w m : Nat) : RegsOnly [fk .tunFeatackACK i] s (s.featAckWrite i w m) := by
  unfold State.featAckWrite
  split
  · exact (RegsOnly.refl s).mono (by simp)
  · have hkeys : RegName.tunFeatack.keys i 0 = [fk .tunFeatackACK i] := rfl
    have h := RegsOnly.writeReg s .tunFeatack i 0 w m
    rw [hkeys] at h
    exact h.setF_of_mem List.mem_cons_self

/-- A sweep that leaves a field alone at every place leaves it alone. -/
theorem State.getF_each {f : Fld} {i j n : Nat} {g : Nat → State → State} (h : ∀ k t, (g k t).getF f i j = t.getF f i j) (s : State) :
    (State.each n g s).getF f i j = s.getF f i j := by
  unfold State.each
  induction List.range n generalizing s with
  | nil => rfl
  | cons k l ih => exact (ih _).trans (h k s)

theorem regDefault_regKey (p : Part) (f : Fld) (i j : Nat) : regDefault p (regKey f i j) = f.reset p (i % 0x100000) := by
  rw [regDefault, regKey_fld, regKey_fst, Fld.ofNat_ctorIdx]

theorem State.getF_of_regs_nil {s : State} (h : s.regs = []) (f : Fld) (i j : Nat) : s.getF f i j = f.reset s.part (i % 0x100000) := by
  rw [State.getF, h, SMap.get_nil, regDefault_regKey]

/-- Device reset leaves a field outside GRN_IOSTAT at its reset value. -/
theorem State.getF_deviceReset (s : State) {f : Fld} (hp : f ≠ .grnIostatVPRES) (hv : f ≠ .grnIostatVSENSE) (i j : Nat) :
    s.deviceReset.getF f i j = f.reset s.part (i % 0x100000) := by
  unfold State.deviceReset
  exact (State.getF_each (fun k t => (State.getF_setF_ne _ _ _ _ _ _ hv).trans (State.getF_setF_ne _ _ _ _ _ _ hp)) _).trans
    (State.getF_of_regs_nil rfl f i j)

end Sys2Proof.Machine

open Sys2Proof Sys2Proof.Machine

/-- Settles O8: a 4-byte access reaches one piece of one register, which is written or read by its types. -/
theorem registerAccessGoesByFieldTypes : Obligations.RegisterAccessGoesByFieldTypes := by
  intro a s p h hpost hlen hp hw htab hpba hcxl
  have hacc := State.regAccess_of_performed h htab hpba hcxl
  obtain ⟨hs, -⟩ := h
  have hpieces : accessPieces a.offset.toNat a.len = [⟨p, full32 * 2 ^ p.bit, p.bit, 0⟩] := by rw [hlen, accessPieces_four hp hw]
  have hexec : exec (.registerWrite a) s =
      .next ((s.regAccess a).1.emit (.answer a.src a.tag.toNat (s.regAccess a).2.1 (s.regAccess a).2.2)) := by
    rw [← State.answerAccess_of_nonposted hpost]
    exact congrArg Host.Outcome.next (if_neg (by simp [hs]))
  refine ⟨fun hwrite hplain => ⟨_, hexec, ?_⟩, fun hread hcask htmu hres => ⟨_, hexec, ?_⟩⟩
  · simp [hacc, hwrite, State.writePieces, hpieces, State.regWrite_of_plain hplain, full32, stOk]
  · simp [hacc, hread, State.readPieces, hpieces, State.regRead_of_plain hcask htmu hres, and_mask_div, stOk]

/-- Settles O10: both commands record a gated access alike, and answer it with zeros unless it is posted. -/
theorem gatedAccessIsCountedAndReadsZeros : Obligations.GatedAccessIsCountedAndReadsZeros := by
  refine ⟨fun a u s hs hu hg c hc => ⟨_, exec_of_accessGated hs hu hg c hc, ?_⟩,
    fun off w tag s hs hg => ⟨_, exec_of_bar4Gated hs hg off w tag, ?_⟩⟩
  · have hread := s.gateRecord_read u.bit_lt a.offset.isLt (s.srcCode_lt a.src)
    have hframe := (s.gateRecord_frame u.bit a.offset.toNat (s.srcCode a.src)).andOut
    rw [State.gateHit_eq, State.answerAccess_ok]
    cases a.posted with
    | true =>
      obtain ⟨hcount, hunit, hseen, hoff, hsrc⟩ := hread
      exact ⟨hcount, hunit, hseen, hoff, hsrc, (List.append_nil _).symm, hframe⟩
    | false =>
      obtain ⟨hcount, hunit, hseen, hoff, hsrc⟩ := hread.emit (.answer a.src a.tag.toNat stOk 0)
      exact ⟨hcount, hunit, hseen, hoff, hsrc, rfl, hframe.emit _⟩
  · have hread := (s.gateRecord_read (unit := 31) (off := 0x3FFFFFF) (src := 0) (by decide) (by decide) (by decide)).setF_gateaddr4
      (v := off.toNat)
    have hframe := ((s.gateRecord_frame 31 0x3FFFFFF 0).setF .tunGateaddr4OFFSET off.toNat 0 0).andOut.mono
      (ls := gateKeys ++ [fk .tunGateaddr4OFFSET]) (by simp [gateKeys])
    have haddr : (s.gateHit4 off.toNat).getF .tunGateaddr4OFFSET = off.toNat := by
      simpa [State.gateHit4] using off.isLt
    rw [State.gateHit4_eq] at haddr ⊢
    cases w with
    | true =>
      obtain ⟨hcount, hunit, hseen, hoff, hsrc⟩ := hread
      exact ⟨hcount, hunit, hseen, hoff, hsrc, haddr, (List.append_nil _).symm, hframe⟩
    | false =>
      obtain ⟨hcount, hunit, hseen, hoff, hsrc⟩ := hread.emit (.answer s.hostAgent tag.toNat stOk 0)
      exact ⟨hcount, hunit, hseen, hoff, hsrc, haddr, rfl, hframe.emit _⟩

/-- Settles O12: an unlocked write keeps the offered bits, a locked one is dropped, and device reset brings both registers to 0. -/
theorem featureAcknowledgeTakesOfferedBits : Obligations.FeatureAcknowledgeTakesOfferedBits := by
  refine ⟨fun i w s hs => ⟨_, exec_featureAcknowledge hs i w, ?_⟩, fun s => ⟨_, rfl, ?_, fun i => ?_⟩⟩
  · exact ⟨fun h => s.getF_featAckWrite h i w, fun h => State.featAckWrite_of_locked h _ _ _, s.featAckWrite_frame _ _ _⟩
  · rw [State.isSet, State.getF_deviceReset _ (by simp) (by simp)]
    rfl
  · rw [State.getF_deviceReset _ (by simp) (by simp)]
    rfl
end

section
/-! SUPPORT. What discovery and a remap leave standing on their long way through the part: a few register fields, the frames and
flip-flops, the positions out of service, the remap and the base slot. One lemma per operation says that it keeps them. -/

namespace Sys2Proof.Machine

/-! ## What stands -/

/-- The fields by which discovery, the load and a remap are followed. -/
def standingFields : List Fld :=
  [.dieSerialSERIAL, .dieIdinfoTYPE, .dieIdinfoRXMASK, .dieIdinfoDEPTH, .dieDiscstatDONE, .dieDiscstatPANELBAD, .dieMapPHYS,
    .dieRemapstatSTATE, .dieRemapstatREASON, .dieRemapstatSEEN, .kilnStatSTATE, .kilnStatBOOTSEL]

/-- What is followed besides registers. -/
structure Standing where
  cfg : SMap CfgFrame
  q : SMap Nat
  oos : SMap Bool
  remap : RemapSt
  baseSlot : Option Nat

def State.standing : State → Standing
  | { cfg, q, oos, remap, baseSlot, .. } => ⟨cfg, q, oos, remap, baseSlot⟩

/-- All that `Keeps` looks at. -/
def State.watched : State → Part × SMap Nat × List OutMsg × Standing
  | { part, regs, out, cfg, q, oos, remap, baseSlot, .. } => (part, regs, out, ⟨cfg, q, oos, remap, baseSlot⟩)

/-- What of it an operation may change all the same. -/
structure Loss where
  fields : List Fld := []
  forget : Standing → Standing := id

/-- Nothing. -/
def noLoss : Loss := {}

/-- The operations from s to t keep what stands, but for l, and withdraw no message. -/
structure Keeps (l : Loss) (s t : State) : Prop where
  getF_eq : ∀ f ∈ standingFields, f ∉ l.fields → ∀ i j, t.getF f i j = s.getF f i j
  standing_eq : l.forget t.standing = l.forget s.standing
  out_grows : s.out <+: t.out

variable {l : Loss} {s t u : State}

theorem State.watched_eq_iff : u.watched = t.watched ↔
    u.part = t.part ∧ u.regs = t.regs ∧ u.out = t.out ∧ u.standing = t.standing := by
  cases u
  cases t
  simp only [State.watched, State.standing, Prod.mk.injEq]

namespace Keeps

theorem refl : Keeps l s s := ⟨fun _ _ _ _ _ => rfl, rfl, ⟨[], List.append_nil _⟩⟩

/-- A part of what stands is kept where the loss does not forget it. -/
theorem view_eq {α : Type} (view : Standing → α) (h : Keeps l s t) (hl : ∀ x, view (l.forget x) = view x := by intro; rfl) :
    view t.standing = view s.standing := by rw [← hl, h.standing_eq, hl]

theorem oos_eq (h : Keeps l s t) (hl : ∀ x, (l.forget x).oos = x.oos := by intro; rfl) : t.oos = s.oos := h.view_eq (·.oos) hl

theorem isOos_eq (h : Keeps l s t) (n : Nat) (hl : ∀ x, (l.forget x).oos = x.oos := by intro; rfl) :
    t.isOos n = s.isOos n := by
  rw [State.isOos, State.isOos, h.oos_eq hl]

theorem cfg_eq (h : Keeps l s t) (hl : ∀ x, (l.forget x).cfg = x.cfg := by intro; rfl) : t.cfg = s.cfg := h.view_eq (·.cfg) hl
theorem q_eq (h : Keeps l s t) (hl : ∀ x, (l.forget x).q = x.q := by intro; rfl) : t.q = s.q := h.view_eq (·.q) hl
theorem remap_eq (h : Keeps l s t) (hl : ∀ x, (l.forget x).remap = x.remap := by intro; rfl) : t.remap = s.remap :=
  h.view_eq (·.remap) hl

theorem baseSlot_eq (h : Keeps l s t) (hl : ∀ x, (l.forget x).baseSlot = x.baseSlot := by intro; rfl) : t.baseSlot = s.baseSlot :=
  h.view_eq (·.baseSlot) hl

/-- A write of a field that does not stand, or that l gives up. -/
theorem write {f : Fld} {v i j : Nat} (h : Keeps l s t) (hf : f ∉ standingFields ∨ f ∈ l.fields) : Keeps l s (t.setF f v i j) where
  getF_eq g hg hl a b := by
    have hne : g ≠ f := by
      rintro rfl
      exact hf.elim (· hg) hl
    rw [State.getF_setF_ne _ _ _ _ _ _ hne, h.getF_eq g hg hl]
  standing_eq := h.standing_eq
  out_grows := h.out_grows

/-- A change of what is not watched. -/
theorem other (h : Keeps l s t) (e : u.watched = t.watched) : Keeps l s u := by
  obtain ⟨hpart, hregs, hout, hstanding⟩ := State.watched_eq_iff.mp e
  refine ⟨fun f hf hl i j => ?_, by rw [hstanding, h.standing_eq], hout ▸ h.out_grows⟩
  rw [← h.getF_eq f hf hl i j, State.getF, State.getF, hpart, hregs]

theorem emit {m : OutMsg} (h : Keeps l s t) : Keeps l s (t.emit m) where
  getF_eq := h.getF_eq
  standing_eq := h.standing_eq
  out_grows := h.out_grows.trans ⟨_, rfl⟩

theorem setF {f v i j} (h : Keeps l s t) (hf : f ∉ standingFields := by decide) : Keeps l s (t.setF f v i j) := h.write (.inl hf)
theorem setOn {f i j} (h : Keeps l s t) (hf : f ∉ standingFields := by decide) : Keeps l s (t.setOn f i j) := h.setF hf
theorem count {f n i j} (h : Keeps l s t) (hf : f ∉ standingFields := by decide) : Keeps l s (t.count f n i j) := h.setF hf
theorem setBitF {f b v i j} (h : Keeps l s t) (hf : f ∉ standingFields := by decide) : Keeps l s (t.setBitF f b v i j) := h.setF hf

theorem ite {c : Prop} [Decidable c] (h : Keeps l s t) (h' : Keeps l s u) : Keeps l s (if c then t else u) := by
  split
  · exact h
  · exact h'

theorem optElim {α : Type} {f : α → State} {o : Option α} (h : Keeps l s t) (hf : ∀ a, Keeps l s (f a)) :
    Keeps l s (o.elim t f) := by
  cases o with
  | none => exact h
  | some a => exact hf a

theorem foldlMem {α : Type} {f : State → α → State} {as : List α} (h : Keeps l s t)
    (hf : ∀ {t a}, a ∈ as → Keeps l s t → Keeps l s (f t a)) : Keeps l s (as.foldl f t) :=
  List.foldlRecOn as f h fun _ h _ ha => hf ha h

theorem foldl {α : Type} {f : State → α → State} {as : List α} (h : Keeps l s t)
    (hf : ∀ {t a}, Keeps l s t → Keeps l s (f t a)) : Keeps l s (as.foldl f t) := h.foldlMem fun _ => hf

/-! ## Events and messages -/

theorem raise {e payload} (h : Keeps l s t) : Keeps l s (t.raise e payload) :=
  ite h (ite h.setF.count.setOn.emit.setOn h.setF.count.setOn.emit)

theorem raiseG {n k payload} (h : Keeps l s t) : Keeps l s (t.raiseG n k payload) := h.raise

theorem herr {addr cause} (h : Keeps l s t) : Keeps l s (t.herr addr cause) := ite h (raise (count (setOn (ite h h.setF.setF))))
theorem postedFail {p} (h : Keeps l s t) : Keeps l s (t.postedFail p) := ite h.herr h
theorem inject {p} (h : Keeps l s t) : Keeps l s (t.inject p) := ite (other h rfl) (other h rfl)
theorem respond {p status data} (h : Keeps l s t) : Keeps l s (t.respond p status data) := ite (ite h h.postedFail) h.inject

/-! ## Isolation and ports -/

theorem updIso {p} (h : Keeps l s t) : Keeps l s (t.updIso p) := optElim h.setF fun _ => h.setF.setBitF
theorem restIso {p x on} (h : Keeps l s t) : Keeps l s (t.restIso p x on) := h.setBitF.updIso
theorem isolateExt {k} (h : Keeps l s t) : Keeps l s (t.isolateExt k) := h.setBitF.setOn.raise
theorem setDnp {n k d} (h : Keeps l s t) : Keeps l s (t.setDnp n k d) := other h rfl
theorem dnpRest {n k} (h : Keeps l s t) : Keeps l s (t.dnpRest n k) := setDnp (foldl h.restIso fun h => h.respond)
theorem dnpUnrest {n k} (h : Keeps l s t) : Keeps l s (t.dnpUnrest n k) := h.restIso

/-! ## Memory channels and jobs of the Kiln -/

theorem setChanSt {m c} (h : Keeps l s t) : Keeps l s (t.setChanSt m c) := setF (setF (other h rfl))
theorem closeRows {m} (h : Keeps l s t) : Keeps l s (t.closeRows m) := other h rfl

theorem dropRequests {m} (h : Keeps l s t) : Keeps l s (t.dropRequests m) :=
  setChanSt (foldl h fun h => by
    split
    exacts [respond (other h rfl), h])

theorem ddrReset (h : Keeps l s t) : Keeps l s (t.ddrReset) :=
  have hmem {u : State} (h : Keeps l s u) : Keeps l s { u with mem := [], trWait := none } := other h rfl
  hmem (foldl h fun h =>
    have hw := h.dropRequests.setChanSt
    ite hw.setF.closeRows hw)

theorem jobStart (h : Keeps l s t) : Keeps l s (t.jobStart) := by
  unfold State.jobStart
  split
  exacts [other h rfl, h.setF, h.ddrReset, h, h, h]

theorem jobEnd (h : Keeps l s t) : Keeps l s (t.jobEnd) := jobStart (other h rfl)

theorem loadJobEnd (h : Keeps l s t) : Keeps l s (t.loadJobEnd) := by
  unfold State.loadJobEnd
  split
  exacts [h.jobEnd, h, h, h, h, h]

theorem loadLog {code slot lpos frame} (h : Keeps l s t) : Keeps l s (t.loadLog code slot lpos frame) :=
  h.setF.setF.setF.setF.setF.setF.setOn.setF

/-! ## Pitches -/

theorem setTime {f v i} (h : Keeps l s t) (hf : ∀ g ∈ [f.frac, f.ns, f.seclo, f.sechi], g ∉ standingFields := by decide) :
    Keeps l s (t.setTime f v i) := by
  simp only [List.forall_mem_cons] at hf
  obtain ⟨hfrac, hns, hseclo, hsechi, -⟩ := hf
  exact (((h.setF hfrac).setF hns).setF hseclo).setF hsechi

theorem takeSeq (h : Keeps l s t) : Keeps l s (t.takeSeq) := other h rfl
theorem capLost (h : Keeps l s t) : Keeps l s (t.capLost) := ite h.count.setOn h.count.setOn.raise

theorem windowHit {w v} (h : Keeps l s t) : Keeps l s (t.windowHit w v) :=
  have hu := h.count.setTime.setOn
  ite h.count (ite hu (ite hu.setBitF hu.setBitF.raise))

theorem capture {code edge pkind v spaced} (h : Keeps l s t) : Keeps l s (t.capture code edge pkind v spaced) :=
  have ht := foldl h fun h => h.windowHit
  ite h.takeSeq.capLost (ite ht (other ht.takeSeq rfl))

theorem pitchStamp {kind} (h : Keeps l s t) : Keeps l s (t.pitchStamp kind) := ite h.capture h
theorem setPitch {k p} (h : Keeps l s t) : Keeps l s (t.setPitch k p) := setF (other h rfl)

/-- A pitch that acts keeps what stands. -/
theorem takePitch {key kind : Nat} {e : Pitch × State} (h : Keeps l s t) (he : t.takePitch key kind = some e) : Keeps l s e.2 := by
  unfold State.takePitch at he
  split at he
  · cases he
  · split at he
    · cases he
    · split_ifs at he
      all_goals
        cases he
        exact pitchStamp (other h.setPitch rfl)

end Keeps
end Sys2Proof.Machine
end

section
/-! SUPPORT. The end of discovery (R217, R218, R253): what the dies answered is put into their registers once and stays; the repair of
the map, the interleave map and the isolation of ports keep it. -/

namespace Sys2Proof.Machine

variable {s t : State}

/-! ## The answers of the dies -/

/-- The fields that the answers of the grains take. -/
def answersLoss : Loss := { fields := [.dieSerialSERIAL, .dieIdinfoTYPE, .dieIdinfoRXMASK, .dieIdinfoDEPTH] }

/-- The registers of grain p hold what it answered. -/
structure AnswerRead (t : State) (p : Nat) (a : AnsSt) : Prop where
  serial_eq : t.getF .dieSerialSERIAL p = a.serial % 2 ^ 64
  type_eq : t.getF .dieIdinfoTYPE p = a.type % 16
  rxmask_eq : t.getF .dieIdinfoRXMASK p = a.rxmask % 16
  depth_eq : t.getF .dieIdinfoDEPTH p = a.depth % 64

/-- The fields by which the answers are claimed are kept with what stands. -/
theorem AnswerRead.of_keeps {l : Loss} {p : Nat} {a : AnsSt} (h : AnswerRead s p a) (hk : Keeps l s t)
    (hl : ∀ f ∈ answersLoss.fields, f ∉ l.fields := by decide) : AnswerRead t p a := by
  have hget (f : Fld) (hf : f ∈ answersLoss.fields) : t.getF f p = s.getF f p :=
    hk.getF_eq f ((by decide : ∀ f ∈ answersLoss.fields, f ∈ standingFields) f hf) (hl f hf) p 0
  obtain ⟨hserial, htype, hrxmask, hdepth⟩ := h
  exact ⟨(hget _ (by decide)).trans hserial, (hget _ (by decide)).trans htype, (hget _ (by decide)).trans hrxmask,
    (hget _ (by decide)).trans hdepth⟩

theorem Keeps.putAnswer {p} (h : Keeps answersLoss s t) : Keeps answersLoss s (t.putAnswer p) := by
  unfold State.putAnswer
  split
  · exact h
  · extract_lets ok t₁ u v
    have h₁ : Keeps answersLoss s t₁ := setF (write (write h (by decide)) (by decide))
    have hu : Keeps answersLoss s u := write (setF (write h₁ (by decide))) (by decide)
    have hv : Keeps answersLoss s v := hu.setF
    exact ite hv hv.setOn

theorem Keeps.putXanswer {l k} (h : Keeps l s t) : Keeps l s (t.putXanswer k) := by
  unfold State.putXanswer
  split
  · exact h
  · exact ite h.setF.setF.setF.setF.setF h.setF.setF.setF.setF.setF.setOn

theorem State.putAnswer_answers (s : State) (p : Nat) : (s.putAnswer p).answers = s.answers := by
  unfold State.putAnswer
  split
  · rfl
  · dsimp only
    split <;> rfl

/-- What grain p answered stands in its registers. -/
theorem State.putAnswer_read {p : Nat} {a : AnsSt} (h : s.answerOf p = some a) : AnswerRead (s.putAnswer p) p a := by
  unfold State.putAnswer
  rw [h]
  dsimp only
  split
  · constructor <;> simp
  · constructor <;> simp [State.setOn]

/-- A write at another number leaves them alone. -/
theorem AnswerRead.setF {p k : Nat} {a : AnsSt} (h : AnswerRead s p a) (hk : p % 0x100000 ≠ k % 0x100000) (f : Fld) (v : Nat) :
    AnswerRead (s.setF f v k) p a where
  serial_eq := (s.getF_setF_ne_fst f _ v hk).trans h.serial_eq
  type_eq := (s.getF_setF_ne_fst f _ v hk).trans h.type_eq
  rxmask_eq := (s.getF_setF_ne_fst f _ v hk).trans h.rxmask_eq
  depth_eq := (s.getF_setF_ne_fst f _ v hk).trans h.depth_eq

/-- So does the answer of another grain. -/
theorem AnswerRead.putAnswer {p k : Nat} {a : AnsSt} (h : AnswerRead s p a) (hk : p % 0x100000 ≠ k % 0x100000) :
    AnswerRead (s.putAnswer k) p a := by
  unfold State.putAnswer
  split
  · exact h
  · extract_lets ok t₁ u v
    have hv : AnswerRead v p a :=
      ((((((h.setF hk _ _).setF hk _ _).setF hk _ _).setF hk _ _).setF hk _ _).setF hk _ _).setF hk _ _
    split
    · exact hv
    · exact hv.of_keeps (l := noLoss) Keeps.refl.setOn

/-- The answers of the grains are put into their registers. -/
def State.putGrainAnswers (s : State) : State := (List.range 64).foldl (fun u p => u.putAnswer p) s

/-- The answers of all dies are. -/
def State.putAnswers (s : State) : State := (List.range 4).foldl (fun u k => u.putXanswer k) s.putGrainAnswers

theorem State.putAnswers_keeps (s : State) : Keeps answersLoss s s.putAnswers :=
  (Keeps.refl.foldl fun h => h.putAnswer).foldl fun h => h.putXanswer

/-- After a sweep over grains that comes by p, the registers of p hold what it answered. -/
theorem State.foldl_putAnswer_read {p : Nat} {a : AnsSt} (ps : List Nat) (hps : ∀ k ∈ ps, k < 0x100000) (hp : p ∈ ps)
    (h : s.answerOf p = some a) : AnswerRead (ps.foldl (fun u k => u.putAnswer k) s) p a := by
  induction ps using List.reverseRecOn with
  | nil => simp at hp
  | append_singleton ps k ih =>
    have hanswers : (ps.foldl (fun u k => u.putAnswer k) s).answers = s.answers :=
      List.foldlRecOn (motive := fun u : State => u.answers = s.answers) ps _ rfl fun u hu k _ =>
        (u.putAnswer_answers k).trans hu
    rw [List.foldl_append, List.foldl_cons, List.foldl_nil]
    by_cases hk : k = p
    · subst hk
      exact State.putAnswer_read (by rw [State.answerOf, hanswers]; exact h)
    · have hmem : p ∈ ps := (List.mem_append.mp hp).resolve_right (by simpa using Ne.symm hk)
      have hlt := hps p hp
      have hlt' := hps k (by simp)
      exact (ih (fun j hj => hps j (List.mem_append_left _ hj)) hmem).putAnswer (by omega)

theorem State.putAnswers_read {a : AnsSt} (p : Phys) (h : s.answerOf p = some a) : AnswerRead s.putAnswers p a := by
  have hread : AnswerRead s.putGrainAnswers p a :=
    State.foldl_putAnswer_read _ (fun k hk => by rw [List.mem_range] at hk; omega) (List.mem_range.mpr p.isLt) h
  exact hread.of_keeps (Keeps.refl (l := noLoss) |>.foldl fun h => h.putXanswer)

/-! ## The repair and interleave maps -/

/-- The map and the positions out of service. -/
def mapLoss : Loss := { fields := [.dieMapPHYS], forget := fun x => { x with oos := [] } }

namespace Keeps

theorem mapTo {n p} (h : Keeps mapLoss s t) : Keeps mapLoss s (t.mapTo n p) := h.write (.inr (by decide))

theorem setOos {m : SMap Bool} (h : Keeps mapLoss s t) : Keeps mapLoss s { t with oos := m } :=
  ⟨h.getF_eq, h.standing_eq, h.out_grows⟩

theorem autoRepair {n u} (h : Keeps mapLoss s t) (hu : t.autoRepair n = some u) : Keeps mapLoss s u := by
  unfold State.autoRepair at hu
  split at hu
  · cases hu
  · obtain ⟨p, -, rfl⟩ := Option.map_eq_some_iff.mp hu
    exact h.mapTo.loadLog.setOos.setOn

theorem autoRepair_getD {n} (h : Keeps mapLoss s t) : Keeps mapLoss s ((t.autoRepair n).getD t) := by
  cases hu : t.autoRepair n with
  | none => exact h
  | some u => exact h.autoRepair hu

theorem applyMap (h : Keeps mapLoss s t) : Keeps mapLoss s (t.applyMap) := foldl (ite h.setOn.loadLog h) fun h => h.mapTo
theorem placePos {n} (h : Keeps mapLoss s t) : Keeps mapLoss s (t.placePos n) := ite h h.setOos.autoRepair_getD

variable {l : Loss}

theorem linkOff {key} (h : Keeps l s t) : Keeps l s (t.linkOff key) := other h rfl

theorem dieFault {x kind surv noc} (h : Keeps l s t) : Keeps l s (t.dieFault x kind surv noc) :=
  h.setF.setF.setF.setF.setF.setF.count.setOn

theorem missingLink {e} (h : Keeps mapLoss s t) : Keeps mapLoss s (t.missingLink e) := by
  unfold State.missingLink
  extract_lets l t₁ serves
  have h₁ : Keeps mapLoss s t₁ := h.linkOff.setOn
  split
  · split
    · exact h₁
    · extract_lets u
      have hu : Keeps mapLoss s u := h₁.setF.dieFault.raiseG
      split
      · exact hu.autoRepair_getD
      · exact hu
  · exact h₁

theorem writeRepair (h : Keeps l s t) : Keeps l s (t.writeRepair) := other h rfl
theorem updIdinfo (h : Keeps l s t) : Keeps l s (t.updIdinfo) := foldl h fun h => h.setF.setF

theorem putDimm {m d} (h : Keeps l s t) : Keeps l s (t.putDimm m d) := by
  unfold State.putDimm
  split
  · exact h.setF
  · exact ite (setF (other h rfl)) (setF (setF (setF (setF (setF (setF (other h rfl)))))))

theorem buildMap {dimms} (h : Keeps l s t) : Keeps l s (t.buildMap dimms) := by
  unfold State.buildMap
  extract_lets t₁ ok
  have h₁ : Keeps l s t₁ := h.foldl fun h => ite h h.putDimm
  exact ite h₁ (foldl h₁.setF.setOn.setF.setF fun h => h.setF.setOn.setF)

theorem preRelease (h : Keeps l s t) : Keeps l s (t.preRelease) := foldl h fun h => h.dnpRest.dnpRest
theorem emptyGuests (h : Keeps l s t) : Keeps l s (t.emptyGuests) := foldl h fun h => ite h.isolateExt h

end Keeps

/-- What follows a usable panel, up to DONE: the map is applied, positions and links are placed and repaired, the interleave map is
built and ports are isolated until the release. -/
def State.placePanel (s : State) (dimms : List (Option Spd)) : State :=
  let m := s.applyMap
  let u := (List.range 60).foldl (fun v n => v.placePos n) m
  let w := u.missingLinks.foldl (fun v e => v.missingLink e) u
  let x := if (List.range 60).any fun n => w.phys n != m.phys n then w.writeRepair else w
  (((x.updIdinfo).buildMap dimms).preRelease).emptyGuests

theorem State.placePanel_keeps (s : State) (dimms : List (Option Spd)) : Keeps mapLoss s (s.placePanel dimms) :=
  have hw := (Keeps.refl.applyMap.foldl fun h => h.placePos).foldl fun h => h.missingLink
  (Keeps.ite hw.writeRepair hw).updIdinfo.buildMap.preRelease.emptyGuests

/-! ## The end of discovery -/

/-- DONE alone. -/
def doneLoss : Loss := { fields := [.dieDiscstatDONE] }

/-- DONE and its event. -/
def State.discoveryDone (s : State) : State := (s.setOn .dieDiscstatDONE).raise 986

theorem State.mem_raise_out (s : State) {e : Nat} (h : evSource e = true) (p : Nat) : OutMsg.fwEvent e p ∈ (s.raise e p).out := by
  obtain ⟨⟨-, -, -, -, hout⟩, -⟩ := s.raise_spec p h
  rw [hout]
  exact List.mem_append_right _ (List.mem_singleton_self _)

theorem State.discoveryDone_done (s : State) : s.discoveryDone.getF .dieDiscstatDONE = 1 := by
  have hraise : Keeps noLoss (s.setOn .dieDiscstatDONE) s.discoveryDone := Keeps.refl.raise
  rw [hraise.getF_eq _ (by decide) (by decide), State.setOn, State.getF_setF_self, Fld.dieDiscstatDONE_len]
  rfl

theorem State.discoveryDone_event (s : State) : OutMsg.fwEvent 986 0 ∈ s.discoveryDone.out := State.mem_raise_out _ (by decide) 0

theorem State.discoveryDone_keeps (s : State) : Keeps doneLoss s s.discoveryDone := (Keeps.refl.write (.inr (by decide))).raise

theorem SMap.get_setRange {ν : Type} [DecidableEq ν] (d : Nat → ν) (m : SMap ν) (lo : Nat) (v : ν) {n k : Nat} (hk : k < n) :
    SMap.get d (SMap.setRange d m lo v n) (lo + k) = v := by
  induction n with
  | zero => omega
  | succ n ih =>
    rw [SMap.setRange, SMap.get_set]
    split
    · rfl
    · exact ih (by omega)

theorem State.isOos_setOn (s : State) (f : Fld) (i j n : Nat) : (s.setOn f i j).isOos n = s.isOos n := rfl

/-- The positions below n are out of service. -/
def State.oosBelow (s : State) (n : Nat) : State := { s with oos := SMap.setRange (fun _ => false) s.oos 0 true n }

theorem State.isOos_oosBelow (s : State) {n k : Nat} (hk : k < n) : (s.oosBelow n).isOos k = true := by
  have h := SMap.get_setRange (fun _ => false) s.oos 0 true hk
  rwa [Nat.zero_add] at h

/-- A load that stops without a base image. -/
def State.stopLoad (s : State) : State := { s.setF .kilnStatSTATE 9 with baseSlot := none }

theorem State.getF_stopLoad_ne (s : State) {f : Fld} (hf : f ≠ .kilnStatSTATE) (i j : Nat) :
    s.stopLoad.getF f i j = s.getF f i j := s.getF_setF_ne 9 0 0 i j hf

theorem State.baseSlot_stopLoad (s : State) : s.stopLoad.baseSlot = none := rfl
theorem State.isOos_stopLoad (s : State) (n : Nat) : s.stopLoad.isOos n = s.isOos n := rfl
theorem State.out_stopLoad (s : State) : s.stopLoad.out = s.out := rfl
theorem State.getF_stopLoad_state (s : State) : s.stopLoad.getF .kilnStatSTATE = 9 := s.getF_setF_self .kilnStatSTATE 9 0 0

/-- Without a panel the stop of the load trains no channel, and keeps what else stands. -/
theorem State.kilnFailed_keeps (h : s.isSet .dieDiscstatPANELBAD = true) : Keeps noLoss s.stopLoad s.kilnFailed := by
  have hraise : Keeps noLoss s.stopLoad (s.stopLoad.raise 990) := Keeps.refl.raise
  have hset : (s.stopLoad.raise 990).isSet .dieDiscstatPANELBAD = true := by
    rwa [State.isSet, hraise.getF_eq _ (by decide) (by decide), State.getF_stopLoad_ne _ (by decide)]
  unfold State.kilnFailed
  rw [← State.stopLoad]
  extract_lets t
  rw [hset, Bool.not_true, Bool.and_false, if_neg Bool.false_ne_true]
  exact hraise.loadJobEnd

/-! ## The command -/

/-- Discovery ends without a usable panel, before the load stops. -/
def State.endWithoutPanel (s : State) : State :=
  ((s.putAnswers.oosBelow 60).setOn .dieDiscstatPANELBAD).discoveryDone.loadLog 0x31 3 0x3F 0

theorem State.endWithoutPanel_keeps (s : State) :
    Keeps doneLoss ((s.putAnswers.oosBelow 60).setOn .dieDiscstatPANELBAD) s.endWithoutPanel := (State.discoveryDone_keeps _).loadLog

theorem State.endWithoutPanel_panelbad (s : State) : s.endWithoutPanel.getF .dieDiscstatPANELBAD = 1 := by
  rw [s.endWithoutPanel_keeps.getF_eq _ (by decide) (by decide), State.setOn, State.getF_setF_self, Fld.dieDiscstatPANELBAD_len]
  rfl

theorem State.endWithoutPanel_isOos (s : State) (n : Pos) : s.endWithoutPanel.isOos n = true := by
  rw [s.endWithoutPanel_keeps.isOos_eq, State.isOos_setOn, State.isOos_oosBelow _ n.isLt]

/-- Discovery is done before the load stops. -/
theorem State.endWithoutPanel_done (s : State) :
    s.endWithoutPanel.getF .dieDiscstatDONE = 1 ∧ OutMsg.fwEvent 986 0 ∈ s.endWithoutPanel.out := by
  have hlog : Keeps noLoss ((s.putAnswers.oosBelow 60).setOn .dieDiscstatPANELBAD).discoveryDone s.endWithoutPanel := Keeps.refl.loadLog
  exact ⟨(hlog.getF_eq _ (by decide) (by decide) 0 0).trans (State.discoveryDone_done _),
    hlog.out_grows.subset (State.discoveryDone_event _)⟩

/-- Without a panel discovery is done, no position is in service, and the load stops without a base image. -/
theorem State.endWithoutPanel_kilnFailed (s : State) :
    let t := s.endWithoutPanel.kilnFailed
    t.getF .dieDiscstatDONE = 1 ∧ t.getF .dieDiscstatPANELBAD = 1 ∧ (∀ n : Pos, t.isOos n = true) ∧ t.getF .kilnStatSTATE = 9 ∧
      t.baseSlot = none ∧ OutMsg.fwEvent 986 0 ∈ t.out := by
  intro t
  have hbad := s.endWithoutPanel_panelbad
  obtain ⟨hdone, hevent⟩ := s.endWithoutPanel_done
  have hkeep : Keeps noLoss s.endWithoutPanel.stopLoad t := State.kilnFailed_keeps (by rw [State.isSet, hbad]; rfl)
  have hget (f : Fld) (hf : f ∈ standingFields) : t.getF f = s.endWithoutPanel.stopLoad.getF f :=
    hkeep.getF_eq f hf List.not_mem_nil 0 0
  refine ⟨?_, ?_, fun n => ?_, ?_, hkeep.baseSlot_eq.trans (State.baseSlot_stopLoad _),
    hkeep.out_grows.subset (by rwa [State.out_stopLoad])⟩
  · rw [hget _ (by decide), State.getF_stopLoad_ne _ (by decide), hdone]
  · rw [hget _ (by decide), State.getF_stopLoad_ne _ (by decide), hbad]
  · rw [hkeep.isOos_eq, State.isOos_stopLoad, State.endWithoutPanel_isOos]
  · rw [hget _ (by decide), State.getF_stopLoad_state]

theorem exec_discoveryComplete (hstate : s.getF .kilnStatSTATE = 2) (hdone : s.isSet .dieDiscstatDONE = false)
    (hfw : s.fw = .running) (ok : Bool) (dimms : List (Option Spd)) : exec (.discoveryComplete ok dimms) s =
      .next (if !ok then s.endWithoutPanel.kilnFailed
        else (s.putAnswers.placePanel dimms).discoveryDone.beginLoad
          (bootOrder ((s.putAnswers.placePanel dimms).getF .kilnStatBOOTSEL))) :=
  congrArg Host.Outcome.next (if_neg (by simp [hstate, hdone, hfw]))

/-- No command but device reset changes the part. -/
theorem State.part_eq_of_exec {c : Instr} (h : exec c s = .next t) (hc : c ≠ .perstNAssert := by simp) : t.part = s.part := by
  obtain ⟨u, hu, hsu⟩ := exec_evolves c hc (.refl (s := s))
  obtain rfl : u = t := Host.Outcome.next.inj (hu.symm.trans h)
  exact hsu.part_eq_and_pending_eq.1

end Sys2Proof.Machine

open Sys2Proof Sys2Proof.Machine

/-- Settles O22: what the dies answered is put into their registers first, and no later operation of discovery writes those fields
or BOOTSEL; without a panel the load stops in STATE 9 and trains no channel. -/
theorem discoveryEndsInALoadOrFailure : Obligations.DiscoveryEndsInALoadOrFailure := by
  intro s dimms hstate hdone hfw
  have hfail : exec (.discoveryComplete false dimms) s = .next s.endWithoutPanel.kilnFailed := by
    rw [exec_discoveryComplete hstate hdone hfw, Bool.not_false, if_pos rfl]
  have hplace := s.putAnswers.placePanel_keeps dimms
  refine ⟨⟨_, hfail, ?_⟩, _, exec_discoveryComplete hstate hdone hfw true dimms,
    (s.putAnswers.placePanel dimms).discoveryDone, ?_, State.discoveryDone_done _, State.discoveryDone_event _, fun p a h => ?_⟩
  · obtain ⟨hdone, hbad, hoos, hstop, hslot, hevent⟩ := s.endWithoutPanel_kilnFailed
    exact ⟨hdone, hbad, hoos, hstop, hslot, hevent, State.part_eq_of_exec hfail⟩
  · have hboot : (s.putAnswers.placePanel dimms).getF .kilnStatBOOTSEL = s.getF .kilnStatBOOTSEL := by
      rw [hplace.getF_eq _ (by decide) (by decide), s.putAnswers_keeps.getF_eq _ (by decide) (by decide)]
    rw [← hboot]
    rfl
  · obtain ⟨hserial, htype, hrxmask, hdepth⟩ := ((State.putAnswers_read p h).of_keeps hplace).of_keeps (State.discoveryDone_keeps _)
    exact ⟨hserial, htype, hrxmask, hdepth⟩
end

section
/-! SUPPORT. The steps of a remap up to the write of the spare (R227 steps 2, 3 and 6 to 8, R228): what a refusal, a pitch entry and a
job of the Kiln change, and what each command does in the phase that it belongs to. -/

namespace Sys2Proof.Machine

variable {s t u : State}

/-- The remap is in phase p. -/
def State.inPhase (s : State) (p : RemapPhase) : State := { s with remap := { s.remap with phase := p } }

/-- A frame of the remap's state is one of the state before the phase changed. -/
theorem eq_of_putBack_regs_inPhase {p : RemapPhase} (h : { t with regs := (s.inPhase p).regs } = s.inPhase p) :
    { t with regs := s.regs, remap := s.remap } = s := by
  obtain ⟨r, rfl⟩ := eq_of_putBack_regs h
  rfl

/-! ## Refusals, pitch entries, jobs -/

/-- A frame by single fields is one by registers. -/
theorem SameBut.sameRegs {ks : List FKey} {rs : List RegName} (h : SameBut ks s t) (hk : ∀ k ∈ ks, k.1.info.reg ∈ rs) :
    sameRegs rs s t := fun f i j hf => h f i j fun hm => hf (hk _ hm)

theorem State.remapRefuse_read (s : State) (n spare reason : Nat) :
    (s.remapRefuse n spare reason).getF .dieRemapstatSTATE = 4 ∧
      (s.remapRefuse n spare reason).getF .dieRemapstatREASON = reason % 32 ∧
      (s.remapRefuse n spare reason).getF .dieRemapstatSEEN = 1 := by
  simp [State.remapRefuse, State.setOn, State.setOff]

theorem State.remapRefuse_frame (s : State) (n spare reason : Nat) :
    RegsOnly [fk .dieRemapstatSEEN, fk .dieRemapstatNOSTATE, fk .dieRemapstatSPARE, fk .dieRemapstatLPOS, fk .dieRemapstatREASON,
      fk .dieRemapstatSTATE] s (s.remapRefuse n spare reason) :=
  ((((((RegsOnly.refl s).setF _ _ _ _).setF _ _ _ _).setF _ _ _ _).setF _ _ _ _).setF _ _ _ _).setF _ _ _ _

theorem State.pitchAt_setPitch_self (s : State) (k : Nat) (p : Option Pitch) : (s.setPitch k p).pitchAt k = p :=
  SMap.get_set_self _ _ _ _

theorem State.pitchAt_setPitch_ne (s : State) {k j : Nat} (p : Option Pitch) (h : j ≠ k) : (s.setPitch k p).pitchAt j = s.pitchAt j :=
  SMap.get_set_ne _ _ _ h

/-- An entry changes itself and PEND. -/
theorem SameBut.setPitch {ks : List FKey} (h : SameBut ks s t) (k : Nat) (p : Option Pitch) :
    SameBut (fk .capStatPEND :: ks) s (t.setPitch k p) :=
  SameBut.setF_of (t := { t with pitches := SMap.set (fun _ => none) t.pitches k p }) h _ _ _ _

/-- The write of a spare starts by itself, whatever the queue holds. -/
theorem State.jobAdd_remapWrite (s : State) : s.jobAdd .remapWrite = { s with kilnJobs := s.kilnJobs ++ [.remapWrite] } := by
  unfold State.jobAdd
  dsimp only
  split
  next h =>
    rw [List.isEmpty_iff.mp h]
    rfl
  · rfl

theorem State.jobEnd_remap (s : State) : s.jobEnd.remap = s.remap := (Keeps.refl (l := noLoss)).jobEnd.remap_eq

/-! ## A load that failed -/

/-- Without another covering spare the abort pitch is awaited. -/
theorem State.remapFailed_of_none (h : s.chooseSpare s.remap.pos s.remap.tried = none) :
    s.remapFailed.remap = { s.remap with phase := .aborting } ∧
      s.remapFailed.pitchAt 17 = some ⟨6, false, s.now + 100 * usUnits, ⟨0, false, 0⟩, none⟩ := by
  unfold State.remapFailed
  rw [h]
  exact ⟨rfl, State.pitchAt_setPitch_self _ _ _⟩

/-- The same stop goes on with the other covering spare. -/
theorem State.remapFailed_of_some {p : Nat} (h : s.chooseSpare s.remap.pos s.remap.tried = some p) :
    s.remapFailed.remap = { s.remap with phase := .again, spare := p, tried := s.remap.tried ++ [p] } ∧
      s.remapFailed.getF .dieRemapstatSPARE = p % 64 := by
  unfold State.remapFailed
  rw [h]
  exact ⟨rfl, State.getF_setF_self _ _ _ _ _⟩

/-! ## The commands in their phases -/

theorem exec_sparePrepared_of_preparing (h : s.remap.phase = .preparing) (linkFault : Bool) :
    exec (.sparePrepared linkFault) s = .next (
      if linkFault then (s.inPhase .idle).remapRefuse s.remap.pos s.remap.spare 9
      else if !s.remapAwake then s.wake s.remap.pos 1
      else (s.inPhase .captured).setPitch 17
        (some ⟨3, false, s.now + 200 * usUnits, ⟨2 ^ 64 - 1, true, 2 ^ s.remap.pos⟩, none⟩)) := by
  change execSparePrepared linkFault s = _
  unfold execSparePrepared
  rw [h]
  rfl

theorem exec_sparePrepared_of_again (h : s.remap.phase = .again) :
    exec (.sparePrepared false) s = .next ((s.inPhase .writing).jobAdd .remapWrite) := by
  change execSparePrepared false s = _
  unfold execSparePrepared
  rw [h]
  rfl

/-- The write has passed; whether state is lost is shown. -/
def State.writePassed (s : State) (nostate : Bool) : State :=
  { s with remap := { s.remap with phase := .switching, nostate := nostate } }.setF .dieRemapstatNOSTATE nostate.toNat

/-- The switchover pitch is awaited. -/
def State.awaitSwitchover (s : State) (nostate : Bool) : State :=
  (s.writePassed nostate).setPitch 17 (some ⟨6, false, s.now + 500 * usUnits, ⟨0, false, 0⟩, none⟩)

theorem exec_remapWriteDone {rest : List KilnJob} (hjobs : s.kilnJobs = .remapWrite :: rest) (h : s.remap.phase = .writing)
    (ok readable : Bool) : exec (.remapWriteDone ok readable) s =
      .next (if !ok then s.jobEnd.remapFailed else (s.awaitSwitchover (s.remap.nostate || !readable)).jobEnd) := by
  change execRemapWriteDone ok readable s = _
  unfold execRemapWriteDone
  split
  case h_1 =>
    rw [if_neg (not_not_intro h)]
    rfl
  all_goals
    rename_i hother
    rw [hjobs] at hother
    cases hother

theorem State.writePassed_frame (s : State) (b : Bool) : SameBut [fk .dieRemapstatNOSTATE] s (s.writePassed b) :=
  SameBut.setF_of (t := { s with remap := { s.remap with phase := .switching, nostate := b } }) (SameBut.refl [] s) _ _ _ _

theorem State.awaitSwitchover_frame (s : State) (b : Bool) :
    SameBut [fk .dieRemapstatNOSTATE, fk .capStatPEND] s (s.awaitSwitchover b) :=
  ((s.writePassed_frame b).setPitch _ _).mono (by simp)

theorem State.awaitSwitchover_nostate (s : State) (b : Bool) : (s.awaitSwitchover b).getF .dieRemapstatNOSTATE = b.toNat := by
  have hpitch : SameBut [fk .capStatPEND] (s.writePassed b) (s.awaitSwitchover b) := (SameBut.refl [] _).setPitch _ _
  rw [hpitch.fld _ _ _ (by decide), State.writePassed, State.getF_setF_self, Fld.dieRemapstatNOSTATE_len]
  exact Nat.mod_eq_of_lt b.toNat_lt

/-! ## The steps together -/

theorem remapsPrepareAndWriteTheSpare : RemapsPrepareAndWriteTheSpare := by
  refine fun s => ⟨fun h => ⟨_, exec_sparePrepared_of_preparing h true, ?_⟩,
    fun h hawake => ⟨_, exec_sparePrepared_of_preparing h false, ?_⟩, fun h => ⟨_, exec_sparePrepared_of_again h, ?_⟩,
    fun readable rest hjobs h => ⟨⟨_, exec_remapWriteDone hjobs h true readable, ?_⟩,
      s.jobEnd.remapFailed, exec_remapWriteDone hjobs h false readable, ?_⟩⟩
  · obtain ⟨hstate, hreason, hseen⟩ := (s.inPhase .idle).remapRefuse_read s.remap.pos s.remap.spare 9
    obtain ⟨hsame, hrest⟩ := (s.inPhase .idle).remapRefuse_frame s.remap.pos s.remap.spare 9
    exact ⟨hstate, hreason, hseen, rfl, SameBut.sameRegs (s := s) hsame (by decide), eq_of_putBack_regs_inPhase hrest⟩
  · rw [hawake]
    exact ⟨rfl, State.pitchAt_setPitch_self _ _ _, fun j hj => State.pitchAt_setPitch_ne _ _ hj,
      SameBut.setPitch (SameBut.refl [] s) _ _, rfl⟩
  · rw [State.jobAdd_remapWrite]
    exact ⟨rfl, rfl, rfl, rfl⟩
  · exact ⟨s.awaitSwitchover _, rfl, rfl, rfl, s.awaitSwitchover_nostate _, State.pitchAt_setPitch_self _ _ _,
      s.awaitSwitchover_frame _, rfl⟩
  · have hremap := s.jobEnd_remap
    refine ⟨fun hnone => ?_, fun p hp => ?_⟩
    · rw [← hremap] at hnone ⊢
      obtain ⟨hphase, hpitch⟩ := State.remapFailed_of_none hnone
      exact ⟨hphase, congrArg (Option.map _) hpitch⟩
    · rw [← hremap] at hp ⊢
      exact State.remapFailed_of_some hp

end Sys2Proof.Machine
end

section
/-! SUPPORT. What a switchover, abort or end of a remap keeps, and the frames of a position that the Kiln has written anew (R227, R228). -/

namespace Sys2Proof.Machine

variable {l : Loss} {s t u : State}

/-! ## Operations on a position -/

/-- The frames and flip-flops of positions. -/
def contentLoss : Loss := { forget := fun x => { x with cfg := [], q := [] } }

/-- The flip-flops alone. -/
def qLoss : Loss := { forget := fun x => { x with q := [] } }

/-- The loss l does not count flip-flops. -/
def Loss.forgetsQ (l : Loss) : Prop := ∀ x q, l.forget { x with q := q } = l.forget x

namespace Keeps

theorem updSpanActive {n} (h : Keeps l s t) : Keeps l s (t.updSpanActive n) := h.setF
theorem setPos {n p} (h : Keeps l s t) : Keeps l s (t.setPos n p) := other h rfl
theorem setSlice {n k v} (h : Keeps l s t) : Keeps l s (t.setSlice n k v) := other h rfl
theorem setPort {n b portB p} (h : Keeps l s t) : Keeps l s (t.setPort n b portB p) := other h rfl
theorem setRamRow {n k row v m} (h : Keeps l s t) : Keeps l s (t.setRamRow n k row v m) := other h rfl
theorem setDeep {n k word v} (h : Keeps l s t) : Keeps l s (t.setDeep n k word v) := other h rfl
theorem coefWrite {n k w v} (h : Keeps l s t) : Keeps l s (t.coefWrite n k w v) := other h rfl
theorem setSpg {n v} (h : Keeps l s t) : Keeps l s (t.setSpg n v) := other h rfl

theorem setQ {m : SMap Nat} (h : Keeps l s t) (hq : l.forgetsQ) : Keeps l s { t with q := m } :=
  ⟨h.getF_eq, (hq t.standing m).trans h.standing_eq, h.out_grows⟩

theorem writeContent {n fa data} (h : Keeps l s t) : Keeps l s (t.writeContent n fa data) := by
  unfold State.writeContent
  split
  · exact foldl h fun h => h.setRamRow
  · exact foldl h fun h => h.setDeep
  · exact foldl h fun h => h.coefWrite
  · exact h

theorem startTiles {n p} (h : Keeps l s t) (hq : l.forgetsQ) : Keeps l s (t.startTiles n p) := by
  unfold State.startTiles
  extract_lets t₁
  have h₁ : Keeps l s t₁ := other (h.setQ hq) rfl
  refine foldl h₁ fun h => ite ?_ h
  dsimp only
  split
  exacts [setSlice (h.setQ hq), h.setQ hq]

theorem restoreQ {n p} (h : Keeps l s t) (hq : l.forgetsQ) : Keeps l s (t.restoreQ n p) := foldl (h.setQ hq) fun h => h.setQ hq

theorem restoreSnaps {n} (h : Keeps l s t) : Keeps l s (t.restoreSnaps n) :=
  foldl (foldl h fun h => h.setSlice) fun h => ite h.setPort.setPort h.setPort

theorem updPllcfg {n} (h : Keeps l s t) : Keeps l s (t.updPllcfg n) :=
  foldl h fun h => h.foldlMem fun hf h =>
    h.setF ((by decide : ∀ f ∈ RegName.grnPllcfg.fields, f ∉ standingFields) _ hf)

theorem crossingsResume {n} (h : Keeps l s t) : Keeps l s (t.crossingsResume n) :=
  foldl h fun h => by
    split
    exacts [ite (ite h h.setBitF) (setBitF (ite h h.setBitF)), h]

theorem passStart {n} (h : Keeps l s t) : Keeps l s (t.passStart n) := h.setSpg.setF
theorem remapResumes {n} (h : Keeps l s t) : Keeps l s (t.remapResumes n) := h.crossingsResume.dnpUnrest.dnpUnrest.passStart

end Keeps

/-! ## Frames -/

theorem cfgKey_div (n : Nat) {fa : Nat} (h : fa < 2 ^ 32) : cfgKey n fa / 2 ^ 32 = n := by
  simp only [cfgKey]
  omega

theorem cfgKey_mod (n : Nat) {fa : Nat} (h : fa < 2 ^ 32) : cfgKey n fa % 2 ^ 32 = fa := by
  simp only [cfgKey]
  omega

theorem State.frame_of_cfg_eq (h : t.cfg = s.cfg) (m fa : Nat) : t.frame m fa = s.frame m fa := by
  rw [State.frame, State.frame, h]

/-- Initial content clears no frame but those that hold content. -/
theorem State.frame_initialContent (s : State) {n m fa : Nat} (hfa : fa < 2 ^ 32) (h : m ≠ n ∨ bits fa 28 4 < 5) :
    (s.initialContent n).frame m fa = s.frame m fa := by
  have hkeep : Keeps noLoss (s.clearFrames n fun fa => bits fa 28 4 == 5 || bits fa 28 4 == 6 || bits fa 28 4 == 7)
      (s.initialContent n) := Keeps.refl.foldl fun h => h.writeContent
  rw [State.frame_of_cfg_eq hkeep.cfg_eq, State.frame, State.clearFrames, SMap.get_clearWhere, cfgKey_div m hfa, cfgKey_mod m hfa,
    if_neg]
  · rfl
  · simp only [Bool.and_eq_true, Bool.or_eq_true, beq_iff_eq]
    omega

/-- A frame as the Kiln writes it anew. -/
def CfgFrame.fresh (f : CfgFrame) : CfgFrame := ⟨f.good, f.good, 0⟩

theorem SMap.le_of_mem {ν : Type} [DecidableEq ν] {d : Nat → ν} {m : SMap ν} {lo : Nat} (w : SMap.wfFrom d lo m = true)
    {e : Nat × ν} (h : e ∈ m) : lo ≤ e.1 := by
  induction m generalizing lo with
  | nil => cases h
  | cons a m ih =>
    simp only [SMap.wfFrom, Bool.and_eq_true, decide_eq_true_eq] at w
    obtain ⟨⟨hlo, -⟩, hm⟩ := w
    rcases List.mem_cons.mp h with rfl | h
    · exact hlo
    · exact (by omega : lo ≤ a.1 + 1).trans (ih hm h)

/-- A canonical map reads what its entries say. -/
theorem SMap.get_of_mem {ν : Type} [DecidableEq ν] {d : Nat → ν} {m : SMap ν} {lo : Nat} (w : SMap.wfFrom d lo m = true)
    {e : Nat × ν} (h : e ∈ m) : SMap.get d m e.1 = e.2 := by
  induction m generalizing lo with
  | nil => cases h
  | cons a m ih =>
    simp only [SMap.wfFrom, Bool.and_eq_true] at w
    rcases List.mem_cons.mp h with rfl | h
    · exact if_pos rfl
    · have hlt := SMap.le_of_mem w.2 h
      exact (if_neg (by omega)).trans (ih w.2 h)

theorem SMap.get_of_notMem {ν : Type} (d : Nat → ν) {m : SMap ν} {k : Nat} (h : k ∉ m.map (·.1)) : SMap.get d m k = d k := by
  induction m with
  | nil => rfl
  | cons a m ih =>
    rw [List.map_cons, List.mem_cons, not_or] at h
    exact (if_neg h.1).trans (ih h.2)

theorem State.frame_setFrame (s : State) (n fa : Nat) (f : CfgFrame) (m fb : Nat) :
    (s.setFrame n fa f).frame m fb = if cfgKey m fb = cfgKey n fa then f else s.frame m fb := SMap.get_set _ _ _ _ _

/-- The frames of a list of entries of position n are written anew. -/
def State.freshEntries (s : State) (n : Nat) (es : List (Nat × CfgFrame)) : State :=
  es.foldl (fun t e => t.setFrame n (e.1 % 2 ^ 32) e.2.fresh) s

theorem State.frame_freshEntries {c : SMap CfgFrame} {n : Nat} {es : List (Nat × CfgFrame)}
    (hes : ∀ e ∈ es, e.1 / 2 ^ 32 = n ∧ SMap.get (fun _ => CfgFrame.zero) c e.1 = e.2) (s : State) (m fa : Nat) :
    (s.freshEntries n es).frame m fa =
      if cfgKey m fa ∈ es.map (·.1) then (SMap.get (fun _ => CfgFrame.zero) c (cfgKey m fa)).fresh else s.frame m fa := by
  induction es generalizing s with
  | nil => rfl
  | cons e es ih =>
    obtain ⟨hpos, hget⟩ := hes e List.mem_cons_self
    have hkey : cfgKey n (e.1 % 2 ^ 32) = e.1 := by
      rw [cfgKey, ← hpos]
      omega
    have hstep : s.freshEntries n (e :: es) = (s.setFrame n (e.1 % 2 ^ 32) e.2.fresh).freshEntries n es := rfl
    rw [hstep, ih fun e' he' => hes e' (List.mem_cons_of_mem _ he'), State.frame_setFrame, hkey]
    by_cases h : cfgKey m fa = e.1
    · simp [h, hget]
    · simp only [List.map_cons, List.mem_cons, h, false_or, if_false]

/-- The Kiln writes the golden bits of every frame of position n, and no other frame. -/
theorem State.frame_freshFrames (w : SMap.wf (fun _ => CfgFrame.zero) s.cfg = true) (n m : Nat) {fa : Nat} (hfa : fa < 2 ^ 32) :
    (s.freshFrames n).frame m fa = if m = n then (s.frame n fa).fresh else s.frame m fa := by
  have hspan : (s.freshFrames n).cfg = (s.freshEntries n (s.cfg.filter fun e => e.1 / 2 ^ 32 == n)).cfg := rfl
  rw [State.frame_of_cfg_eq hspan, State.frame_freshEntries (c := s.cfg) fun e he => by
    obtain ⟨hmem, hpos⟩ := List.mem_filter.mp he
    exact ⟨beq_iff_eq.mp hpos, SMap.get_of_mem w hmem⟩]
  by_cases hm : m = n
  · subst hm
    rw [if_pos rfl]
    split
    · rfl
    next h =>
      have habsent : cfgKey m fa ∉ s.cfg.map (·.1) := by
        intro hk
        obtain ⟨e, he, hek⟩ := List.mem_map.mp hk
        exact h (List.mem_map.mpr ⟨e, List.mem_filter.mpr ⟨he, by rw [hek, cfgKey_div m hfa, beq_self_eq_true]⟩, hek⟩)
      have hzero : s.frame m fa = CfgFrame.zero := SMap.get_of_notMem _ habsent
      rw [hzero]
      rfl
  · rw [if_neg hm, if_neg]
    intro hk
    obtain ⟨e, he, hek⟩ := List.mem_map.mp hk
    have hpos := beq_iff_eq.mp (List.mem_filter.mp he).2
    exact hm (by rw [← hpos, hek, cfgKey_div m hfa])

/-! ## The switchover -/

/-- The spare serves position n, its frames written anew. -/
def State.mapSpare (s : State) (n spare : Nat) : State :=
  let t := (s.freshFrames n).setF .dieMapPHYS spare n
  { t with oos := SMap.set (fun _ => false) t.oos n false, remap := { t.remap with phase := .finishing } }

/-- Position n takes what it starts from: INIT and its initial content without state, its shadows and snapshots otherwise. -/
def State.fillPos (s : State) (n : Nat) (nostate : Bool) : State :=
  if nostate then (s.initialContent n).startTiles n allTiles else (s.restoreQ n fun _ => true).restoreSnaps n

/-- A position that was out of service leaves its die reset. -/
def State.enterService (s : State) (n : Nat) (was : Bool) : State :=
  if was then s.setPos n ⟨s.bitF .dieGrstHOLD n, false⟩ else s

/-- Position n starts on the spare. -/
def State.startOnSpare (s : State) (n : Nat) (was nostate : Bool) : State :=
  ((((s.enterService n was).fillPos n nostate).updPllcfg n).updIdinfo).remapResumes n

theorem exec_switchoverPitch {p : Pitch} (h : s.remap.phase = .switching) (he : s.takePitch 17 6 = some (p, u)) :
    exec .switchoverPitch s =
      .next ((u.mapSpare s.remap.pos s.remap.spare).startOnSpare s.remap.pos (s.isOos s.remap.pos) s.remap.nostate) := by
  change execSwitchoverPitch s = _
  unfold execSwitchoverPitch
  rw [if_neg (not_not_intro h), he]
  rfl

theorem Keeps.clearFrames {n p} (h : Keeps contentLoss s t) : Keeps contentLoss s (t.clearFrames n p) :=
  ⟨h.getF_eq, h.standing_eq, h.out_grows⟩

theorem Keeps.initialContent {n} (h : Keeps contentLoss s t) : Keeps contentLoss s (t.initialContent n) :=
  h.clearFrames.foldl fun h => h.writeContent

theorem Keeps.enterService {n was} (h : Keeps l s t) : Keeps l s (t.enterService n was) := ite h.setPos h

theorem Keeps.fillPos {n nostate} (h : Keeps contentLoss s t) : Keeps contentLoss s (t.fillPos n nostate) :=
  ite (h.initialContent.startTiles fun _ _ => rfl) (h.restoreQ fun _ _ => rfl).restoreSnaps

theorem State.startOnSpare_keeps (s : State) (n : Nat) (was nostate : Bool) : Keeps contentLoss s (s.startOnSpare n was nostate) :=
  Keeps.refl.enterService.fillPos.updPllcfg.updIdinfo.remapResumes

theorem State.frame_fillPos (s : State) (n : Nat) (nostate : Bool) {m fa : Nat} (hfa : fa < 2 ^ 32)
    (h : m ≠ n ∨ bits fa 28 4 < 5) : (s.fillPos n nostate).frame m fa = s.frame m fa := by
  have hq : qLoss.forgetsQ := fun _ _ => rfl
  unfold State.fillPos
  split
  · have hstart : Keeps qLoss (s.initialContent n) ((s.initialContent n).startTiles n allTiles) := Keeps.refl.startTiles hq
    rw [State.frame_of_cfg_eq hstart.cfg_eq, s.frame_initialContent hfa h]
  · have hrestore : Keeps qLoss s ((s.restoreQ n fun _ => true).restoreSnaps n) := (Keeps.refl.restoreQ hq).restoreSnaps
    exact State.frame_of_cfg_eq hrestore.cfg_eq m fa

/-- The start changes no frame but those of its position that hold content. -/
theorem State.frame_startOnSpare (s : State) (n : Nat) (was nostate : Bool) {m fa : Nat} (hfa : fa < 2 ^ 32)
    (h : m ≠ n ∨ bits fa 28 4 < 5) : (s.startOnSpare n was nostate).frame m fa = s.frame m fa := by
  have hservice : Keeps noLoss s (s.enterService n was) := Keeps.refl.enterService
  have hend : Keeps noLoss ((s.enterService n was).fillPos n nostate) (s.startOnSpare n was nostate) :=
    Keeps.refl.updPllcfg.updIdinfo.remapResumes
  rw [State.frame_of_cfg_eq hend.cfg_eq, State.frame_fillPos _ _ _ hfa h, State.frame_of_cfg_eq hservice.cfg_eq]

theorem Keeps.phys_eq (h : Keeps l s t) (m : Nat) (hl : .dieMapPHYS ∉ l.fields := by decide) : t.phys m = s.phys m :=
  h.getF_eq _ (by decide) hl m 0

theorem Keeps.setFrame {n fa f} (h : Keeps contentLoss s t) : Keeps contentLoss s (t.setFrame n fa f) :=
  ⟨h.getF_eq, h.standing_eq, h.out_grows⟩

theorem State.freshFrames_keeps (s : State) (n : Nat) : Keeps contentLoss s (s.freshFrames n) :=
  (Keeps.refl.foldl fun h => h.setFrame).updSpanActive

theorem State.phys_mapSpare_self (s : State) (n spare : Nat) : (s.mapSpare n spare).phys n = spare % 64 :=
  calc (s.mapSpare n spare).phys n
      = ((s.freshFrames n).setF .dieMapPHYS spare n).getF .dieMapPHYS n := rfl
    _ = spare % 64 := State.getF_setF_self _ .dieMapPHYS spare n 0

/-- Every other position keeps its grain. -/
theorem State.phys_mapSpare_ne (s : State) (spare : Nat) {n m : Nat} (hn : n < 60) (hm : m < 60) (h : m ≠ n) :
    (s.mapSpare n spare).phys m = s.phys m :=
  calc (s.mapSpare n spare).phys m
      = ((s.freshFrames n).setF .dieMapPHYS spare n).getF .dieMapPHYS m := rfl
    _ = (s.freshFrames n).phys m := State.getF_setF_ne_fst _ _ _ _ (by omega)
    _ = s.phys m := (s.freshFrames_keeps n).phys_eq m

/-- The position is in service, and the others stay as they are. -/
theorem State.isOos_mapSpare (s : State) (n spare m : Nat) : (s.mapSpare n spare).isOos m = if m = n then false else s.isOos m := by
  have hfresh := (s.freshFrames_keeps n).isOos_eq m
  rw [← hfresh]
  exact SMap.get_set (fun _ => false) (s.freshFrames n).oos n m false

theorem State.frame_mapSpare (w : SMap.wf (fun _ => CfgFrame.zero) s.cfg = true) (n spare m : Nat) {fa : Nat} (hfa : fa < 2 ^ 32) :
    (s.mapSpare n spare).frame m fa = if m = n then (s.frame n fa).fresh else s.frame m fa := State.frame_freshFrames w n m hfa

/-! ## The abort -/

/-- The remap shows its abort. -/
def State.showAbort (s : State) : State :=
  (((s.inPhase .idle).setF .dieRemapstatSTATE 5).setF .dieRemapstatREASON 8).setOn .dieRemapstatSEEN

theorem exec_abortPitch {p : Pitch} (h : s.remap.phase = .aborting) (he : s.takePitch 17 6 = some (p, u)) :
    exec .abortPitch s = .next (u.showAbort.remapResumes s.remap.pos) := by
  change execAbortPitch s = _
  unfold execAbortPitch
  rw [if_neg (not_not_intro h), he]
  rfl

/-- The fields that an abort shows, and the phase. -/
def abortLoss : Loss where
  fields := [.dieRemapstatSTATE, .dieRemapstatREASON, .dieRemapstatSEEN]
  forget x := { x with remap := { x.remap with phase := .idle } }

theorem State.showAbort_keeps (s : State) : Keeps abortLoss s s.showAbort :=
  have hphase : Keeps abortLoss s (s.inPhase .idle) := ⟨fun _ _ _ _ _ => rfl, rfl, ⟨[], List.append_nil _⟩⟩
  ((hphase.write (.inr (by decide))).write (.inr (by decide))).write (.inr (by decide))

theorem State.showAbort_read (s : State) : s.showAbort.getF .dieRemapstatSTATE = 5 ∧ s.showAbort.getF .dieRemapstatREASON = 8 ∧
    s.showAbort.getF .dieRemapstatSEEN = 1 := by
  simp [State.showAbort, State.setOn]

/-! ## The end of a remap -/

/-- The link direction of a key is down. -/
def State.linkDown (s : State) (key : Nat) : Prop := (SMap.get (fun _ => LinkSt.initial) s.link key).up = false

theorem State.linkDown_linkOff_self (s : State) (key : Nat) : (s.linkOff key).linkDown key := by
  rw [State.linkDown, State.linkOff, SMap.get_set_self]

/-- Stopping a direction starts none. -/
theorem State.linkDown.linkOff {key : Nat} (h : s.linkDown key) (key' : Nat) : (s.linkOff key').linkDown key := by
  by_cases hk : key = key'
  · exact hk ▸ s.linkDown_linkOff_self key
  · rw [State.linkDown, State.linkOff, SMap.get_set_ne _ _ _ hk]
    exact h

/-- The link directions beyond one port of grain p stop. -/
def State.portLinksOff (s : State) (p d : Nat) : State :=
  match physNbr p (portOf d) with
  | .grain q => (s.linkOff (4 * p + d)).linkOff (4 * q + oppNum d)
  | .tun => s.linkOff (4 * p + d)
  | .none => s

theorem State.linkDown.portLinksOff {key : Nat} (h : s.linkDown key) (p d : Nat) : (s.portLinksOff p d).linkDown key := by
  unfold State.portLinksOff
  split
  · exact (h.linkOff _).linkOff _
  · exact h.linkOff _
  · exact h

theorem State.linkDown_portLinksOff_self {p d : Nat} (h : physNbr p (portOf d) ≠ .none) :
    (s.portLinksOff p d).linkDown (4 * p + d) := by
  unfold State.portLinksOff
  split
  · exact (s.linkDown_linkOff_self _).linkOff _
  · exact s.linkDown_linkOff_self _
  next hn => exact absurd hn h

theorem State.grainLinksOff_eq (s : State) (p : Nat) : s.grainLinksOff p = (List.range 4).foldl (fun t d => t.portLinksOff p d) s := rfl

theorem State.linkDown_grainLinksOff (s : State) {p : Nat} (d : Fin 4) (h : physNbr p (portOf d) ≠ .none) :
    (s.grainLinksOff p).linkDown (4 * p + d) := by
  have hkeep (u : State) (ds : List Nat) (hu : u.linkDown (4 * p + d)) :
      (ds.foldl (fun t d => t.portLinksOff p d) u).linkDown (4 * p + d) :=
    List.foldlRecOn (motive := (State.linkDown · (4 * p + d))) ds _ hu fun _ hu k _ => hu.portLinksOff p k
  obtain ⟨l, l', hl⟩ := List.append_of_mem (List.mem_range.mpr d.isLt)
  rw [State.grainLinksOff_eq, hl, List.foldl_append, List.foldl_cons]
  exact hkeep _ _ (State.linkDown_portLinksOff_self h)

theorem State.portLinksOff_rest (s : State) (p d : Nat) : ∃ m, s.portLinksOff p d = { s with link := m } := by
  unfold State.portLinksOff
  split
  exacts [⟨_, rfl⟩, ⟨_, rfl⟩, ⟨s.link, rfl⟩]

/-- Only links change. -/
theorem State.grainLinksOff_rest (s : State) (p : Nat) : ∃ m, s.grainLinksOff p = { s with link := m } := by
  rw [State.grainLinksOff_eq]
  refine List.foldlRecOn (motive := fun t : State => ∃ m, t = { s with link := m }) _ _ ⟨s.link, rfl⟩ fun t ⟨m, ht⟩ d _ => ?_
  obtain ⟨m', ht'⟩ := t.portLinksOff_rest p d
  exact ⟨m', by rw [ht', ht]⟩

/-- The old grain p is left: its links are down and the repair map is rewritten. -/
def State.leaveGrain (s : State) (p : Nat) : State := ((s.inPhase .idle).grainLinksOff p).writeRepair

theorem State.leaveGrain_eq (s : State) (p : Nat) : ∃ m,
    s.leaveGrain p = { s.inPhase .idle with
      link := m, repair := { s.repair with map := (List.range 60).map s.phys, seq := s.repair.seq + 1 } } ∧
    ∀ d : Fin 4, physNbr p (portOf d) ≠ .none → (SMap.get (fun _ => LinkSt.initial) m (4 * p + d)).up = false := by
  obtain ⟨m, hm⟩ := (s.inPhase .idle).grainLinksOff_rest p
  refine ⟨m, by rw [State.leaveGrain, hm]; rfl, fun d hd => ?_⟩
  have hdown := (s.inPhase .idle).linkDown_grainLinksOff d hd
  rwa [hm] at hdown

/-- The remap shows its end. -/
def State.showEnd (s : State) : State := (s.setF .dieRemapstatSTATE 3).setOn .dieRemapstatSEEN

theorem State.showEnd_read (s : State) : s.showEnd.getF .dieRemapstatSTATE = 3 ∧ s.showEnd.getF .dieRemapstatSEEN = 1 := by
  simp [State.showEnd, State.setOn]

theorem State.showEnd_frame (s : State) : RegsOnly [fk .dieRemapstatSEEN, fk .dieRemapstatSTATE] s s.showEnd :=
  ((RegsOnly.refl s).setF _ _ _ _).setF _ _ _ _

theorem exec_remapFinish (h : s.remap.phase = .finishing) : exec .remapFinish s =
    .next ((s.leaveGrain s.remap.old).showEnd.raise 985) :=
  congrArg Host.Outcome.next (if_neg (not_not_intro h))

/-- What raised a source raised it in an earlier state too, where the event router and the messages are the same. -/
theorem Raised.of_sameBut {ks : List FKey} {e p : Nat} (h : Raised e p t u) (hs : SameBut ks s t)
    (hk : ∀ k ∈ ks, k.1.info.reg ∉ [RegName.evrPay, .evrRoute]) (ho : t.out = s.out) : Raised e p s u := by
  have hget (f : Fld) (hf : f.info.reg ∈ [RegName.evrPay, .evrRoute]) : t.getF f e = s.getF f e :=
    hs.fld f e 0 fun k hk' hkf => hk k hk' (hkf ▸ hf)
  have hrouted : t.routed e = s.routed e := by
    simp only [State.routed, State.isSet, hget _ (by decide : Fld.evrRouteMSIEN.info.reg ∈ _),
      hget _ (by decide : Fld.evrRouteDESEN.info.reg ∈ _), hget _ (by decide : Fld.evrRouteTAPEN.info.reg ∈ _)]
  obtain ⟨hpay, hcnt, hseen, hpend, hout⟩ := h
  rw [hget _ (by decide)] at hcnt hpend
  rw [hrouted] at hpend
  rw [ho] at hout
  exact ⟨hpay, hcnt, hseen, hpend, hout⟩

/-! ## The steps together -/

theorem remapsSwitchOverOrAbort : RemapsSwitchOverOrAbort := by
  refine fun s => ⟨fun p u h hn w he => ?_, fun p u h he => ?_, fun h => ?_⟩
  · have hexec := exec_switchoverPitch h he
    have hpitch : Keeps noLoss s u := Keeps.refl.takePitch he
    have hstart := (u.mapSpare s.remap.pos s.remap.spare).startOnSpare_keeps s.remap.pos (s.isOos s.remap.pos) s.remap.nostate
    have hw : SMap.wf (fun _ => CfgFrame.zero) u.cfg = true := by rwa [hpitch.cfg_eq]
    refine ⟨_, hexec, ?_, fun m hm => ?_, ?_, fun m hm => ?_, ?_, fun fa hfa hb => ?_, fun m fa hm hfa => ?_,
      State.part_eq_of_exec hexec⟩
    · rw [hstart.phys_eq, State.phys_mapSpare_self]
    · rw [hstart.phys_eq, State.phys_mapSpare_ne _ _ hn m.isLt hm, hpitch.phys_eq]
    · rw [hstart.isOos_eq, State.isOos_mapSpare, if_pos rfl]
    · rw [hstart.isOos_eq, State.isOos_mapSpare, if_neg hm, hpitch.isOos_eq]
    · rw [hstart.remap_eq]
      rfl
    · rw [State.frame_startOnSpare _ _ _ _ hfa (.inr hb), State.frame_mapSpare hw _ _ _ hfa, if_pos rfl,
        State.frame_of_cfg_eq hpitch.cfg_eq]
      rfl
    · rw [State.frame_startOnSpare _ _ _ _ hfa (.inl hm), State.frame_mapSpare hw _ _ _ hfa, if_neg hm,
        State.frame_of_cfg_eq hpitch.cfg_eq]
  · have hpitch : Keeps noLoss s u := Keeps.refl.takePitch he
    have hend : Keeps noLoss u.showAbort (u.showAbort.remapResumes s.remap.pos) := Keeps.refl.remapResumes
    obtain ⟨hstate, hreason, hseen⟩ := u.showAbort_read
    refine ⟨_, exec_abortPitch h he, ?_, ?_, ?_, ?_, fun m => ?_, ?_, ?_, ?_⟩
    · rw [hend.getF_eq _ (by decide) (by decide), hstate]
    · rw [hend.getF_eq _ (by decide) (by decide), hreason]
    · rw [hend.getF_eq _ (by decide) (by decide), hseen]
    · rw [hend.remap_eq]
      rfl
    · rw [hend.phys_eq, u.showAbort_keeps.phys_eq, hpitch.phys_eq]
    · rw [hend.cfg_eq, u.showAbort_keeps.cfg_eq, hpitch.cfg_eq]
    · rw [hend.q_eq, u.showAbort_keeps.q_eq, hpitch.q_eq]
    · rw [hend.oos_eq, u.showAbort_keeps.oos_eq, hpitch.oos_eq]
  · obtain ⟨m, hleave, hdown⟩ := s.leaveGrain_eq s.remap.old
    obtain ⟨hstate, hseen⟩ := (s.leaveGrain s.remap.old).showEnd_read
    obtain ⟨hsame, hrest⟩ := (s.leaveGrain s.remap.old).showEnd_frame
    obtain ⟨hraised, hsame', hrest'⟩ := (s.leaveGrain s.remap.old).showEnd.raise_spec (e := 985) 0 (by decide)
    refine ⟨_, exec_remapFinish h, ?_⟩
    generalize (s.leaveGrain s.remap.old).showEnd.raise 985 = t at *
    generalize (s.leaveGrain s.remap.old).showEnd = u at *
    generalize s.leaveGrain s.remap.old = v at *
    subst hleave
    obtain ⟨r, rfl⟩ := eq_of_putBack_regs hrest
    obtain ⟨r', o, rfl⟩ := eq_of_putBack_regs_out hrest'
    refine ⟨?_, ?_, rfl, hraised.of_sameBut (s := s) hsame (by decide) rfl, rfl, rfl, hdown, ?_, rfl⟩
    · rw [hsame'.fld _ _ _ (by decide), hstate]
    · rw [hsame'.fld _ _ _ (by decide), hseen]
    · exact SameBut.sameRegs (SameBut.trans (s := s) hsame hsame') (by decide)

end Sys2Proof.Machine

open Sys2Proof Sys2Proof.Machine

/-- Settles O37: up to the switchover each command works in one phase and changes what its step names; from there on the map, the positions
in service and the golden frames are followed through all that starts again. -/
theorem remapsRunTheirSteps : Obligations.RemapsRunTheirSteps := ⟨remapsPrepareAndWriteTheSpare, remapsSwitchOverOrAbort⟩
end

section
/-! SUPPORT. The flip-flops of a tile (R47, R50, R53): what a mask of 16 cells holds, what a cell takes at an active edge, and the three
commands of the flip-flops as one update of the tile. -/

namespace Sys2Proof.Machine

variable {s : State} {tl : Tile} {line : Fin 2} {a : Arrivals} {key fr q row c : Nat} {b : Bool}

/-! ## Masks of cells -/

/-- A sum of powers of two over the numbers below n that satisfy p has exactly those bits. -/
theorem testBit_sum_two_pow (p : Nat → Prop) [DecidablePred p] (n c : Nat) :
    ((List.range n).foldl (fun m k => if p k then m + 2 ^ k else m) 0).testBit c = decide (c < n ∧ p c) := by
  induction n generalizing c with
  | zero => simp
  | succ n ih =>
    rw [List.range_succ, List.foldl_append, List.foldl_cons, List.foldl_nil]
    generalize (List.range n).foldl _ 0 = m at ih ⊢
    have htop : m.testBit n = false := by simp [ih]
    have hlt (hc : c ≠ n) : c < n + 1 ↔ c < n := by omega
    by_cases hp : p n
    · rw [if_pos hp, Nat.add_comm]
      by_cases hc : c = n
      · rw [hc, Nat.testBit_two_pow_add_eq, htop]
        simp [hp]
      · rw [testBit_two_pow_add_ne htop hc, ih]
        simp only [hlt hc]
    · rw [if_neg hp, ih]
      by_cases hc : c = n
      · simp [hc, hp]
      · simp only [hlt hc]

@[simp] theorem testBit_maskOf (p : Nat → Bool) (c : Fin 16) : (maskOf p).testBit c = p c := by
  simp [maskOf, testBit_sum_two_pow fun k => p k = true]

@[simp] theorem testBit_cellsOn (fr k : Nat) (c : Fin 16) : (cellsOn fr k).testBit c = decide ((cellCfg fr c).cksel = k) := by
  simp [cellsOn, testBit_sum_two_pow fun k' => (cellCfg fr k').cksel = k]

/-! ## Tiles and SR lines -/

@[simp] theorem State.tileQ_setTileQ_self (s : State) (key v : Nat) : (s.setTileQ key v).tileQ key = v := SMap.get_set_self _ _ _ _

theorem State.tileQ_setTileQ_ne (s : State) {key k : Nat} (v : Nat) (h : k ≠ key) : (s.setTileQ key v).tileQ k = s.tileQ k :=
  SMap.get_set_ne _ _ _ h

/-- An asynchronous SR line of a tile is asserted or released. -/
def State.setSrLine (s : State) (key k : Nat) (on : Bool) : State :=
  { s with srOn := SMap.set (fun _ => 0) s.srOn key (setBit (SMap.get (fun _ => 0) s.srOn key) k on) }

@[simp] theorem State.asyncOn_setSrLine_self (s : State) (key k : Nat) (on : Bool) : (s.setSrLine key k on).asyncOn key k = on := by
  rw [State.asyncOn, State.setSrLine, SMap.get_set_self, setBit_testBit_self]

theorem State.setTileQ_frame (s : State) (key v : Nat) : { s.setTileQ key v with q := s.q } = s := by
  cases s
  rfl

theorem State.setSrLine_frame (s : State) (key k : Nat) (on : Bool) : { s.setSrLine key k on with srOn := s.srOn } = s := by
  cases s
  rfl

theorem State.setTileQ_setSrLine_frame (s : State) (key k v : Nat) (on : Bool) :
    { (s.setSrLine key k on).setTileQ key v with q := s.q, srOn := s.srOn } = s := by
  cases s
  rfl

theorem State.setTileQ_free_frame (s : State) (key v : Nat) : { s.free.2.setTileQ key v with q := s.q, freeCtr := s.freeCtr } = s := by
  cases s
  rfl

theorem State.setTileQ_setSrLine_free_frame (s : State) (key k v : Nat) (on : Bool) :
    { (s.setSrLine key k on).free.2.setTileQ key v with q := s.q, srOn := s.srOn, freeCtr := s.freeCtr } = s := by
  cases s
  rfl

/-! ## What a cell takes at an active edge -/

/-- Value b of cell c keeps the priorities 2 to 5 of R50. -/
def State.byPriority (s : State) (key fr : Nat) (a : Arrivals) (q row c : Nat) (b : Bool) : Prop :=
  (s.forced key fr c = true → b = (cellCfg fr c).srval) ∧
  (∀ k, s.forced key fr c = false → (cellCfg fr c).sr = some k → srAsync fr k = false → srLine fr a q k = true →
    b = (cellCfg fr c).srval) ∧
  (s.forced key fr c = false → (∀ k, (cellCfg fr c).sr = some k → srAsync fr k = true ∨ srLine fr a q k = false) →
    b = if cellCe fr a q c then cellD fr a q row c else q.testBit c)

theorem State.byPriority_edgeBit (s : State) (key fr : Nat) (a : Arrivals) (q row c : Nat) :
    s.byPriority key fr a q row c (s.edgeBit key fr a q row c) := by
  unfold State.byPriority State.edgeBit
  refine ⟨fun hf => if_pos hf, fun k hf hk hasync hline => ?_, fun hf hsr => ?_⟩
  · simp [hf, hk, hasync, hline]
  · rw [if_neg (by simp [hf])]
    cases hk : (cellCfg fr c).sr with
    | none => rfl
    | some k =>
      refine if_neg ?_
      rcases hsr k hk with h | h <;> simp [h]

/-- What the flip-flops of a tile take at an active edge of a line. -/
def State.edgeQ (s : State) (key fr : Nat) (a : Arrivals) (q row line : Nat) : Nat :=
  maskOf fun c => if (cellsOn fr line).testBit c then s.edgeBit key fr a q row c else q.testBit c

/-- What they take where a recovery time is violated: `free` chooses the cells with an asynchronous SR that go to SRVAL (R53). -/
def State.recoveryQ (s : State) (key fr : Nat) (a : Arrivals) (q row line free : Nat) : Nat :=
  maskOf fun c =>
    if (cellsOn fr line).testBit c && (cellCfg fr c).sr.any (srAsync fr ·) && !s.forced key fr c && free.testBit c then
      (cellCfg fr c).srval
    else (s.edgeQ key fr a q row line).testBit c

theorem State.testBit_edgeQ (c : Fin 16) : (s.edgeQ key fr a q row line).testBit c =
    if (cellCfg fr c).cksel = line then s.edgeBit key fr a q row c else q.testBit c := by
  simp [State.edgeQ]

theorem State.testBit_recoveryQ (free : Nat) (c : Fin 16) : (s.recoveryQ key fr a q row line free).testBit c =
    if (cellCfg fr c).cksel = line ∧ (cellCfg fr c).sr.any (srAsync fr ·) = true ∧ s.forced key fr c = false ∧ free.testBit c = true then
      (cellCfg fr c).srval
    else (s.edgeQ key fr a q row line).testBit c := by
  simp [State.recoveryQ, and_assoc]

/-- A cell without an asynchronous SR has no recovery time. -/
theorem State.testBit_recoveryQ_of_sync {c : Fin 16} (h : ∀ k, (cellCfg fr c).sr = some k → srAsync fr k = false) (free : Nat) :
    (s.recoveryQ key fr a q row line free).testBit c = (s.edgeQ key fr a q row line).testBit c := by
  have hany : (cellCfg fr c).sr.any (srAsync fr ·) = false := by simpa [Option.any_eq_false] using h
  rw [State.testBit_recoveryQ, if_neg (by simp [hany])]

/-! ## The commands -/

theorem exec_activeClockEdge (hclk : s.tileClocked tl.pos tl.col tl.row = true)
    (hsel : s.clockSelLive tl.pos tl.col tl.row (bits (s.tileFrame tl.pos tl.col tl.row) (996 + 5 * line) 5) = true)
    (hcapt : s.capt = none) (a : Arrivals) (v : Bool) :
    exec (.activeClockEdge tl line a v) s =
      let key := tileKey tl.pos tl.col tl.row
      let fr := s.tileFrame tl.pos tl.col tl.row
      .next (if v then s.free.2.setTileQ key (s.recoveryQ key fr a (s.tileQ key) tl.row line s.free.1)
        else s.setTileQ key (s.edgeQ key fr a (s.tileQ key) tl.row line)) := by
  have hbits (n col row cells : Nat) : s.captureBits n col row cells = s := by rw [State.captureBits, hcapt]
  refine congrArg Host.Outcome.next ((if_neg (by simp [hclk, hsel])).trans ?_)
  dsimp only
  rw [hbits]
  cases v <;> rfl

theorem exec_asyncSetReset (h : srAsync (s.tileFrame tl.pos tl.col tl.row) line = true) :
    exec (.asyncSetReset tl line) s =
      let key := tileKey tl.pos tl.col tl.row
      let fr := s.tileFrame tl.pos tl.col tl.row
      .next ((s.setSrLine key line true).setTileQ key
        (maskOf fun c => if (cellCfg fr c).sr = some line.val then (cellCfg fr c).srval else (s.tileQ key).testBit c)) :=
  congrArg Host.Outcome.next (if_neg (by simp [h]))

/-- A release in time, or of a tile without clocks, changes no flip-flop; another may change those of the line. -/
theorem exec_asyncSetResetRelease (h : s.asyncOn (tileKey tl.pos tl.col tl.row) line = true) (a : Arrivals) (v : Bool) :
    exec (.asyncSetResetRelease tl line a v) s =
      let key := tileKey tl.pos tl.col tl.row
      let fr := s.tileFrame tl.pos tl.col tl.row
      let u := s.setSrLine key line false
      .next (if !v || !s.tileClocked tl.pos tl.col tl.row then u
        else u.free.2.setTileQ key (maskOf fun c =>
          if (cellCfg fr c).sr = some line.val && !u.free.1.testBit c then u.edgeBit key fr a (s.tileQ key) tl.row c
          else (s.tileQ key).testBit c)) :=
  congrArg Host.Outcome.next (if_neg (by simp [h]))

end Sys2Proof.Machine

open Sys2Proof Sys2Proof.Machine

/-- Settles O44: each command writes one mask of the tile, whose bits are the cells' values by the priorities of R50 or, where a recovery
time is violated, SRVAL. -/
theorem flipFlopsFollowTheirPriorities : Obligations.FlipFlopsFollowTheirPriorities := by
  intro tl line s
  dsimp only
  refine ⟨fun a v hclk hsel hcapt => ⟨_, exec_activeClockEdge hclk hsel hcapt a v, fun c => ?_, fun k hk => ?_, ?_⟩,
    fun hasync => ⟨_, exec_asyncSetReset hasync, fun c => ?_, State.asyncOn_setSrLine_self _ _ _ _,
      fun k hk => State.tileQ_setTileQ_ne _ _ hk, State.setTileQ_setSrLine_frame _ _ _ _ _⟩,
    fun a v hon => ⟨_, exec_asyncSetResetRelease hon a v, ?_⟩⟩
  · have hrule := s.byPriority_edgeBit (tileKey tl.pos tl.col tl.row) (s.tileFrame tl.pos tl.col tl.row) a
      (s.tileQ (tileKey tl.pos tl.col tl.row)) tl.row c
    cases v with
    | false =>
      rw [if_neg Bool.false_ne_true, State.tileQ_setTileQ_self, State.testBit_edgeQ]
      refine ⟨fun h => if_neg h, fun h _ => ?_, fun _ h => absurd h Bool.false_ne_true⟩
      rw [if_pos h]
      exact hrule
    | true =>
      rw [if_pos rfl, State.tileQ_setTileQ_self]
      refine ⟨fun h => ?_, fun h hsync => ?_, fun h _ => ?_⟩
      · rw [State.testBit_recoveryQ, if_neg (fun hc => h hc.1), State.testBit_edgeQ, if_neg h]
      · rw [State.testBit_recoveryQ_of_sync (hsync.resolve_left Bool.true_eq_false.mp), State.testBit_edgeQ, if_pos h]
        exact hrule
      · rw [State.testBit_recoveryQ, State.testBit_edgeQ, if_pos h]
        split
        · exact .inr rfl
        · exact .inl hrule
  · cases v
    · exact State.tileQ_setTileQ_ne _ _ hk
    · exact State.tileQ_setTileQ_ne _ _ hk
  · cases v
    · exact s.setTileQ_frame _ _
    · exact s.setTileQ_free_frame _ _
  · rw [State.tileQ_setTileQ_self, testBit_maskOf]
  · by_cases h : (!v || !s.tileClocked tl.pos tl.col tl.row) = true
    · rw [if_pos h]
      exact ⟨State.asyncOn_setSrLine_self _ _ _ _, fun _ => rfl, fun _ _ => rfl, fun _ _ => rfl, s.setSrLine_frame _ _ _⟩
    · rw [if_neg h]
      refine ⟨State.asyncOn_setSrLine_self _ _ _ _, fun hv => absurd ?_ h, fun c hc => ?_,
        fun k hk => State.tileQ_setTileQ_ne _ _ hk, s.setTileQ_setSrLine_free_frame _ _ _ _⟩
      · simp [hv]
      · rw [State.tileQ_setTileQ_self, testBit_maskOf]
        simp [hc]
end

section
/-! SUPPORT. The end of a capture (R65, R66, R295, R296): what it takes tile by tile, which leaves the shadows as a readback already sees
them, what it marks, and how it is shown. -/

namespace Sys2Proof.Machine

variable {s t : State} {c : CaptSt}

/-! ## One tile -/

/-- Tile k is left out of capture c. -/
def State.tileSkipped (s : State) (c : CaptSt) (k : Nat) : Bool :=
  !s.selected c.sel (k / 24576) (k / 128 % 192) (k % 128) || c.skipPos.testBit (k / 24576) ||
    (s.floorOf (k / 24576) (k / 128 % 192) (k % 128)).any c.skipFlr.testBit

/-- The shadow of tile k as a readback sees it. -/
def State.shadowAt (s : State) (k : Nat) : Nat := s.shadowNow (k / 24576) (k / 128 % 192) (k % 128)

/-- A capture takes what it has not yet taken of tile k. -/
def State.captureTile (s : State) (k : Nat) : State := s.captureBits (k / 24576) (k / 128 % 192) (k % 128) 0xFFFF

theorem tileKey_coords (k : Nat) : tileKey (k / 24576) (k / 128 % 192) (k % 128) = k := by
  unfold tileKey
  omega

theorem State.shadowAt_tileKey (s : State) (n : Nat) (col : Fin 192) (row : Fin 128) :
    s.shadowAt (tileKey n col row) = s.shadowNow n col row := by
  have hn : tileKey n col row / 24576 = n := by unfold tileKey; omega
  have hcol : tileKey n col row / 128 % 192 = col := by unfold tileKey; omega
  have hrow : tileKey n col row % 128 = row := by unfold tileKey; omega
  rw [State.shadowAt, hn, hcol, hrow]

theorem State.shadowAt_eq (hc : s.capt = some c) (k : Nat) : s.shadowAt k =
    if s.tileSkipped c k then SMap.get (fun _ => 0) s.shadow k
    else (SMap.get (fun _ => 0) s.shadow k &&& SMap.get (fun _ => 0) c.taken k) |||
      (s.tileQ k &&& (0xFFFF - SMap.get (fun _ => 0) c.taken k)) := by
  simp only [State.shadowAt, State.shadowNow, hc, tileKey_coords]
  rfl

theorem State.captureTile_of_skipped (hc : s.capt = some c) {k : Nat} (hk : s.tileSkipped c k = true) : s.captureTile k = s := by
  simp only [State.captureTile, State.captureBits, hc]
  exact if_pos hk

theorem and_sub_mask {x : Nat} (h : x ≤ 0xFFFF) : 0xFFFF &&& (0xFFFF - x) = 0xFFFF - x := by
  rw [Nat.and_comm]
  exact (Nat.and_two_pow_sub_one_eq_mod _ 16).trans (Nat.mod_eq_of_lt (by omega))

/-- The bits still to be taken and those already taken are all 16. -/
theorem or_sub_mask {x : Nat} (h : x ≤ 0xFFFF) : x ||| (0xFFFF - x) = 0xFFFF := by
  have hx : x < 2 ^ 16 := by omega
  refine Nat.eq_of_testBit_eq fun i => ?_
  rw [Nat.testBit_or, show 0xFFFF - x = 2 ^ 16 - (x + 1) by omega, Nat.testBit_two_pow_sub_succ hx]
  refine Eq.trans ?_ (Nat.testBit_two_pow_sub_one 16 i).symm
  by_cases hi : i < 16
  · cases h : x.testBit i <;> simp [hi]
  · simp [hi, Nat.testBit_lt_two_pow (Nat.lt_of_lt_of_le hx (Nat.pow_le_pow_right (by decide) (Nat.le_of_not_lt hi)))]

/-- Tile k is taken: its shadow becomes what a readback saw of it. -/
def State.takeTile (s : State) (c : CaptSt) (k : Nat) : State :=
  { s with
    shadow := SMap.set (fun _ => 0) s.shadow k (s.shadowAt k)
    capt := some { c with taken := SMap.set (fun _ => 0) c.taken k 0xFFFF } }

theorem State.captureTile_of_selected (hc : s.capt = some c) {k : Nat} (hk : s.tileSkipped c k = false)
    (ht : SMap.get (fun _ => 0) c.taken k ≤ 0xFFFF) : s.captureTile k = s.takeTile c k := by
  rw [State.takeTile, State.shadowAt_eq hc, hk, if_neg Bool.false_ne_true]
  simp only [State.captureTile, State.captureBits, hc, tileKey_coords, and_sub_mask ht, or_sub_mask ht, Nat.sub_sub_self ht]
  exact if_neg (ne_true_of_eq_false hk)

theorem State.shadow_takeTile (s : State) (c : CaptSt) (k l : Nat) : SMap.get (fun _ => 0) (s.takeTile c k).shadow l =
    if l = k then s.shadowAt k else SMap.get (fun _ => 0) s.shadow l := SMap.get_set _ _ _ _ _

theorem State.shadowAt_lt (hc : s.capt = some c) {k : Nat} (hk : s.tileSkipped c k = false)
    (ht : SMap.get (fun _ => 0) c.taken k ≤ 0xFFFF) : s.shadowAt k < 2 ^ 16 := by
  rw [State.shadowAt_eq hc, hk, if_neg Bool.false_ne_true]
  refine Nat.or_lt_two_pow (Nat.lt_of_le_of_lt Nat.and_le_right ?_) (Nat.lt_of_le_of_lt Nat.and_le_right ?_) <;> omega

/-- No readback sees that a tile is taken. -/
theorem State.shadowAt_takeTile (hc : s.capt = some c) {k : Nat} (hk : s.tileSkipped c k = false)
    (ht : SMap.get (fun _ => 0) c.taken k ≤ 0xFFFF) (l : Nat) : (s.takeTile c k).shadowAt l = s.shadowAt l := by
  have hskip : (s.takeTile c k).tileSkipped { c with taken := SMap.set (fun _ => 0) c.taken k 0xFFFF } l = s.tileSkipped c l := rfl
  have hq : (s.takeTile c k).tileQ l = s.tileQ l := rfl
  rw [State.shadowAt_eq (s := s.takeTile c k) rfl, hskip, hq, State.shadow_takeTile]
  by_cases hl : l = k
  · have hmask : s.shadowAt k &&& 0xFFFF = s.shadowAt k :=
      (Nat.and_two_pow_sub_one_eq_mod _ 16).trans (Nat.mod_eq_of_lt (State.shadowAt_lt hc hk ht))
    simp [hl, hk, hmask]
  · rw [if_neg hl, SMap.get_set_ne _ _ _ hl, State.shadowAt_eq hc]

/-! ## All tiles -/

/-- A capture is pending, and what it has taken are bits of the 16 cells. -/
def State.capturing (s : State) : Prop := ∃ c, s.capt = some c ∧ ∀ k, SMap.get (fun _ => 0) c.taken k ≤ 0xFFFF

/-- What a capture takes of a tile is what a readback saw of it, and no readback sees a difference. -/
theorem State.captureTile_spec (h : s.capturing) (k : Nat) :
    (s.captureTile k).capturing ∧ (∀ l, (s.captureTile k).shadowAt l = s.shadowAt l) ∧
      ∀ l, SMap.get (fun _ => 0) (s.captureTile k).shadow l = if l = k then s.shadowAt k else SMap.get (fun _ => 0) s.shadow l := by
  obtain ⟨c, hc, ht⟩ := h
  cases hk : s.tileSkipped c k with
  | true =>
    rw [State.captureTile_of_skipped hc hk]
    refine ⟨⟨c, hc, ht⟩, fun _ => rfl, fun l => ?_⟩
    split
    next hl => rw [hl, State.shadowAt_eq hc, if_pos hk]
    next => rfl
  | false =>
    rw [State.captureTile_of_selected hc hk (ht k)]
    refine ⟨⟨_, rfl, fun l => ?_⟩, State.shadowAt_takeTile hc hk (ht k), State.shadow_takeTile s c k⟩
    rw [SMap.get_set]
    split
    · exact le_refl _
    · exact ht l

theorem State.shadow_foldl_captureTile (h : s.capturing) (ks : List Nat) (l : Nat) :
    SMap.get (fun _ => 0) (ks.foldl State.captureTile s).shadow l = if l ∈ ks then s.shadowAt l else SMap.get (fun _ => 0) s.shadow l := by
  induction ks generalizing s with
  | nil => rfl
  | cons k ks ih =>
    obtain ⟨hcapt, hshadowAt, hshadow⟩ := State.captureTile_spec h k
    rw [List.foldl_cons, ih hcapt, hshadowAt, hshadow]
    by_cases hks : l ∈ ks
    · simp [hks]
    · by_cases hl : l = k <;> simp [hks, hl]

/-- The tiles that a capture may find something to take of when it completes. -/
def State.capTiles (s : State) (c : CaptSt) : List Nat :=
  ((s.q.map (·.1)) ++ (s.shadow.map (·.1))).filter fun k => (s.capWrites c).contains (k / 24576)

theorem State.mem_capTiles {k : Nat} :
    k ∈ s.capTiles c ↔ k ∈ (s.q.map (·.1)) ++ (s.shadow.map (·.1)) ∧ k / 24576 ∈ s.capWrites c := by
  rw [State.capTiles, List.mem_filter, List.contains_iff_mem]

/-- A tile of which neither flip-flops nor a shadow are listed has all of them 0. -/
theorem State.shadowAt_of_notMem (hc : s.capt = some c) {k : Nat} (hk : k ∉ (s.q.map (·.1)) ++ (s.shadow.map (·.1))) :
    s.shadowAt k = SMap.get (fun _ => 0) s.shadow k := by
  rw [List.mem_append, not_or] at hk
  obtain ⟨hq, hshadow⟩ := hk
  have hq0 : s.tileQ k = 0 := SMap.get_of_notMem _ hq
  rw [State.shadowAt_eq hc, hq0, SMap.get_of_notMem _ hshadow]
  simp

/-- Every tile of a position that is written gets the shadow that a readback saw, and the others keep theirs. -/
theorem State.shadow_captureTiles (hc : s.capt = some c) (ht : ∀ k, SMap.get (fun _ => 0) c.taken k ≤ 0xFFFF) (k : Nat) :
    SMap.get (fun _ => 0) ((s.capTiles c).foldl State.captureTile s).shadow k =
      if k / 24576 ∈ s.capWrites c then s.shadowAt k else SMap.get (fun _ => 0) s.shadow k := by
  rw [State.shadow_foldl_captureTile ⟨c, hc, ht⟩]
  simp only [State.mem_capTiles]
  by_cases hk : k ∈ (s.q.map (·.1)) ++ (s.shadow.map (·.1))
  · simp only [hk, true_and]
  · simp only [hk, false_and, State.shadowAt_of_notMem hc hk, ite_self]

/-! ## What is taken -/

/-- From s to t a capture takes shadows and snapshots, and nothing else changes. -/
def Takes (c : CaptSt) (s t : State) : Prop :=
  ∃ sh sn tk sp, t = { s with shadow := sh, snap := sn, capt := some { c with taken := tk, snapped := sp } }

theorem Takes.refl (hc : s.capt = some c) : Takes c s s := ⟨s.shadow, s.snap, c.taken, c.snapped, by rw [← hc]⟩

theorem Takes.captureBits (h : Takes c s t) (n col row cells : Nat) : Takes c s (t.captureBits n col row cells) := by
  obtain ⟨sh, sn, tk, sp, rfl⟩ := h
  unfold State.captureBits
  dsimp only
  split
  · exact ⟨_, _, _, _, rfl⟩
  · exact ⟨_, _, _, _, rfl⟩

theorem Takes.captureBlock (h : Takes c s t) (n col row key snapKey v : Nat) : Takes c s (t.captureBlock n col row key snapKey v) := by
  obtain ⟨sh, sn, tk, sp, rfl⟩ := h
  unfold State.captureBlock
  dsimp only
  split
  · exact ⟨_, _, _, _, rfl⟩
  · exact ⟨_, _, _, _, rfl⟩

theorem State.shadow_captureBlock (s : State) (n col row key snapKey v : Nat) :
    (s.captureBlock n col row key snapKey v).shadow = s.shadow := by
  unfold State.captureBlock
  split
  · rfl
  · split <;> rfl

/-- The snapshots of position n that are still to be taken. -/
def State.captureBlocks (s : State) (n : Nat) : State :=
  let w := (List.range 512).foldl (fun x k => x.captureSlice n k) s
  (List.range 296).foldl (fun x b =>
    x.captureBlock n (blockAnchorNo b).1 (blockAnchorNo b).2 (blockSnapKey n b) (blockSnapKey n b) (x.blockSnap n b)) w

/-- What snapshots keep, the snapshots of a position keep. -/
theorem State.captureBlocks_induction {p : State → Prop} (hp : ∀ t n col row key snapKey v, p t → p (t.captureBlock n col row key snapKey v))
    (h : p s) (n : Nat) : p (s.captureBlocks n) :=
  List.foldlRecOn _ _ (List.foldlRecOn _ _ h fun _ ht _ _ => hp _ _ _ _ _ _ _ ht) fun _ ht _ _ => hp _ _ _ _ _ _ _ ht

/-- All that is still to be taken is taken. -/
def State.captureRest (s : State) (c : CaptSt) : State :=
  (s.capWrites c).foldl State.captureBlocks ((s.capTiles c).foldl State.captureTile s)

theorem State.captureRest_takes (hc : s.capt = some c) : Takes c s (s.captureRest c) :=
  List.foldlRecOn _ _ (List.foldlRecOn _ _ (.refl hc) fun _ ht _ _ => ht.captureBits _ _ _ _) fun _ ht _ _ =>
    State.captureBlocks_induction (fun _ _ _ _ _ _ _ h => h.captureBlock _ _ _ _ _ _) ht _

theorem State.shadow_captureBlocks (s : State) (n : Nat) : (s.captureBlocks n).shadow = s.shadow :=
  State.captureBlocks_induction (p := fun t => t.shadow = s.shadow)
    (fun t _ _ _ _ _ _ h => (t.shadow_captureBlock _ _ _ _ _ _).trans h) rfl n

theorem State.shadow_captureRest (s : State) (c : CaptSt) :
    (s.captureRest c).shadow = ((s.capTiles c).foldl State.captureTile s).shadow := by
  unfold State.captureRest
  generalize (s.capTiles c).foldl State.captureTile s = t
  induction s.capWrites c generalizing t with
  | nil => rfl
  | cons n ns ih => rw [List.foldl_cons, ih, State.shadow_captureBlocks]

/-! ## What is marked -/

/-- The shadows of position n are marked with the sequence number of a capture. -/
def State.markShadow (s : State) (seq n : Nat) : State := (s.setF .grnShdsrcSEQ seq (s.phys n)).setF .grnShdsrcSRC 1 (s.phys n)

/-- GRN_SHDSRC of grain p shows capture seq. -/
def State.shadowMarked (s : State) (seq p : Nat) : Prop := s.getF .grnShdsrcSEQ p = seq ∧ s.getF .grnShdsrcSRC p = 1

theorem State.phys_markShadow (s : State) (seq n m : Nat) : (s.markShadow seq n).phys m = s.phys m := by
  simp [State.markShadow, State.phys]

theorem State.shadowMarked_markShadow {seq : Nat} (hseq : seq < 65536) {n p : Nat} (h : p = s.phys n ∨ s.shadowMarked seq p) :
    (s.markShadow seq n).shadowMarked seq p := by
  have hmod : seq % 2 ^ 16 = seq := Nat.mod_eq_of_lt hseq
  rcases h with rfl | ⟨hs, hr⟩
  · constructor <;> simp [State.markShadow, hseq]
  · constructor
    · rw [State.markShadow, State.getF_setF_ne _ _ _ _ _ _ (by decide), State.getF_setF, hs]
      split
      · exact hmod
      · rfl
    · rw [State.markShadow, State.getF_setF, State.getF_setF_ne _ _ _ _ _ _ (by decide), hr]
      split <;> rfl

theorem State.foldl_markShadow_marks {seq : Nat} (hseq : seq < 65536) {n : Nat} :
    ∀ {ns : List Nat} {s : State}, n ∈ ns ∨ s.shadowMarked seq (s.phys n) →
      (ns.foldl (fun t m => t.markShadow seq m) s).shadowMarked seq (s.phys n)
  | [], _, h => h.resolve_left List.not_mem_nil
  | m :: ns, s, h => by
    rw [List.foldl_cons, ← s.phys_markShadow seq m n]
    refine State.foldl_markShadow_marks hseq ?_
    rw [State.phys_markShadow]
    rcases h with h | h
    · rcases List.mem_cons.mp h with rfl | h
      · exact .inr (State.shadowMarked_markShadow hseq (.inl rfl))
      · exact .inl h
    · exact .inr (State.shadowMarked_markShadow hseq (.inr h))

end Sys2Proof.Machine

namespace Sys2Proof

open Sys2Proof.Machine

variable {rs ls : List RegName} {s t u : State}

/-! ## Frames by registers -/

theorem sameRegs.trans (h : sameRegs rs s t) (h' : sameRegs rs t u) : sameRegs rs s u :=
  fun f i j hf => (h' f i j hf).trans (h f i j hf)

theorem sameRegs.mono (h : sameRegs rs s t) (hs : ∀ r ∈ rs, r ∈ ls) : sameRegs ls s t :=
  fun f i j hf => h f i j fun hr => hf (hs _ hr)

end Sys2Proof

namespace Sys2Proof.Machine

variable {rs : List RegName} {s t : State} {c : CaptSt}

/-- Only fields of the registers in the list change. -/
def FieldsOf (rs : List RegName) (s t : State) : Prop := sameRegs rs s t ∧ ∃ r, t = { s with regs := r }

theorem FieldsOf.refl (rs : List RegName) (s : State) : FieldsOf rs s s := ⟨fun _ _ _ _ => rfl, s.regs, rfl⟩

theorem FieldsOf.setF (h : FieldsOf rs s t) (f : Fld) (v i j : Nat) (hf : f.info.reg ∈ rs) :
    FieldsOf rs s (t.setF f v i j) := by
  obtain ⟨h, r, rfl⟩ := h
  exact ⟨h.trans fun g _ _ hg => State.getF_setF_ne _ _ _ _ _ _ fun e => hg (e ▸ hf), _, rfl⟩

theorem FieldsOf.tear (h : FieldsOf rs s t) (ns : List Nat) (hr : .capAccstat ∈ rs) : FieldsOf rs s (t.tear ns) := by
  unfold State.tear
  split
  · exact h.setF _ _ _ _ hr
  · exact h

theorem State.foldl_markShadow_frame (s : State) (seq : Nat) (ns : List Nat) :
    FieldsOf [.grnShdsrc] s (ns.foldl (fun t m => t.markShadow seq m) s) :=
  List.foldlRecOn _ _ (FieldsOf.refl _ s) fun _ h _ _ => (h.setF _ _ _ _ (by decide)).setF _ _ _ _ (by decide)

/-! ## How a capture is shown -/

/-- CAP shows that a capture of the positions in ns is complete. -/
def State.showCapture (s : State) (ns : List Nat) (seq : Nat) : State :=
  ((({ s with capt := none }).setF .capStatCAPSEQ seq).setOn .capStatCAPDONE).tear ns

/-- The CAPSEL that asked for a capture is free again. -/
def State.freeCapsel (s : State) (k : Option Nat) : State := k.elim s fun k => s.setCapsel k false

/-- A capture that CAPSEL k asked for is complete: CAP shows it, k is free, and event 996 is raised. -/
def State.announceCapture (s : State) (ns : List Nat) (seq : Nat) (k : Option Nat) : State :=
  ((s.showCapture ns seq).freeCapsel k).raise 996

theorem State.captureEnd_eq (hc : s.capt = some c) (hr : c.remap = false) : s.captureEnd =
    let seq := ((s.captureRest c).getF .capStatCAPSEQ + 1) % 65536
    ((s.capWrites c).foldl (fun t n => t.markShadow seq n) (s.captureRest c)).announceCapture (s.capWrites c) seq c.capsel := by
  rw [State.captureEnd, hc]
  dsimp only
  rw [if_neg (by simp [hr])]
  rfl

theorem State.showCapture_frame (s : State) (ns : List Nat) (seq : Nat) :
    FieldsOf [.capStat, .capAccstat] { s with capt := none } (s.showCapture ns seq) :=
  (((FieldsOf.refl _ _).setF _ _ _ _ (by decide)).setF _ _ _ _ (by decide)).tear _ (by decide)

theorem State.showCapture_read (s : State) (ns : List Nat) (seq : Nat) :
    (s.showCapture ns seq).getF .capStatCAPSEQ = seq % 65536 ∧ (s.showCapture ns seq).getF .capStatCAPDONE = 1 := by
  obtain ⟨htear, -⟩ := (FieldsOf.refl [.capAccstat] ((({ s with capt := none }).setF .capStatCAPSEQ seq).setOn .capStatCAPDONE)).tear ns
    (by decide)
  rw [State.showCapture, htear _ _ _ (by decide), htear _ _ _ (by decide)]
  simp [State.setOn]

/-- Only BUSY of that requester is cleared. -/
theorem State.freeCapsel_eq (s : State) (k : Option Nat) : ∃ m, s.freeCapsel k = { s with capselBusy := m } ∧
    ∀ j, k = some j → SMap.get (fun _ => false) m j = false := by
  cases k with
  | none => exact ⟨s.capselBusy, rfl, fun _ h => by cases h⟩
  | some k =>
    refine ⟨_, rfl, fun j h => ?_⟩
    obtain rfl := Option.some.inj h
    exact SMap.get_set_self _ _ _ _

theorem State.announceCapture_read (s : State) (ns : List Nat) {seq : Nat} (hseq : seq < 65536) (k : Option Nat) :
    (s.announceCapture ns seq k).getF .capStatCAPSEQ = seq ∧ (s.announceCapture ns seq k).getF .capStatCAPDONE = 1 ∧
      OutMsg.fwEvent 996 0 ∈ (s.announceCapture ns seq k).out := by
  obtain ⟨-, hsame, -⟩ := ((s.showCapture ns seq).freeCapsel k).raise_spec (e := 996) 0 (by decide)
  obtain ⟨m, hfree, -⟩ := (s.showCapture ns seq).freeCapsel_eq k
  obtain ⟨hs, hd⟩ := s.showCapture_read ns seq
  refine ⟨?_, ?_, State.mem_raise_out _ (by decide) 0⟩
  · rw [State.announceCapture, hsame.fld _ _ _ (by decide), hfree]
    exact hs.trans (Nat.mod_eq_of_lt hseq)
  · rw [State.announceCapture, hsame.fld _ _ _ (by decide), hfree]
    exact hd

theorem State.announceCapture_frame (s : State) (ns : List Nat) (seq : Nat) (k : Option Nat) :
    sameRegs [.capStat, .capAccstat, .evrPay, .evrRoute] s (s.announceCapture ns seq k) ∧
      ∃ r o m, s.announceCapture ns seq k = { s with regs := r, out := o, capt := none, capselBusy := m } ∧
        ∀ j, k = some j → SMap.get (fun _ => false) m j = false := by
  obtain ⟨-, hraise, heq⟩ := ((s.showCapture ns seq).freeCapsel k).raise_spec (e := 996) 0 (by decide)
  obtain ⟨r, o, heq⟩ := eq_of_putBack_regs_out heq
  obtain ⟨m, hfree, hm⟩ := (s.showCapture ns seq).freeCapsel_eq k
  obtain ⟨hshow, r', hw⟩ := s.showCapture_frame ns seq
  refine ⟨(hshow.mono (by decide)).trans ?_, r, o, m, ?_, hm⟩
  · refine sameRegs.trans (t := (s.showCapture ns seq).freeCapsel k) (fun _ _ _ _ => ?_) (SameBut.sameRegs hraise (by decide))
    rw [hfree]
    rfl
  · rw [State.announceCapture, heq, hfree, hw]

/-- A request of an idle CAPSEL holds a pitch entry. -/
theorem exec_capselRequest {k : Fin 4} (hbusy : SMap.get (fun _ => false) s.capselBusy k.val = false)
    (hstate : s.getF .kilnStatSTATE = 7) (hpitch : s.pitchAt (18 + k) = none) (sel : Selection) (lead : Nat) :
    exec (.capselRequest k sel lead) s = .next ((s.setCapsel k true).setPitch (18 + k)
      (some ⟨3, false, s.edgeTime + lead * usUnits, ⟨sel.floors.toNat, sel.base, sel.pos.toNat⟩, none⟩)) :=
  congrArg Host.Outcome.next (if_neg (by simp [hbusy, State.released, hstate, hpitch]))

theorem State.capselBusy_setPitch_setCapsel (s : State) (k j : Nat) (on : Bool) (p : Option Pitch) :
    SMap.get (fun _ => false) ((s.setCapsel k on).setPitch j p).capselBusy k = on := SMap.get_set_self _ _ _ _

theorem State.setPitch_setCapsel_frame (s : State) (k j : Nat) (on : Bool) (p : Option Pitch) :
    { (s.setCapsel k on).setPitch j p with regs := s.regs, capselBusy := s.capselBusy, pitches := s.pitches } = s := by
  cases s
  rfl

end Sys2Proof.Machine

open Sys2Proof Sys2Proof.Machine

/-- Settles O29: whatever is still to be taken, a tile's shadow ends as a readback saw it before; then the positions are marked and the
capture is announced. A request of an idle CAPSEL is one pitch entry. -/
theorem capturesCompleteWithTheirSequence : Obligations.CapturesCompleteWithTheirSequence := by
  intro s
  refine ⟨fun c hc ht hr => ⟨_, congrArg Host.Outcome.next (State.captureEnd_eq hc hr), ?_⟩, fun k sel lead hbusy hstate hpitch =>
    ⟨_, exec_capselRequest hbusy hstate hpitch sel lead, s.capselBusy_setPitch_setCapsel _ _ _ _, State.pitchAt_setPitch_self _ _ _,
      fun j hj => State.pitchAt_setPitch_ne _ _ hj, SameBut.setPitch (s := s) (t := s.setCapsel k true) (fun _ _ _ _ => rfl) _ _,
      State.setPitch_setCapsel_frame _ _ _ _ _⟩⟩
  have hshadow := State.shadow_captureTiles hc ht
  rw [← State.shadow_captureRest] at hshadow
  have htakes := State.captureRest_takes hc
  dsimp only
  generalize s.captureRest c = u at *
  have hget (f : Fld) (i j : Nat) : u.getF f i j = s.getF f i j := by
    obtain ⟨_, _, _, _, rfl⟩ := htakes
    rfl
  have hphys (n : Nat) : u.phys n = s.phys n := hget _ _ _
  have hlt : (s.getF .capStatCAPSEQ + 1) % 65536 < 65536 := Nat.mod_lt _ (by decide)
  rw [hget]
  generalize (s.getF .capStatCAPSEQ + 1) % 65536 = seq at *
  have hmarks (n : Nat) (hn : n ∈ s.capWrites c) := State.foldl_markShadow_marks (s := u) hlt (.inl hn)
  obtain ⟨hmarked, r, hmark⟩ := u.foldl_markShadow_frame seq (s.capWrites c)
  generalize (s.capWrites c).foldl (fun t n => t.markShadow seq n) u = v at *
  obtain ⟨hcapseq, hcapdone, hevent⟩ := v.announceCapture_read (s.capWrites c) hlt c.capsel
  obtain ⟨hannounced, r', o, m, hannounce, hfree⟩ := v.announceCapture_frame (s.capWrites c) seq c.capsel
  refine ⟨?_, hcapseq, hcapdone, hevent, fun k hk => ?_, fun n hn => ?_, fun tl => ?_, ?_, ?_⟩
  · rw [hannounce]
  · rw [hannounce]
    exact hfree k hk
  · obtain ⟨hseq, hsrc⟩ := hmarks n hn
    rw [hphys] at hseq hsrc
    exact ⟨(hannounced _ _ _ (by decide)).trans hseq, (hannounced _ _ _ (by decide)).trans hsrc⟩
  · have hpos : tileKey tl.pos tl.col tl.row / 24576 = tl.pos := by unfold tileKey; omega
    have h := hshadow (tileKey tl.pos tl.col tl.row)
    rw [hpos, State.shadowAt_tileKey] at h
    rw [hannounce, hmark]
    exact h
  · exact sameRegs.trans (fun f i j _ => hget f i j) ((hmarked.mono (by decide)).trans (hannounced.mono (by decide)))
  · obtain ⟨sh, sn, tk, sp, hu⟩ := htakes
    rw [hannounce, hmark, hu]
end

section
/-! SUPPORT. A finding of Sparge (R286, R287): it is counted in its grain, joins the queue or is counted as lost, and is announced. -/

namespace Sys2Proof.Machine

variable {rs ls : List RegName} {ks : List FKey} {s t u : State}

/-! ## Frames by registers -/

/-- What holds of the fields that keys name holds key by key. -/
theorem forall_keys_of_fields {p : Fld → Prop} {fs : List Fld} (hfs : ks.map (·.1) = fs) (h : ∀ f ∈ fs, p f) : ∀ k ∈ ks, p k.1 :=
  fun _ hk => h _ (hfs ▸ List.mem_map_of_mem hk)

/-- A raise writes fields of the event router. -/
theorem evKeys_reg (e : Nat) : ∀ k ∈ evKeys e, k.1.info.reg ∈ [RegName.evrPay, .evrRoute] :=
  forall_keys_of_fields (p := fun f => f.info.reg ∈ _) (fs := [.evrPayPAYLOAD, .evrRouteCNT, .evrRouteSEEN, .evrRoutePEND]) rfl
    (by decide)

theorem State.raise_sameRegs (s : State) {e : Nat} (he : evSource e = true) (p : Nat) :
    sameRegs [.evrPay, .evrRoute] s (s.raise e p) := by
  obtain ⟨-, hsame, -⟩ := s.raise_spec p he
  exact SameBut.sameRegs hsame (evKeys_reg e)

/-- The sources of the grains of the panel are raised (R466). -/
theorem evSource_grain {n k : Nat} (hn : n < 60) (hk : k < 16) : evSource (16 * n + k) = true := by
  simp only [evSource, Bool.or_eq_true, decide_eq_true_eq]
  omega

/-- Only registers of the list, the messages, the queue of findings and the passes of Sparge change. -/
def SpargeFrame (rs : List RegName) (s t : State) : Prop :=
  sameRegs rs s t ∧ ∃ r o q g, t = { s with regs := r, out := o, findings := q, spg := g }

namespace SpargeFrame

theorem refl (rs : List RegName) (s : State) : SpargeFrame rs s s := ⟨fun _ _ _ _ => rfl, _, _, _, _, rfl⟩

theorem trans (h : SpargeFrame rs s t) (h' : SpargeFrame rs t u) : SpargeFrame rs s u := by
  obtain ⟨h, _, _, _, _, rfl⟩ := h
  obtain ⟨h', _, _, _, _, rfl⟩ := h'
  exact ⟨h.trans h', _, _, _, _, rfl⟩

theorem mono (h : SpargeFrame rs s t) (hs : ∀ r ∈ rs, r ∈ ls) : SpargeFrame ls s t := ⟨h.1.mono hs, h.2⟩

theorem setF (h : SpargeFrame rs s t) (f : Fld) (v i j : Nat) (hf : f.info.reg ∈ rs) : SpargeFrame rs s (t.setF f v i j) := by
  obtain ⟨h, _, _, _, _, rfl⟩ := h
  exact ⟨h.trans fun g _ _ hg => State.getF_setF_ne _ _ _ _ _ _ fun e => hg (e ▸ hf), _, _, _, _, rfl⟩

theorem raise (h : SpargeFrame rs s t) {e : Nat} (he : evSource e = true) (hr : ∀ r ∈ [RegName.evrPay, .evrRoute], r ∈ rs) :
    SpargeFrame rs s (t.raise e) := by
  obtain ⟨-, -, hrest⟩ := t.raise_spec 0 he
  obtain ⟨r, o, hrest⟩ := eq_of_putBack_regs_out hrest
  exact h.trans ⟨(t.raise_sameRegs he 0).mono hr, r, o, t.findings, t.spg, hrest⟩

theorem setSpg (h : SpargeFrame rs s t) (n : Nat) (v : SpgSt) : SpargeFrame rs s (t.setSpg n v) :=
  h.trans ⟨fun _ _ _ _ => rfl, _, _, _, _, rfl⟩

end SpargeFrame

theorem FieldsOf.spargeFrame (h : FieldsOf rs s t) : SpargeFrame rs s t := by
  obtain ⟨h, _, rfl⟩ := h
  exact ⟨h, _, _, _, _, rfl⟩

/-! ## The count of its class -/

/-- Grain p counts a finding of class cls. -/
def State.countFinding (s : State) (p cls : Nat) : State :=
  if cls = 1 then (s.count .grnSpgstatCORRCNT 1 p).setOn .grnSpgstatSEEN p
  else if cls = 2 then (s.count .grnSpgstatREWCNT 1 p).setOn .grnSpgstatSEEN p
  else (s.count .grnSpgstatFAILCNT 1 p).setOn .grnSpgstatFAILSEEN p

/-- A counter reads one more, or stays at its greatest value. -/
theorem State.getF_count_self (s : State) (f : Fld) (i j : Nat) :
    (s.count f 1 i j).getF f i j = min (s.getF f i j + 1) (2 ^ f.info.len - 1) := by
  rw [State.count, State.getF_setF_self]
  exact Nat.mod_eq_of_lt (Nat.lt_of_le_of_lt (Nat.min_le_right _ _) (Nat.sub_one_lt (Nat.two_pow_pos _).ne'))

/-- A count and its flag at the same number. -/
theorem State.count_setOn_read (s : State) {f g : Fld} (i : Nat) (h : f ≠ g) (hg : g.info.len = 1) :
    ((s.count f 1 i).setOn g i).getF f i = min (s.getF f i + 1) (2 ^ f.info.len - 1) ∧ ((s.count f 1 i).setOn g i).getF g i = 1 := by
  rw [State.setOn, State.getF_setF_ne _ _ _ _ _ _ h, State.getF_count_self, State.getF_setF_self, hg]
  exact ⟨rfl, rfl⟩

theorem State.countFinding_one (s : State) (p : Nat) :
    (s.countFinding p 1).getF .grnSpgstatCORRCNT p = min (s.getF .grnSpgstatCORRCNT p + 1) 0xFFF ∧
      (s.countFinding p 1).getF .grnSpgstatSEEN p = 1 := s.count_setOn_read p (by decide) rfl

theorem State.countFinding_two (s : State) (p : Nat) :
    (s.countFinding p 2).getF .grnSpgstatREWCNT p = min (s.getF .grnSpgstatREWCNT p + 1) 0x3FF ∧
      (s.countFinding p 2).getF .grnSpgstatSEEN p = 1 := s.count_setOn_read p (by decide) rfl

theorem State.countFinding_three {cls : Nat} (h : 3 ≤ cls) (s : State) (p : Nat) :
    (s.countFinding p cls).getF .grnSpgstatFAILCNT p = min (s.getF .grnSpgstatFAILCNT p + 1) 0x3F ∧
      (s.countFinding p cls).getF .grnSpgstatFAILSEEN p = 1 := by
  rw [State.countFinding, if_neg (by omega), if_neg (by omega)]
  exact s.count_setOn_read p (by decide) rfl

theorem State.countFinding_frame (s : State) (p cls : Nat) : FieldsOf [.grnSpgstat] s (s.countFinding p cls) := by
  have hwrite (f g : Fld) (hf : f.info.reg ∈ [RegName.grnSpgstat]) (hg : g.info.reg ∈ [RegName.grnSpgstat]) :
      FieldsOf [.grnSpgstat] s ((s.count f 1 p).setOn g p) := ((FieldsOf.refl _ s).setF _ _ _ _ hf).setF _ _ _ _ hg
  unfold State.countFinding
  split
  · exact hwrite _ _ (by decide) (by decide)
  · split
    · exact hwrite _ _ (by decide) (by decide)
    · exact hwrite _ _ (by decide) (by decide)

/-! ## The queue -/

/-- The registers of the queue of findings. -/
def findingRegs : List RegName := [.spgFindstat, .spgFindaddr, .spgFindinfo]

/-- A finding joins the queue, or finds it full. -/
def State.queueFinding (s : State) (e : Finding) : State :=
  if s.findings.length < 1024 then ({ s with findings := s.findings ++ [e] }).updFindings else s.findingOvf

theorem State.updFindings_frame (s : State) : FieldsOf findingRegs s s.updFindings := by
  unfold State.updFindings
  extract_lets h i t u v
  have ht : FieldsOf findingRegs s t := ((FieldsOf.refl _ s).setF _ _ _ _ (by decide)).setF _ _ _ _ (by decide)
  have hu : FieldsOf findingRegs s u :=
    ((ht.setF _ _ _ _ (by decide)).setF _ _ _ _ (by decide)).setF _ _ _ _ (by decide)
  have hv : FieldsOf findingRegs s v :=
    ((hu.setF _ _ _ _ (by decide)).setF _ _ _ _ (by decide)).setF _ _ _ _ (by decide)
  exact hv.setF _ _ _ _ (by decide)

theorem State.updFindings_count (s : State) : s.updFindings.getF .spgFindstatCOUNT = s.findings.length % 2048 := by
  simp [State.updFindings]

theorem State.updFindings_findings (s : State) : s.updFindings.findings = s.findings := rfl

theorem State.queueFinding_of_lt (h : s.findings.length < 1024) (e : Finding) :
    (s.queueFinding e).findings = s.findings ++ [e] ∧ (s.queueFinding e).getF .spgFindstatCOUNT = s.findings.length + 1 := by
  rw [State.queueFinding, if_pos h, State.updFindings_findings, State.updFindings_count, List.length_append, List.length_singleton]
  exact ⟨rfl, Nat.mod_eq_of_lt (by omega)⟩

theorem State.raise_findings (s : State) {e : Nat} (he : evSource e = true) (p : Nat) : (s.raise e p).findings = s.findings := by
  obtain ⟨-, -, hrest⟩ := s.raise_spec p he
  exact (congrArg State.findings hrest :)

/-- A finding that is lost is counted, and the first of them raises event 995. -/
theorem State.findingOvf_read (s : State) : s.findingOvf.findings = s.findings ∧ s.findingOvf.getF .spgFindstatOVF = 1 ∧
    s.findingOvf.getF .spgFindstatOVFCNT = min (s.getF .spgFindstatOVFCNT + 1) 0xFFFF := by
  obtain ⟨hcount, hflag⟩ := s.count_setOn_read (f := .spgFindstatOVFCNT) (g := .spgFindstatOVF) 0 (by decide) rfl
  unfold State.findingOvf
  extract_lets t
  split
  · exact ⟨rfl, hflag, hcount⟩
  · obtain ⟨-, hsame, -⟩ := t.raise_spec (e := 995) 0 (by decide)
    exact ⟨t.raise_findings (by decide) 0, (hsame.fld _ _ _ (by decide)).trans hflag, (hsame.fld _ _ _ (by decide)).trans hcount⟩

theorem State.queueFinding_of_ge (h : 1024 ≤ s.findings.length) (e : Finding) : (s.queueFinding e).findings = s.findings ∧
    (s.queueFinding e).getF .spgFindstatOVF = 1 ∧
    (s.queueFinding e).getF .spgFindstatOVFCNT = min (s.getF .spgFindstatOVFCNT + 1) 0xFFFF := by
  rw [State.queueFinding, if_neg (by omega)]
  exact s.findingOvf_read

theorem State.queueFinding_frame (s : State) (e : Finding) :
    SpargeFrame (findingRegs ++ [.evrPay, .evrRoute]) s (s.queueFinding e) := by
  unfold State.queueFinding
  split
  · have hjoin : SpargeFrame findingRegs s { s with findings := s.findings ++ [e] } := ⟨fun _ _ _ _ => rfl, _, _, _, _, rfl⟩
    exact (hjoin.trans (State.updFindings_frame _).spargeFrame).mono (by decide)
  · unfold State.findingOvf
    extract_lets t
    have ht : SpargeFrame (findingRegs ++ [.evrPay, .evrRoute]) s t :=
      ((SpargeFrame.refl _ s).setF _ _ _ _ (by decide)).setF _ _ _ _ (by decide)
    split
    · exact ht
    · exact ht.raise (by decide) (by decide)

/-! ## The announcement -/

/-- A finding of class cls is announced: a failure by event 16n, the others by event 16n + 1 once a pass has found more than BURST. -/
def State.announceFinding (s : State) (n cls burst : Nat) : State :=
  if 3 ≤ cls then s.raiseG n 0
  else
    let x := s.spgSt n
    let v := s.setSpg n { x with count := x.count + 1 }
    if burst ≠ 0 ∧ x.count = burst then v.raiseG n 1 else v

theorem State.announceFinding_frame {n : Nat} (hn : n < 60) (s : State) (cls burst : Nat) :
    SpargeFrame [.evrPay, .evrRoute] s (s.announceFinding n cls burst) ∧ (s.announceFinding n cls burst).findings = s.findings := by
  unfold State.announceFinding
  split
  · have he := evSource_grain (k := 0) hn (by decide)
    exact ⟨(SpargeFrame.refl _ s).raise he fun _ hr => hr, s.raise_findings he 0⟩
  · extract_lets x v
    have hv : SpargeFrame [.evrPay, .evrRoute] s v := (SpargeFrame.refl _ s).setSpg _ _
    split
    · have he := evSource_grain (k := 1) hn (by decide)
      exact ⟨hv.raise he fun _ hr => hr, v.raise_findings he 0⟩
    · exact ⟨hv, rfl⟩

theorem State.announceFinding_event {n cls : Nat} (hn : n < 60) (h : 3 ≤ cls) (s : State) (burst : Nat) :
    OutMsg.fwEvent (16 * n) 0 ∈ (s.announceFinding n cls burst).out := by
  rw [State.announceFinding, if_pos h]
  exact s.mem_raise_out (evSource_grain (k := 0) hn (by decide)) 0

/-! ## The finding as a whole -/

/-- SPG_FINDINFO of a finding of class cls in frame fa of the position that grain p serves, with the wrong bits and the floor (R287). -/
def findingInfo (p cls fa wrong : Nat) (floor : Option Nat) : Nat :=
  fa + cls * 2 ^ 32 + min 31 (popcount 2048 wrong) * 2 ^ 35 + lowBit wrong * 2 ^ 40 + floor.isSome.toNat * 2 ^ 51 +
    floor.getD 0 * 2 ^ 52 + p * 2 ^ 58

theorem findingInfo_faddr (p cls fa wrong : Nat) (floor : Option Nat) : bits (findingInfo p cls fa wrong floor) 0 32 = fa % 2 ^ 32 := by
  simp only [bits, findingInfo]
  omega

theorem State.finding_eq (s : State) (n cls fa wrong : Nat) : s.finding n cls fa wrong =
    ((s.countFinding (s.phys n) cls).queueFinding
      ⟨s.findingAddr n cls fa wrong,
        findingInfo (s.phys n) cls fa wrong (s.findingFloor n fa wrong)⟩).announceFinding n cls (s.getF .spgCtlBURST) := rfl

/-- A finding does what R286 and R287 say of its class, and nothing else. -/
theorem State.found_finding {n : Nat} (hn : n < 60) (s : State) (cls fa wrong : Nat) :
    found n cls fa wrong s (s.finding n cls fa wrong) := by
  have hcounted := s.countFinding_frame (s.phys n) cls
  have hlist : (s.countFinding (s.phys n) cls).findings = s.findings := by
    obtain ⟨-, _, h⟩ := hcounted
    rw [h]
  have hlost : (s.countFinding (s.phys n) cls).getF .spgFindstatOVFCNT = s.getF .spgFindstatOVFCNT := hcounted.1 _ _ _ (by decide)
  rw [State.finding_eq]
  generalize hu : s.countFinding (s.phys n) cls = u at *
  generalize he : Finding.mk (s.findingAddr n cls fa wrong) (findingInfo (s.phys n) cls fa wrong (s.findingFloor n fa wrong)) = e
  have hqueued := u.queueFinding_frame e
  obtain ⟨hannounced, hkeep⟩ := (u.queueFinding e).announceFinding_frame hn cls (s.getF .spgCtlBURST)
  have hshown := hqueued.trans (hannounced.mono (by decide))
  have hcnt {f : Fld} (i : Nat) (hf : f.info.reg = .grnSpgstat) := hshown.1 f i 0 (by rw [hf]; decide)
  have hq {f : Fld} (hf : f.info.reg = .spgFindstat) := hannounced.1 f 0 0 (by rw [hf]; decide)
  obtain ⟨hsame, _, _, _, _, hrest⟩ := (hcounted.spargeFrame.mono (by decide)).trans (hshown.mono (ls :=
    [.grnSpgstat, .spgFindstat, .spgFindaddr, .spgFindinfo, .evrPay, .evrRoute]) (by decide))
  refine ⟨?_, ?_, fun h => ?_, fun h => ?_, fun h => ?_, hsame, by rw [hrest]⟩
  · rintro rfl
    rw [hcnt _ rfl, hcnt _ rfl, ← hu]
    exact s.countFinding_one _
  · rintro rfl
    rw [hcnt _ rfl, hcnt _ rfl, ← hu]
    exact s.countFinding_two _
  · rw [hcnt _ rfl, hcnt _ rfl, ← hu]
    obtain ⟨hfail, hseen⟩ := s.countFinding_three h (s.phys n)
    exact ⟨hfail, hseen, State.announceFinding_event hn h _ _⟩
  · obtain ⟨hjoin, hcount⟩ := State.queueFinding_of_lt (hlist ▸ h) e
    rw [hq rfl, hkeep, hjoin, hcount, hlist, ← he]
    exact ⟨_, rfl, findingInfo_faddr _ _ _ _ _, rfl⟩
  · rw [hq rfl, hq rfl, hkeep, ← hlist, ← hlost]
    exact State.queueFinding_of_ge (hlist ▸ h) e

end Sys2Proof.Machine
end

section
/-! SUPPORT. Span gates, upsets of stored frames and their rewrites (R82, R83, R284, R285). -/

namespace Sys2Proof.Machine

variable {s : State} {n : Pos} {sp : Span} {fa : W32}

/-! ## Frames and ACTIVE -/

theorem State.frame_setFrame_self (s : State) (n fa : Nat) (f : CfgFrame) : (s.setFrame n fa f).frame n fa = f :=
  (s.frame_setFrame n fa f n fa).trans (if_pos rfl)

theorem State.frame_updSpanActive (s : State) (n m fa : Nat) : (s.updSpanActive n).frame m fa = s.frame m fa := rfl

/-- ACTIVE tells whether a segment of the grain has two drivers enabled. -/
theorem State.updSpanActive_read (s : State) (n : Nat) :
    (s.updSpanActive n).getF .grnSpanstatACTIVE (s.phys n) = ((s.updSpanActive n).spanActive n).toNat := by
  have hactive : (s.updSpanActive n).spanActive n = s.spanActive n := rfl
  rw [hactive, State.updSpanActive, State.getF_setF_self, Fld.grnSpanstatACTIVE_len]
  exact Nat.mod_eq_of_lt (s.spanActive n).toNat_lt

theorem State.updSpanActive_frame (s : State) (n : Nat) : RegsOnly [fk .grnSpanstatACTIVE (s.phys n)] s (s.updSpanActive n) :=
  (RegsOnly.refl s).setF _ _ _ _

/-- A frame that is replaced, with ACTIVE following it, changes nothing else. -/
theorem State.updSpanActive_setFrame_frame (s : State) (n fa : Nat) (f : CfgFrame) :
    SameBut [fk .grnSpanstatACTIVE (s.phys n)] s ((s.setFrame n fa f).updSpanActive n) ∧
      { (s.setFrame n fa f).updSpanActive n with regs := s.regs, cfg := s.cfg } = s :=
  ⟨((s.setFrame n fa f).updSpanActive_frame n).1, rfl⟩

theorem exec_configUpset (h : faddrChecked fa.toNat = true) (n : Pos) (flips : Frame) : exec (.configUpset n fa flips) s =
    .next ((s.setFrame n fa.toNat { s.frame n fa.toNat with data := (s.frame n fa.toNat).data ^^^ flips.toNat }).updSpanActive n) :=
  congrArg Host.Outcome.next (if_neg (by simp [h]))

/-! ## The event of a gate -/

/-- The span-enable frame of field k of position n is marked SPANCONT. -/
def State.markSpanCont (s : State) (n k : Nat) : State :=
  let f := s.frame n (faddrOf 1 (k / 128))
  s.setFrame n (faddrOf 1 (k / 128)) { f with status := setBit f.status 0 true }

theorem State.markSpanCont_status (s : State) (n k : Nat) :
    ((s.markSpanCont n k).frame n (faddrOf 1 (k / 128))).status.testBit 0 = true := by
  rw [State.markSpanCont, State.frame_setFrame_self]
  exact setBit_testBit_self _ _ _

theorem State.getF_markSpanCont (s : State) (n k : Nat) (f : Fld) (i j : Nat) : (s.markSpanCont n k).getF f i j = s.getF f i j := rfl

/-- The address word of the tile whose driver conducts onto segment sp. -/
def State.gateAddr (s : State) (n : Nat) (sp : Span) : Nat :=
  let tile := spanTile (spanFieldNo sp) ((conducting (s.spanField n (spanFieldNo sp))).getD 0)
  addrWord 1 (packAddr s.devNum n tile.1 tile.2 0)

/-- The frame of segment sp is marked, and the grain of position n counts the gate event and records it. -/
def State.recordGate (s : State) (n : Nat) (sp : Span) : State :=
  let p := s.phys n
  let t := (((s.markSpanCont n (spanFieldNo sp)).count .grnSpanstatCOUNT 1 p).setOn .grnSpanstatSEEN p).updSpanActive n
  ((((t.setF .grnSpanaddrADDR (s.gateAddr n sp) p).setF .grnSpantrkTRACK sp.track p).setF .grnSpantrkVERT sp.vert.toNat p).setF
    .grnSpantrkSEG sp.seg p).setF .grnSpantrkENMASK (s.spanField n (spanFieldNo sp)) p

/-- What follows from a gate that finds two drivers of segment sp enabled (R83). -/
def State.gateEvent (s : State) (n : Nat) (sp : Span) : State := (s.recordGate n sp).raise (16 * n + 6) (s.gateAddr n sp)

theorem exec_spanGateEvent (hr : if sp.vert then sp.seg.val < 8 else sp.line.val < 128)
    (hc : 2 ≤ popcount 16 (s.spanField n (spanFieldNo sp))) : exec (.spanGateEvent n sp) s = .next (s.gateEvent n sp) :=
  congrArg Host.Outcome.next (if_neg (by simpa [hr] using Nat.lt_of_succ_le hc))

theorem State.recordGate_spanstat (s : State) (n : Nat) (sp : Span) :
    (s.recordGate n sp).getF .grnSpanstatCOUNT (s.phys n) = min (s.getF .grnSpanstatCOUNT (s.phys n) + 1) 0xFFFF ∧
      (s.recordGate n sp).getF .grnSpanstatSEEN (s.phys n) = 1 := by
  obtain ⟨hcount, hseen⟩ := (s.markSpanCont n (spanFieldNo sp)).count_setOn_read (f := .grnSpanstatCOUNT) (g := .grnSpanstatSEEN)
    (s.phys n) (by decide) rfl
  rw [State.getF_markSpanCont] at hcount
  refine ⟨Eq.trans ?_ hcount, Eq.trans ?_ hseen⟩
  · simp [State.recordGate, State.updSpanActive]
  · simp [State.recordGate, State.updSpanActive]

theorem State.recordGate_segment (s : State) (n : Nat) (sp : Span) :
    (s.recordGate n sp).getF .grnSpanaddrADDR (s.phys n) = s.gateAddr n sp % 2 ^ 64 ∧
      (s.recordGate n sp).getF .grnSpantrkTRACK (s.phys n) = sp.track ∧
      (s.recordGate n sp).getF .grnSpantrkVERT (s.phys n) = sp.vert.toNat ∧
      (s.recordGate n sp).getF .grnSpantrkSEG (s.phys n) = sp.seg ∧
      (s.recordGate n sp).getF .grnSpantrkENMASK (s.phys n) = s.spanField n (spanFieldNo sp) % 65536 := by
  have htrack : sp.track.val % 16 = sp.track := Nat.mod_eq_of_lt sp.track.isLt
  have hvert : sp.vert.toNat % 2 = sp.vert.toNat := Nat.mod_eq_of_lt sp.vert.toNat_lt
  have hseg : sp.seg.val % 16 = sp.seg := Nat.mod_eq_of_lt (by omega)
  simp [State.recordGate, htrack, hvert, hseg]

/-- The fields that a gate event is recorded in. -/
def spanGateFields : List Fld :=
  [.grnSpantrkENMASK, .grnSpantrkSEG, .grnSpantrkVERT, .grnSpantrkTRACK, .grnSpanaddrADDR, .grnSpanstatACTIVE, .grnSpanstatSEEN,
    .grnSpanstatCOUNT]

/-- The record of a gate event writes those fields, and the frame that is marked. -/
theorem State.recordGate_frame (s : State) (n : Nat) (sp : Span) :
    (∃ ks : List FKey, ks.map (·.1) = spanGateFields ∧ SameBut ks s (s.recordGate n sp)) ∧
      ∃ r, s.recordGate n sp = { s.markSpanCont n (spanFieldNo sp) with regs := r } := by
  have hwrites : ∃ ks : List FKey, ks.map (·.1) = spanGateFields ∧
      RegsOnly ks (s.markSpanCont n (spanFieldNo sp)) (s.recordGate n sp) :=
    ⟨_, rfl, (((((((((RegsOnly.refl _).setF _ _ _ _).setF _ _ _ _).setF _ _ _ _).setF _ _ _ _).setF _ _ _ _).setF _ _ _ _).setF
      _ _ _ _).setF _ _ _ _)⟩
  obtain ⟨ks, hks, hsame, hrest⟩ := hwrites
  exact ⟨⟨ks, hks, fun f i j hk => (hsame f i j hk).trans (s.getF_markSpanCont _ _ _ _ _)⟩, eq_of_putBack_regs hrest⟩

/-- The raise keeps the record. -/
theorem State.getF_gateEvent {n : Nat} (hn : n < 60) (s : State) (sp : Span) {f : Fld} (hf : f ∈ spanGateFields) (i : Nat) :
    (s.gateEvent n sp).getF f i = (s.recordGate n sp).getF f i :=
  (s.recordGate n sp).raise_sameRegs (evSource_grain hn (by decide)) _ f i 0
    ((by decide : ∀ f ∈ spanGateFields, f.info.reg ∉ [RegName.evrPay, .evrRoute]) f hf)

/-- The grain shows the event and the segment. -/
theorem State.gateEvent_read {n : Nat} (hn : n < 60) (s : State) (sp : Span) :
    (s.gateEvent n sp).getF .grnSpanstatCOUNT (s.phys n) = min (s.getF .grnSpanstatCOUNT (s.phys n) + 1) 0xFFFF ∧
      (s.gateEvent n sp).getF .grnSpanstatSEEN (s.phys n) = 1 ∧
      (s.gateEvent n sp).getF .grnSpanaddrADDR (s.phys n) = s.gateAddr n sp % 2 ^ 64 ∧
      (s.gateEvent n sp).getF .grnSpantrkTRACK (s.phys n) = sp.track ∧
      (s.gateEvent n sp).getF .grnSpantrkVERT (s.phys n) = sp.vert.toNat ∧
      (s.gateEvent n sp).getF .grnSpantrkSEG (s.phys n) = sp.seg ∧
      (s.gateEvent n sp).getF .grnSpantrkENMASK (s.phys n) = s.spanField n (spanFieldNo sp) % 65536 := by
  have hkept (f : Fld) (hf : f ∈ spanGateFields) := s.getF_gateEvent hn sp hf (s.phys n)
  obtain ⟨hcount, hseen⟩ := s.recordGate_spanstat n sp
  obtain ⟨haddr, htrack, hvert, hseg, hmask⟩ := s.recordGate_segment n sp
  exact ⟨(hkept _ (by decide)).trans hcount, (hkept _ (by decide)).trans hseen, (hkept _ (by decide)).trans haddr,
    (hkept _ (by decide)).trans htrack, (hkept _ (by decide)).trans hvert, (hkept _ (by decide)).trans hseg,
    (hkept _ (by decide)).trans hmask⟩

/-- Event 16n + 6 is raised with the address, and nothing changes but the record, the mark and the event router. -/
theorem State.gateEvent_frame {n : Nat} (hn : n < 60) (s : State) (sp : Span) :
    Raised (16 * n + 6) (s.gateAddr n sp) s (s.gateEvent n sp) ∧
      sameRegs [.grnSpanstat, .grnSpanaddr, .grnSpantrk, .evrPay, .evrRoute] s (s.gateEvent n sp) ∧
      ∃ r o, s.gateEvent n sp = { s.markSpanCont n (spanFieldNo sp) with regs := r, out := o } := by
  have hsource := evSource_grain (k := 6) hn (by decide)
  obtain ⟨⟨ks, hks, hsame⟩, r, hrecorded⟩ := s.recordGate_frame n sp
  obtain ⟨hraised, -, hrest⟩ := (s.recordGate n sp).raise_spec (s.gateAddr n sp) hsource
  obtain ⟨r', o, hevent⟩ := eq_of_putBack_regs_out hrest
  have hrecord : sameRegs [.grnSpanstat, .grnSpanaddr, .grnSpantrk] s (s.recordGate n sp) :=
    SameBut.sameRegs hsame (forall_keys_of_fields (p := fun f => f.info.reg ∈ _) hks (by decide))
  have hrouter := (s.recordGate n sp).raise_sameRegs hsource (s.gateAddr n sp)
  refine ⟨hraised.of_sameBut hsame (forall_keys_of_fields (p := fun f => f.info.reg ∉ _) hks (by decide)) (by rw [hrecorded]; rfl),
    (hrecord.mono (by decide)).trans (hrouter.mono (by decide)), r', o, ?_⟩
  rw [State.gateEvent, hevent, hrecorded]

/-! ## Rewrites -/

/-- The store gives the golden content of frame fa: it can be read, carries the golden signature, and enables no two drivers (R285). -/
def State.sourceGood (s : State) (n fa : Nat) (ok : Bool) : Bool :=
  ok && (s.sourceFrame n fa == (s.frame n fa).good || gsig (s.sourceFrame n fa) == gsig (s.frame n fa).good) &&
    !exclusionFails fa (s.sourceFrame n fa)

/-- The rewrite of frame fa is taken up, and the frame no longer waits for it. -/
def State.takeRewrite (s : State) (n fa : Nat) : State :=
  { s with rewrites := s.rewrites.erase (n, fa) }.setFrame n fa
    { s.frame n fa with status := setBit (s.frame n fa).status 1 false }

/-- Frame fa with the golden content good reads back as data after its rewrite, and is marked as failed. -/
def State.readBackWrong (s : State) (n fa data good : Nat) : State :=
  (s.setFrame n fa ⟨data, good, setBit (s.frame n fa).status 2 true⟩).updSpanActive n

/-- What becomes of a rewrite. -/
def State.rewriteFrame (s : State) (n fa : Nat) (ok : Bool) (readBack : Option Frame) : State :=
  let f := s.frame n fa
  let u := s.takeRewrite n fa
  if s.sourceGood n fa ok then
    match readBack with
    | none => u.frameFixed n fa
    | some d =>
      if (⟨d.toNat, f.good, 0⟩ : CfgFrame).clean then u.frameFixed n fa
      else (u.readBackWrong n fa d.toNat f.good).finding n 4 fa (d.toNat ^^^ f.good)
  else u.finding n 3 fa (f.data ^^^ f.good)

theorem State.rewriteFrame_of_badSource {n fa : Nat} {ok : Bool} (h : s.sourceGood n fa ok = false) (rb : Option Frame) :
    s.rewriteFrame n fa ok rb = (s.takeRewrite n fa).finding n 3 fa ((s.frame n fa).data ^^^ (s.frame n fa).good) :=
  if_neg (ne_true_of_eq_false h)

theorem State.rewriteFrame_of_written {n fa : Nat} {ok : Bool} (h : s.sourceGood n fa ok = true) :
    s.rewriteFrame n fa ok none = (s.takeRewrite n fa).frameFixed n fa := if_pos h

theorem State.rewriteFrame_of_wrong {n fa : Nat} {ok : Bool} {d : Frame} (h : s.sourceGood n fa ok = true)
    (hd : (⟨d.toNat, (s.frame n fa).good, 0⟩ : CfgFrame).clean = false) : s.rewriteFrame n fa ok (some d) =
      ((s.takeRewrite n fa).readBackWrong n fa d.toNat (s.frame n fa).good).finding n 4 fa (d.toNat ^^^ (s.frame n fa).good) :=
  (if_pos h).trans (if_neg (ne_true_of_eq_false hd))

theorem State.frame_takeRewrite (s : State) (n fa : Nat) : (s.takeRewrite n fa).frame n fa =
    { s.frame n fa with status := setBit (s.frame n fa).status 1 false } := State.frame_setFrame_self _ _ _ _

/-- The source of a rewrite does not depend on which rewrites wait. -/
theorem State.sourceFrame_rewrites (s : State) (r : List (Nat × Nat)) (n fa : Nat) :
    { s with rewrites := r }.sourceFrame n fa = s.sourceFrame n fa := rfl

theorem exec_frameRewrite (hmem : (n.val, fa.toNat) ∈ s.rewrites) (hon : s.unitOn .kiln = true) (ok : Bool) (rb : Option Frame) :
    exec (.frameRewrite n fa ok rb) s = .next (s.rewriteFrame n fa.toNat ok rb) := by
  refine congrArg Host.Outcome.next ((if_neg (by simp [hmem, hon])).trans ?_)
  have hframe : { s with rewrites := s.rewrites.erase (n.val, fa.toNat) }.frame n fa.toNat = s.frame n fa.toNat := rfl
  have hsource : (!ok || !(s.sourceFrame n fa.toNat == (s.frame n fa.toNat).good ||
      gsig (s.sourceFrame n fa.toNat) == gsig (s.frame n fa.toNat).good) || exclusionFails fa.toNat (s.sourceFrame n fa.toNat)) =
      !s.sourceGood n fa.toNat ok := by simp [State.sourceGood]
  dsimp only
  rw [State.sourceFrame_rewrites, hframe, hsource]
  unfold State.rewriteFrame
  cases s.sourceGood n fa.toNat ok with
  | false => rfl
  | true => rfl

/-- A frame that is corrected holds its golden content, and of its status only SPANCONT can change. -/
theorem State.frame_frameFixed (s : State) (n fa : Nat) : (s.frameFixed n fa).frame n fa =
    ⟨(s.frame n fa).good, (s.frame n fa).good, spanCont fa (s.frame n fa).good (s.frame n fa).status⟩ :=
  (State.frame_updSpanActive _ _ _ _).trans (s.frame_setFrame_self _ _ _)

theorem testBit_spanCont_ne {b : Nat} (hb : b ≠ 0) (fa data status : Nat) : (spanCont fa data status).testBit b = status.testBit b := by
  unfold spanCont
  split
  · exact setBit_testBit_ne _ _ hb
  · rfl

theorem State.frame_readBackWrong (s : State) (n fa data good : Nat) : (s.readBackWrong n fa data good).frame n fa =
    ⟨data, good, setBit (s.frame n fa).status 2 true⟩ :=
  (State.frame_updSpanActive _ _ _ _).trans (s.frame_setFrame_self _ _ _)

/-- A rewrite from a good source writes the golden content, and the frame waits for it no longer. -/
theorem State.frame_frameFixed_takeRewrite (s : State) (n fa : Nat) :
    (((s.takeRewrite n fa).frameFixed n fa).frame n fa).data = (s.frame n fa).good ∧
      (((s.takeRewrite n fa).frameFixed n fa).frame n fa).good = (s.frame n fa).good ∧
      (((s.takeRewrite n fa).frameFixed n fa).frame n fa).status.testBit 1 = false := by
  rw [State.frame_frameFixed, State.frame_takeRewrite]
  exact ⟨rfl, rfl, (testBit_spanCont_ne (by decide) _ _ _).trans (setBit_testBit_self _ _ _)⟩

theorem State.frameFixed_frame (s : State) (n fa : Nat) : SameBut [fk .grnSpanstatACTIVE (s.phys n)] s (s.frameFixed n fa) ∧
    ∃ r c, s.frameFixed n fa = { s with regs := r, cfg := c } := by
  obtain ⟨hsame, -⟩ := s.updSpanActive_setFrame_frame n fa
    ⟨(s.frame n fa).good, (s.frame n fa).good, spanCont fa (s.frame n fa).good (s.frame n fa).status⟩
  exact ⟨hsame, _, _, rfl⟩

theorem State.frameFixed_takeRewrite_frame (s : State) (n fa : Nat) :
    SameBut [fk .grnSpanstatACTIVE (s.phys n)] s ((s.takeRewrite n fa).frameFixed n fa) ∧
      { (s.takeRewrite n fa).frameFixed n fa with regs := s.regs, cfg := s.cfg, rewrites := s.rewrites } = s := by
  have hget (f : Fld) (i j : Nat) : (s.takeRewrite n fa).getF f i j = s.getF f i j := rfl
  have hphys : (s.takeRewrite n fa).phys n = s.phys n := hget _ _ _
  obtain ⟨hsame, r, c, hrest⟩ := (s.takeRewrite n fa).frameFixed_frame n fa
  rw [hphys] at hsame
  exact ⟨fun f i j hk => (hsame f i j hk).trans (hget _ _ _), by rw [hrest]; rfl⟩

/-- A finding changes no frame. -/
theorem State.frame_finding {n : Nat} (hn : n < 60) (s : State) (cls fa wrong m fb : Nat) :
    (s.finding n cls fa wrong).frame m fb = s.frame m fb := by
  obtain ⟨-, -, -, -, -, -, hrest⟩ := s.found_finding hn cls fa wrong
  exact State.frame_of_cfg_eq (congrArg State.cfg hrest :) m fb

/-- A finding changes no waiting rewrite. -/
theorem State.finding_rewrites {n : Nat} (hn : n < 60) (s : State) (cls fa wrong : Nat) :
    (s.finding n cls fa wrong).rewrites = s.rewrites := by
  obtain ⟨-, -, -, -, -, -, hrest⟩ := s.found_finding hn cls fa wrong
  exact (congrArg State.rewrites hrest :)

/-- Whatever becomes of a rewrite, it waits no longer. -/
theorem State.rewriteFrame_rewrites {n : Nat} (hn : n < 60) (s : State) (fa : Nat) (ok : Bool) (rb : Option Frame) :
    (s.rewriteFrame n fa ok rb).rewrites = s.rewrites.erase (n, fa) := by
  unfold State.rewriteFrame
  extract_lets f u
  split
  · split
    · rfl
    · split
      · rfl
      · exact State.finding_rewrites hn _ _ _ _
  · exact State.finding_rewrites hn _ _ _ _

end Sys2Proof.Machine

open Sys2Proof Sys2Proof.Machine

/-- Settles O34: an upset replaces one stored frame; a gate event marks its frame, is recorded and raised; and a rewrite ends in the golden
content, in a finding of class 3 before it is written, or in one of class 4 after it. -/
theorem upsetsAndRewritesOfFrames : Obligations.UpsetsAndRewritesOfFrames := by
  intro n s
  refine ⟨fun fa flips h => ⟨_, exec_configUpset h n flips, ?_, fun m g hne => ?_, State.updSpanActive_read _ _,
    State.updSpanActive_setFrame_frame _ _ _ _⟩, fun sp hr hc => ⟨_, exec_spanGateEvent hr hc, ?_⟩, fun fa ok rb hmem hon =>
    ⟨_, exec_frameRewrite hmem hon ok rb, s.rewriteFrame_rewrites n.isLt _ _ _, fun hbad => ?_, fun hgood hrb => ?_,
      fun d hgood hrb hwrong => ?_⟩⟩
  · rw [State.frame_updSpanActive, State.frame_setFrame_self]
  · rw [State.frame_updSpanActive, State.frame_setFrame, if_neg hne]
  · obtain ⟨hcount, hseen, haddr, htrack, hvert, hseg, hmask⟩ := s.gateEvent_read n.isLt sp
    obtain ⟨hraised, hregs, r, o, hevent⟩ := s.gateEvent_frame n.isLt sp
    refine ⟨hcount, hseen, haddr, htrack, hvert, hseg, hmask, ?_, hraised, hregs, ?_⟩
    · rw [hevent]
      exact s.markSpanCont_status _ _
    · rw [hevent]
      rfl
  · rw [State.rewriteFrame_of_badSource hbad]
    exact ⟨s.takeRewrite n fa.toNat, State.found_finding n.isLt _ _ _ _, rfl, s.frame_takeRewrite _ _⟩
  · obtain ⟨hdata, hkept, hbit⟩ := s.frame_frameFixed_takeRewrite n fa.toNat
    rw [hrb, State.rewriteFrame_of_written hgood]
    exact ⟨hdata, hkept, hbit, s.frameFixed_takeRewrite_frame _ _⟩
  · rw [hrb, State.rewriteFrame_of_wrong hgood hwrong]
    refine ⟨?_, ?_, _, State.found_finding n.isLt _ _ _ _⟩
    · rw [State.frame_finding n.isLt, State.frame_readBackWrong]
    · rw [State.frame_finding n.isLt, State.frame_readBackWrong]
      exact setBit_testBit_self _ _ _
end

section
/-! SUPPORT. What the commands of the clocks share: a register written whole, and a raise that follows writes of fields. -/

namespace Sys2Proof.Machine

variable {s t u : State} {f : Fld} {r : RegName} {ks ls : List FKey} {i j w m : Nat}

/-! ## Registers written whole -/

/-- The write reaches every bit of an RW field. -/
def Fld.coveredBy (f : Fld) (m : Nat) : Prop := f.info.type = .rw ∧ bits m f.info.lo f.info.len = 2 ^ f.info.len - 1

/-- An RW field that the write reaches whole takes the bits written. -/
theorem State.writeFld_of_covered (h : f.coveredBy m) : s.writeFld i j w m f = s.setF f (bits w f.info.lo f.info.len) i j := by
  obtain ⟨ht, hm⟩ := h
  have hv : bits w f.info.lo f.info.len &&& (2 ^ f.info.len - 1) = bits w f.info.lo f.info.len := by
    rw [Nat.and_two_pow_sub_one_eq_mod, Nat.mod_eq_of_lt (bits_lt _ _ _)]
  simp only [State.writeFld, ht, hm, Nat.sub_self, Nat.and_zero, Nat.zero_or, hv]

theorem State.getF_writeFld_of_covered (h : f.coveredBy m) : (s.writeFld i j w m f).getF f i j = bits w f.info.lo f.info.len := by
  rw [State.writeFld_of_covered h, State.getF_setF_self, Nat.mod_eq_of_lt (bits_lt _ _ _)]

/-- A register write leaves in such a field the bits written, when no field of the register clears it. -/
theorem State.getF_writeReg_of_covered (hf : f ∈ r.fields) (hcl : ∀ g ∈ r.fields, f ∉ g.info.clears) (h : f.coveredBy m) :
    (s.writeReg r i j w m).getF f i j = bits w f.info.lo f.info.len := by
  obtain ⟨l, l', hl⟩ := List.append_of_mem hf
  have hnd := r.fieldsApart_all.1
  rw [hl, List.nodup_append, List.nodup_cons] at hnd
  obtain ⟨-, ⟨hl', -⟩, -⟩ := hnd
  have hafter : ∀ g ∈ l', f ≠ g ∧ f ∉ g.info.clears := fun g hg =>
    ⟨fun e => hl' (e ▸ hg), hcl g (by rw [hl]; exact List.mem_append_right _ (List.mem_cons_of_mem _ hg))⟩
  rw [State.writeReg, hl, List.foldl_append, List.foldl_cons, State.getF_foldl_writeFld_of_apart hafter,
    State.getF_writeFld_of_covered h]

/-- A register write leaves a field that only the device writes, when no field of the register clears it. -/
theorem State.getF_writeReg_of_kept (hf : f.info.type = .ro ∨ f.info.type = .wo) (hcl : ∀ g ∈ r.fields, f ∉ g.info.clears) :
    (s.writeReg r i j w m).getF f i j = s.getF f i j :=
  (State.getF_foldl_writeFld_of_kept hf).resolve_right fun ⟨_, g, hg, hfg, _⟩ => hcl g hg hfg

/-- Of the fields of a register, a write changes those alone that software writes. -/
theorem RegsOnly.writeReg_of_writable (h : RegsOnly ks s t) (hr : ∀ f ∈ r.fields, f.info.clears = [] ∧
    (f.info.type = .ro ∨ f.info.type = .wo ∨ fk f i j ∈ ks)) : RegsOnly ks s (t.writeReg r i j w m) :=
  List.foldlRecOn _ _ h fun u hu f hf => by
    obtain ⟨hcl, hro | hwo | hk⟩ := hr f hf
    · rwa [State.writeFld_eq_self (.inl hro)]
    · rwa [State.writeFld_eq_self (.inr hwo)]
    · exact hu.writeFld hk (by simp [hcl])

/-! ## Writes one after another, and a raise after them -/

theorem RegsOnly.trans (h : RegsOnly ks s t) (h' : RegsOnly ls t u) : RegsOnly (ks ++ ls) s u := by
  obtain ⟨h, e⟩ := h
  obtain ⟨h', e'⟩ := h'
  obtain ⟨r, rfl⟩ := eq_of_putBack_regs e'
  exact ⟨h.trans h', e⟩

/-- A raise leaves the registers outside the event router alone. -/
theorem State.getF_raise {e : Nat} (he : evSource e = true) (p : Nat) (hf : f.info.reg ∉ [RegName.evrPay, .evrRoute]) :
    (s.raise e p).getF f i j = s.getF f i j := s.raise_sameRegs he p f i j hf

/-- A raise after writes outside the event router is a raise before them. -/
theorem RegsOnly.raise {e : Nat} (h : RegsOnly ks s t) (hk : ∀ k ∈ ks, k.1.info.reg ∉ [RegName.evrPay, .evrRoute])
    (he : evSource e = true) (p : Nat) : Raised e p s (t.raise e p) ∧ RegsAndOut (ks ++ evKeys e) s (t.raise e p) := by
  obtain ⟨hraised, hframe⟩ := t.raise_spec p he
  exact ⟨hraised.of_sameBut h.1 hk (congrArg State.out h.2 :), h.andOut.trans hframe⟩

end Sys2Proof.Machine
end

section
/-! SUPPORT. The root PLL and its references (R145–R150): what a switch-over, a coast and a lost reference leave. -/

namespace Sys2Proof.Machine

variable {s t u : State} {r alt : RefIn}

/-! ## What the root's rules change -/

/-- The fields of `rootFrame`. -/
def rootKeys : List FKey :=
  [fk .clkRootstatREF0OK, fk .clkRootstatREF1OK, fk .clkRootstatTRIMOK, fk .clkRootcfgREFSEL, fk .clkRootstatLOCK,
    fk .clkRootstatCOAST, fk .clkRootstatCOASTSEEN, fk .clkRootstatREFSWSEEN] ++ evKeys 976 ++ evKeys 977

theorem rootFrame_refl (s : State) : rootFrame s s := ⟨SameBut.refl _ s, rfl⟩

theorem rootFrame_trans (h : rootFrame s t) (h' : rootFrame t u) : rootFrame s u := by
  obtain ⟨h, e⟩ := h
  obtain ⟨h', e'⟩ := h'
  have hu : u = { s with regs := u.regs, out := u.out, root := u.root } := by rw [← e, ← e']
  refine ⟨(h.trans h').mono fun k hk => (List.mem_append.mp hk).elim id id, ?_⟩
  rw [hu]

/-- The root goes on to another state. -/
theorem rootFrame_root (s : State) (x : Root) : rootFrame s { s with root := x } := ⟨fun _ _ _ _ => rfl, rfl⟩

theorem rootFrame_setF (s : State) {f : Fld} (hf : fk f ∈ rootKeys) (v : Nat) : rootFrame s (s.setF f v) :=
  ⟨(SameBut.setF s f v 0 0).mono fun _ hk => List.mem_singleton.mp hk ▸ hf, rfl⟩

theorem refOkFld_mem_rootKeys (r : RefIn) : fk (refOkFld r) ∈ rootKeys := by cases r <;> simp [refOkFld, rootKeys]

/-! ## Switch-over and coast -/

/-- The root switches to the reference that REFSEL value k names, because the other is lost (R147). -/
def State.switchOver (s : State) (k : Nat) : State :=
  ((({ s with root := .switching }).setF .clkRootcfgREFSEL k).setOn .clkRootstatREFSWSEEN).raise 977

theorem State.activeLost_eq (s : State) : s.activeLost =
    if s.isSet .clkRootcfgAUTOSW && s.refOk (1 - s.getF .clkRootcfgREFSEL) then s.switchOver (1 - s.getF .clkRootcfgREFSEL)
    else s.coast := rfl

/-- The fields that a switch-over takes. -/
def switchKeys : List FKey := [fk .clkRootstatREFSWSEEN, fk .clkRootcfgREFSEL] ++ evKeys 977

/-- The fields that a coast takes. -/
def coastKeys : List FKey := [fk .clkRootstatCOASTSEEN, fk .clkRootstatCOAST, fk .clkRootstatLOCK] ++ evKeys 976

/-- What a switch-over changes beside what the root does. -/
theorem State.switchOver_spec (s : State) (k : Nat) : Raised 977 0 s (s.switchOver k) ∧
    RegsAndOut switchKeys { s with root := .switching } (s.switchOver k) :=
  (((RegsOnly.refl { s with root := .switching }).setF _ _ _ _).setF _ _ _ _).raise (by decide) (by decide) 0

theorem State.switchOver_read (s : State) (k : Nat) : (s.switchOver k).root = .switching ∧
    (s.switchOver k).getF .clkRootcfgREFSEL = k % 2 ∧ (s.switchOver k).getF .clkRootstatREFSWSEEN = 1 := by
  obtain ⟨-, -, hrest⟩ := s.switchOver_spec k
  refine ⟨(congrArg State.root hrest :), ?_, ?_⟩ <;> rw [State.switchOver, State.getF_raise (by decide) _ (by decide)] <;>
    simp [State.setOn]

/-- What a coast changes beside what the root does. -/
theorem State.coast_spec (s : State) : Raised 976 0 s s.coast ∧
    RegsAndOut coastKeys { s with root := .coasting } s.coast :=
  ((((RegsOnly.refl { s with root := .coasting }).setF _ _ _ _).setF _ _ _ _).setF _ _ _ _).raise (by decide) (by decide) 0

theorem State.coast_read (s : State) : s.coast.root = .coasting ∧ s.coast.getF .clkRootstatCOAST = 1 ∧
    s.coast.getF .clkRootstatCOASTSEEN = 1 := by
  obtain ⟨-, -, hrest⟩ := s.coast_spec
  refine ⟨(congrArg State.root hrest :), ?_, ?_⟩ <;> rw [State.coast, State.getF_raise (by decide) _ (by decide)] <;>
    simp [State.setOn]

theorem State.switchOver_sameBut (s : State) (k : Nat) : SameBut switchKeys s (s.switchOver k) := (s.switchOver_spec k).2.1

theorem State.coast_sameBut (s : State) : SameBut coastKeys s s.coast := s.coast_spec.2.1

theorem rootFrame_of_regsAndOut {x : Root} {ks : List FKey} (h : RegsAndOut ks { s with root := x } t) (hk : ∀ k ∈ ks, k ∈ rootKeys) :
    rootFrame s t := by
  obtain ⟨hsame, hrest⟩ := h
  obtain ⟨r, o, rfl⟩ := eq_of_putBack_regs_out hrest
  exact ⟨hsame.mono hk, rfl⟩

theorem State.coast_frame (s : State) : rootFrame s s.coast :=
  rootFrame_of_regsAndOut s.coast_spec.2 (by simp [coastKeys, rootKeys, evKeys])

theorem State.switchOver_frame (s : State) (k : Nat) : rootFrame s (s.switchOver k) :=
  rootFrame_of_regsAndOut (s.switchOver_spec k).2 (by simp [switchKeys, rootKeys, evKeys])

theorem State.activeLost_frame (s : State) : rootFrame s s.activeLost := by
  rw [State.activeLost_eq]
  split
  · exact s.switchOver_frame _
  · exact s.coast_frame

/-! ## References gained and lost -/

/-- REFSEL takes a value and the root goes on to another state. -/
theorem rootFrame_refsel (s : State) (v : Nat) (x : Root) : rootFrame s { s.setF .clkRootcfgREFSEL v with root := x } :=
  rootFrame_trans (rootFrame_setF s (by simp [rootKeys]) v) (rootFrame_root _ x)

theorem State.rootOnQualified_frame (s : State) (r : RefIn) : rootFrame s (s.rootOnQualified r) := by
  unfold State.rootOnQualified
  split
  · exact rootFrame_refl s
  · split
    · split
      · exact rootFrame_refl s
      · exact rootFrame_refsel s _ _
    · split
      · exact rootFrame_refsel s _ _
      · exact rootFrame_refl s
    all_goals exact rootFrame_refl s

/-- What the root does about a qualified reference leaves its bit. -/
theorem State.isSet_rootOnQualified (s : State) (r r' : RefIn) : (s.rootOnQualified r).isSet (refOkFld r') = s.isSet (refOkFld r') := by
  have hset (v : Nat) (x : Root) : ({ s.setF .clkRootcfgREFSEL v with root := x } : State).isSet (refOkFld r') = s.isSet (refOkFld r') :=
    congrArg (· != 0) (State.getF_setF_ne s v 0 0 0 0 (by cases r' <;> decide))
  unfold State.rootOnQualified
  split
  · rfl
  · split
    · split
      · rfl
      · exact hset _ _
    · split
      · exact hset _ _
      · rfl
    all_goals rfl

/-- Neither does what it does about a lost one. -/
theorem State.isSet_coast (s : State) (r : RefIn) : s.coast.isSet (refOkFld r) = s.isSet (refOkFld r) :=
  congrArg (· != 0) (s.coast_sameBut.fld _ _ _ (by cases r <;> decide))

theorem State.isSet_activeLost (s : State) (r : RefIn) : s.activeLost.isSet (refOkFld r) = s.isSet (refOkFld r) := by
  rw [State.activeLost_eq]
  split
  · exact congrArg (· != 0) ((s.switchOver_sameBut _).fld _ _ _ (by cases r <;> decide))
  · exact s.isSet_coast r

/-- What holds once the bit of a lost reference is cleared, and is kept by all that the root does about it. -/
theorem State.refLost_induction {p : State → Prop} (s : State) (r : RefIn) (hoff : p (s.setOff (refOkFld r)))
    (hlost : ∀ t, p t → p t.activeLost) (hcoast : ∀ t, p t → p t.coast) (hsel : ∀ t v, p t → p (t.setF .clkRootcfgREFSEL v))
    (hroot : ∀ t x, p t → p { t with root := x }) : p (s.refLost r) := by
  unfold State.refLost
  dsimp only
  split
  · exact hoff
  · split
    · exact hlost _ hoff
    · exact hcoast _ hoff
    · exact hroot _ _ hoff
    · split
      · exact hroot _ _ (hsel _ _ hoff)
      · exact hroot _ _ hoff
    · exact hoff
    · exact hoff

theorem State.refLost_frame (s : State) (r : RefIn) : rootFrame s (s.refLost r) :=
  s.refLost_induction r (rootFrame_setF s (refOkFld_mem_rootKeys r) 0) (fun t h => rootFrame_trans h t.activeLost_frame)
    (fun t h => rootFrame_trans h t.coast_frame) (fun t v h => rootFrame_trans h (rootFrame_setF t (by simp [rootKeys]) v))
    fun t x h => rootFrame_trans h (rootFrame_root t x)

/-- A lost reference is no longer qualified. -/
theorem State.isSet_refLost (s : State) (r : RefIn) : (s.refLost r).isSet (refOkFld r) = false :=
  s.refLost_induction r (congrArg (· != 0) (State.getF_setF_self s _ _ _ _)) (fun t h => (t.isSet_activeLost r).trans h)
    (fun t h => (t.isSet_coast r).trans h)
    (fun t v h => (congrArg (· != 0) (State.getF_setF_ne t v 0 0 0 0 (by cases r <;> decide))).trans h) fun _ _ h => h

/-- The loss of the reference that a locked root is on. -/
theorem State.refLost_of_locked (hroot : s.root = .locked) (hsel : s.getF .clkRootcfgREFSEL = refSel r) :
    s.refLost r = (s.setOff (refOkFld r)).activeLost := by
  simp only [State.refLost, hsel, ne_eq, not_true_eq_false, if_false, hroot]

/-- The other of the two references. -/
theorem State.refOk_other (s : State) (hr : r = .refclk ∧ alt = .refclk2 ∨ r = .refclk2 ∧ alt = .refclk) :
    1 - refSel r = refSel alt ∧ s.refOk (1 - refSel r) = s.isSet (refOkFld alt) := by
  rcases hr with ⟨rfl, rfl⟩ | ⟨rfl, rfl⟩ <;> exact ⟨rfl, rfl⟩

/-- The loss of one of the two references is taken up with REFSEL, AUTOSW and the bit of the other as they stand. -/
theorem State.activeLost_setOff (hr : r = .refclk ∧ alt = .refclk2 ∨ r = .refclk2 ∧ alt = .refclk)
    (hsel : s.getF .clkRootcfgREFSEL = refSel r) : (s.setOff (refOkFld r)).activeLost =
      if s.isSet .clkRootcfgAUTOSW && s.isSet (refOkFld alt) then (s.setOff (refOkFld r)).switchOver (refSel alt)
      else (s.setOff (refOkFld r)).coast := by
  have hkept {f : Fld} (hf : f ≠ refOkFld r) : (s.setOff (refOkFld r)).getF f = s.getF f := State.getF_setF_ne s 0 0 0 0 0 hf
  have hauto : (s.setOff (refOkFld r)).isSet .clkRootcfgAUTOSW = s.isSet .clkRootcfgAUTOSW :=
    congrArg (· != 0) (hkept (by cases r <;> decide))
  have halt : (s.setOff (refOkFld r)).isSet (refOkFld alt) = s.isSet (refOkFld alt) :=
    congrArg (· != 0) (hkept (by rcases hr with ⟨rfl, rfl⟩ | ⟨rfl, rfl⟩ <;> decide))
  obtain ⟨hother, hok⟩ := (s.setOff (refOkFld r)).refOk_other hr
  rw [State.activeLost_eq, hkept (by cases r <;> decide), hsel, hok, halt, hauto, hother]

/-! ## The commands -/

theorem refInBand_trimref (n : Nat) : refInBand .trimref n = decide (199 ≤ 2 * n ∧ 2 * n ≤ 201) := by
  rw [refInBand, ← Bool.decide_and]
  exact decide_eq_decide.mpr (by omega)

theorem refInBand_clock (hr : r ≠ .trimref) (n : Nat) : refInBand r n = decide (995 ≤ n ∧ n ≤ 1005) := by
  rw [Bool.decide_and]
  cases r with
  | trimref => exact absurd rfl hr
  | refclk => rfl
  | refclk2 => rfl

theorem exec_measurementWindowEnd (r : RefIn) (n : Nat) (c : Bool) (s : State) : exec (.measurementWindowEnd r n c) s =
    .next (if s.isSet (refOkFld r) then (if refInBand r n then s else s.refLost r)
      else if refInBand r n && c then (s.setOn (refOkFld r)).rootOnQualified r else s) := rfl

theorem exec_referenceLossInterval (r : RefIn) (s : State) :
    exec (.referenceLossInterval r) s = .next (if s.isSet (refOkFld r) then s.refLost r else s) := rfl

theorem State.qualified_read (s : State) (r : RefIn) : ((s.setOn (refOkFld r)).rootOnQualified r).isSet (refOkFld r) = true := by
  have hlen : (refOkFld r).info.len = 1 := by cases r <;> rfl
  rw [State.isSet_rootOnQualified, State.isSet, State.setOn, State.getF_setF_self, hlen]
  rfl

theorem State.qualified_frame (s : State) (r : RefIn) : rootFrame s ((s.setOn (refOkFld r)).rootOnQualified r) :=
  rootFrame_trans (rootFrame_setF s (refOkFld_mem_rootKeys r) 1) (State.rootOnQualified_frame _ r)

theorem referencesQualifyAndAreLost : ReferencesQualifyAndAreLost := by
  intro r s n c inBand hband
  replace hband : refInBand r n = inBand := by
    rw [hband]
    cases r with
    | trimref => exact refInBand_trimref n
    | refclk => exact refInBand_clock (by simp) n
    | refclk2 => exact refInBand_clock (by simp) n
  refine ⟨fun hok hin hc => ⟨_, exec_measurementWindowEnd r n c s, ?_⟩, fun hok hout => ⟨_, exec_measurementWindowEnd r n c s, ?_⟩,
    fun hok => ⟨_, exec_measurementWindowEnd r n c s, ?_⟩, fun hok hc => ⟨_, exec_measurementWindowEnd r n c s, ?_⟩,
    fun hok => ⟨_, exec_referenceLossInterval r s, ?_⟩, fun hok => ⟨_, exec_referenceLossInterval r s, ?_⟩⟩
  · simpa [hok, hband, hin, hc] using ⟨s.qualified_read r, s.qualified_frame r⟩
  · simpa [hok, hband, hout] using ⟨s.isSet_refLost r, s.refLost_frame r⟩
  · cases inBand <;> simp [hok, hband]
  · simp [hok, hc]
  · simpa [hok] using ⟨s.isSet_refLost r, s.refLost_frame r⟩
  · simp [hok]

/-- The loss of the reference that a locked root is on. -/
theorem exec_referenceLossInterval_of_active (hr : r = .refclk ∧ alt = .refclk2 ∨ r = .refclk2 ∧ alt = .refclk)
    (hroot : s.root = .locked) (hsel : s.getF .clkRootcfgREFSEL = refSel r) (hok : s.isSet (refOkFld r) = true) :
    exec (.referenceLossInterval r) s = .next (if s.isSet .clkRootcfgAUTOSW && s.isSet (refOkFld alt) then
      (s.setOff (refOkFld r)).switchOver (refSel alt) else (s.setOff (refOkFld r)).coast) := by
  rw [exec_referenceLossInterval, if_pos hok, State.refLost_of_locked hroot hsel, State.activeLost_setOff hr hsel]

/-- Fields outside the list, and other than the bit of the lost reference, stay. -/
theorem SameBut.getF_of_setOff {ks : List FKey} {fs : List Fld} (h : SameBut ks (s.setOff (refOkFld r)) t)
    (hks : ∀ f ∈ fs, ∀ k ∈ ks, k.1 ≠ f) (hfs : ∀ f ∈ fs, f ≠ refOkFld r) : ∀ f ∈ fs, t.getF f = s.getF f :=
  fun f hf => (h.fld f 0 0 (hks f hf)).trans (State.getF_setF_ne s 0 0 0 0 0 (hfs f hf))

theorem lossOfTheActiveReferenceSwitchesOrCoasts : LossOfTheActiveReferenceSwitchesOrCoasts := by
  intro r alt s hr hroot hsel hok
  have hexec := exec_referenceLossInterval_of_active hr hroot hsel hok
  have hoff : SameBut [fk (refOkFld r)] s (s.setOff (refOkFld r)) := SameBut.setF _ _ _ _ _
  have hreg : ∀ k ∈ [fk (refOkFld r)], k.1.info.reg ∉ [RegName.evrPay, .evrRoute] := by cases r <;> decide
  have hframe : rootFrame s (s.setOff (refOkFld r)) := rootFrame_setF s (refOkFld_mem_rootKeys r) 0
  refine ⟨fun ⟨hauto, halt⟩ => ⟨_, hexec, ?_⟩, fun hno => ⟨_, hexec, ?_⟩⟩
  · obtain ⟨hraised, -⟩ := (s.setOff (refOkFld r)).switchOver_spec (refSel alt)
    obtain ⟨hto, hrefsel, hseen⟩ := (s.setOff (refOkFld r)).switchOver_read (refSel alt)
    have hmod : refSel alt % 2 = refSel alt := by rcases hr with ⟨-, rfl⟩ | ⟨-, rfl⟩ <;> rfl
    rw [hauto, halt, Bool.and_self, if_pos rfl]
    exact ⟨hto, hrefsel.trans hmod, hseen, hraised.of_sameBut hoff hreg (s.setF_out _ _ _ _),
      (State.switchOver_sameBut _ _).getF_of_setOff (r := r) (by decide) (by cases r <;> decide),
      rootFrame_trans hframe (State.switchOver_frame _ _)⟩
  · obtain ⟨hraised, -⟩ := (s.setOff (refOkFld r)).coast_spec
    obtain ⟨hto, hcoast, hseen⟩ := (s.setOff (refOkFld r)).coast_read
    rw [if_neg (by simpa using hno)]
    exact ⟨hto, hcoast, hseen, hraised.of_sameBut hoff hreg (s.setF_out _ _ _ _),
      (State.coast_sameBut _).getF_of_setOff (r := r) (by decide) (by cases r <;> decide),
      rootFrame_trans hframe (State.coast_frame _)⟩

/-! ## Writes of CLK_ROOTCFG -/

theorem exec_switchComplete (h : s.root = .switching) : exec .switchComplete s = .next { s with root := .locked } :=
  congrArg Host.Outcome.next (if_pos h)

theorem exec_rootRelock (h : s.root = .relocking) :
    exec .rootRelock s = .next ((({ s with root := .locked }).setOff .clkRootstatCOAST).setOn .clkRootstatLOCK) :=
  congrArg Host.Outcome.next (if_pos h)

/-- CLK_ROOTCFG stores AUTOSW. -/
def State.storeAutosw (s : State) (w : W32) : State := s.setF .clkRootcfgAUTOSW (w.toNat / 2 % 2)

theorem State.writeFld_autosw (s : State) (w : W32) : s.writeFld 0 0 w.toNat full32 .clkRootcfgAUTOSW = s.storeAutosw w :=
  State.writeFld_of_covered ⟨rfl, rfl⟩

/-- The write names the other reference, which is qualified. -/
def State.namesOther (s : State) (k : Nat) : Bool :=
  k != s.getF .clkRootcfgREFSEL && s.isSet (if k = 0 then .clkRootstatREF0OK else .clkRootstatREF1OK)

theorem State.namesOther_eq (s : State) {k : Nat} (hk : k < 2) : s.namesOther k = (k != s.getF .clkRootcfgREFSEL && s.refOk k) := by
  obtain rfl | rfl : k = 0 ∨ k = 1 := by omega
  · rfl
  · rfl

/-- REFSEL takes the reference that the write names, and the root goes on to state x. -/
def State.takeRefsel (s : State) (w : W32) (x : Root) : State :=
  { (s.storeAutosw w).setF .clkRootcfgREFSEL (w.toNat % 2) with root := x }

theorem exec_refselWrite (hs : s.perst = false) (w : W32) : exec (.refselWrite w) s =
    .next (if !s.namesOther (w.toNat % 2) then s.storeAutosw w
      else if s.root = .locked then s.takeRefsel w .switching
      else if s.root = .coasting then s.takeRefsel w .relocking else s.storeAutosw w) := by
  have hexec : exec (.refselWrite w) s = execRefselWrite w s := rfl
  have hsame : (decide (w.toNat % 2 = s.getF .clkRootcfgREFSEL) || !s.refOk (w.toNat % 2)) = !s.namesOther (w.toNat % 2) := by
    rw [s.namesOther_eq (Nat.mod_lt _ (by decide)), Bool.not_and, bne, Bool.not_not]
    rfl
  rw [hexec, execRefselWrite, State.writeFld_autosw]
  simp only [hs, hsame, Bool.false_eq_true, if_false]
  congr 2
  cases s.root <;> rfl

/-- What a write of CLK_ROOTCFG leaves: the root in state next.1, REFSEL taken if next.2, and AUTOSW stored. -/
def RootcfgWritten (s t : State) (w : W32) (next : Root × Bool) : Prop :=
  t.root = next.1 ∧ t.getF .clkRootcfgREFSEL = (if next.2 then w.toNat % 2 else s.getF .clkRootcfgREFSEL) ∧
  t.getF .clkRootcfgAUTOSW = w.toNat / 2 % 2 ∧
  SameBut [fk .clkRootcfgREFSEL, fk .clkRootcfgAUTOSW] s t ∧ { t with regs := s.regs, root := s.root } = s

theorem State.storeAutosw_written (s : State) (w : W32) : RootcfgWritten s (s.storeAutosw w) w (s.root, false) := by
  refine ⟨rfl, ?_, ?_, (SameBut.setF s _ _ _ _).mono (by simp), rfl⟩ <;> simp [State.storeAutosw]

theorem State.takeRefsel_written (s : State) (w : W32) (x : Root) : RootcfgWritten s (s.takeRefsel w x) w (x, true) := by
  have hread : ((s.storeAutosw w).setF .clkRootcfgREFSEL (w.toNat % 2)).getF .clkRootcfgREFSEL = w.toNat % 2 ∧
      ((s.storeAutosw w).setF .clkRootcfgREFSEL (w.toNat % 2)).getF .clkRootcfgAUTOSW = w.toNat / 2 % 2 := by
    simp [State.storeAutosw]
  exact ⟨rfl, hread.1, hread.2, (SameBut.setF s _ _ _ _).setF_of _ _ _ _, rfl⟩

theorem refselWrite_gives (hs : s.perst = false) (w : W32) : Gives (.refselWrite w) s fun t => RootcfgWritten s t w
    (if !s.namesOther (w.toNat % 2) then (s.root, false) else if s.root = .locked then (.switching, true)
      else if s.root = .coasting then (.relocking, true) else (s.root, false)) := by
  refine ⟨_, exec_refselWrite hs w, ?_⟩
  split
  · exact s.storeAutosw_written w
  · split
    · exact s.takeRefsel_written w _
    · split
      · exact s.takeRefsel_written w _
      · exact s.storeAutosw_written w

theorem rootSwitchesAndRelocks : RootSwitchesAndRelocks := by
  intro s
  refine ⟨fun h => ⟨_, exec_switchComplete h, rfl⟩, fun h => ⟨_, exec_rootRelock h, rfl, ?_, ?_, ?_, rfl⟩, fun w hs => ?_⟩
  · simp [State.setOn, State.setOff]
  · simp [State.setOn, State.setOff]
  · exact ((SameBut.setF { s with root := .locked } _ _ _ _).setF_of .clkRootstatLOCK 1 0 0).mono (by simp)
  · have h := refselWrite_gives hs w
    have hnext : (if !s.namesOther (w.toNat % 2) then (s.root, false) else if s.root = .locked then (.switching, true)
        else if s.root = .coasting then (.relocking, true) else (s.root, false)) = (match s.root with
      | .locked => if s.namesOther (w.toNat % 2) then (Root.switching, true) else (.locked, false)
      | .coasting => if s.namesOther (w.toNat % 2) then (.relocking, true) else (.coasting, false)
      | x => (x, false)) := by
      cases s.root <;> cases s.namesOther (w.toNat % 2) <;> rfl
    rw [hnext] at h
    exact h

end Sys2Proof.Machine

open Sys2Proof Sys2Proof.Machine

/-- Settles O14: a window or a loss interval changes one reference's bit, after which the root acts as its state says; the loss of the
reference of a locked root ends in a switch-over or a coast, and a write of CLK_ROOTCFG goes by the state of the root. -/
theorem rootFollowsItsReferences : Obligations.RootFollowsItsReferences :=
  ⟨referencesQualifyAndAreLost, lossOfTheActiveReferenceSwitchesOrCoasts, rootSwitchesAndRelocks⟩
end

section
/-! SUPPORT. User PLLs, the trim oscillators and the frequency meter (R155, R156, R161–R164). -/

namespace Sys2Proof.Machine

variable {s t u : State} {f g : Fld} {b c i j : Nat}

/-! ## Bits of other fields -/

@[simp] theorem State.bitF_setBitF_fld (s : State) (b c : Nat) (v : Bool) (i j k l : Nat) (h : g ≠ f) :
    (s.setBitF f b v i j).bitF g c k l = s.bitF g c k l := congrArg (·.testBit c) (State.getF_setF_ne s _ _ _ _ _ h)

/-- Forcing a bit leaves the other bits of that field and of every other. -/
theorem State.bitF_setBitF_other (v : Bool) (hc : c ≠ b) (hlen : c < g.info.len) : (s.setBitF f b v i j).bitF g c i j = s.bitF g c i j := by
  by_cases h : g = f
  · subst h
    exact s.bitF_setBitF_ne _ v i j hlen hc
  · exact s.bitF_setBitF_fld b c v i j i j h

theorem State.bitF_raise {e : Nat} (he : evSource e = true) (p : Nat) (hf : f.info.reg ∉ [RegName.evrPay, .evrRoute]) :
    (s.raise e p).bitF f b i j = s.bitF f b i j := congrArg (·.testBit b) (State.getF_raise he p hf)

/-! ## User PLLs -/

/-- The fields of the UPLLs of grain p that software does not write alone. -/
def pllKeys (p : Nat) : List FKey := [fk .grnPllstatCOASTNOW p, fk .grnPllstatCOASTSEEN p, fk .grnPllstatLOCK p, fk .grnPllstatUNLOCKSEEN p]

/-- The other UPLLs of grain p keep their bits. -/
def OtherPllsKept (p : Nat) (u : Fin 4) (s t : State) : Prop :=
  ∀ v : Fin 4, v ≠ u → ∀ f ∈ [Fld.grnPllstatCOASTNOW, .grnPllstatCOASTSEEN, .grnPllstatLOCK, .grnPllstatUNLOCKSEEN],
    t.bitF f v p = s.bitF f v p

theorem OtherPllsKept.refl (p : Nat) (u : Fin 4) (s : State) : OtherPllsKept p u s s := fun _ _ _ _ => rfl

theorem OtherPllsKept.setBitF {p : Nat} {u : Fin 4} (h : OtherPllsKept p u s t) (f : Fld) (b : Bool) :
    OtherPllsKept p u s (t.setBitF f u b p) := fun v hv g hg => by
  have hlen : ∀ g ∈ [Fld.grnPllstatCOASTNOW, .grnPllstatCOASTSEEN, .grnPllstatLOCK, .grnPllstatUNLOCKSEEN], g.info.len = 4 := by decide
  rw [State.bitF_setBitF_other b (fun e => hv (Fin.ext e)) (by rw [hlen g hg]; exact v.isLt)]
  exact h v hv g hg

theorem OtherPllsKept.raise {p e : Nat} {u : Fin 4} (h : OtherPllsKept p u s t) (he : evSource e = true) :
    OtherPllsKept p u s (t.raise e) := fun v hv g hg => by
  have hreg : ∀ g ∈ [Fld.grnPllstatCOASTNOW, .grnPllstatCOASTSEEN, .grnPllstatLOCK, .grnPllstatUNLOCKSEEN],
      g.info.reg ∉ [RegName.evrPay, .evrRoute] := by decide
  rw [State.bitF_raise he 0 (hreg g hg)]
  exact h v hv g hg

/-- Event 16n + 10 after writes of those fields. -/
theorem raiseG_of_pllKeys {p : Nat} (h : RegsOnly (pllKeys p) s t) (n : Pos) :
    Raised (16 * n + 10) 0 s (t.raiseG n 10) ∧ RegsAndOut (pllKeys p ++ evKeys (16 * n + 10)) s (t.raiseG n 10) :=
  h.raise (forall_keys_of_fields (p := fun f => f.info.reg ∉ [RegName.evrPay, .evrRoute])
    (fs := [.grnPllstatCOASTNOW, .grnPllstatCOASTSEEN, .grnPllstatLOCK, .grnPllstatUNLOCKSEEN]) rfl (by decide))
    (evSource_grain n.isLt (by decide)) 0

/-- The UPLL coasts: it shows COASTNOW and COASTSEEN and is not locked. -/
def State.pllCoast (s : State) (p : Nat) (u : Fin 4) : State :=
  ((s.setBitF .grnPllstatCOASTNOW u true p).setBitF .grnPllstatCOASTSEEN u true p).setBitF .grnPllstatLOCK u false p

/-- The UPLL is locked again. -/
def State.pllRelock (s : State) (p : Nat) (u : Fin 4) : State :=
  (s.setBitF .grnPllstatCOASTNOW u false p).setBitF .grnPllstatLOCK u true p

/-- The UPLL has lost its lock. -/
def State.pllUnlock (s : State) (p : Nat) (u : Fin 4) : State :=
  (s.setBitF .grnPllstatLOCK u false p).setBitF .grnPllstatUNLOCKSEEN u true p

theorem exec_upllReferenceLoss {n : Pos} {u : Fin 4} (hen : s.upllEn n u = true)
    (hcoast : s.bitF .grnPllstatCOASTNOW u (s.phys n) = false) :
    exec (.upllReferenceLoss n u) s = .next ((s.pllCoast (s.phys n) u).raiseG n 10) :=
  congrArg Host.Outcome.next (if_pos (by simp [hen, hcoast]))

theorem exec_upllRelock {n : Pos} {u : Fin 4} (hen : s.upllEn n u = true) (hcoast : s.bitF .grnPllstatCOASTNOW u (s.phys n) = true) :
    exec (.upllRelock n u) s = .next (s.pllRelock (s.phys n) u) := congrArg Host.Outcome.next (if_pos (by simp [hen, hcoast]))

theorem exec_upllUnlock {n : Pos} {u : Fin 4} (hlock : s.bitF .grnPllstatLOCK u (s.phys n) = true) :
    exec (.upllUnlock n u) s = .next ((s.pllUnlock (s.phys n) u).raiseG n 10) := congrArg Host.Outcome.next (if_pos hlock)

theorem exec_upllLock {n : Pos} {u : Fin 4} (hen : s.upllEn n u = true) (hcoast : s.bitF .grnPllstatCOASTNOW u (s.phys n) = false) :
    exec (.upllLock n u) s = .next (s.setBitF .grnPllstatLOCK u true (s.phys n)) :=
  congrArg Host.Outcome.next (if_pos (by simp [hen, hcoast]))

theorem State.pllCoast_frame (s : State) (p : Nat) (u : Fin 4) : RegsOnly (pllKeys p) s (s.pllCoast p u) :=
  ((((RegsOnly.refl s).setF _ _ _ _).setF _ _ _ _).setF _ _ _ _).mono (by simp [pllKeys])

theorem State.pllRelock_frame (s : State) (p : Nat) (u : Fin 4) : RegsOnly (pllKeys p) s (s.pllRelock p u) :=
  (((RegsOnly.refl s).setF _ _ _ _).setF _ _ _ _).mono (by simp [pllKeys])

theorem State.pllUnlock_frame (s : State) (p : Nat) (u : Fin 4) : RegsOnly (pllKeys p) s (s.pllUnlock p u) :=
  (((RegsOnly.refl s).setF _ _ _ _).setF _ _ _ _).mono (by simp [pllKeys])

theorem State.bitF_setBitF_pll (s : State) {f : Fld} (hf : f.info.len = 4) (u : Fin 4) (v : Bool) (i j : Nat) :
    (s.setBitF f u v i j).bitF f u i j = v := s.bitF_setBitF_self f u v i j (by rw [hf]; exact u.isLt)

theorem State.pllCoast_read (s : State) (p : Nat) (u : Fin 4) : (s.pllCoast p u).bitF .grnPllstatCOASTNOW u p = true ∧
    (s.pllCoast p u).bitF .grnPllstatCOASTSEEN u p = true := by
  constructor
  · rw [State.pllCoast, State.bitF_setBitF_fld _ _ _ _ _ _ _ _ (by simp), State.bitF_setBitF_fld _ _ _ _ _ _ _ _ (by simp),
      State.bitF_setBitF_pll _ rfl]
  · rw [State.pllCoast, State.bitF_setBitF_fld _ _ _ _ _ _ _ _ (by simp), State.bitF_setBitF_pll _ rfl]

theorem State.pllRelock_read (s : State) (p : Nat) (u : Fin 4) : (s.pllRelock p u).bitF .grnPllstatCOASTNOW u p = false ∧
    (s.pllRelock p u).bitF .grnPllstatLOCK u p = true ∧
    (s.pllRelock p u).bitF .grnPllstatCOASTSEEN u p = s.bitF .grnPllstatCOASTSEEN u p := by
  refine ⟨?_, State.bitF_setBitF_pll _ rfl _ _ _ _, by simp [State.pllRelock]⟩
  rw [State.pllRelock, State.bitF_setBitF_fld _ _ _ _ _ _ _ _ (by simp), State.bitF_setBitF_pll _ rfl]

theorem State.pllUnlock_read (s : State) (p : Nat) (u : Fin 4) : (s.pllUnlock p u).bitF .grnPllstatLOCK u p = false ∧
    (s.pllUnlock p u).bitF .grnPllstatUNLOCKSEEN u p = true := by
  refine ⟨?_, State.bitF_setBitF_pll _ rfl _ _ _ _⟩
  rw [State.pllUnlock, State.bitF_setBitF_fld _ _ _ _ _ _ _ _ (by simp), State.bitF_setBitF_pll _ rfl]

/-! ## The trim correction -/

/-- A quotient of numbers that are not negative is rounded to the nearest integer, ties upwards. -/
theorem roundDiv_of_nonneg {a : Int} (ha : 0 ≤ a) {b : Nat} (hb : 0 < b) : 0 ≤ roundDiv a b ∧
    -(b : Int) ≤ 2 * (a - roundDiv a b * b) ∧ 2 * (a - roundDiv a b * b) < b := by
  rw [roundDiv, if_pos ha]
  have hdiv := Int.mul_ediv_add_emod (2 * a + b) (2 * b)
  have hlo := Int.emod_nonneg (2 * a + b) (b := 2 * b) (by omega)
  have hhi := Int.emod_lt_of_pos (2 * a + b) (b := 2 * b) (by omega)
  have hcomm : 2 * (b : Int) * ((2 * a + b) / (2 * b)) = 2 * ((2 * a + b) / (2 * b) * b) := by ring
  refine ⟨Int.ediv_nonneg (by omega) (by omega), ?_, ?_⟩ <;> omega

theorem roundDiv_neg {a : Int} (ha : a < 0) (b : Nat) : roundDiv a b = -roundDiv (-a) b := by
  rw [roundDiv, if_neg (by omega), roundDiv, if_pos (by omega)]

/-- The correction is the nearest integer, and of two the one farther from zero (R161). -/
theorem roundDiv_nearest (a : Int) {b : Nat} (hb : 0 < b) : (2 * (a - roundDiv a b * b)).natAbs ≤ b ∧
    (2 * (a - roundDiv a b * b).natAbs = b → a.natAbs ≤ (roundDiv a b).natAbs * b) := by
  have hmul : (roundDiv a b).natAbs * b = (roundDiv a b * b).natAbs := by rw [Int.natAbs_mul, Int.natAbs_natCast]
  rw [hmul]
  by_cases ha : 0 ≤ a
  · obtain ⟨hq, hlo, hhi⟩ := roundDiv_of_nonneg ha hb
    omega
  · obtain ⟨hq, hlo, hhi⟩ := roundDiv_of_nonneg (a := -a) (by omega) hb
    rw [roundDiv_neg (by omega), Int.neg_mul]
    omega

/-- A trim is stored clamped to 10 bits and reads back. -/
theorem trimInt_trimField (t : Int) : trimInt (trimField t % 2 ^ 10) = max (-512) (min 511 t) := by
  unfold trimInt trimField
  generalize hx : max (-512) (min 511 t) = x
  by_cases h : 0 ≤ x
  · rw [if_pos (by omega)]
    omega
  · rw [if_neg (by omega)]
    omega

/-! ## Trim windows -/

/-- Windows in a row that qualify, after one that counts m (R162). -/
def State.trimGood (s : State) (m : W32) : Nat :=
  if ((s.trim.e : Int) - m.toNat).natAbs * 10000 ≤ s.trim.e then min 4 (s.trim.good + 1) else 0

/-- CLK_TROCNT and TRIM after a window that counts m (R161). -/
def State.trimmed (s : State) (m : W32) : State :=
  (s.setF .clkTrocntM m.toNat).setF .clkTrotrimTRIM
    (trimField (trimInt (s.getF .clkTrotrimTRIM) + roundDiv (((s.trim.e : Int) - m.toNat) * 10000) s.trim.e))

/-- LOCKED after the given number of windows in a row that qualify (R162). -/
def State.trimLocked (s : State) (good : Nat) : State :=
  if good = 4 then s.setOn .clkTrotrimLOCKED else if good = 0 then s.setOff .clkTrotrimLOCKED else s

theorem exec_trimWindowEnd (h : s.trim.on = true) (m : W32) : ∃ x : TrimEng, x.good = s.trimGood m ∧
    exec (.trimWindowEnd m) s = .next { (s.trimmed m).trimLocked (s.trimGood m) with trim := x } :=
  ⟨_, rfl, congrArg Host.Outcome.next (if_neg (by simp [h]))⟩

theorem State.trimLocked_read (s : State) (good : Nat) : (s.trimLocked good).getF .clkTrotrimLOCKED =
    if good = 4 then 1 else if good = 0 then 0 else s.getF .clkTrotrimLOCKED := by
  unfold State.trimLocked
  split
  · simp [State.setOn]
  · split
    · simp [State.setOff]
    · rfl

theorem State.trimLocked_frame (s : State) (good : Nat) : RegsOnly [fk .clkTrotrimLOCKED] s (s.trimLocked good) := by
  unfold State.trimLocked
  split
  · exact (RegsOnly.refl s).setF _ _ _ _
  · split
    · exact (RegsOnly.refl s).setF _ _ _ _
    · exact (RegsOnly.refl s).mono (by simp)

theorem State.trimmed_read (s : State) (m : W32) : (s.trimmed m).getF .clkTrocntM = m.toNat ∧
    trimInt ((s.trimmed m).getF .clkTrotrimTRIM) = max (-512) (min 511 (trimInt (s.getF .clkTrotrimTRIM) +
      roundDiv (((s.trim.e : Int) - m.toNat) * 10000) s.trim.e)) := by
  refine ⟨?_, ?_⟩
  · simpa [State.trimmed] using m.isLt
  · rw [State.trimmed, State.getF_setF_self]
    exact trimInt_trimField _

theorem State.trimWindow_frame (s : State) (m : W32) (good : Nat) :
    RegsOnly [fk .clkTrotrimTRIM, fk .clkTrocntM, fk .clkTrotrimLOCKED] s ((s.trimmed m).trimLocked good) := by
  have hset : RegsOnly [fk .clkTrotrimTRIM, fk .clkTrocntM] s (s.trimmed m) := ((RegsOnly.refl s).setF _ _ _ _).setF _ _ _ _
  exact hset.trans ((s.trimmed m).trimLocked_frame good)

/-- The fields after a window. -/
theorem State.trimWindow_read (s : State) (m : W32) (good : Nat) :
    trimInt (((s.trimmed m).trimLocked good).getF .clkTrotrimTRIM) = max (-512) (min 511 (trimInt (s.getF .clkTrotrimTRIM) +
      roundDiv (((s.trim.e : Int) - m.toNat) * 10000) s.trim.e)) ∧
    ((s.trimmed m).trimLocked good).getF .clkTrocntM = m.toNat ∧
    ((s.trimmed m).trimLocked good).getF .clkTrotrimLOCKED =
      if good = 4 then 1 else if good = 0 then 0 else s.getF .clkTrotrimLOCKED := by
  obtain ⟨hcount, htrim⟩ := s.trimmed_read m
  obtain ⟨hsame, -⟩ := (s.trimmed m).trimLocked_frame good
  rw [hsame.fld _ _ _ (by decide), hsame.fld _ _ _ (by decide), State.trimLocked_read]
  refine ⟨htrim, hcount, ?_⟩
  simp [State.trimmed]

/-! ## Trim settings -/

/-- Only fields of the list and what the trim engine is doing change. -/
def TrimFrame (ks : List FKey) (s t : State) : Prop := SameBut ks s t ∧ { t with regs := s.regs, trim := s.trim } = s

theorem TrimFrame.trim {ks : List FKey} (h : TrimFrame ks s t) (x : TrimEng) : TrimFrame ks s { t with trim := x } := h

theorem RegsOnly.trimFrame {ks : List FKey} (h : RegsOnly ks s t) : TrimFrame ks s t := by
  obtain ⟨h, e⟩ := h
  obtain ⟨r, rfl⟩ := eq_of_putBack_regs e
  exact ⟨h, rfl⟩

theorem TrimFrame.trans_regsOnly {ks ls : List FKey} (h : TrimFrame ks s t) (h' : RegsOnly ls t u) (hks : ∀ k ∈ ks, k ∈ ls) :
    TrimFrame ls s u := by
  obtain ⟨h, e⟩ := h
  obtain ⟨h', e'⟩ := h'
  obtain ⟨r, rfl⟩ := eq_of_putBack_regs e'
  exact ⟨(h.trans h').mono fun k hk => (List.mem_append.mp hk).elim (hks k) id, e⟩

theorem State.trimRelock_frame (s : State) : TrimFrame [fk .clkTrotrimLOCKED] s s.trimRelock := by
  unfold State.trimRelock
  split
  · exact ((RegsOnly.refl s).setF .clkTrotrimLOCKED 0 0 0).trimFrame.trim _
  · exact ((RegsOnly.refl s).mono (by simp)).trimFrame

theorem State.trimRelock_read (s : State) : s.trimRelock.getF .clkTrotrimLOCKED =
    if s.isSet .clkTroctlENABLE then 0 else s.getF .clkTrotrimLOCKED := by
  unfold State.trimRelock
  split
  · exact (State.getF_setF_self s .clkTrotrimLOCKED 0 0 0).trans (Nat.zero_mod _)
  · rfl

theorem exec_troexpWrite (hs : s.perst = false) (w : W32) : exec (.troexpWrite w) s =
    .next (if w.toNat < 1024 then s else s.trimRelock.setF .clkTroexpE w.toNat) := by
  have hexec : exec (.troexpWrite w) s = execTroexpWrite w s := rfl
  simp [hexec, execTroexpWrite, hs]

theorem exec_troctlWrite (hs : s.perst = false) (w : W32) : ∃ x : TrimEng, exec (.troctlWrite w) s =
    .next { s.trimRelock.writeReg .clkTroctl 0 0 w.toNat full32 with trim := x } := by
  have hexec : exec (.troctlWrite w) s = execTroctlWrite w s := rfl
  rw [hexec, execTroctlWrite]
  dsimp only
  rw [if_neg (by simp [hs])]
  split
  · exact ⟨_, rfl⟩
  · exact ⟨_, rfl⟩

/-- CLK_TROCTL takes the settings written. -/
theorem State.writeReg_troctl_read (s : State) (w : W32) :
    (s.writeReg .clkTroctl 0 0 w.toNat full32).getF .clkTroctlENABLE = w.toNat % 2 ∧
    (s.writeReg .clkTroctl 0 0 w.toNat full32).getF .clkTroctlTSRC = w.toNat / 2 % 4 ∧
    (s.writeReg .clkTroctl 0 0 w.toNat full32).getF .clkTroctlWINLOG = w.toNat / 8 % 32 ∧
    (s.writeReg .clkTroctl 0 0 w.toNat full32).getF .clkTroctlLPOS = w.toNat / 256 % 64 ∧
    (s.writeReg .clkTroctl 0 0 w.toNat full32).getF .clkTroctlLANE = w.toNat / 16384 % 8 := by
  have htaken {f : Fld} (hf : f ∈ RegName.clkTroctl.fields) (h : f.coveredBy full32) :=
    State.getF_writeReg_of_covered (s := s) (i := 0) (j := 0) (w := w.toNat) hf
      ((by decide : ∀ f ∈ RegName.clkTroctl.fields, ∀ g ∈ RegName.clkTroctl.fields, f ∉ g.info.clears) f hf) h
  refine ⟨(htaken (by decide) ⟨rfl, rfl⟩).trans (congrArg (· % 2) (Nat.div_one _)), htaken (by decide) ⟨rfl, rfl⟩,
    htaken (by decide) ⟨rfl, rfl⟩, htaken (by decide) ⟨rfl, rfl⟩, htaken (by decide) ⟨rfl, rfl⟩⟩

/-! ## The frequency meter -/

/-- What the meter's registers show while it runs and after. -/
def fmKeys : List FKey :=
  [fk .clkFmctlMSRC, fk .clkFmctlGSRC, fk .clkFmctlGLOG, fk .clkFmctlGATEERR, fk .clkFmctlBUSY, fk .clkFmctlOVF, fk .clkFmctlDONE]

/-- A measurement begins. -/
def State.fmBegin (s : State) : State := ((s.setOff .clkFmctlDONE).setOff .clkFmctlOVF).setOn .clkFmctlBUSY

theorem exec_fmStart (hs : s.perst = false) (w : W32) : exec (.fmStart w) s =
    .next (if w.toNat.testBit 28 && !s.isSet .clkFmctlBUSY then (s.writeReg .clkFmctl 0 0 w.toNat full32).fmBegin
      else s.writeReg .clkFmctl 0 0 w.toNat full32) := congrArg Host.Outcome.next (if_neg (by simp [hs]))

theorem State.fmBegin_read (s : State) : s.fmBegin.getF .clkFmctlDONE = 0 ∧ s.fmBegin.getF .clkFmctlOVF = 0 ∧
    s.fmBegin.getF .clkFmctlBUSY = 1 := by simp [State.fmBegin, State.setOn, State.setOff]

theorem State.fmBegin_frame (s : State) : RegsOnly [fk .clkFmctlBUSY, fk .clkFmctlOVF, fk .clkFmctlDONE] s s.fmBegin :=
  (((RegsOnly.refl s).setF _ _ _ _).setF _ _ _ _).setF _ _ _ _

/-- CLK_FMCTL takes the settings written, and BUSY and OVF stay. -/
theorem State.writeReg_fmctl_read (s : State) (w : W32) :
    (s.writeReg .clkFmctl 0 0 w.toNat full32).getF .clkFmctlMSRC = w.toNat % 16 ∧
    (s.writeReg .clkFmctl 0 0 w.toNat full32).getF .clkFmctlGSRC = w.toNat / 16 % 16 ∧
    (s.writeReg .clkFmctl 0 0 w.toNat full32).getF .clkFmctlGLOG = w.toNat / 256 % 32 ∧
    (s.writeReg .clkFmctl 0 0 w.toNat full32).getF .clkFmctlBUSY = s.getF .clkFmctlBUSY ∧
    (s.writeReg .clkFmctl 0 0 w.toNat full32).getF .clkFmctlOVF = s.getF .clkFmctlOVF := by
  have hclears : ∀ f ∈ RegName.clkFmctl.fields, ∀ g ∈ RegName.clkFmctl.fields, f ∉ g.info.clears := by decide
  have htaken {f : Fld} (hf : f ∈ RegName.clkFmctl.fields) (h : f.coveredBy full32) :=
    State.getF_writeReg_of_covered (s := s) (i := 0) (j := 0) (w := w.toNat) hf (hclears f hf) h
  refine ⟨(htaken (by decide) ⟨rfl, rfl⟩).trans (congrArg (· % 16) (Nat.div_one _)), htaken (by decide) ⟨rfl, rfl⟩,
    htaken (by decide) ⟨rfl, rfl⟩, State.getF_writeReg_of_kept (.inl rfl) (hclears _ (by decide)),
    State.getF_writeReg_of_kept (.inl rfl) (hclears _ (by decide))⟩

theorem State.writeReg_fmctl_frame (s : State) (w m : Nat) : RegsOnly fmKeys s (s.writeReg .clkFmctl 0 0 w m) :=
  ((RegsOnly.refl s).mono (by simp)).writeReg_of_writable (by decide)

theorem exec_fmMeasurementDone (h : s.isSet .clkFmctlBUSY = true) (n : Nat) :
    exec (.fmMeasurementDone n) s = .next (s.fmEnd (s.fmCount n)) := congrArg Host.Outcome.next (if_pos h)

theorem exec_fmGateTimeout (h : s.isSet .clkFmctlBUSY = true) (n : Nat) :
    exec (.fmGateTimeout n) s = .next ((s.fmEnd (s.fmCount n)).setOn .clkFmctlGATEERR) := congrArg Host.Outcome.next (if_pos h)

/-- What the end of a measurement writes. -/
def fmEndKeys : List FKey := [fk .clkFmcntCOUNT, fk .clkFmctlBUSY, fk .clkFmctlDONE, fk .clkFmctlOVF]

theorem State.fmEnd_frame (s : State) (n : Nat) : RegsOnly fmEndKeys s (s.fmEnd n) := by
  have hset : RegsOnly [fk .clkFmctlDONE, fk .clkFmctlBUSY, fk .clkFmcntCOUNT] s
      (((s.setF .clkFmcntCOUNT (min n full32)).setOff .clkFmctlBUSY).setOn .clkFmctlDONE) :=
    (((RegsOnly.refl s).setF _ _ _ _).setF _ _ _ _).setF _ _ _ _
  unfold State.fmEnd
  dsimp only
  split
  · exact (hset.setF _ _ _ _).mono (by simp [fmEndKeys])
  · exact hset.mono (by simp [fmEndKeys])

theorem State.fmEnd_read (s : State) (n : Nat) : (s.fmEnd n).getF .clkFmcntCOUNT = min n 0xFFFFFFFF ∧
    (s.fmEnd n).getF .clkFmctlBUSY = 0 ∧ (s.fmEnd n).getF .clkFmctlDONE = 1 ∧
    (s.fmEnd n).getF .clkFmctlOVF = if 0xFFFFFFFF < n then 1 else s.getF .clkFmctlOVF := by
  unfold State.fmEnd full32
  dsimp only
  split <;> simp [State.setOn, State.setOff]

end Sys2Proof.Machine

open Sys2Proof Sys2Proof.Machine

/-- Settles O15: each command works on one bit of the fields of GRN_PLLSTAT, and a loss of the reference or of the lock ends in event
16n + 10. -/
theorem userPllCoastsRelocksAndUnlocks : Obligations.UserPllCoastsRelocksAndUnlocks := by
  intro n u s
  have hsource : evSource (16 * n + 10) = true := evSource_grain n.isLt (by decide)
  have hothers := OtherPllsKept.refl (s.phys n) u s
  refine ⟨fun hen hcoast => ⟨_, exec_upllReferenceLoss hen hcoast, ?_⟩, fun hen hcoast => ⟨_, exec_upllRelock hen hcoast, ?_⟩,
    fun hlock => ⟨_, exec_upllUnlock hlock, ?_⟩, fun hen hcoast => ⟨_, exec_upllLock hen hcoast, ?_⟩⟩
  · obtain ⟨hraised, hframe⟩ := raiseG_of_pllKeys (s.pllCoast_frame (s.phys n) u) n
    obtain ⟨hnow, hseen⟩ := s.pllCoast_read (s.phys n) u
    exact ⟨(State.bitF_raise hsource 0 (by decide)).trans hnow, (State.bitF_raise hsource 0 (by decide)).trans hseen, hraised,
      (((hothers.setBitF _ _).setBitF _ _).setBitF _ _).raise hsource, hframe⟩
  · obtain ⟨hnow, hlock, hseen⟩ := s.pllRelock_read (s.phys n) u
    exact ⟨hnow, hlock, hseen, (hothers.setBitF _ _).setBitF _ _, s.pllRelock_frame _ u⟩
  · obtain ⟨hraised, hframe⟩ := raiseG_of_pllKeys (s.pllUnlock_frame (s.phys n) u) n
    obtain ⟨hlock, hseen⟩ := s.pllUnlock_read (s.phys n) u
    exact ⟨(State.bitF_raise hsource 0 (by decide)).trans hlock, (State.bitF_raise hsource 0 (by decide)).trans hseen, hraised,
      ((hothers.setBitF _ _).setBitF _ _).raise hsource, hframe⟩
  · exact ⟨State.bitF_setBitF_pll _ rfl _ _ _ _, hothers.setBitF _ _, (RegsOnly.refl s).setF _ _ _ _⟩

/-- Settles O16: the correction of a window is the nearest integer, LOCKED follows the windows in a row that qualify, and a setting written
while the engine is on clears LOCKED first. -/
theorem trimEngineFollowsItsWindows : Obligations.TrimEngineFollowsItsWindows := by
  intro s
  refine ⟨fun m hon he => ?_, fun hon => ?_, fun w hs => ⟨_, exec_troexpWrite hs w, fun hw => ?_, fun hw => ?_⟩, fun w hs => ?_,
    fun p => ⟨_, rfl, ?_, (RegsOnly.refl s).setF _ _ _ _⟩⟩
  · obtain ⟨x, hgood, hexec⟩ := exec_trimWindowEnd hon m
    obtain ⟨hnear, htie⟩ := roundDiv_nearest (((s.trim.e : Int) - m.toNat) * 10000) (b := s.trim.e) (by omega)
    obtain ⟨htrim, hcount, hlocked⟩ := s.trimWindow_read m (s.trimGood m)
    rw [Int.natAbs_mul] at htie
    rw [← hgood] at hexec htrim hcount hlocked
    exact ⟨_, hexec, _, hnear, htie, htrim, hcount, hgood, hlocked, (s.trimWindow_frame m _).trimFrame.trim x⟩
  · obtain ⟨hraised, hframe⟩ := ((RegsOnly.refl s).setF .clkTroctlSRCLOST 1 0 0).raise (e := 978) (by decide) (by decide) 0
    refine ⟨_, congrArg Host.Outcome.next (if_pos hon), ?_, hraised, hframe⟩
    rw [State.getF_raise (by decide) _ (by decide)]
    simp [State.setOn]
  · exact if_pos hw
  · rw [if_neg (by omega)]
    refine ⟨?_, ?_, s.trimRelock_frame.trans_regsOnly (ls := [fk .clkTroexpE, fk .clkTrotrimLOCKED])
      (((RegsOnly.refl _).setF _ _ _ _).mono (by simp)) (by simp)⟩
    · simpa using w.isLt
    · rw [State.getF_setF_ne _ _ _ _ _ _ (by simp), State.trimRelock_read]
  · obtain ⟨x, hexec⟩ := exec_troctlWrite hs w
    obtain ⟨henable, hsrc, hlog, hpos, hlane⟩ := s.trimRelock.writeReg_troctl_read w
    have hkeys : RegsOnly [fk .clkTroctlENABLE, fk .clkTroctlTSRC, fk .clkTroctlWINLOG, fk .clkTroctlLPOS, fk .clkTroctlLANE,
        fk .clkTroctlSRCLOST] s.trimRelock (s.trimRelock.writeReg .clkTroctl 0 0 w.toNat full32) :=
      ((RegsOnly.refl _).mono (by simp)).writeReg_of_writable (by decide)
    refine ⟨_, hexec, henable, hsrc, hlog, hpos, hlane, ?_, (s.trimRelock_frame.trans_regsOnly (hkeys.mono (by simp)) (by simp)).trim x⟩
    exact (hkeys.1.fld _ _ _ (by decide)).trans s.trimRelock_read
  · simp [State.setOn]

/-- Settles O17: CLK_FMCTL takes what is written before START is looked at; what is counted decides the rest. -/
theorem frequencyMeterMeasures : Obligations.FrequencyMeterMeasures := by
  intro s
  refine ⟨fun w hs => ⟨_, exec_fmStart hs w, ?_⟩, fun c n k hc hbusy hk => ?_⟩
  · obtain ⟨hmsrc, hgsrc, hglog, hbusy, hovf⟩ := s.writeReg_fmctl_read w
    have hframe := s.writeReg_fmctl_frame w.toNat full32
    split
    case isTrue h =>
      simp only [Bool.and_eq_true, Bool.not_eq_true'] at h
      obtain ⟨hsame, hrest⟩ := (s.writeReg .clkFmctl 0 0 w.toNat full32).fmBegin_frame
      refine ⟨fun _ _ => State.fmBegin_read _, fun hno => by simp [h] at hno, (hsame.fld _ _ _ (by decide)).trans hmsrc,
        (hsame.fld _ _ _ (by decide)).trans hgsrc, (hsame.fld _ _ _ (by decide)).trans hglog,
        (hframe.trans ⟨hsame, hrest⟩).mono (by simp [fmKeys])⟩
    case isFalse h =>
      exact ⟨fun hstart hidle => by simp [hstart, hidle] at h, fun _ => ⟨hbusy, hovf⟩, hmsrc, hgsrc, hglog, hframe⟩
  · obtain ⟨hcount, hbusy', hdone, hovf⟩ := s.fmEnd_read (s.fmCount n)
    obtain rfl : k = s.fmCount n := hk
    have hframe := s.fmEnd_frame (s.fmCount n)
    rcases hc with rfl | rfl
    · refine ⟨_, exec_fmMeasurementDone hbusy n, hcount, hbusy', hdone, hovf, ?_, hframe.mono (by simp [fmEndKeys])⟩
      rw [if_neg (by simp)]
      exact hframe.1.fld _ _ _ (by decide)
    · have hgate : SameBut [fk .clkFmctlGATEERR] (s.fmEnd (s.fmCount n)) ((s.fmEnd (s.fmCount n)).setOn .clkFmctlGATEERR) :=
        SameBut.setF _ _ _ _ _
      refine ⟨_, exec_fmGateTimeout hbusy n, (hgate.fld _ _ _ (by decide)).trans hcount, (hgate.fld _ _ _ (by decide)).trans hbusy',
        (hgate.fld _ _ _ (by decide)).trans hdone, (hgate.fld _ _ _ (by decide)).trans hovf, ?_,
        (hframe.setF _ _ _ _).mono (by simp [fmEndKeys])⟩
      simp [State.setOn]
end

section
/-! SUPPORT. Unit gating and the feature lock (R165, R166, R385, R386). -/

namespace Sys2Proof.Machine

variable {s t : State} {f : Fld} {b c : Nat}

/-! ## Bits of TUN_CLKEN and TUN_CLKSTAT -/

/-- A bit of a field after one of its bits was forced. -/
theorem State.bitF_setBitF (s : State) (v : Bool) (hc : c < f.info.len) :
    (s.setBitF f b v).bitF f c = if c = b then v else s.bitF f c := by
  split
  case isTrue h =>
    subst h
    exact s.bitF_setBitF_self f c v 0 0 hc
  case isFalse h => exact s.bitF_setBitF_ne f v 0 0 hc h

/-- A write of w to TUN_CLKEN reaches bit b. -/
def State.clkenTakes (s : State) (w : W32) (b : Nat) : Bool := !s.clkenFixed b && (w.toNat.testBit b || !s.clkenRefused b)

/-- TUN_CLKEN after the bits of the list have been looked at, for a write of w in state s. -/
def State.clkenWritten (s : State) (w : W32) (bs : List Nat) (t : State) : State :=
  bs.foldl (fun t b => if s.clkenTakes w b then t.setBitF .tunClkenEN b (w.toNat.testBit b) else t) t

theorem exec_clkenWrite (hs : s.perst = false) (w : W32) : exec (.clkenWrite w) s = .next (s.clkenWritten w gateableBits s) := by
  have hexec : exec (.clkenWrite w) s = execClkenWrite w s := rfl
  have hbit (t : State) (b : Nat) : (if s.clkenFixed b then t else if w.toNat.testBit b then t.setBitF .tunClkenEN b true
      else if s.clkenRefused b then t else t.setBitF .tunClkenEN b false) =
        if s.clkenTakes w b then t.setBitF .tunClkenEN b (w.toNat.testBit b) else t := by
    unfold State.clkenTakes
    cases s.clkenFixed b <;> cases w.toNat.testBit b <;> cases s.clkenRefused b <;> rfl
  rw [hexec, execClkenWrite, if_neg (by simp [hs])]
  simp only [hbit]
  rfl

theorem State.bitF_clkenWritten (s : State) (w : W32) (bs : List Nat) (t : State) (hc : c < 17) :
    (s.clkenWritten w bs t).bitF .tunClkenEN c = if c ∈ bs ∧ s.clkenTakes w c = true then w.toNat.testBit c else t.bitF .tunClkenEN c := by
  induction bs generalizing t with
  | nil => rfl
  | cons b bs ih =>
    have hstep : s.clkenWritten w (b :: bs) t =
        s.clkenWritten w bs (if s.clkenTakes w b then t.setBitF .tunClkenEN b (w.toNat.testBit b) else t) := rfl
    rw [hstep, ih]
    by_cases hb : c = b
    · subst hb
      cases hw : s.clkenTakes w c with
      | false => simp
      | true => simp [State.bitF_setBitF _ _ (f := .tunClkenEN) hc]
    · cases hw : s.clkenTakes w b with
      | false => simp [hb]
      | true => simp [hb, State.bitF_setBitF _ _ (f := .tunClkenEN) hc]

theorem State.clkenWritten_frame (s : State) (w : W32) (bs : List Nat) (t : State) :
    RegsOnly [fk .tunClkenEN] t (s.clkenWritten w bs t) :=
  List.foldlRecOn _ _ ((RegsOnly.refl t).mono (by simp)) fun u h b _ => by
    split
    · exact h.setF_of_mem (by simp)
    · exact h

theorem exec_unitGated {b : Fin 17} (hen : s.bitF .tunClkenEN b = false) (hclk : s.bitF .tunClkstatCLOCKED b = true)
    (hready : s.gateReady b = true) : exec (.unitGated b) s = .next (s.setBitF .tunClkstatCLOCKED b false) :=
  congrArg Host.Outcome.next (if_pos (by simp [hen, hclk, hready]))

theorem exec_unitUngated {b : Fin 17} (hen : s.bitF .tunClkenEN b = true) (hclk : s.bitF .tunClkstatCLOCKED b = false) :
    exec (.unitUngated b) s = .next (s.setBitF .tunClkstatCLOCKED b true) :=
  congrArg Host.Outcome.next (if_pos (by simp [hen, hclk]))

/-- TUN_CLKSTAT shows one unit gated or clocked, and the others as before. -/
theorem State.clkstat_setBitF (s : State) (b : Fin 17) (v : Bool) :
    (s.setBitF .tunClkstatCLOCKED b v).bitF .tunClkstatCLOCKED b = v ∧
    (∀ c : Fin 17, c ≠ b → (s.setBitF .tunClkstatCLOCKED b v).bitF .tunClkstatCLOCKED c = s.bitF .tunClkstatCLOCKED c) ∧
    RegsOnly [fk .tunClkstatCLOCKED] s (s.setBitF .tunClkstatCLOCKED b v) :=
  ⟨s.bitF_setBitF_self _ _ _ _ _ b.isLt, fun c hc => s.bitF_setBitF_ne _ _ _ _ c.isLt fun e => hc (Fin.ext e),
    (RegsOnly.refl s).setF _ _ _ _⟩

/-! ## The feature lock -/

/-- Writes of other registers leave what is acknowledged. -/
theorem SameBut.featAcked {ks : List FKey} (h : SameBut ks s t) (hk : ∀ k ∈ ks, k.1 ≠ .tunFeatackACK) (b : Nat) :
    t.featAcked b = s.featAcked b := by
  simp only [State.featAcked, State.bitF, h.fld _ _ _ hk]

theorem State.lockUnit_frame (s : State) (b : Nat) : RegsOnly [fk .tunClkstatCLOCKED, fk .tunClkenEN] s (s.lockUnit b) := by
  unfold State.lockUnit
  split
  · exact (RegsOnly.refl s).mono (by simp)
  · exact ((RegsOnly.refl s).setF _ _ _ _).setF _ _ _ _

/-- A unit that is not acknowledged loses its bit in both registers. -/
theorem State.bitF_lockUnit (s : State) (b : Nat) (hf : f ∈ [Fld.tunClkenEN, .tunClkstatCLOCKED]) (hc : c < 17) :
    (s.lockUnit b).bitF f c = if c = b ∧ s.featAcked b = false then false else s.bitF f c := by
  unfold State.lockUnit
  cases hack : s.featAcked b with
  | true => simp
  | false =>
    have hforced : ((s.setBitF .tunClkenEN b false).setBitF .tunClkstatCLOCKED b false).bitF f c =
        if c = b then false else s.bitF f c := by
      simp only [List.mem_cons, List.not_mem_nil, or_false] at hf
      rcases hf with rfl | rfl
      · rw [State.bitF_setBitF_fld _ _ _ _ _ _ _ _ (by simp), State.bitF_setBitF _ _ hc]
      · rw [State.bitF_setBitF _ _ hc, State.bitF_setBitF_fld _ _ _ _ _ _ _ _ (by simp)]
    simpa using hforced

/-- The lock is set, and COH and MEMP lose their bits where they are not acknowledged. -/
def State.lockUnits (s : State) : State := ((s.setOn .tunFeatlockLOCK).lockUnit 11).lockUnit 13

/-- The link keeps CXL.io only. -/
def State.withdrawCxl (s : State) : State :=
  { (s.setOff .cxlLnkstatCACHEEN).setOff .cxlLnkstatMEMEN with hdm := [], hdmErr := [] }

/-- The fields that the lock takes in units and in its own register. -/
def lockKeys : List FKey := [fk .tunFeatlockLOCK, fk .tunClkenEN, fk .tunClkstatCLOCKED]

theorem State.lockUnits_frame (s : State) : RegsOnly lockKeys s s.lockUnits :=
  (((RegsOnly.refl s).setF .tunFeatlockLOCK 1 0 0).trans
    (((s.setOn .tunFeatlockLOCK).lockUnit_frame 11).trans (State.lockUnit_frame _ 13))).mono (by simp [lockKeys])

theorem State.lockUnits_lock (s : State) : s.lockUnits.getF .tunFeatlockLOCK = 1 := by
  obtain ⟨hcoh, -⟩ := (s.setOn .tunFeatlockLOCK).lockUnit_frame 11
  obtain ⟨hmemp, -⟩ := ((s.setOn .tunFeatlockLOCK).lockUnit 11).lockUnit_frame 13
  exact (hmemp.fld _ _ _ (by decide)).trans ((hcoh.fld _ _ _ (by decide)).trans (State.getF_setF_self s .tunFeatlockLOCK 1 0 0))

theorem State.bitF_lockUnits (s : State) (hf : f ∈ [Fld.tunClkenEN, .tunClkstatCLOCKED]) (hc : c < 17) : s.lockUnits.bitF f c =
    if (c = 11 ∧ s.featAcked 11 = false) ∨ (c = 13 ∧ s.featAcked 13 = false) then false else s.bitF f c := by
  obtain ⟨hcoh, -⟩ := (s.setOn .tunFeatlockLOCK).lockUnit_frame 11
  have hlock : SameBut [fk .tunFeatlockLOCK] s (s.setOn .tunFeatlockLOCK) := SameBut.setF _ _ _ _ _
  have hkept : (s.setOn .tunFeatlockLOCK).bitF f c = s.bitF f c :=
    congrArg (·.testBit c) (hlock.fld f 0 0
      ((by decide : ∀ f ∈ [Fld.tunClkenEN, .tunClkstatCLOCKED], ∀ k ∈ [fk .tunFeatlockLOCK], k.1 ≠ f) f hf))
  rw [State.lockUnits, State.bitF_lockUnit _ 13 hf hc, State.bitF_lockUnit _ 11 hf hc, hcoh.featAcked (by decide),
    hlock.featAcked (by decide), hlock.featAcked (by decide), hkept]
  by_cases h13 : c = 13 ∧ s.featAcked 13 = false <;> simp [h13]

theorem exec_featureLock (hs : s.perst = false) : exec .featureLock s = .next s.featLock :=
  congrArg Host.Outcome.next (if_neg (by simp [hs]))

theorem State.featLock_of_unlocked (h : s.isSet .tunFeatlockLOCK = false) : s.featLock =
    if s.part.optX && !s.featAcked 11 then s.lockUnits.withdrawCxl else s.lockUnits := by
  obtain ⟨hsame, hrest⟩ := s.lockUnits_frame
  have hpart : s.lockUnits.part = s.part := (congrArg State.part hrest :)
  rw [← hpart, ← hsame.featAcked (by decide) 11, State.featLock, if_neg (by simp [h])]
  rfl

/-- What the lock leaves in TUN_FEATLOCK, TUN_CLKEN and TUN_CLKSTAT is that of `lockUnits`, with CXL.cache and CXL.mem or without. -/
theorem State.featLock_sameBut (h : s.isSet .tunFeatlockLOCK = false) :
    SameBut [fk .cxlLnkstatMEMEN, fk .cxlLnkstatCACHEEN] s.lockUnits s.featLock ∧
      { s.featLock with regs := s.regs, hdm := s.hdm, hdmErr := s.hdmErr } = s := by
  obtain ⟨-, hrest⟩ := s.lockUnits_frame
  obtain ⟨r, hunits⟩ := eq_of_putBack_regs hrest
  rw [State.featLock_of_unlocked h]
  split
  · have hoff : RegsOnly [fk .cxlLnkstatMEMEN, fk .cxlLnkstatCACHEEN] s.lockUnits
        ((s.lockUnits.setOff .cxlLnkstatCACHEEN).setOff .cxlLnkstatMEMEN) := ((RegsOnly.refl _).setF _ _ _ _).setF _ _ _ _
    exact ⟨hoff.1, by rw [hunits]; rfl⟩
  · exact ⟨fun _ _ _ _ => rfl, by rw [hunits]⟩

/-- A part that offers CXLCM without its acknowledgement keeps no decoder. -/
theorem State.featLock_withdrawn (h : s.isSet .tunFeatlockLOCK = false) (hx : s.part.optX = true)
    (hack : s.bitF .tunFeatackACK 1 = false) :
    s.featLock.getF .cxlLnkstatCACHEEN = 0 ∧ s.featLock.getF .cxlLnkstatMEMEN = 0 ∧ s.featLock.hdm = [] := by
  have hacked : s.featAcked 11 = false := hack
  have hread : ((s.lockUnits.setOff .cxlLnkstatCACHEEN).setOff .cxlLnkstatMEMEN).getF .cxlLnkstatCACHEEN = 0 ∧
      ((s.lockUnits.setOff .cxlLnkstatCACHEEN).setOff .cxlLnkstatMEMEN).getF .cxlLnkstatMEMEN = 0 := by simp [State.setOff]
  rw [State.featLock_of_unlocked h, hx, hacked]
  exact ⟨hread.1, hread.2, rfl⟩

end Sys2Proof.Machine

open Sys2Proof Sys2Proof.Machine

/-- Settles O18: the bits are looked at one after another, each by the state before the write, and TUN_CLKSTAT changes in one bit. -/
theorem unitGatingFollowsTunClken : Obligations.UnitGatingFollowsTunClken := by
  intro s
  refine ⟨fun w hs => ⟨_, exec_clkenWrite hs w, fun b => ?_, s.clkenWritten_frame w _ s⟩,
    fun b hen hclk hready => ⟨_, exec_unitGated hen hclk hready, s.clkstat_setBitF b false⟩,
    fun b hen hclk => ⟨_, exec_unitUngated hen hclk, s.clkstat_setBitF b true⟩⟩
  have htakes : s.clkenTakes w b = true ↔ s.clkenFixed b = false ∧ ¬(w.toNat.testBit b = false ∧ s.clkenRefused b = true) := by
    unfold State.clkenTakes
    cases s.clkenFixed b <;> cases w.toNat.testBit b <;> cases s.clkenRefused b <;> simp
  simp only [s.bitF_clkenWritten w _ s b.isLt, htakes]
  rfl

/-- Settles O13: the units lose their bits by what is acknowledged when the lock is set, and the link its CXL.cache and CXL.mem. -/
theorem featureLockFreezesTheChoice : Obligations.FeatureLockFreezesTheChoice := by
  intro s hs
  refine ⟨fun h => ⟨_, exec_featureLock hs, if_pos h⟩, fun h => ⟨_, exec_featureLock hs, ?_⟩⟩
  obtain ⟨hsame, hrest⟩ := State.featLock_sameBut h
  refine ⟨(hsame.fld _ _ _ (by decide)).trans s.lockUnits_lock, fun b f hf => ?_, State.featLock_withdrawn h,
    (s.lockUnits_frame.1.trans hsame).mono (by simp [lockKeys]), hrest⟩
  have hkept : s.featLock.bitF f b = s.lockUnits.bitF f b :=
    congrArg (·.testBit b.val) (hsame.fld f 0 0 ((by decide : ∀ f ∈ [Fld.tunClkenEN, .tunClkstatCLOCKED],
      ∀ k ∈ [fk .cxlLnkstatMEMEN, fk .cxlLnkstatCACHEEN], k.1 ≠ f) f hf))
  rw [hkept, s.bitF_lockUnits hf b.isLt]
  simp only [Fin.ext_iff]
  rfl
end

section
/-! SUPPORT. A crossing-clock edge (R154, R173, R187, R191, R406): what it changes as a whole, and what a rigid crossing launches and
shows. -/

namespace Sys2Proof.Machine

variable {s t u : State}

/-! ## Channels and time -/

/-- Only elastic channels and fields of GRN_XSTAT change. -/
def ChannelsOnly (s t : State) : Prop := sameRegs [.grnXstat] s t ∧ ∃ r x, t = { s with regs := r, xe := x }

theorem ChannelsOnly.refl (s : State) : ChannelsOnly s s := ⟨fun _ _ _ _ => rfl, s.regs, s.xe, rfl⟩

theorem ChannelsOnly.setChan (h : ChannelsOnly s t) (key : Nat) (c : XeSt) : ChannelsOnly s (t.setChan key c) := by
  obtain ⟨h, r, x, rfl⟩ := h
  exact ⟨h, r, _, rfl⟩

theorem ChannelsOnly.setF (h : ChannelsOnly s t) {f : Fld} (hf : f.info.reg ∈ [RegName.grnXstat]) (v i j : Nat) :
    ChannelsOnly s (t.setF f v i j) := by
  obtain ⟨h, r, x, rfl⟩ := h
  exact ⟨sameRegs.trans h fun g _ _ hg => State.getF_setF_ne _ _ _ _ _ _ fun e => hg (e ▸ hf), _, x, rfl⟩

theorem ChannelsOnly.xeEdge (h : ChannelsOnly s t) (key : Nat) : ChannelsOnly s (t.xeEdge key) := by
  unfold State.xeEdge
  dsimp only
  split
  · exact (h.setChan _ _).setF (by decide) _ _ _
  · split
    · exact h
    · exact h.setChan _ _

/-- Every channel in use has its edge. -/
def State.channelEdges (s : State) : State := (s.xe.map (·.1)).foldl (fun v key => v.xeEdge key) s

theorem State.channelEdges_frame (s : State) : ChannelsOnly s s.channelEdges :=
  List.foldlRecOn _ _ (ChannelsOnly.refl s) fun _ h key _ => h.xeEdge key

theorem State.mapReplicas_eq (s : State) (f : Nat → Nat) : ∃ m, s.mapReplicas f = { s with replicas := m } :=
  List.foldlRecOn (motive := fun t : State => ∃ m, t = { s with replicas := m }) _ _ ⟨s.replicas, rfl⟩ fun t ⟨m, h⟩ p _ => by
    split
    · exact ⟨_, by rw [h]⟩
    · exact ⟨m, h⟩

/-- Device time at the edge and the replicas move on, and lines are dropped. -/
theorem State.timeEdge_eq (s : State) : ∃ m l, s.timeEdge =
    { s with edgeTime := (s.edgeTime + 2 * s.incNow) % timeLimit, replicas := m, lines := l } := by
  obtain ⟨m, hm⟩ := s.mapReplicas_eq fun v => (v + 2 * s.incNow) % timeLimit
  unfold State.timeEdge
  dsimp only
  rw [hm]
  exact ⟨m, _, rfl⟩

/-! ## Rigid crossings -/

theorem State.xrEdge_eq (s : State) (x : XrRef) (d : Bool) : ∃ m, s.xrEdge x d = { s with xr := m } := by
  unfold State.xrEdge
  dsimp only
  split
  · exact ⟨s.xr, rfl⟩
  · exact ⟨_, rfl⟩

theorem State.foldl_xrEdge_eq (s : State) (ds : List (XrRef × Bool)) : ∃ m, ds.foldl (fun u e => u.xrEdge e.1 e.2) s = { s with xr := m } :=
  List.foldlRecOn (motive := fun t : State => ∃ m, t = { s with xr := m }) _ _ ⟨s.xr, rfl⟩ fun t ⟨m, h⟩ e _ => by
    obtain ⟨m', h'⟩ := t.xrEdge_eq e.1 e.2
    exact ⟨m', by rw [h', h]⟩

/-- The link directions of a PATH carry what is in flight: none shows rest values, none holds the last. -/
def State.carries (s : State) (hops : List Hop) : Prop :=
  ∀ h ∈ hops, s.hopRests h.pos h.port.num = false ∧ s.hopPairDown h.pos h.port.num h.idx = false ∧ s.hopHolds h.pos h.port.num = false

theorem State.substitute_of_carries {hops : List Hop} (h : s.carries hops) (rest : Nat) (before : Bool) (pipe : List Bool) :
    s.substitute rest hops before pipe = pipe :=
  List.foldlRecOn (motive := fun p => p = pipe) _ _ rfl fun p hp e he => by
    obtain ⟨hrests, hdown, hholds⟩ := h e.1 (List.fst_mem_of_mem_zipIdx he)
    simp [hrests, hdown, hholds, hp]

/-- A rigid crossing. -/
def State.crossing (s : State) (key : Nat) : XrSt := SMap.get (fun _ => XrSt.initial) s.xr key

/-- What the source of a crossing launches with d at its D (R187, R189). -/
def State.launched (s : State) (x : XrRef) (d : Bool) : Bool :=
  if s.sourceRests x.src (s.xrSourceTile x).1 (s.xrSourceTile x).2 then
    restValue (bits (s.xrEntry x) 12 2) (s.crossing (pathKey x.hops)).last
  else d

/-- The last value launched at D, which hold-last keeps (R189). -/
def State.lastAtD (s : State) (x : XrRef) (d : Bool) : Bool :=
  if s.sourceRests x.src (s.xrSourceTile x).1 (s.xrSourceTile x).2 then (s.crossing (pathKey x.hops)).last else d

/-- What the destination of a crossing shows when v arrives (R191). -/
def State.shown (s : State) (x : XrRef) (v : Bool) : Bool :=
  let dst := edgeTile (lastHop x.hops).2.1 (bits (s.xrEntry x) 0 12)
  if s.restored (lastHop x.hops).1 dst.1 dst.2 then restValue (bits (s.xrEntry x) 12 2) (s.crossing (pathKey x.hops)).q else v

/-- A rigid crossing replaced. -/
def State.setCrossing (s : State) (key : Nat) (c : XrSt) : State := { s with xr := SMap.set (fun _ => XrSt.initial) s.xr key c }

/-- An edge of a crossing whose links carry it: every value moves one cycle on. -/
theorem State.xrEdge_of_carries {x : XrRef} (hx : x.hops ≠ []) (hon : (s.xrEntry x).testBit 14 = true)
    (hlen : (s.crossing (pathKey x.hops)).pipe.length = 6 * x.hops.length) (h : s.carries x.hops) (d : Bool) :
    s.xrEdge x d = s.setCrossing (pathKey x.hops) ⟨s.lastAtD x d, (s.crossing (pathKey x.hops)).pipe.drop 1 ++ [s.launched x d],
      s.shown x ((s.crossing (pathKey x.hops)).pipe.headD (s.crossing (pathKey x.hops)).q)⟩ := by
  have hpos : 0 < (s.crossing (pathKey x.hops)).pipe.length := by
    have := List.length_pos_iff.mpr hx
    omega
  obtain ⟨v, pipe, hpipe⟩ := List.exists_cons_of_length_pos hpos
  unfold State.xrEdge
  dsimp only
  rw [if_neg (by simp [hx, hon]), State.substitute_of_carries h, ← State.crossing, if_pos hlen, hpipe]
  rfl

/-! ## The command -/

theorem exec_crossingClockEdge (h : s.crossingRuns = true) (ds : List (XrRef × Bool)) : exec (.crossingClockEdge ds) s =
    .next { (ds.foldl (fun u e => u.xrEdge e.1 e.2) s).channelEdges.timeEdge with
      xidx := (ds.foldl (fun u e => u.xrEdge e.1 e.2) s).channelEdges.xidx + 1 } :=
  congrArg Host.Outcome.next (if_neg (by simp [h]))

/-- What an edge changes as a whole; the rigid crossings are those after their own edges. -/
theorem exec_crossingClockEdge_frame (h : s.crossingRuns = true) {ds : List (XrRef × Bool)} {m : SMap XrSt}
    (hm : ds.foldl (fun u e => u.xrEdge e.1 e.2) s = { s with xr := m }) : ∃ r x rep l,
      sameRegs [.grnXstat] s { s with regs := r } ∧ exec (.crossingClockEdge ds) s = .next { s with
        regs := r, xr := m, xe := x, xidx := s.xidx + 1, edgeTime := (s.edgeTime + 2 * s.incNow) % timeLimit, replicas := rep,
        lines := l } := by
  obtain ⟨hregs, r, x, hchan⟩ := State.channelEdges_frame { s with xr := m }
  rw [hchan] at hregs
  obtain ⟨rep, l, htime⟩ := State.timeEdge_eq { s with xr := m, regs := r, xe := x }
  refine ⟨r, x, rep, l, hregs, ?_⟩
  rw [exec_crossingClockEdge h, hm, hchan, htime]

end Sys2Proof.Machine

open Sys2Proof Sys2Proof.Machine

/-- Settles O42: the rigid crossings change by their own edges alone, and where every link carries a crossing its pipe moves by one value
a cycle, six to a hop. -/
theorem rigidCrossingsDelaySixCyclesAHop : Obligations.RigidCrossingsDelaySixCyclesAHop := by
  intro s hruns
  refine ⟨fun ds => ?_, fun x d hx hon hlen hcarries => ?_⟩
  · obtain ⟨m, hm⟩ := s.foldl_xrEdge_eq ds
    obtain ⟨r, xe, rep, l, hregs, hexec⟩ := exec_crossingClockEdge_frame hruns hm
    exact ⟨_, hexec, rfl, rfl, hregs, rfl⟩
  · have hedge := State.xrEdge_of_carries hx hon hlen hcarries d
    rw [State.setCrossing] at hedge
    obtain ⟨r, xe, rep, l, -, hexec⟩ := exec_crossingClockEdge_frame (ds := [(x, d)]) hruns hedge
    refine ⟨_, hexec, ?_, ?_, fun k hk => SMap.get_set_ne _ _ _ hk⟩
    · exact congrArg XrSt.pipe (SMap.get_set_self _ _ _ _)
    · exact congrArg XrSt.q (SMap.get_set_self _ _ _ _)
end

section
/-! SUPPORT. Elastic channels (R177, R181–R183, R190): what a command leaves of its channel, the launch of a word, the count of failed group
cycles. -/

namespace Sys2Proof.Machine

variable {s t : State} {x : XeRef} {key w : Nat} {f : List Nat}

/-! ## One channel changes -/

theorem State.setChan_spec (s : State) (key : Nat) (c : XeSt) : (s.setChan key c).chan key = c ∧
    (∀ k, k ≠ key → (s.setChan key c).chan k = s.chan k) ∧ { s.setChan key c with xe := s.xe } = s :=
  ⟨SMap.get_set_self _ _ _ _, fun _ hk => SMap.get_set_ne _ _ _ hk, rfl⟩

theorem exec_xePush (hx : x.hops ≠ []) (hon : (s.xeEntry (pathKey x.hops)).testBit 41 = true)
    (hclk : s.tileClocked x.src (s.xeSourceTile (s.openChan x)).1 (s.xeSourceTile (s.openChan x)).2 = true)
    (hroom : (s.openChan x).srcF.length < 16) (word : BitVec 512) :
    exec (.xePush x word) s = .next (s.setChan (pathKey x.hops) { s.openChan x with
      srcF := (s.openChan x).srcF ++ [word.toNat % 2 ^ xeW (s.xeEntry (pathKey x.hops))] }) :=
  congrArg Host.Outcome.next (if_neg (by simp [hx, hon, hclk, hroom]))

theorem exec_xePop (hclk : s.tileClocked (pathKey x.hops / 4096) (s.xeDestTile (pathKey x.hops)).1 (s.xeDestTile (pathKey x.hops)).2 = true)
    (hf : (s.chan (pathKey x.hops)).dstF = w :: f) :
    exec (.xePop x) s = .next (s.setChan (pathKey x.hops)
      { s.chan (pathKey x.hops) with dstF := f, owed := (s.chan (pathKey x.hops)).owed + 1 }) := by
  refine congrArg Host.Outcome.next ((if_neg (by simp [hclk])).trans ?_)
  rw [hf]

theorem exec_creditReturn (hlive : (s.chan (pathKey x.hops)).frozen = false) {n : BitVec 6}
    (hn : n.toNat ≤ (s.chan (pathKey x.hops)).owed) :
    exec (.creditReturn x n) s = .next (s.setChan (pathKey x.hops) { s.chan (pathKey x.hops) with
      spent := (s.chan (pathKey x.hops)).spent - n.toNat, owed := (s.chan (pathKey x.hops)).owed - n.toNat }) :=
  congrArg Host.Outcome.next (if_neg (by simp [hlive, hn]))

theorem exec_wordLanded (hf : (s.chan (pathKey x.hops)).fly = w :: f) :
    exec (.wordLanded x) s = .next (s.setChan (pathKey x.hops) { s.chan (pathKey x.hops) with
      fly := f, dstF := if s.xeDestRests (pathKey x.hops) then (s.chan (pathKey x.hops)).dstF
        else (s.chan (pathKey x.hops)).dstF ++ [w] }) := by
  refine congrArg Host.Outcome.next ?_
  rw [hf]
  dsimp only
  split <;> rfl

/-- The credits of the channel are those of the destination's free space again. -/
def XeSt.resynced (c : XeSt) : XeSt := { c with frozen := false, spent := c.dstF.length, owed := 0 }

/-- CREDFROZEN of the source port stays while another channel of the port is frozen. -/
theorem exec_xeResync (hfrozen : (s.chan (pathKey x.hops)).frozen = true) (hsrc : s.xeSourceRests (s.chan (pathKey x.hops)) = false)
    (hdst : s.xeDestRests (pathKey x.hops) = false) : ∃ still, exec (.xeResync x) s =
      .next ((s.setChan (pathKey x.hops) (s.chan (pathKey x.hops)).resynced).setBitF .grnXstatCREDFROZEN
        (s.chan (pathKey x.hops)).sport still (s.phys (s.chan (pathKey x.hops)).src)) :=
  ⟨_, congrArg Host.Outcome.next (if_neg (by simp [hfrozen, hsrc, hdst]))⟩

/-! ## The launch of a word (R179, R182) -/

/-- Crossing cycles that the word of an entry takes on its slots. -/
def xeSlots (e : Nat) : Nat := (xeW e + xeSw e - 1) / xeSw e

theorem xeSlots_pos (e : Nat) : 0 < xeSlots e := Nat.div_pos (by unfold xeW; omega) (by unfold xeSw; omega)

theorem xeSlots_eq_one {e : Nat} (h : xeW e ≤ xeSw e) : xeSlots e = 1 :=
  Nat.div_eq_of_lt_le (by unfold xeW; omega) (by unfold xeSw at *; omega)

/-- The edge at which a word starts: its credit is spent; a word that fits the slots is in flight at once. -/
theorem State.xeEdge_of_launch (hsrc : s.xeSourceRests (s.chan key) = false) (hdst : s.xeDestRests key = false)
    (hstall : s.xeStalled key = false) (hslots : (s.chan key).slots = 0) (hf : (s.chan key).srcF = w :: f)
    (hlive : (s.chan key).frozen = false) (hcredit : (s.chan key).spent < xeDepth (s.xeEntry key)) :
    ∃ c, s.xeEdge key = s.setChan key c ∧ c.spent = (s.chan key).spent + 1 ∧ (xeSlots (s.xeEntry key) = 1 →
      c = { s.chan key with spent := (s.chan key).spent + 1, slots := 0, srcF := f, fly := (s.chan key).fly ++ [w] }) := by
  obtain ⟨m, hm⟩ : ∃ m, xeSlots (s.xeEntry key) = m + 1 := Nat.exists_eq_add_one.mpr (xeSlots_pos _)
  unfold State.xeEdge
  dsimp only
  rw [if_neg (by simp [hsrc, hdst]), if_neg (by simp [hstall]), if_pos (by simp [hslots, hf, hlive, hcredit]), ← xeSlots, hm, hf]
  cases m with
  | zero => exact ⟨_, rfl, rfl, fun _ => rfl⟩
  | succ m => exact ⟨_, rfl, rfl, fun h => by omega⟩

/-! ## Failed group cycles (R181) -/

/-- The failures in a row of lane group `key` with this one, of the cycle numbered seq. -/
def State.failsInRow (s : State) (key seq : Nat) : Nat :=
  if SMap.get (fun _ => 0) s.xfail key % 128 = seq ∧ SMap.get (fun _ => 0) s.xfail key ≠ 0
  then SMap.get (fun _ => 0) s.xfail key / 128 + 1 else 1

/-- The record of a lane group's failures replaced. -/
def State.setFails (s : State) (key v : Nat) : State := { s with xfail := SMap.set (fun _ => 0) s.xfail key v }

/-- Grain p counts a replay at port d. -/
def State.countReplay (s : State) (p : Nat) (d : GPort) : State :=
  (s.count (replayFld d.num) 1 p).setBitF .grnXstatREPLAYSEEN d.num true p

theorem exec_groupCrcFailure (p : Phys) (d : GPort) (g : Fin 8) (seq : BitVec 7) (s : State) :
    exec (.groupCrcFailure (.grain p d) g seq) s = .next (
      let key := linkKey (.grain p d) * 8 + g.val
      let n := s.failsInRow key seq.toNat
      if n = 5 then (s.setFails key 0).raiseLink (.grain p d) 11
      else (s.setFails key (seq.toNat + 128 * n)).countReplay p d) := rfl

theorem replayFld_len (d : Nat) : (replayFld d).info.len = 16 := by
  unfold replayFld
  split_ifs <;> rfl

theorem replayFld_ne_replayseen (d : Nat) : replayFld d ≠ .grnXstatREPLAYSEEN := by
  unfold replayFld
  split_ifs <;> decide

theorem portNum_lt (d : GPort) : d.num < 4 := by cases d <;> decide

theorem State.countReplay_read (s : State) (p : Nat) (d : GPort) :
    (s.countReplay p d).getF (replayFld d.num) p = min (s.getF (replayFld d.num) p + 1) 0xFFFF ∧
      (s.countReplay p d).bitF .grnXstatREPLAYSEEN d.num p = true := by
  refine ⟨?_, State.bitF_setBitF_self _ _ _ _ _ _ (portNum_lt d)⟩
  rw [State.countReplay, State.setBitF, State.getF_setF_ne _ _ _ _ _ _ (replayFld_ne_replayseen _), State.getF_count_self,
    replayFld_len]
  rfl

theorem State.countReplay_frame (s : State) (p : Nat) (d : GPort) :
    RegsOnly [fk (replayFld d.num) p, fk .grnXstatREPLAYSEEN p] s (s.countReplay p d) :=
  (((RegsOnly.refl s).setF _ _ _ _).setF _ _ _ _).mono (by simp)

/-- A failure that is not the fifth in a row: the cycle is replayed, and both the port and the lane group count it. -/
theorem State.replay_spec (s : State) (key v p : Nat) (d : GPort) : let t := (s.setFails key v).countReplay p d
    t.getF (replayFld d.num) p = min (s.getF (replayFld d.num) p + 1) 0xFFFF ∧ t.bitF .grnXstatREPLAYSEEN d.num p = true ∧
      SMap.get (fun _ => 0) t.xfail key = v ∧ SameBut [fk (replayFld d.num) p, fk .grnXstatREPLAYSEEN p] s t ∧
      { t with regs := s.regs, xfail := s.xfail } = s := by
  obtain ⟨hcount, hseen⟩ := (s.setFails key v).countReplay_read p d
  obtain ⟨hsame, hrest⟩ := (s.setFails key v).countReplay_frame p d
  obtain ⟨r, ht⟩ := eq_of_putBack_regs hrest
  refine ⟨hcount, hseen, ?_, hsame, ?_⟩ <;> rw [ht]
  · exact SMap.get_set_self _ _ _ _
  · rfl

/-- The fifth failure in a row: the lanes take it over, by an event, and the count begins again. -/
theorem State.handOver_spec (s : State) (key : Nat) {e : Nat} (he : evSource e = true) : let t := (s.setFails key 0).raise e
    Raised e 0 s t ∧ SMap.get (fun _ => 0) t.xfail key = 0 ∧ sameRegs [.evrPay, .evrRoute] s t ∧
      { t with regs := s.regs, out := s.out, xfail := s.xfail } = s := by
  obtain ⟨hraised, -, hrest⟩ := (s.setFails key 0).raise_spec 0 he
  obtain ⟨r, o, ht⟩ := eq_of_putBack_regs_out hrest
  refine ⟨hraised, ?_, (s.setFails key 0).raise_sameRegs he 0, ?_⟩ <;> rw [ht]
  · exact SMap.get_set_self (fun _ => 0) s.xfail key 0
  · rfl

/-- Logical positions are below 60. -/
theorem State.posOf_lt {p n : Nat} (h : s.posOf p = some n) : n < 60 := List.mem_range.mp (List.mem_of_find?_eq_some h)

/-- The event of a link reaches the position that receives on it. -/
theorem State.raiseLink_of_posOf {p : Phys} {n : Nat} (h : s.posOf p = some n) (d : GPort) (k : Nat) :
    s.raiseLink (.grain p d) k = s.raise (16 * n + k) := congrArg (Option.elim · s fun n => s.raiseG n k) h

end Sys2Proof.Machine

open Sys2Proof Sys2Proof.Machine

/-- Settles O43: each command replaces one channel; a launch spends its credit whatever the width of the word; a failed group cycle is
counted until its fifth failure in a row raises event 11. -/
theorem elasticChannelsKeepTheirCredits : Obligations.ElasticChannelsKeepTheirCredits := by
  intro s
  refine ⟨fun x word hx hon hclk hroom => ⟨_, exec_xePush hx hon hclk hroom word, s.setChan_spec _ _⟩, fun x => ?_,
    fun p d g seq => ⟨_, exec_groupCrcFailure p d g seq s, ?_⟩⟩
  · refine ⟨fun w f hclk hf => ⟨_, exec_xePop hclk hf, s.setChan_spec _ _⟩,
      fun n hlive hn => ⟨_, exec_creditReturn hlive hn, s.setChan_spec _ _⟩,
      fun w f hf => ⟨_, exec_wordLanded hf, s.setChan_spec _ _⟩, fun hfrozen hsrc hdst => ?_,
      fun w f hsrc hdst hstall hslots hf hlive hcredit => ?_⟩
    · obtain ⟨still, hexec⟩ := exec_xeResync hfrozen hsrc hdst
      obtain ⟨hself, hother, -⟩ := s.setChan_spec (pathKey x.hops) (s.chan (pathKey x.hops)).resynced
      exact ⟨_, hexec, hself, hother, SameBut.setF _ _ _ _ _, rfl⟩
    · obtain ⟨c, hedge, hspent, hone⟩ := State.xeEdge_of_launch hsrc hdst hstall hslots hf hlive hcredit
      obtain ⟨hself, -⟩ := s.setChan_spec (pathKey x.hops) c
      rw [hedge, hself]
      exact ⟨hspent, fun h => hone (xeSlots_eq_one h)⟩
  · dsimp only
    rw [← State.failsInRow]
    split
    case isTrue h5 =>
      refine ⟨fun h => absurd h5 h, fun k _ hk => ?_⟩
      rw [State.raiseLink_of_posOf (s := s.setFails _ 0) hk]
      exact s.handOver_spec _ (evSource_grain (State.posOf_lt hk) (by decide))
    case isFalse h5 => exact ⟨fun _ => s.replay_spec _ _ _ _, fun _ h => absurd h h5⟩
end

section
/-! SUPPORT. Link directions (R199–R214): what a lane's rules change, the lane counts, retirement, and moves to spares. -/

namespace Sys2Proof.Machine

variable {s t u : State} {l : LinkDir} {f g : Fld}

/-! ## Counts and events -/

/-- The fields that show the lanes of a link direction, its state and its lost pairs, and those of the events. -/
def countFields : List Fld :=
  [.grnLnkstatNSPUSED, .dieTlnkstatNSPUSED, .grnLnkstatNSURV, .dieTlnkstatNSURV, .grnLnkstatSPUSEDA, .grnLnkstatSPUSEDB,
    .grnLnkstatSURVA, .grnLnkstatSURVB, .grnLnkstatSTATE, .dieFaultPHYS, .dieFaultPORT, .dieFaultKIND, .dieFaultLPOS, .dieFaultSURV,
    .dieFaultSUB, .dieFaultCOUNT, .dieFaultSEEN, .grnXstatPAIRLOSTSEEN, .grnXpairRIDX, .grnXpairPORT, .evrPayPAYLOAD, .evrRouteCNT,
    .evrRouteSEEN, .evrRoutePEND]

/-- Only fields of that list change, and messages leave the part. -/
def CountsOnly (s t : State) : Prop :=
  (∀ f i j, f ∉ countFields → t.getF f i j = s.getF f i j) ∧ ∃ r o, t = { s with regs := r, out := o }

namespace CountsOnly

theorem refl (s : State) : CountsOnly s s := ⟨fun _ _ _ _ => rfl, _, _, rfl⟩

theorem trans (h : CountsOnly s t) (h' : CountsOnly t u) : CountsOnly s u := by
  obtain ⟨h, _, _, rfl⟩ := h
  obtain ⟨h', _, _, rfl⟩ := h'
  exact ⟨fun f i j hf => (h' f i j hf).trans (h f i j hf), _, _, rfl⟩

theorem setF {v i j : Nat} (h : CountsOnly s t) (hf : f ∈ countFields := by decide) : CountsOnly s (t.setF f v i j) :=
  h.trans ⟨fun _ _ _ hg => State.getF_setF_ne _ _ _ _ _ _ fun e => hg (e ▸ hf), _, _, rfl⟩

theorem setLink {v : Nat} (h : CountsOnly s t) (hf : f ∈ countFields := by decide) (hg : g ∈ countFields := by decide) :
    CountsOnly s (t.setLink l f g v) := by
  cases l
  · exact h.setF hf
  · exact h.setF hg

theorem ite {c : Prop} [Decidable c] (h : CountsOnly s t) (h' : CountsOnly s u) : CountsOnly s (if c then t else u) := by
  split
  · exact h
  · exact h'

theorem raise {e p : Nat} (h : CountsOnly s t) : CountsOnly s (t.raise e p) := by
  by_cases he : evSource e = true
  · obtain ⟨-, hsame, hrest⟩ := t.raise_spec p he
    obtain ⟨r, o, ht⟩ := eq_of_putBack_regs_out hrest
    exact h.trans ⟨fun f i j hf => hsame f i j fun hk => hf
      (forall_keys_of_fields (p := (· ∈ countFields)) (fs := [.evrPayPAYLOAD, .evrRouteCNT, .evrRouteSEEN, .evrRoutePEND]) rfl (by decide) _ hk),
      r, o, ht⟩
  · rwa [State.raise, if_pos (by simpa using he)]

theorem raiseLink {k : Nat} (h : CountsOnly s t) : CountsOnly s (t.raiseLink l k) := by
  unfold State.raiseLink
  cases t.linkPos l
  · exact h
  · exact h.raise

theorem dieFault {kind surv : Nat} {noc : Bool} (h : CountsOnly s t) : CountsOnly s (t.dieFault l kind surv noc) :=
  h.setF.setF.setF.setF.setF.setF.setF.setF

theorem updLanes (h : CountsOnly s t) : CountsOnly s (t.updLanes l) := by
  unfold State.updLanes
  cases l
  · exact h.setLink.setLink.setF.setF.setF.setF
  · exact h.setLink.setLink

theorem evalLink {start : Bool} (h : CountsOnly s t) : CountsOnly s (t.evalLink l start) := by
  unfold State.evalLink
  cases l
  · exact ite h (ite h.setF.raiseLink h.setF.raiseLink.dieFault.raiseLink)
  · exact h

theorem evalNoc {before : Nat} (h : CountsOnly s t) : CountsOnly s (t.evalNoc l before) :=
  ite h.dieFault.raiseLink (ite h.dieFault.raiseLink h)

theorem lanesChanged {before : Nat} (h : CountsOnly s t) : CountsOnly s (t.lanesChanged l before) := h.updLanes.evalLink.evalNoc

theorem pairLosses {lane : Nat} (h : CountsOnly s t) : CountsOnly s (t.pairLosses l lane) := by
  unfold State.pairLosses
  split
  · exact ite (List.foldlRecOn _ _ h fun _ h _ _ => ite h.setF.setF.setF.raise h) h
  · exact h

theorem lnk_eq (h : CountsOnly s t) (l : LinkDir) : t.lnk l = s.lnk l := by
  obtain ⟨-, _, _, rfl⟩ := h
  rfl

theorem getLink_eq (h : CountsOnly s t) (l : LinkDir) (hf : f ∉ countFields) (hg : g ∉ countFields) : t.getLink l f g = s.getLink l f g := by
  cases l
  · exact h.1 _ _ _ hf
  · exact h.1 _ _ _ hg

end CountsOnly

end Sys2Proof.Machine

/-! ## The frame of a lane's rules -/

namespace Sys2Proof

open Sys2Proof.Machine

variable {s t u : State} {l : LinkDir} {f g : Fld}

/-- The registers that a lane's rules may change. -/
def laneRegs : List RegName := [.grnLnkstat, .dieTlnkstat, .grnLanecnt, .dieFault, .grnXstat, .grnXpair, .evrPay, .evrRoute]

/-- A state that agrees with another but for its registers, messages and links. -/
theorem eq_of_putBack_links (h : { t with regs := s.regs, out := s.out, link := s.link } = s) :
    ∃ r o k, t = { s with regs := r, out := o, link := k } := ⟨t.regs, t.out, t.link, by rw [← h]⟩

namespace laneFrame

theorem refl (l : LinkDir) (s : State) : laneFrame l s s := ⟨fun _ _ => rfl, fun _ _ _ _ => rfl, rfl⟩

theorem trans (h : laneFrame l s t) (h' : laneFrame l t u) : laneFrame l s u := by
  obtain ⟨hlink, hregs, hrest⟩ := h
  obtain ⟨hlink', hregs', hrest'⟩ := h'
  obtain ⟨_, _, _, rfl⟩ := eq_of_putBack_links hrest'
  exact ⟨fun k hk => (hlink' k hk).trans (hlink k hk), hregs.trans hregs', hrest⟩

theorem setLnk (h : laneFrame l s t) (v : LinkSt) : laneFrame l s (t.setLnk l v) :=
  h.trans ⟨fun _ hk => SMap.get_set_ne _ _ _ hk, fun _ _ _ _ => rfl, rfl⟩

theorem setF (h : laneFrame l s t) (hf : f.info.reg ∈ laneRegs) (v i j : Nat) : laneFrame l s (t.setF f v i j) :=
  h.trans ⟨fun _ _ => rfl, fun _ _ _ hg => State.getF_setF_ne _ _ _ _ _ _ fun e => hg (e ▸ hf), rfl⟩

theorem setLink (h : laneFrame l s t) (hf : f.info.reg ∈ laneRegs) (hg : g.info.reg ∈ laneRegs) (v : Nat) :
    laneFrame l s (t.setLink l f g v) := by
  cases l
  · exact h.setF hf _ _ _
  · exact h.setF hg _ _ _

theorem counts (h : laneFrame l s t) (h' : CountsOnly t u) : laneFrame l s u := by
  obtain ⟨hsame, _, _, rfl⟩ := h'
  exact h.trans ⟨fun _ _ => rfl,
    fun f i j hf => hsame f i j fun hm => hf ((by decide : ∀ f ∈ countFields, f.info.reg ∈ laneRegs) f hm), rfl⟩

theorem setLaneCnt (h : laneFrame l s t) (lane v : Nat) : laneFrame l s (t.setLaneCnt l lane v) := by
  cases l
  · exact h.setF (by decide) _ _ _
  · exact h

theorem retireLane (h : laneFrame l s t) (lane : Nat) : laneFrame l s (t.retireLane l lane) :=
  ((((h.setLnk _).setLaneCnt _ _).setLink (by decide) (by decide) _).setLink (by decide) (by decide) _).counts
    (CountsOnly.refl _).raiseLink

end laneFrame

end Sys2Proof

namespace Sys2Proof.Machine

variable {s t u : State} {l : LinkDir} {f g : Fld}

/-! ## The state of a link direction, and what it shows -/

@[simp] theorem State.lnk_setLnk_self (s : State) (l : LinkDir) (v : LinkSt) : (s.setLnk l v).lnk l = v := SMap.get_set_self _ _ _ _

@[simp] theorem State.lnk_setLink (s : State) (l k : LinkDir) (f g : Fld) (v : Nat) : (s.setLink k f g v).lnk l = s.lnk l := by
  cases k <;> rfl

@[simp] theorem State.lnk_setLaneCnt (s : State) (l k : LinkDir) (lane v : Nat) : (s.setLaneCnt k lane v).lnk l = s.lnk l := by
  cases k <;> rfl

@[simp] theorem State.lnk_lanesChanged (s : State) (l k : LinkDir) (before : Nat) : (s.lanesChanged k before).lnk l = s.lnk l :=
  (CountsOnly.refl s).lanesChanged.lnk_eq l

theorem State.getLink_setLink_self (s : State) (l : LinkDir) {v : Nat} (hf : v < 2 ^ f.info.len) (hg : v < 2 ^ g.info.len) :
    (s.setLink l f g v).getLink l f g = v := by
  cases l
  · exact (s.getF_setF_self _ _ _ _).trans (Nat.mod_eq_of_lt hf)
  · exact (s.getF_setF_self _ _ _ _).trans (Nat.mod_eq_of_lt hg)

theorem State.getLink_setLink_ne (s : State) (l : LinkDir) {f' g' : Fld} (v : Nat) (hf : f' ≠ f) (hg : g' ≠ g) :
    (s.setLink l f g v).getLink l f' g' = s.getLink l f' g' := by
  cases l
  · exact s.getF_setF_ne _ _ _ _ _ hf
  · exact s.getF_setF_ne _ _ _ _ _ hg

/-- A retired lane is out of service and shown as the last one (R208 step 5). -/
theorem State.retireLane_read (s : State) (l : LinkDir) {lane : Nat} (h : lane < 128) :
    (s.retireLane l lane).lnk l = { s.lnk l with retired := setBit (s.lnk l).retired lane true } ∧
      (s.retireLane l lane).getLink l .grnLnkstatLASTRET .dieTlnkstatLASTRET = lane ∧
      (s.retireLane l lane).getLink l .grnLnkstatRETSEEN .dieTlnkstatRETSEEN = 1 := by
  have hraise (t : State) : CountsOnly t (t.raiseLink l 12) := (CountsOnly.refl t).raiseLink
  refine ⟨?_, ?_, ?_⟩ <;> rw [State.retireLane]
  · rw [(hraise _).lnk_eq]
    simp
  · rw [(hraise _).getLink_eq l (by decide) (by decide), State.getLink_setLink_ne _ _ _ (by decide) (by decide),
      State.getLink_setLink_self _ _ h h]
  · rw [(hraise _).getLink_eq l (by decide) (by decide), State.getLink_setLink_self _ _ (by decide) (by decide)]

/-! ## A lane dies (R202, R210) -/

theorem exec_laneDeath_clock {lane : Fin 104} (hup : (s.lnk l).up = true) (hlive : (s.lnk l).isRetired lane = false)
    (hlane : 100 ≤ lane.val) : exec (.laneDeath l lane) s = .next (
      let t := s.setLnk l { s.lnk l with ckLost := setBit (s.lnk l).ckLost (lane - 100) true }
      if lane.val % 2 = 0 then t.setLink l .grnLnkstatCKB .dieTlnkstatCKB 1 else t) :=
  congrArg Host.Outcome.next ((if_neg (by simp [hup, hlive])).trans (if_pos hlane))

/-- A dead payload lane is retired; the link direction knows before that its logical lane has lost its host. -/
theorem exec_laneDeath_payload {lane : Fin 104} (hup : (s.lnk l).up = true) (hlive : (s.lnk l).isRetired lane = false)
    (hlane : lane.val < 100) : ∃ v u, exec (.laneDeath l lane) s = .next u ∧
      (∀ logical, (s.lnk l).carried lane = some logical → v.laneDown logical = true) ∧
      CountsOnly ((s.setLnk l v).retireLane l lane) u := by
  have hexec : exec (.laneDeath l lane) s = execLaneDeath l lane s := rfl
  rw [hexec, execLaneDeath]
  dsimp only
  rw [if_neg (by simp [hup, hlive]), if_neg (Nat.not_le.mpr hlane)]
  cases (s.lnk l).carried lane with
  | none => exact ⟨_, _, rfl, fun _ h => (nomatch h), (CountsOnly.refl _).lanesChanged⟩
  | some logical =>
    refine ⟨_, _, rfl, fun k hk => ?_, (CountsOnly.refl _).lanesChanged.pairLosses⟩
    obtain rfl := Option.some.inj hk
    split <;> exact setBit_testBit_self _ _ _

theorem laneDeath_payload {lane : Fin 104} (hup : (s.lnk l).up = true) (hlive : (s.lnk l).isRetired lane = false)
    (hlane : lane.val < 100) : Gives (.laneDeath l lane) s fun t =>
      ((t.lnk l).isRetired lane = true ∧ (∀ logical, (s.lnk l).carried lane = some logical → (t.lnk l).laneDown logical = true) ∧
        t.getLink l .grnLnkstatLASTRET .dieTlnkstatLASTRET = lane ∧ t.getLink l .grnLnkstatRETSEEN .dieTlnkstatRETSEEN = 1) ∧
      laneFrame l s t := by
  obtain ⟨v, u, hexec, hdown, hcounts⟩ := exec_laneDeath_payload hup hlive hlane
  obtain ⟨hlnk, hlast, hseen⟩ := (s.setLnk l v).retireLane_read l (lane := lane) (by omega)
  rw [State.lnk_setLnk_self, ← hcounts.lnk_eq] at hlnk
  rw [← hcounts.getLink_eq l (by decide) (by decide)] at hlast hseen
  refine ⟨u, hexec, ⟨?_, fun k hk => ?_, hlast, hseen⟩, (((laneFrame.refl l s).setLnk v).retireLane lane).counts hcounts⟩ <;> rw [hlnk]
  · exact setBit_testBit_self _ _ _
  · exact hdown k hk

theorem laneDeath_clock {lane : Fin 104} (hup : (s.lnk l).up = true) (hlive : (s.lnk l).isRetired lane = false)
    (hlane : 100 ≤ lane.val) : Gives (.laneDeath l lane) s fun t =>
      (t.lnk l).ckLost.testBit (lane - 100) = true ∧ laneFrame l s t := by
  have hframe (v : LinkSt) : laneFrame l s (s.setLnk l v) := (laneFrame.refl l s).setLnk v
  refine ⟨_, exec_laneDeath_clock hup hlive hlane, ?_⟩
  dsimp only
  split
  · rw [State.lnk_setLink, State.lnk_setLnk_self]
    exact ⟨setBit_testBit_self _ _ _, (hframe _).setLink (by decide) (by decide) _⟩
  · rw [State.lnk_setLnk_self]
    exact ⟨setBit_testBit_self _ _ _, hframe _⟩

/-! ## A logical lane moves to a spare (R210) -/

theorem LinkSt.hostOf_place (v : LinkSt) (logical phys : Nat) : (v.place logical phys).hostOf logical = phys := by
  have hnone : (v.hosts.filter fun e => e.1 != logical).find? (fun e => e.1 == logical) = none := by simp
  by_cases h : logical = phys
  · rw [LinkSt.hostOf, LinkSt.place, if_pos h, List.append_nil, hnone]
    exact h
  · simp [LinkSt.hostOf, LinkSt.place, h, hnone]

theorem LinkSt.laneDown_place (v : LinkSt) (logical phys : Nat) : (v.place logical phys).laneDown logical = false :=
  setBit_testBit_self _ _ _

theorem exec_deadLaneMoved {lane : Fin 104} {e : Nat × Nat × Nat} (he : (s.lnk l).moving.find? (fun x => x.2.1 == lane.val) = some e)
    (hdead : (s.lnk l).isRetired lane = true) : exec (.deadLaneMoved l lane) s =
      .next ((s.setLnk l { (s.lnk l).place e.1 e.2.2 with moving := (s.lnk l).moving.erase e }).lanesChanged l ((s.lnk l).inService 2)) := by
  refine congrArg Host.Outcome.next ?_
  rw [he]
  exact if_pos hdead

/-! ## The fold (R211, R212) -/

theorem LinkSt.retired_rehost (rigid : Nat) (v : LinkSt) (logical : Nat) : (v.rehost rigid logical).retired = v.retired := by
  unfold LinkSt.rehost
  dsimp only
  split
  · rfl
  · split
    · rfl
    · split <;> rfl

theorem LinkSt.retired_foldl_rehost (rigid : Nat) (lanes : List Nat) (v : LinkSt) :
    (lanes.foldl (LinkSt.rehost rigid) v).retired = v.retired :=
  List.foldlRecOn (motive := fun w : LinkSt => w.retired = v.retired) _ _ rfl fun w h _ _ => (w.retired_rehost _ _).trans h

/-- A fold frame has at most 64 group-cycles. -/
theorem foldCycles_le (s k n : Nat) : foldCycles s k n ≤ 64 := by
  unfold foldCycles
  split
  · exact Nat.div_le_of_le_mul (by omega)
  · exact Nat.le_refl _

/-- Both halves of a link direction show their group-cycles. -/
def State.showFold (s : State) (p : Phys) (d : GPort) (a b : Nat) : State :=
  (s.setF .grnLnkstatFOLDA a p d.num).setF .grnLnkstatFOLDB b p d.num

theorem exec_foldChange {p : Phys} {d : GPort} {n : Nat} (hn : s.posOf p = some n) : exec (.foldChange (.grain p d)) s = .next (
    let q := s.foldQ (.grain p d)
    let v := (payloadLanes 0 ++ payloadLanes 1).foldl (LinkSt.rehost (s.rigidMask n d.num)) (s.lnk (.grain p d))
    (s.setLnk (.grain p d) v).showFold p d (foldCycles q.sA q.kA q.nA) (foldCycles q.sB q.kB q.nB)) := by
  have hpos : s.linkPos (.grain p d) = some n := hn
  refine congrArg Host.Outcome.next ?_
  rw [hpos]
  rfl

theorem State.showFold_read (s : State) (p : Phys) (d : GPort) {a b : Nat} (ha : a ≤ 64) (hb : b ≤ 64) :
    (s.showFold p d a b).getF .grnLnkstatFOLDA p d.num = a ∧ (s.showFold p d a b).getF .grnLnkstatFOLDB p d.num = b := by
  rw [State.showFold, State.getF_setF_ne _ _ _ _ _ _ (by decide), State.getF_setF_self, State.getF_setF_self]
  exact ⟨Nat.mod_eq_of_lt (Nat.lt_of_le_of_lt ha (by decide)), Nat.mod_eq_of_lt (Nat.lt_of_le_of_lt hb (by decide))⟩

/-! ## Clock lanes (R202) -/

/-- CKB tells whether CKA of either sub-link is lost. -/
theorem State.updCkb_read (s : State) (l : LinkDir) : (s.updCkb l).getLink l .grnLnkstatCKB .dieTlnkstatCKB =
    ((s.lnk l).ckLost.testBit 0 || (s.lnk l).ckLost.testBit 2).toNat := by
  rw [State.updCkb]
  cases (s.lnk l).ckLost.testBit 0 || (s.lnk l).ckLost.testBit 2 <;>
    exact State.getLink_setLink_self _ _ (by decide) (by decide)

/-- CKA of a sub-link is lost or present again. -/
def State.setCka (s : State) (l : LinkDir) (b : Nat) (lost : Bool) : State :=
  (s.setLnk l { s.lnk l with ckLost := setBit (s.lnk l).ckLost b lost }).updCkb l

theorem State.setCka_spec (s : State) (l : LinkDir) {b : Nat} (hb : b = 0 ∨ b = 2) (lost : Bool) :
    ((s.setCka l b lost).lnk l).ckLost.testBit b = lost ∧
      (s.setCka l b lost).getLink l .grnLnkstatCKB .dieTlnkstatCKB = (lost || (s.lnk l).ckLost.testBit (2 - b)).toNat ∧
      laneFrame l s (s.setCka l b lost) := by
  refine ⟨?_, ?_, ((laneFrame.refl l s).setLnk _).setLink (by decide) (by decide) _⟩
  · rw [State.setCka, State.updCkb, State.lnk_setLink, State.lnk_setLnk_self]
    exact setBit_testBit_self _ _ _
  · rw [State.setCka, State.updCkb_read, State.lnk_setLnk_self]
    obtain rfl | rfl := hb
    · rw [setBit_testBit_self, setBit_testBit_ne _ _ (by decide)]
    · rw [setBit_testBit_self, setBit_testBit_ne _ _ (by decide), Bool.or_comm]

/-! ## A missing clock (R188, R230) -/

/-- Grain p shows that the clock at port d is missing. -/
def State.showMissing (s : State) (p : Phys) (d : GPort) : State :=
  (s.setBitF .grnXstatCLKMISS d.num true p).setBitF .grnXstatINREST d.num true p

/-- DIE_CLKLOSS notes the port at which a neighbour of the lost grain hears no clock. -/
def State.reportMissing (s : State) (p : Phys) (d : GPort) : State :=
  match physNbr p d with
  | .grain q => if s.isSet .dieClklossSEEN && s.getF .dieClklossPHYS == q then s.setBitF .dieClklossPORTS (oppNum d.num) true else s
  | .tun => s
  | .none => s

theorem exec_missingClockDetect {p : Phys} {d : GPort} (h : s.clockMissing p d = true) :
    exec (.missingClockDetect (.grain p d)) s = .next ((s.showMissing p d).reportMissing p d) := congrArg Host.Outcome.next (if_pos h)

theorem State.reportMissing_frame (s : State) (p : Phys) (d : GPort) : RegsOnly [fk .dieClklossPORTS] s (s.reportMissing p d) := by
  have hrefl : RegsOnly [fk .dieClklossPORTS] s s := (RegsOnly.refl s).mono (by simp)
  unfold State.reportMissing
  split
  · split
    · exact (RegsOnly.refl s).setF _ _ _ _
    · exact hrefl
  · exact hrefl
  · exact hrefl

theorem State.reportMissing_read {p : Phys} {d : GPort} {q : Nat} (hq : physNbr p d = .grain q) (hseen : s.isSet .dieClklossSEEN = true)
    (hphys : s.getF .dieClklossPHYS = q) : (s.reportMissing p d).bitF .dieClklossPORTS (oppNum d.num) = true := by
  rw [State.reportMissing, hq]
  dsimp only
  rw [if_pos (by simp [hseen, hphys])]
  exact State.bitF_setBitF_self _ _ _ _ _ _ (Nat.mod_lt _ (by decide))

theorem State.showMissing_read (s : State) (p : Phys) (d : GPort) : (s.showMissing p d).bitF .grnXstatCLKMISS d.num p = true ∧
    (s.showMissing p d).bitF .grnXstatINREST d.num p = true := by
  rw [State.showMissing, State.bitF_setBitF_fld _ _ _ _ _ _ _ _ (by decide)]
  exact ⟨State.bitF_setBitF_self _ _ _ _ _ _ (portNum_lt d), State.bitF_setBitF_self _ _ _ _ _ _ (portNum_lt d)⟩

theorem State.showMissing_frame (s : State) (p : Phys) (d : GPort) :
    RegsOnly [fk .grnXstatINREST p, fk .grnXstatCLKMISS p] s (s.showMissing p d) :=
  ((RegsOnly.refl s).setF _ _ _ _).setF _ _ _ _

theorem missingClock_spec {p : Phys} {d : GPort} (h : s.clockMissing p d = true) : Gives (.missingClockDetect (.grain p d)) s fun t =>
    t.bitF .grnXstatCLKMISS d.num p = true ∧ t.bitF .grnXstatINREST d.num p = true ∧
      (∀ q, physNbr p d = .grain q → s.isSet .dieClklossSEEN = true → s.getF .dieClklossPHYS = q →
        t.bitF .dieClklossPORTS (oppNum d.num) = true) ∧
      RegsOnly [fk .grnXstatCLKMISS p, fk .grnXstatINREST p, fk .dieClklossPORTS] s t := by
  obtain ⟨hmiss, hrest⟩ := s.showMissing_read p d
  have hshow := s.showMissing_frame p d
  have hreport := (s.showMissing p d).reportMissing_frame p d
  have hkept (f : Fld) (hf : f ≠ .dieClklossPORTS) (b i : Nat) :
      ((s.showMissing p d).reportMissing p d).bitF f b i = (s.showMissing p d).bitF f b i :=
    congrArg (·.testBit b) (hreport.1.fld f i 0 (by simpa [fk] using hf.symm))
  have hloss (f : Fld) (hr : f ≠ .grnXstatINREST) (hm : f ≠ .grnXstatCLKMISS) : (s.showMissing p d).getF f = s.getF f :=
    hshow.1.fld f 0 0 (by simp [fk, hr.symm, hm.symm])
  refine ⟨_, exec_missingClockDetect h, (hkept _ (by decide) _ _).trans hmiss, (hkept _ (by decide) _ _).trans hrest,
    fun q hq hseen hphys => State.reportMissing_read hq ?_ ((hloss _ (by decide) (by decide)).trans hphys), (hshow.trans hreport).mono (by simp)⟩
  rwa [State.isSet, hloss _ (by decide) (by decide)]

end Sys2Proof.Machine

open Sys2Proof Sys2Proof.Machine

/-- Settles O41: every command replaces the state of its link direction and then shows it, so a lane that is out of service stays so
through the counts, the events and the pair losses that follow. -/
theorem lanesDieAndLinksFold : Obligations.LanesDieAndLinksFold := by
  intro l s
  refine ⟨fun lane hup hlive => ?_, fun lane e he hdead => ?_, fun p d n hl hn => ?_, fun noc => ?_, ⟨s, rfl, rfl⟩, fun p d hl h => ?_⟩
  · by_cases hlane : lane.val < 100
    · obtain ⟨t, hexec, hdead, hframe⟩ := laneDeath_payload hup hlive hlane
      exact ⟨t, hexec, fun _ => hdead, fun h => absurd hlane (Nat.not_lt.mpr h), hframe⟩
    · obtain ⟨t, hexec, hlost, hframe⟩ := laneDeath_clock hup hlive (Nat.not_lt.mp hlane)
      exact ⟨t, hexec, fun h => absurd h hlane, fun _ => hlost, hframe⟩
  · refine ⟨_, exec_deadLaneMoved he hdead, ?_, ?_, ?_, ((laneFrame.refl l s).setLnk _).counts (CountsOnly.refl _).lanesChanged⟩ <;>
      rw [State.lnk_lanesChanged, State.lnk_setLnk_self]
    · exact LinkSt.hostOf_place _ _ _
    · exact LinkSt.laneDown_place _ _ e.2.2
  · subst hl
    obtain ⟨hA, hB⟩ := State.showFold_read _ p d (foldCycles_le _ _ _) (foldCycles_le _ _ _)
    refine ⟨_, exec_foldChange hn, hA, hB, ?_, (((laneFrame.refl _ s).setLnk _).setF (by decide) _ _ _).setF (by decide) _ _ _⟩
    exact (congrArg LinkSt.retired (s.lnk_setLnk_self _ _)).trans (LinkSt.retired_foldl_rehost _ _ _)
  · have hb : (if noc then 2 else 0) = 0 ∨ (if noc then 2 else 0) = 2 := by cases noc <;> decide
    exact ⟨⟨_, rfl, s.setCka_spec l hb true⟩, ⟨_, rfl, s.setCka_spec l hb false⟩⟩
  · subst hl
    obtain ⟨t, hexec, hmiss, hrest, hport, hframe⟩ := missingClock_spec h
    exact ⟨t, hexec, hmiss, hrest, hport, hframe⟩
end

section
/-! SUPPORT. Lanes over their threshold (R208, R209): a margin count, the move to a spare and its end. -/

namespace Sys2Proof.Machine

variable {s : State} {l : LinkDir}

/-! ## A lane leaves service -/

/-- The lane is out of service. -/
def LinkSt.retire (v : LinkSt) (lane : Nat) : LinkSt := { v with retired := setBit v.retired lane true }

theorem LinkSt.isRetired_retire_self (v : LinkSt) (lane : Nat) : (v.retire lane).isRetired lane = true := setBit_testBit_self _ _ _

theorem LinkSt.isRetired_retire (v : LinkSt) (lane i : Nat) : (v.retire lane).isRetired i = (v.isRetired i || decide (i = lane)) := by
  by_cases h : i = lane
  · subst h
    simp [LinkSt.isRetired_retire_self]
  · rw [decide_eq_false h, Bool.or_false]
    exact setBit_testBit_ne v.retired true h

@[simp] theorem State.lnk_retireLane (s : State) (l : LinkDir) (lane : Nat) : (s.retireLane l lane).lnk l = (s.lnk l).retire lane := by
  rw [State.retireLane, (CountsOnly.refl _).raiseLink.lnk_eq]
  simp [LinkSt.retire]

/-- The lane is shown as the last that left service. -/
theorem State.retireLane_shown (s : State) (l : LinkDir) (lane : Nat) :
    (s.retireLane l lane).getLink l .grnLnkstatLASTRET .dieTlnkstatLASTRET = lane % 128 ∧
      (s.retireLane l lane).getLink l .grnLnkstatRETSEEN .dieTlnkstatRETSEEN = 1 := by
  have hraise (t : State) : CountsOnly t (t.raiseLink l 12) := (CountsOnly.refl t).raiseLink
  rw [State.retireLane, (hraise _).getLink_eq l (by decide) (by decide), (hraise _).getLink_eq l (by decide) (by decide),
    State.getLink_setLink_ne _ _ _ (by decide) (by decide)]
  refine ⟨?_, State.getLink_setLink_self _ _ (by decide) (by decide)⟩
  cases l <;> exact State.getF_setF_self _ _ _ _ _

/-! ## A margin count -/

theorem laneHalf_eq_three_iff (i : Nat) : laneHalf i = 3 ↔ 100 ≤ i := by
  unfold laneHalf
  split_ifs <;> simp <;> omega

/-- The lane has had too many margin events: it is a payload lane or a spare, and no move of it has begun. -/
abbrev State.overThreshold (s : State) (l : LinkDir) (lane count : Nat) : Prop :=
  s.retireThr < count ∧ lane < 100 ∧ ∀ e ∈ (s.lnk l).moving, e.2.1 ≠ lane

theorem exec_marginWindowEnd {lane : Fin 104} (hup : (s.lnk l).up = true) (hlive : (s.lnk l).isRetired lane = false) (count : Nat) :
    exec (.marginWindowEnd l lane count) s = .next (
      let t := s.setLaneCnt l lane (min count 0xFFFF)
      if s.overThreshold l lane count then t.startRetire l lane else t) := by
  refine congrArg Host.Outcome.next ((if_neg (by simp [hup, hlive])).trans (if_congr ?_ rfl rfl))
  simp [State.overThreshold, laneHalf_eq_three_iff, and_assoc]

theorem State.getF_setLaneCnt (s : State) (p : Phys) (d : GPort) (lane : Nat) {v : Nat} (hv : v < 2 ^ 16) :
    (s.setLaneCnt (.grain p d) lane v).getF .grnLanecntCOUNT p (128 * d.num + lane) = v :=
  (State.getF_setF_self _ _ _ _ _).trans (Nat.mod_eq_of_lt hv)

theorem State.startRetire_of_spare {lane logical spare : Nat} (hc : (s.lnk l).carried lane = some logical)
    (hf : (s.lnk l).freeSpare (laneHalf lane) = some spare) :
    s.startRetire l lane = s.setLnk l { s.lnk l with moving := (s.lnk l).moving ++ [(logical, lane, spare)] } := by
  unfold State.startRetire
  dsimp only
  rw [hc]
  dsimp only
  rw [hf]

/-- A lane that carries nothing, or has no spare to go to, leaves service, and what it carried is without a host. -/
theorem State.startRetire_of_none {lane : Nat} (h : (s.lnk l).carried lane = none ∨ (s.lnk l).freeSpare (laneHalf lane) = none) :
    ((s.startRetire l lane).lnk l).isRetired lane = true ∧
      ∀ logical, (s.lnk l).carried lane = some logical → ((s.startRetire l lane).lnk l).laneDown logical = true := by
  unfold State.startRetire State.retireByFold
  dsimp only
  split
  next hc =>
    rw [State.lnk_lanesChanged, State.lnk_retireLane, hc]
    exact ⟨LinkSt.isRetired_retire_self _ _, fun _ hk => nomatch hk⟩
  next hc =>
    rw [h.resolve_left (by simp [hc]), hc]
    dsimp only
    rw [State.lnk_lanesChanged, State.lnk_retireLane, State.lnk_setLnk_self]
    refine ⟨LinkSt.isRetired_retire_self _ _, fun k hk => ?_⟩
    obtain rfl := Option.some.inj hk
    exact setBit_testBit_self _ _ _

/-- The beginning of a move takes no lane back into service and copies nothing. -/
theorem State.startRetire_keeps (s : State) (l : LinkDir) (lane : Nat) {i : Nat} (h : (s.lnk l).isRetired i = true) :
    ((s.startRetire l lane).lnk l).isRetired i = true ∧ ((s.startRetire l lane).lnk l).copying = (s.lnk l).copying := by
  have hretire (v : LinkSt) (hv : v.isRetired i = true) : (v.retire lane).isRetired i = true := by
    rw [LinkSt.isRetired_retire, hv, Bool.true_or]
  unfold State.startRetire State.retireByFold
  dsimp only
  split
  · simpa only [State.lnk_lanesChanged, State.lnk_retireLane] using ⟨hretire _ h, rfl⟩
  · split <;> simp only [State.lnk_lanesChanged, State.lnk_retireLane, State.lnk_setLnk_self]
    · exact ⟨h, trivial⟩
    · exact ⟨hretire _ h, rfl⟩

end Sys2Proof.Machine

namespace Sys2Proof

open Sys2Proof.Machine

theorem laneFrame.startRetire {s t : State} {l : LinkDir} (h : laneFrame l s t) (lane : Nat) : laneFrame l s (t.startRetire l lane) := by
  unfold State.startRetire
  dsimp only
  split
  · exact (h.retireLane _).counts (CountsOnly.refl _).lanesChanged
  · split
    · exact h.setLnk _
    · exact ((h.setLnk _).retireLane _).counts (CountsOnly.refl _).lanesChanged

end Sys2Proof

namespace Sys2Proof.Machine

variable {s : State} {l : LinkDir} {logical old spare : Nat} {rest : List (Nat × Nat × Nat)}

/-! ## The end of a move -/

/-- The spare carries the lane: the move at the head of the list is over. -/
def LinkSt.moved (v : LinkSt) (logical spare : Nat) (rest : List (Nat × Nat × Nat)) : LinkSt :=
  { v.place logical spare with moving := rest, copying := false }

theorem State.retireDone_eq (h : (s.lnk l).moving = (logical, old, spare) :: rest) : s.retireDone l =
    ((s.setLnk l ((s.lnk l).moved logical spare rest)).retireLane l old).lanesChanged l ((s.lnk l).inService 2) := by
  unfold State.retireDone
  dsimp only
  rw [h]
  rfl

theorem exec_retireDone {c : Instr} (hc : c = .spareQualified l ∨ c = .spareCompareTimeout l false) (h : (s.lnk l).copying = true) :
    exec c s = .next (s.retireDone l) := by
  rcases hc with rfl | rfl
  · exact congrArg Host.Outcome.next (if_pos h)
  · exact congrArg Host.Outcome.next (if_neg (by simp [h]))

/-- A spare with margin events is out of service, and the lane looks for another one. -/
theorem exec_spareFailed (hcopy : (s.lnk l).copying = true) (h : (s.lnk l).moving = (logical, old, spare) :: rest) :
    exec (.spareCompareTimeout l true) s = .next
      ((((s.setLnk l { s.lnk l with moving := rest, copying := false }).retireLane l spare).lanesChanged l
        ((s.lnk l).inService 2)).startRetire l old) := by
  change execSpareCompareTimeout l true s = _
  unfold execSpareCompareTimeout
  dsimp only
  rw [if_neg (by simp [hcopy]), h]
  rfl

end Sys2Proof.Machine

open Sys2Proof Sys2Proof.Machine

/-- Settles O40: a count is shown first and then compared; the end of a move replaces the link direction's state, and the counts and
events that follow keep it. -/
theorem lanesAreRetiredToSpares : Obligations.LanesAreRetiredToSpares := by
  intro l s
  refine ⟨fun lane count hup hlive => ?_, fun hup hmoving hcopy => ?_, fun c logical old spare rest hc hcopy hmoving => ?_,
    fun logical old spare rest hcopy hmoving => ?_⟩
  · have hframe := (laneFrame.refl l s).setLaneCnt lane (min count 0xFFFF)
    have hlnk := s.lnk_setLaneCnt l l lane (min count 0xFFFF)
    by_cases htoo : s.overThreshold l lane count
    · refine ⟨_, (exec_marginWindowEnd hup hlive count).trans (congrArg _ (if_pos htoo)), fun h => absurd htoo h,
        fun logical spare _ hc hf => ?_, fun _ h => ?_, hframe.startRetire lane⟩
      · rw [← hlnk] at hc hf ⊢
        rw [State.startRetire_of_spare hc hf, State.lnk_setLnk_self]
      · rw [← hlnk] at h ⊢
        exact State.startRetire_of_none h
    · refine ⟨_, (exec_marginWindowEnd hup hlive count).trans (congrArg _ (if_neg htoo)), fun _ => ⟨hlnk, fun p d hl => ?_⟩,
        fun _ _ h => absurd h htoo, fun h => absurd h htoo, hframe⟩
      subst hl
      exact s.getF_setLaneCnt p d lane (by omega)
  · exact ⟨_, congrArg Host.Outcome.next (if_pos (by simp [hup, hmoving, hcopy])), s.lnk_setLnk_self l _, (laneFrame.refl l s).setLnk _⟩
  · have hshow : CountsOnly _ (s.retireDone l) := State.retireDone_eq hmoving ▸ (CountsOnly.refl _).lanesChanged
    obtain ⟨hlast, hseen⟩ := (s.setLnk l ((s.lnk l).moved logical spare rest)).retireLane_shown l old
    rw [← hshow.getLink_eq l (by decide) (by decide)] at hlast hseen
    have hlnk : (s.retireDone l).lnk l = ((s.lnk l).moved logical spare rest).retire old := by
      rw [hshow.lnk_eq, State.lnk_retireLane, State.lnk_setLnk_self]
    refine ⟨_, exec_retireDone hc hcopy, ?_, ?_, ?_, ?_, ?_, hlast, hseen, (((laneFrame.refl l s).setLnk _).retireLane old).counts hshow⟩ <;>
      rw [hlnk]
    · exact LinkSt.hostOf_place _ _ _
    · exact LinkSt.isRetired_retire_self _ _
    · rfl
    · rfl
    · exact LinkSt.laneDown_place _ _ spare
  · have hshow (u : State) : CountsOnly u (u.lanesChanged l ((s.lnk l).inService 2)) := (CountsOnly.refl u).lanesChanged
    obtain ⟨hretired, hcopying⟩ := (((s.setLnk l { s.lnk l with moving := rest, copying := false }).retireLane l spare).lanesChanged l
      ((s.lnk l).inService 2)).startRetire_keeps l old (i := spare) (by simp [LinkSt.isRetired_retire_self])
    refine ⟨_, exec_spareFailed hcopy hmoving, hretired, ?_,
      ((((laneFrame.refl l s).setLnk _).retireLane spare).counts (hshow _)).startRetire old⟩
    rw [hcopying]
    simp [LinkSt.retire]
end

section
/-! SUPPORT. What a command writes in registers and sends, and the training of a link direction (R206, R207, R211, R213). -/

namespace Sys2Proof.Machine

variable {rs ls : List RegName} {s t u : State} {l : LinkDir}

/-! ## Registers and messages -/

/-- Only fields of the registers in the list change, and messages leave the part. -/
def FieldsAndOut (rs : List RegName) (s t : State) : Prop := sameRegs rs s t ∧ ∃ r o, t = { s with regs := r, out := o }

theorem FieldsOf.andOut (h : FieldsOf rs s t) : FieldsAndOut rs s t := by
  obtain ⟨h, _, rfl⟩ := h
  exact ⟨h, _, _, rfl⟩

namespace FieldsAndOut

theorem refl (rs : List RegName) (s : State) : FieldsAndOut rs s s := (FieldsOf.refl rs s).andOut

theorem mono (h : FieldsAndOut rs s t) (hs : ∀ r ∈ rs, r ∈ ls) : FieldsAndOut ls s t := ⟨h.1.mono hs, h.2⟩

theorem trans (h : FieldsAndOut rs s t) (h' : FieldsAndOut rs t u) : FieldsAndOut rs s u := by
  obtain ⟨h, _, _, rfl⟩ := h
  obtain ⟨h', _, _, rfl⟩ := h'
  exact ⟨h.trans h', _, _, rfl⟩

theorem setF {f : Fld} {v i j : Nat} (h : FieldsAndOut rs s t) (hf : f.info.reg ∈ rs := by decide) : FieldsAndOut rs s (t.setF f v i j) :=
  h.trans ((FieldsOf.refl rs t).setF _ _ _ _ hf).andOut

theorem setLink {f g : Fld} {v : Nat} (h : FieldsAndOut rs s t) (hf : f.info.reg ∈ rs := by decide) (hg : g.info.reg ∈ rs := by decide) :
    FieldsAndOut rs s (t.setLink l f g v) := by
  cases l
  · exact h.setF hf
  · exact h.setF hg

theorem ite {c : Prop} [Decidable c] (h : FieldsAndOut rs s t) (h' : FieldsAndOut rs s u) :
    FieldsAndOut rs s (if c then t else u) := by
  split
  · exact h
  · exact h'

theorem raise {e p : Nat} (h : FieldsAndOut rs s t) (hr : ∀ r ∈ [RegName.evrPay, .evrRoute], r ∈ rs := by decide) :
    FieldsAndOut rs s (t.raise e p) := by
  by_cases he : evSource e = true
  · obtain ⟨-, -, hrest⟩ := t.raise_spec p he
    exact h.trans ⟨(t.raise_sameRegs he p).mono hr, eq_of_putBack_regs_out hrest⟩
  · rwa [State.raise, if_pos (by simpa using he)]

theorem raiseLink {k : Nat} (h : FieldsAndOut rs s t) (hr : ∀ r ∈ [RegName.evrPay, .evrRoute], r ∈ rs := by decide) :
    FieldsAndOut rs s (t.raiseLink l k) := by
  unfold State.raiseLink
  cases t.linkPos l
  · exact h
  · exact h.raise hr

theorem dieFault {kind surv : Nat} {noc : Bool} (h : FieldsAndOut rs s t) (hr : .dieFault ∈ rs := by decide) :
    FieldsAndOut rs s (t.dieFault l kind surv noc) :=
  (((((((h.setF (by exact hr)).setF (by exact hr)).setF (by exact hr)).setF (by exact hr)).setF (by exact hr)).setF (by exact hr)).setF
    (by exact hr)).setF (by exact hr)

end FieldsAndOut

/-! ## One link direction -/

/-- Only link direction l changes, besides registers of the list and messages. -/
def LinkFrame (rs : List RegName) (l : LinkDir) (s t : State) : Prop :=
  (∀ k, k ≠ linkKey l → SMap.get (fun _ => LinkSt.initial) t.link k = SMap.get (fun _ => LinkSt.initial) s.link k) ∧
  sameRegs rs s t ∧ ∃ r o m, t = { s with regs := r, out := o, link := m }

namespace LinkFrame

theorem refl (rs : List RegName) (l : LinkDir) (s : State) : LinkFrame rs l s s := ⟨fun _ _ => rfl, fun _ _ _ _ => rfl, _, _, _, rfl⟩

theorem setLnk (h : LinkFrame rs l s t) (v : LinkSt) : LinkFrame rs l s (t.setLnk l v) := by
  obtain ⟨hlink, hregs, _, _, _, rfl⟩ := h
  exact ⟨fun k hk => (SMap.get_set_ne _ _ _ hk).trans (hlink k hk), hregs, _, _, _, rfl⟩

theorem trans (h : LinkFrame rs l s t) (h' : LinkFrame rs l t u) : LinkFrame rs l s u := by
  obtain ⟨hlink, hregs, _, _, _, rfl⟩ := h
  obtain ⟨hlink', hregs', _, _, _, rfl⟩ := h'
  exact ⟨fun k hk => (hlink' k hk).trans (hlink k hk), hregs.trans hregs', _, _, _, rfl⟩

theorem fields (h : LinkFrame rs l s t) (h' : FieldsAndOut rs t u) : LinkFrame rs l s u := by
  obtain ⟨hlink, hregs, _, _, _, rfl⟩ := h
  obtain ⟨hregs', _, _, rfl⟩ := h'
  exact ⟨hlink, hregs.trans hregs', _, _, _, rfl⟩

end LinkFrame

/-- The registers that show the training of a link direction. -/
def trainRegs : List RegName := [.grnLnkstat, .dieTlnkstat, .grnXstat, .grnLanecnt, .dieFault, .evrPay, .evrRoute]

theorem LinkFrame.retireLane (h : LinkFrame trainRegs l s t) (lane : Nat) : LinkFrame trainRegs l s (t.retireLane l lane) := by
  have hcnt (u : State) : FieldsAndOut trainRegs u (u.setLaneCnt l lane 0xFFFF) := by
    cases l
    · exact (FieldsAndOut.refl _ u).setF
    · exact .refl _ u
  exact (h.setLnk _).fields (hcnt _).setLink.setLink.raiseLink

/-! ## Lanes that trained with errors (R207) -/

theorem LinkFrame.trainedBad (h : LinkFrame trainRegs l s t) (lane : Nat) : LinkFrame trainRegs l s (t.trainedBad l lane) := by
  unfold State.trainedBad
  dsimp only
  split
  · exact h.retireLane lane
  · split <;> exact (h.retireLane lane).setLnk _

/-- A lane that trained with errors is retired; where its logical lane goes changes no other lane. -/
theorem State.lnk_trainedBad (s : State) (l : LinkDir) (lane : Nat) :
    ((s.trainedBad l lane).lnk l).retired = setBit (s.lnk l).retired lane true ∧
      ((s.trainedBad l lane).lnk l).up = (s.lnk l).up ∧ ((s.trainedBad l lane).lnk l).ckLost = (s.lnk l).ckLost := by
  unfold State.trainedBad
  dsimp only
  split
  · rw [State.lnk_retireLane]
    exact ⟨rfl, rfl, rfl⟩
  · split <;> rw [State.lnk_setLnk_self, State.lnk_retireLane] <;> exact ⟨rfl, rfl, rfl⟩

/-- The lanes of a list trained with errors, one after another. -/
def State.trainLanes (s : State) (l : LinkDir) (lanes : List Nat) : State := lanes.foldl (fun t i => t.trainedBad l i) s

theorem State.trainLanes_frame (s : State) (l : LinkDir) (lanes : List Nat) : LinkFrame trainRegs l s (s.trainLanes l lanes) :=
  List.foldlRecOn _ _ (LinkFrame.refl _ l s) fun _ h i _ => h.trainedBad i

/-- The lanes of the list are retired beside those that were. -/
theorem State.lnk_trainLanes (s : State) (l : LinkDir) (lanes : List Nat) :
    (∀ i, ((s.trainLanes l lanes).lnk l).isRetired i = ((s.lnk l).isRetired i || decide (i ∈ lanes))) ∧
      ((s.trainLanes l lanes).lnk l).up = (s.lnk l).up ∧ ((s.trainLanes l lanes).lnk l).ckLost = (s.lnk l).ckLost := by
  induction lanes generalizing s with
  | nil => simp [State.trainLanes]
  | cons lane lanes ih =>
    obtain ⟨hretired, hup, hck⟩ := s.lnk_trainedBad l lane
    obtain ⟨hretired', hup', hck'⟩ := ih (s.trainedBad l lane)
    refine ⟨fun i => (hretired' i).trans ?_, hup'.trans hup, hck'.trans hck⟩
    have hstep : ((s.trainedBad l lane).lnk l).isRetired i = ((s.lnk l).retire lane).isRetired i := congrArg (·.testBit i) hretired
    rw [hstep, LinkSt.isRetired_retire]
    simp [Bool.or_assoc]

/-! ## The end of training -/

/-- The link direction exists, and the grain that receives on it has its clock (R19, R207). -/
def State.trainable (s : State) (l : LinkDir) : Prop :=
  match l with
  | .grain p d => physNbr p d ≠ .none ∧ (s.clkSt p).lost = false
  | .tun k => s.part.optG = true ∨ (k.val ≠ 2 ∧ k.val ≠ 4)

/-- The lanes of a list of bad ones that can be retired, the spares first. -/
def badLanes (bad : List (Fin 104)) : List Nat :=
  let lanes := (bad.map (·.val)).eraseDups.filter fun i => i < 100
  let spare := fun i : Nat => decide ((64 ≤ i ∧ i < 72) ∨ (96 ≤ i ∧ i < 100))
  lanes.filter spare ++ lanes.filter fun i => !spare i

theorem mem_badLanes (bad : List (Fin 104)) (i : Fin 104) : i.val ∈ badLanes bad ↔ i.val < 100 ∧ i ∈ bad := by
  have hmem : i.val ∈ bad.map (·.val) ↔ i ∈ bad := List.mem_map_of_injective Fin.val_injective
  simp only [badLanes, List.mem_append, List.mem_filter, List.mem_eraseDups, hmem, decide_eq_true_eq, Bool.not_eq_true',
    decide_eq_false_iff_not]
  tauto

theorem FieldsAndOut.updLanes (h : FieldsAndOut trainRegs s t) : FieldsAndOut trainRegs s (t.updLanes l) := by
  unfold State.updLanes
  cases l
  · exact h.setLink.setLink.setF.setF.setF.setF
  · exact h.setLink.setLink

theorem FieldsAndOut.evalLink {start : Bool} (h : FieldsAndOut trainRegs s t) : FieldsAndOut trainRegs s (t.evalLink l start) := by
  unfold State.evalLink
  cases l
  · exact ite h (ite h.setF.raiseLink h.setF.raiseLink.dieFault.raiseLink)
  · exact h

theorem FieldsAndOut.lnk_eq (h : FieldsAndOut rs s t) (l : LinkDir) : t.lnk l = s.lnk l := by
  obtain ⟨-, _, _, rfl⟩ := h
  rfl

/-- The fold depends on the lanes, the map and the frames, and on no other register. -/
theorem FieldsAndOut.foldQ_eq (h : FieldsAndOut rs s t) (hr : .dieMap ∉ rs) (l : LinkDir) : t.foldQ l = s.foldQ l := by
  obtain ⟨hregs, _, _, ht⟩ := h
  have hphys (n : Nat) : t.phys n = s.phys n := hregs _ _ _ hr
  have hpos : t.linkPos l = s.linkPos l := by
    cases l
    · simp only [State.linkPos, State.posOf, hphys]
    · rfl
  unfold State.foldQ
  rw [hpos, ht]
  rfl

theorem FoldQ.state_lt (q : FoldQ) : q.state < 2 ^ 2 := by
  unfold FoldQ.state
  split_ifs <;> decide

/-- At a link start the state is that of the surviving lanes (R213). -/
theorem State.evalLink_start (s : State) (p : Phys) (d : GPort) :
    (s.evalLink (.grain p d) true).getF .grnLnkstatSTATE p d.num = (s.foldQ (.grain p d)).state := by
  have hset : (s.setF .grnLnkstatSTATE (s.foldQ (.grain p d)).state p d.num).getF .grnLnkstatSTATE p d.num =
      (s.foldQ (.grain p d)).state :=
    (State.getF_setF_self _ _ _ _ _).trans (Nat.mod_eq_of_lt (FoldQ.state_lt _))
  have hshow (t : State) : FieldsAndOut [.dieFault, .evrPay, .evrRoute] t t := .refl _ t
  unfold State.evalLink
  dsimp only
  rw [if_pos rfl]
  split
  next hold => exact hold.symm
  · split
    · exact ((hshow _).raiseLink.1 _ _ _ (by decide)).trans hset
    · exact ((hshow _).raiseLink.dieFault.raiseLink.1 _ _ _ (by decide)).trans hset

/-- The link direction starts: all its lanes are in service. -/
def State.startLink (s : State) (l : LinkDir) : State :=
  s.setLnk l { LinkSt.initial with up := true, ckLost := (s.lnk l).ckLost }

/-- The link direction has started, its bad lanes are retired, and its lanes and state are shown. -/
def State.trained (s : State) (l : LinkDir) (bad : List (Fin 104)) : State :=
  (((s.startLink l).trainLanes l (badLanes bad)).updLanes l).evalLink l true

/-- Before it hears its clock the link direction shows the state that its surviving lanes give. -/
theorem State.trained_state (s : State) (p : Phys) (d : GPort) (bad : List (Fin 104)) :
    (s.trained (.grain p d) bad).getF .grnLnkstatSTATE p d.num = ((s.trained (.grain p d) bad).foldQ (.grain p d)).state := by
  rw [State.trained, State.evalLink_start, (FieldsAndOut.refl _ _).evalLink.foldQ_eq (by decide)]

/-- The bad lanes alone are retired, and the clock lanes stay as they were. -/
theorem State.lnk_trained (s : State) (l : LinkDir) (bad : List (Fin 104)) :
    ((s.trained l bad).lnk l).up = true ∧ (∀ i : Fin 104, ((s.trained l bad).lnk l).isRetired i = decide (i.val < 100 ∧ i ∈ bad)) ∧
      ((s.trained l bad).lnk l).ckLost = (s.lnk l).ckLost := by
  obtain ⟨hretired, hup, hck⟩ := (s.startLink l).lnk_trainLanes l (badLanes bad)
  have hnone (i : Nat) : ((s.startLink l).lnk l).isRetired i = false := by
    rw [State.startLink, State.lnk_setLnk_self]
    exact Nat.zero_testBit i
  rw [State.trained, (FieldsAndOut.refl _ _).updLanes.evalLink.lnk_eq]
  rw [State.startLink, State.lnk_setLnk_self] at hup hck
  refine ⟨hup, fun i => ?_, hck⟩
  rw [hretired, hnone, Bool.false_or]
  exact decide_eq_decide.mpr (mem_badLanes bad i)

theorem State.trained_frame (s : State) (l : LinkDir) (bad : List (Fin 104)) : LinkFrame trainRegs l s (s.trained l bad) :=
  (((LinkFrame.refl _ l s).setLnk _).trans (State.trainLanes_frame _ l _)).fields (FieldsAndOut.refl _ _).updLanes.evalLink

/-- The receiver of the link direction hears its clock, and its crossings leave their rest values. -/
def State.hearClock (s : State) (l : LinkDir) : State :=
  match l with
  | .grain p d => (s.setBitF .grnXstatCLKMISS d.num false p).setBitF .grnXstatINREST d.num false p
  | .tun _ => s

theorem exec_linkTrainingDone (bad : List (Fin 104)) (hrun : s.crossingRuns = true) (hl : s.trainable l) :
    exec (.linkTrainingDone l bad) s = .next ((s.trained l bad).hearClock l) := by
  change execLinkTrainingDone l bad s = _
  unfold execLinkTrainingDone
  cases l with
  | grain p d =>
    obtain ⟨hport, hclk⟩ := hl
    cases hn : physNbr p d with
    | none => exact absurd hn hport
    | grain q => exact congrArg Host.Outcome.next (if_neg (by simp [hrun, hclk, hn]))
    | tun => exact congrArg Host.Outcome.next (if_neg (by simp [hrun, hclk, hn]))
  | tun k =>
    refine congrArg Host.Outcome.next (if_neg ?_)
    rcases hl with hg | ⟨h2, h4⟩ 
    · simp [hrun, hg]
    · simp [hrun, h2, h4]

theorem State.hearClock_read (s : State) (p : Phys) (d : GPort) :
    (s.hearClock (.grain p d)).bitF .grnXstatCLKMISS d.num p = false ∧ (s.hearClock (.grain p d)).bitF .grnXstatINREST d.num p = false := by
  refine ⟨?_, State.bitF_setBitF_self _ _ _ _ _ _ (portNum_lt d)⟩
  rw [State.hearClock, State.bitF_setBitF_fld _ _ _ _ _ _ _ _ (by decide)]
  exact State.bitF_setBitF_self _ _ _ _ _ _ (portNum_lt d)

theorem State.hearClock_frame (s : State) (l : LinkDir) : FieldsAndOut [.grnXstat] s (s.hearClock l) := by
  cases l
  · exact (FieldsAndOut.refl _ s).setF.setF
  · exact .refl _ s

theorem linkTrainingRetiresBadLanes : LinkTrainingRetiresBadLanes := by
  intro l bad s hrun hl
  have hclock := (s.trained l bad).hearClock_frame l
  obtain ⟨hlink, hregs, r, o, m, ht⟩ := (s.trained_frame l bad).fields (hclock.mono (by decide))
  obtain ⟨hup, hretired, hck⟩ := s.lnk_trained l bad
  rw [← hclock.lnk_eq] at hup hck
  refine ⟨_, exec_linkTrainingDone bad hrun hl, hup, fun i => ?_, hck, hlink, fun p d hg => ?_, hregs, by rw [ht]⟩
  · rw [hclock.lnk_eq, hretired]
  · subst hg
    refine ⟨?_, State.hearClock_read _ p d⟩
    rw [hclock.1 _ _ _ (by decide), hclock.foldQ_eq (by decide), State.trained_state]

end Sys2Proof.Machine
end

section
/-! SUPPORT. The clock tree and the discovery of the dies (R203, R206, R215, R216, R317). -/

namespace Sys2Proof.Machine

variable {s t : State} {p : Phys} {d : GPort} {depth : Nat}

/-! ## A grain adopts a clock (R203) -/

theorem State.clkSt_setClk_self (s : State) (p : Nat) (v : ClkSt) : (s.setClk p v).clkSt p = v := SMap.get_set_self _ _ _ _

/-- What grain p is in the clock tree once it takes its clock from port d. -/
def ClkSt.adopted (d : GPort) (depth : Nat) : ClkSt := ⟨some d.num, depth + 1, false, true, false⟩

/-- GRN_LNKSTAT.CLKUP of the four ports of grain p. -/
def clkupKeys (p : Nat) : List FKey :=
  [fk .grnLnkstatCLKUP p 0, fk .grnLnkstatCLKUP p 1, fk .grnLnkstatCLKUP p 2, fk .grnLnkstatCLKUP p 3]

theorem State.adopt_frame (s : State) (p : Nat) (d : GPort) (depth : Nat) :
    RegsOnly (clkupKeys p) (s.setClk p (.adopted d depth)) (s.adopt p d depth) :=
  (((((RegsOnly.refl _).setF _ _ _ _).setF _ _ _ _).setF _ _ _ _).setF _ _ _ _).mono (by simp [clkupKeys])

/-- CLKUP names the port that the clock comes from. -/
theorem State.adopt_clkup (s : State) (p : Nat) (d : GPort) (depth : Nat) (g : GPort) :
    (s.adopt p d depth).getF .grnLnkstatCLKUP p g.num = if g = d then 1 else 0 := by
  have hports : (s.adopt p d depth).getF .grnLnkstatCLKUP p g.num = (g.num == d.num).toNat := by
    rw [State.adopt]
    cases g <;> simp [List.range, List.range.loop, State.getF_setF, GPort.num, Nat.mod_eq_of_lt (Bool.toNat_lt _)]
  rw [hports]
  cases g <;> cases d <;> rfl

theorem State.adopt_sameRegs (s : State) (p : Nat) (d : GPort) (depth : Nat) : sameRegs [.grnLnkstat] s (s.adopt p d depth) :=
  SameBut.sameRegs (s.adopt_frame p d depth).1 (forall_keys_of_fields (p := fun f => f.info.reg ∈ [RegName.grnLnkstat])
    (fs := [.grnLnkstatCLKUP, .grnLnkstatCLKUP, .grnLnkstatCLKUP, .grnLnkstatCLKUP]) rfl (by decide))

theorem State.adopt_eq (s : State) (p : Nat) (d : GPort) (depth : Nat) :
    ∃ r, s.adopt p d depth = { s.setClk p (.adopted d depth) with regs := r } := eq_of_putBack_regs (s.adopt_frame p d depth).2

theorem State.clkSt_adopt (s : State) (p : Nat) (d : GPort) (depth q : Nat) :
    (s.adopt p d depth).clkSt q = if q = p then .adopted d depth else s.clkSt q := by
  obtain ⟨r, h⟩ := s.adopt_eq p d depth
  rw [h]
  exact SMap.get_set (fun _ => ClkSt.initial) s.clk p q (.adopted d depth)

/-- The map alone says which position a grain serves. -/
theorem State.posOf_congr (h : ∀ n, t.phys n = s.phys n) (p : Nat) : t.posOf p = s.posOf p := by
  simp only [State.posOf, h]

/-- Grain p joins the tree: its replicas of device time are loaded (R215, R406). -/
def State.joinTree (s : State) (p : Nat) (d : GPort) (depth : Nat) : State := (s.adopt p d depth).loadReplicas p

theorem State.joinTree_sameBut (s : State) (p : Nat) (d : GPort) (depth : Nat) : SameBut (clkupKeys p) s (s.joinTree p d depth) :=
  (s.adopt_frame p d depth).1

theorem State.joinTree_eq (s : State) (p : Nat) (d : GPort) (depth : Nat) : ∃ r, s.joinTree p d depth = { s with
    regs := r, clk := SMap.set (fun _ => ClkSt.initial) s.clk p (.adopted d depth),
    replicas := SMap.set (fun _ => none) s.replicas p (some (s.edgeTime, s.edgeTime, s.edgeTime)) } := by
  obtain ⟨r, h⟩ := s.adopt_eq p d depth
  exact ⟨r, by rw [State.joinTree, h]; rfl⟩

/-! ## The configuration memory at discovery (R247 step 4) -/

/-- The configuration memory of grain p is cleared before discovery is done. -/
def State.clearOnJoin (s : State) (p : Nat) : State := if s.isSet .dieDiscstatDONE then s else (s.posOf p).elim s s.clearPos

theorem exec_clockAdopted (hup : (s.clkSt p).up = none) (hlost : (s.clkSt p).lost = false) (hclk : s.clockAt p d = some depth) :
    exec (.clockAdopted (.grain p d)) s = .next ((s.joinTree p d depth).clearOnJoin p) := by
  refine congrArg Host.Outcome.next ((if_neg (by simp [hup, hlost])).trans ?_)
  rw [hclk]
  rfl

theorem State.clearPos_frame (s : State) (n : Nat) : SameBut [fk .grnSpanstatACTIVE (s.phys n)] s (s.clearPos n) :=
  SameBut.setF (s.clearFrames n fun _ => true) _ _ _ _

theorem State.frame_clearPos (s : State) (n : Nat) {fa : Nat} (hfa : fa < 2 ^ 32) : (s.clearPos n).frame n fa = CfgFrame.zero := by
  have hclear : (s.clearPos n).cfg = SMap.clearWhere (fun k => k / 2 ^ 32 == n && true) s.cfg := rfl
  rw [State.frame, hclear, SMap.get_clearWhere, if_pos (by simp only [cfgKey_div n hfa, beq_self_eq_true, Bool.and_self])]

theorem State.clearOnJoin_frame (s : State) (p : Nat) :
    SameBut [fk .grnSpanstatACTIVE (s.phys ((s.posOf p).getD 0))] s (s.clearOnJoin p) ∧
      ∃ r c m mf d df k kf, s.clearOnJoin p =
        { s with regs := r, cfg := c, ram := m, ramFlip := mf, deep := d, deepFlip := df, coef := k, coefFlip := kf } := by
  unfold State.clearOnJoin
  split
  · exact ⟨SameBut.refl _ s, _, _, _, _, _, _, _, _, rfl⟩
  · cases hn : s.posOf p with
    | none => exact ⟨SameBut.refl _ s, _, _, _, _, _, _, _, _, rfl⟩
    | some n => exact ⟨s.clearPos_frame n, _, _, _, _, _, _, _, _, rfl⟩

theorem State.frame_clearOnJoin (hdone : s.isSet .dieDiscstatDONE = false) {n : Nat} {p : Nat} (hn : s.posOf p = some n) {fa : Nat}
    (hfa : fa < 2 ^ 32) : (s.clearOnJoin p).frame n fa = CfgFrame.zero := by
  rw [State.clearOnJoin, if_neg (by simp [hdone]), hn]
  exact s.frame_clearPos n hfa

/-! ## Tokens and answers (R215, R216) -/

/-- The bit of a die's record that a token at a port sets; store and guest dies have one port. -/
def tokenBit : Die → GPort → Nat
  | .grain _, port => port.num
  | .store _, _ | .guest _, _ => 0

/-- A die records a token. -/
def State.recordToken (s : State) (d : Die) (port : GPort) : State :=
  { s with tokens := SMap.set (fun _ => 0) s.tokens (dieNo d) (setBit (SMap.get (fun _ => 0) s.tokens (dieNo d)) (tokenBit d port) true) }

theorem exec_discoveryToken {d : Die} {port : GPort} (hrun : s.crossingRuns = true) (hdone : s.isSet .dieDiscstatDONE = false)
    (hport : s.tokenPort d port = true) : exec (.discoveryToken d port) s = .next (s.recordToken d port) := by
  refine congrArg Host.Outcome.next ((if_neg (by simp [hrun, hdone, hport])).trans ?_)
  cases d <;> rfl

theorem State.recordToken_testBit (s : State) (d : Die) (port : GPort) :
    (SMap.get (fun _ => 0) (s.recordToken d port).tokens (dieNo d)).testBit (tokenBit d port) = true := by
  rw [State.recordToken, SMap.get_set_self]
  exact setBit_testBit_self _ _ _

/-- What is kept of the answer of a die. -/
def State.answerSt (s : State) (d : Die) (a : Answer) : AnsSt :=
  ⟨a.serial.toNat, a.type.toNat, a.grade.toNat, SMap.get (fun _ => 0) s.tokens (dieNo d),
    match d with | .grain p => (s.clkSt p).depth | .store _ | .guest _ => 0⟩

/-- The answer of a die is recorded, and the answers are counted. -/
def State.recordAnswer (s : State) (d : Die) (a : Answer) : State :=
  let t := { s with answers := SMap.set (fun _ => none) s.answers (dieNo d) (some (s.answerSt d a)) }
  t.setF .dieDiscstatANSWERS (t.answers.filter fun e => e.2.isSome).length

theorem exec_discoveryAnswer {d : Die} (htok : SMap.get (fun _ => 0) s.tokens (dieNo d) ≠ 0)
    (hdone : s.isSet .dieDiscstatDONE = false) (a : Answer) :
    exec (.discoveryAnswer d a) s = .next ((s.recordAnswer d a).portStarts d a) :=
  congrArg Host.Outcome.next (if_neg (by simp [htok, hdone]))

/-- The reserved-buffer port that a guest or store die is behind. -/
def dieRbPort : Die → Option Nat
  | .grain _ => none
  | .guest k => some k
  | .store k => some (2 + k)

/-- Port k takes over what its receiver advertises (R317). -/
def State.startRbPort (s : State) (a : Answer) (k : Nat) : State :=
  let t := (s.setF .nocRbcfgTXBUF a.buf.toNat k).setF .nocRbcfgTXCNT a.cnt.toNat k
  { t with rbRx := SMap.set (fun _ => 2) t.rbRx k (t.getF .nocRbcfgRXBUF k) }

theorem State.portStarts_eq (s : State) (d : Die) (a : Answer) : s.portStarts d a = (dieRbPort d).elim s (s.startRbPort a) := by
  cases d <;> rfl

theorem State.startRbPort_read (s : State) (a : Answer) (k : Nat) :
    (s.startRbPort a k).getF .nocRbcfgTXBUF k = a.buf.toNat ∧ (s.startRbPort a k).getF .nocRbcfgTXCNT k = a.cnt.toNat ∧
      SMap.get (fun _ => 2) (s.startRbPort a k).rbRx k = s.getF .nocRbcfgRXBUF k := by
  let t := (s.setF .nocRbcfgTXBUF a.buf.toNat k).setF .nocRbcfgTXCNT a.cnt.toNat k
  refine ⟨?_, ?_, ?_⟩
  · change t.getF .nocRbcfgTXBUF k = _
    simp [t, Nat.mod_eq_of_lt a.buf.isLt]
  · change t.getF .nocRbcfgTXCNT k = _
    simp [t, Nat.mod_eq_of_lt a.cnt.isLt]
  · refine (SMap.get_set_self _ _ _ _).trans ?_
    simp

theorem State.portStarts_frame (s : State) (d : Die) (a : Answer) :
    sameRegs [.nocRbcfg] s (s.portStarts d a) ∧ { s.portStarts d a with regs := s.regs, rbRx := s.rbRx } = s := by
  rw [State.portStarts_eq]
  cases dieRbPort d with
  | none => exact ⟨fun _ _ _ _ => rfl, rfl⟩
  | some k =>
    exact ⟨(((FieldsOf.refl _ s).setF .nocRbcfgTXBUF a.buf.toNat k 0 (by decide)).setF .nocRbcfgTXCNT a.cnt.toNat k 0 (by decide)).1, rfl⟩

theorem discoveryFollowsClocksAndTokens : DiscoveryFollowsClocksAndTokens := by
  refine fun s => ⟨fun p d depth hup hlost hclk => ⟨_, exec_clockAdopted hup hlost hclk, ?_⟩, fun d port hrun hdone hport =>
    ⟨_, exec_discoveryToken hrun hdone hport, ?_, fun k hk => SMap.get_set_ne _ s.tokens _ hk, rfl⟩, fun d a htok hdone =>
    ⟨_, exec_discoveryAnswer htok hdone a, ?_⟩⟩
  · have hjoin := s.joinTree_sameBut p d depth
    have hphys (n : Nat) : (s.joinTree p d depth).phys n = s.phys n := hjoin.fld _ _ _ (by simp [clkupKeys, fk])
    have hpos := State.posOf_congr hphys p
    obtain ⟨r, hr⟩ := s.joinTree_eq p d depth
    obtain ⟨hsame, r', c, m, mf, dp, df, k, kf, ht⟩ := (s.joinTree p d depth).clearOnJoin_frame p
    have hclk (q : Nat) : ((s.joinTree p d depth).clearOnJoin p).clkSt q = if q = p then .adopted d depth else s.clkSt q := by
      rw [ht]
      exact s.clkSt_adopt p d depth q
    refine ⟨(hclk p).trans (if_pos rfl), fun q hq => (hclk q).trans (if_neg (Fin.val_ne_of_ne hq)), fun g => ?_, ?_,
      fun hdone n hn fa hfa => State.frame_clearOnJoin ?_ (hpos.trans hn) hfa, ?_, ?_⟩
    · rw [hsame.fld _ _ _ (by simp [fk])]
      exact s.adopt_clkup p d depth g
    · rw [ht, hr]
      exact SMap.get_set_self (fun _ => none) s.replicas p (some (s.edgeTime, s.edgeTime, s.edgeTime))
    · rwa [State.isSet, hjoin.fld _ _ _ (by simp [clkupKeys, fk])]
    · rw [hphys, hpos] at hsame
      exact (hjoin.trans hsame).mono (by simp [clkupKeys])
    · rw [ht, hr]
  · have hbit := s.recordToken_testBit d port
    cases d <;> exact hbit
  · have hrec : (s.recordAnswer d a).answers = SMap.set (fun _ => none) s.answers (dieNo d) (some (s.answerSt d a)) := rfl
    have hcount : FieldsOf [.dieDiscstat] { s with answers := (s.recordAnswer d a).answers } (s.recordAnswer d a) :=
      (FieldsOf.refl _ _).setF _ _ _ _ (by decide)
    obtain ⟨hsame, hrest⟩ := (s.recordAnswer d a).portStarts_frame d a
    have hans : ((s.recordAnswer d a).portStarts d a).answers = (s.recordAnswer d a).answers := (congrArg State.answers hrest :)
    refine ⟨?_, fun k hk => ?_, ?_, fun k hk => ?_, ?_, ?_⟩
    · rw [State.answerOf, hans, hrec, SMap.get_set_self]
      cases d <;> rfl
    · rw [State.answerOf, hans]
      exact SMap.get_set_ne _ s.answers (some (s.answerSt d a)) hk
    · rw [hsame _ _ _ (by decide), hans]
      exact State.getF_setF_self _ _ _ _ _
    · have hport : dieRbPort d = some k.val := by
        cases d with
        | grain p => exact hk.elim
        | store g => exact congrArg some hk.symm
        | guest g => exact congrArg some hk.symm
      obtain ⟨hbuf, hcnt, hrx⟩ := (s.recordAnswer d a).startRbPort_read a k
      rw [State.portStarts_eq, hport]
      exact ⟨hbuf, hcnt, hrx.trans (hcount.1 _ _ _ (by decide))⟩
    · exact (hcount.1.mono (by decide)).trans (hsame.mono (by decide))
    · exact (congrArg (fun t : State => { t with regs := s.regs, answers := s.answers, rbRx := s.rbRx }) hrest :)

end Sys2Proof.Machine

open Sys2Proof Sys2Proof.Machine

/-- Settles O21: a grain joins the clock tree before its memory is cleared, an answer is recorded before its port starts, and a link
direction retires its bad lanes before it shows them. -/
theorem linksStartAndDiesAreDiscovered : Obligations.LinksStartAndDiesAreDiscovered :=
  ⟨discoveryFollowsClocksAndTokens, linkTrainingRetiresBadLanes⟩
end

section
/-! SUPPORT. Positions in die reset, and grains without a clock (R204, R229, R230). -/

namespace Sys2Proof.Machine

variable {s t : State} {p : Phys} {n m : Nat}

/-! ## A position enters die reset (R229) -/

/-- Position n is in die reset, its event port is empty and its design NoC ports have no outstanding tags. -/
def State.heldInReset (s : State) (n : Nat) : Prop :=
  (s.posSt n).inReset = true ∧ SMap.get (fun _ => []) s.evFifo n = [] ∧ (s.dnpSt n 0).tags = [] ∧ (s.dnpSt n 1).tags = []

theorem State.dieReset_eq (s : State) (n : Nat) : ∃ d, s.dieReset n = { s with
    pos := SMap.set (fun _ => PosSt.initial) s.pos n { s.posSt n with inReset := true }
    evFifo := SMap.set (fun _ => []) s.evFifo n [], dnp := d } := ⟨_, rfl⟩

theorem State.posSt_dieReset (s : State) (n m : Nat) :
    (s.dieReset n).posSt m = if m = n then { s.posSt n with inReset := true } else s.posSt m :=
  SMap.get_set (fun _ => PosSt.initial) s.pos n m { s.posSt n with inReset := true }

theorem State.evFifo_dieReset (s : State) (n m : Nat) : SMap.get (fun _ => []) (s.dieReset n).evFifo m =
    if m = n then [] else SMap.get (fun _ => []) s.evFifo m := SMap.get_set (fun _ => []) s.evFifo n m []

theorem State.dnpSt_setDnp (s : State) (n k m j : Nat) (d : DnpSt) :
    (s.setDnp n k d).dnpSt m j = if 2 * m + j = 2 * n + k then d else s.dnpSt m j := SMap.get_set (fun _ => DnpSt.idle) s.dnp _ _ d

/-- Die reset retires the tags of the ports of its position. -/
theorem State.tags_dieReset (s : State) (n m : Nat) {k : Nat} (hk : k < 2) :
    ((s.dieReset n).dnpSt m k).tags = if m = n then [] else (s.dnpSt m k).tags := by
  rw [State.dieReset, State.dnpSt_setDnp, State.dnpSt_setDnp]
  by_cases hm : m = n
  · subst hm
    obtain rfl | rfl : k = 0 ∨ k = 1 := by omega
    · simp
    · simp
  · rw [if_neg (by omega), if_neg (by omega), if_neg hm]
    rfl

theorem State.heldInReset_dieReset (s : State) (n : Nat) : (s.dieReset n).heldInReset n := by
  simp [State.heldInReset, State.posSt_dieReset, State.evFifo_dieReset, State.tags_dieReset]

/-- Die reset of a position takes no other out of it. -/
theorem State.heldInReset.dieReset (h : s.heldInReset n) (m : Nat) : (s.dieReset m).heldInReset n := by
  by_cases hn : n = m
  · exact hn ▸ s.heldInReset_dieReset n
  · simpa [State.heldInReset, State.posSt_dieReset, State.evFifo_dieReset, State.tags_dieReset, hn] using h

/-! ## A grain loses its clock (R230) -/

/-- Grain p forwards no clock any more. -/
def State.stopClock (s : State) (p : Nat) : State := s.setClk p { s.clkSt p with lost := true, fwd := false, orphan := false }

/-- The position that grain p serves is held in die reset. -/
def State.holdPosOf (s : State) (p : Nat) : State := (s.posOf p).elim s fun n => (s.setBitF .dieGrstHOLD n true).dieReset n

/-- DIE_CLKLOSS names grain p. -/
def State.showClkloss (s : State) (p : Nat) : State :=
  ((((s.setF .dieClklossPHYS p).setF .dieClklossLPOS ((s.posOf p).getD 0x3F)).setF .dieClklossPORTS (s.clkMissPorts p)).setOff
    .dieClklossCLKBACK).setOn .dieClklossSEEN

theorem exec_grainLost {c : Instr} (hc : c = .grainClockLoss p ∧ (s.clkSt p).fwd = true ∨ c = .orphanTimeout p ∧ (s.clkSt p).orphan = true)
    (hlost : (s.clkSt p).lost = false) : exec c s = .next (s.grainLost p) := by
  rcases hc with ⟨rfl, h⟩ | ⟨rfl, h⟩ <;> exact congrArg Host.Outcome.next (if_pos (by simp [h, hlost]))

theorem State.holdPosOf_frame (s : State) (p : Nat) : SameBut [fk .dieGrstHOLD] s (s.holdPosOf p) ∧
    ∃ r a e d, s.holdPosOf p = { s with regs := r, pos := a, evFifo := e, dnp := d } := by
  unfold State.holdPosOf
  cases s.posOf p with
  | none => exact ⟨SameBut.refl _ s, _, _, _, _, rfl⟩
  | some n => exact ⟨SameBut.setF s _ _ _ _, _, _, _, _, rfl⟩

theorem State.holdPosOf_holds (hn : s.posOf p = some n) :
    (s.holdPosOf p).bitF .dieGrstHOLD n = true ∧ ((s.holdPosOf p).posSt n).inReset = true := by
  rw [State.holdPosOf, hn]
  exact ⟨State.bitF_setBitF_self s _ _ _ _ _ (State.posOf_lt hn), (State.heldInReset_dieReset _ n).1⟩

/-- The fields of DIE_CLKLOSS. -/
def clklossKeys : List FKey := [fk .dieClklossSEEN, fk .dieClklossCLKBACK, fk .dieClklossPORTS, fk .dieClklossLPOS, fk .dieClklossPHYS]

theorem State.showClkloss_frame (s : State) (p : Nat) : RegsOnly clklossKeys s (s.showClkloss p) :=
  (((((RegsOnly.refl s).setF _ _ _ _).setF _ _ _ _).setF _ _ _ _).setF _ _ _ _).setF _ _ _ _

/-- DIE_CLKLOSS reads grain p, its position and the ports at which its neighbours miss its clock. -/
structure ClklossRead (t : State) (p lpos ports : Nat) : Prop where
  phys_eq : t.getF .dieClklossPHYS = p
  lpos_eq : t.getF .dieClklossLPOS = lpos
  ports_eq : t.getF .dieClklossPORTS = ports
  clkback_eq : t.getF .dieClklossCLKBACK = 0
  seen_eq : t.getF .dieClklossSEEN = 1

theorem State.showClkloss_read (s : State) (p : Phys) :
    ClklossRead (s.showClkloss p) p ((s.posOf p).getD 0x3F) (s.clkMissPorts p % 16) := by
  have hpos : (s.posOf p).getD 0x3F % 64 = (s.posOf p).getD 0x3F := by
    cases h : s.posOf p with
    | none => rfl
    | some n => exact Nat.mod_eq_of_lt ((State.posOf_lt h).trans (by decide))
  constructor <;> simp [State.showClkloss, State.setOn, State.setOff, hpos, Nat.mod_eq_of_lt p.isLt]

/-- The ports follow from CLKMISS of the neighbours alone. -/
theorem State.clkMissPorts_congr (h : ∀ i, t.getF .grnXstatCLKMISS i = s.getF .grnXstatCLKMISS i) (p : Nat) :
    t.clkMissPorts p = s.clkMissPorts p := by
  have hbit (b i : Nat) : t.bitF .grnXstatCLKMISS b i = s.bitF .grnXstatCLKMISS b i := congrArg (·.testBit b) (h i)
  unfold State.clkMissPorts
  simp only [hbit]

/-- Grain p without its clock: its links stop and its position is held. -/
def State.withoutClock (s : State) (p : Nat) : State := ((s.stopClock p).grainLinksOff p).holdPosOf p

theorem State.withoutClock_frame (s : State) (p : Nat) : SameBut [fk .dieGrstHOLD] s (s.withoutClock p) ∧
    ∃ r m a e d, s.withoutClock p = { s with
      regs := r, clk := (s.stopClock p).clk, link := m, pos := a, evFifo := e, dnp := d } := by
  obtain ⟨m, hm⟩ := (s.stopClock p).grainLinksOff_rest p
  obtain ⟨hsame, r, a, e, d, ht⟩ := ((s.stopClock p).grainLinksOff p).holdPosOf_frame p
  rw [← State.withoutClock, hm] at ht
  rw [← State.withoutClock, hm] at hsame
  exact ⟨hsame, r, m, a, e, d, ht⟩

theorem State.withoutClock_linkDown (s : State) {p : Nat} (k : Fin 4) (h : physNbr p (portOf k) ≠ .none) :
    (s.withoutClock p).linkDown (4 * p + k) := by
  obtain ⟨-, r, a, e, d, ht⟩ := ((s.stopClock p).grainLinksOff p).holdPosOf_frame p
  rw [State.withoutClock, ht]
  exact (s.stopClock p).linkDown_grainLinksOff k h

theorem State.posOf_withoutClock (s : State) (p q : Nat) : (s.withoutClock p).posOf q = s.posOf q :=
  State.posOf_congr (fun n => (s.withoutClock_frame p).1.fld .dieMapPHYS n 0 (by decide)) q

theorem State.withoutClock_holds (hn : s.posOf p = some n) :
    (s.withoutClock p).bitF .dieGrstHOLD n = true ∧ ((s.withoutClock p).posSt n).inReset = true := by
  obtain ⟨m, hm⟩ := (s.stopClock p).grainLinksOff_rest p
  exact State.holdPosOf_holds (by rw [hm]; exact hn)

theorem State.clkSt_withoutClock (s : State) (p : Nat) :
    (s.withoutClock p).clkSt p = { s.clkSt p with lost := true, fwd := false, orphan := false } := by
  obtain ⟨-, r, m, a, e, d, ht⟩ := s.withoutClock_frame p
  rw [ht]
  exact s.clkSt_setClk_self p _

/-- The loss is shown and announced. -/
theorem State.grainLost_shows (s : State) (p : Nat) :
    Raised 984 0 (s.withoutClock p) (s.grainLost p) ∧ SameBut (clklossKeys ++ evKeys 984) (s.withoutClock p) (s.grainLost p) ∧
      ∃ r o, s.grainLost p = { s.withoutClock p with regs := r, out := o } := by
  obtain ⟨hraised, hsame, hrest⟩ := ((s.withoutClock p).showClkloss_frame p).raise (e := 984) (by decide) (by decide) 0
  exact ⟨hraised, hsame, eq_of_putBack_regs_out hrest⟩

theorem State.grainLost_read (s : State) (p : Phys) :
    ClklossRead (s.grainLost p) p ((s.posOf p).getD 0x3F) (s.clkMissPorts p % 16) := by
  have hget (f : Fld) (hf : f.info.reg ∉ [RegName.evrPay, .evrRoute]) :
      (s.grainLost p).getF f = ((s.withoutClock p).showClkloss p).getF f := State.getF_raise (by decide) 0 hf
  have hread := (s.withoutClock p).showClkloss_read p
  rw [s.posOf_withoutClock, State.clkMissPorts_congr (s := s) fun i => (s.withoutClock_frame p).1.fld _ _ _ (by decide)] at hread
  obtain ⟨hphys, hlpos, hports, hback, hseen⟩ := hread
  exact ⟨(hget _ (by decide)).trans hphys, (hget _ (by decide)).trans hlpos, (hget _ (by decide)).trans hports,
    (hget _ (by decide)).trans hback, (hget _ (by decide)).trans hseen⟩

theorem State.grainLost_frame (s : State) (p : Nat) :
    Raised 984 0 s (s.grainLost p) ∧ sameRegs [.dieGrst, .dieClkloss, .evrPay, .evrRoute] s (s.grainLost p) ∧
      ∃ r o k m a e d, s.grainLost p = { s with regs := r, out := o, clk := k, link := m, pos := a, evFifo := e, dnp := d } := by
  obtain ⟨hsame, r, m, a, e, d, ht⟩ := s.withoutClock_frame p
  obtain ⟨hraised, hshow, r', o, hend⟩ := s.grainLost_shows p
  exact ⟨hraised.of_sameBut hsame (by decide) (by rw [ht]), SameBut.sameRegs (hsame.trans hshow) (by decide), r', o, _, m, a, e, d,
    by rw [hend, ht]⟩

/-! ## Orphans (R204) -/

/-- Grain p takes the clock of port b.1, of depth b.2, and tells so if it serves a position. -/
def State.takeClock (s : State) (p : Nat) (b : GPort × Nat) : State :=
  let t := s.adopt p b.1 b.2
  (t.posOf p).elim t fun n => t.raiseG n 14

theorem exec_orphan (hlost : (s.clkSt p).lost = false) (h : (s.clkSt p).orphan = true ∨ s.upstreamBad p = true) :
    exec (.orphan p) s = .next ((s.bestPort p).elim (s.setClk p { s.clkSt p with orphan := true }) (s.takeClock p)) := by
  refine congrArg Host.Outcome.next ((if_neg ?_).trans ?_)
  · rcases h with h | h <;> simp [hlost, h]
  · cases s.bestPort p <;> rfl

theorem State.takeClock_frame (s : State) (p : Nat) (b : GPort × Nat) : sameRegs [.grnLnkstat, .evrPay, .evrRoute] s (s.takeClock p b) ∧
    ∃ r o, s.takeClock p b = { s.setClk p (.adopted b.1 b.2) with regs := r, out := o } := by
  have htell (t : State) : FieldsAndOut [.evrPay, .evrRoute] t ((t.posOf p).elim t fun n => t.raiseG n 14) := by
    cases t.posOf p
    · exact .refl _ t
    · exact (FieldsAndOut.refl _ t).raise
  obtain ⟨hregs, r, o, ht⟩ := htell (s.adopt p b.1 b.2)
  obtain ⟨r', hadopt⟩ := s.adopt_eq p b.1 b.2
  exact ⟨((s.adopt_sameRegs p b.1 b.2).mono (by decide)).trans (hregs.mono (by decide)), r, o, by rw [State.takeClock, ht, hadopt]⟩

theorem State.takeClock_out (hn : s.posOf p = some n) (b : GPort × Nat) : OutMsg.fwEvent (16 * n + 14) 0 ∈ (s.takeClock p b).out := by
  have hpos : (s.adopt p b.1 b.2).posOf p = some n :=
    (State.posOf_congr (fun m => s.adopt_sameRegs p b.1 b.2 .dieMapPHYS m 0 (by decide)) p).trans hn
  rw [State.takeClock, hpos]
  exact State.mem_raise_out _ (evSource_grain (State.posOf_lt hn) (by decide)) 0

/-! ## A clock returns (R230) -/

/-- DIE_CLKLOSS shows that the clock of the grain it names is back. -/
def State.showClkback (s : State) (p : Phys) : State := if s.getF .dieClklossPHYS = p.val then s.setOn .dieClklossCLKBACK else s

theorem exec_clockRegained {d : GPort} {depth : Nat} (hlost : (s.clkSt p).lost = true) (hclk : s.clockAt p d = some depth) :
    exec (.clockRegained (.grain p d)) s = .next ((s.joinTree p d depth).showClkback p) := by
  refine congrArg Host.Outcome.next ((if_neg (by simp [hlost])).trans ?_)
  rw [hclk]
  rfl

theorem State.showClkback_frame (s : State) (p : Phys) : FieldsOf [.dieClkloss] s (s.showClkback p) := by
  unfold State.showClkback
  split
  · exact (FieldsOf.refl _ s).setF _ _ _ _ (by decide)
  · exact .refl _ s

theorem State.showClkback_read (h : s.getF .dieClklossPHYS = p.val) : (s.showClkback p).getF .dieClklossCLKBACK = 1 := by
  rw [State.showClkback, if_pos h]
  exact State.getF_setF_self _ _ _ _ _

end Sys2Proof.Machine

open Sys2Proof Sys2Proof.Machine

/-- Settles O39: a grain without its clock is stopped first and shown lost then; a grain that hears a clock joins the tree through its
port, and keeps the state of its position. -/
theorem lostAndOrphanedGrains : Obligations.LostAndOrphanedGrains := by
  refine fun p s => ⟨fun c hc hlost => ⟨_, exec_grainLost hc hlost, ?_⟩, fun hlost h => ⟨_, exec_orphan hlost h, ?_⟩,
    fun d depth hlost hclk => ⟨_, exec_clockRegained hlost hclk, ?_⟩⟩
  · obtain ⟨hraised, hregs, _, _, _, _, _, _, _, hrest⟩ := s.grainLost_frame p
    obtain ⟨-, hshow, _, _, hend⟩ := s.grainLost_shows p
    obtain ⟨hphys, hlpos, hports, hback, hseen⟩ := s.grainLost_read p
    have hclkSt : (s.grainLost p).clkSt p = (s.withoutClock p).clkSt p := by rw [hend]; rfl
    rw [hclkSt, s.clkSt_withoutClock p]
    refine ⟨rfl, rfl, hphys, hlpos, hports, hback, hseen, hraised, fun n hn => ?_, fun k hk => ?_, hregs, by rw [hrest]⟩
    · obtain ⟨hhold, hreset⟩ := State.withoutClock_holds hn
      refine ⟨(congrArg (·.testBit n) (hshow.fld _ _ _ (by decide))).trans hhold, ?_⟩
      rw [hend]
      exact hreset
    · rw [hend]
      exact s.withoutClock_linkDown k hk
  · cases hbest : s.bestPort p with
    | none => exact ⟨fun _ hb => (nomatch hb), fun _ => ⟨s.clkSt_setClk_self p _, rfl⟩, fun _ _ _ _ => rfl, rfl⟩
    | some b =>
      obtain ⟨hregs, r, o, ht⟩ := s.takeClock_frame p b
      refine ⟨fun b' hb => ?_, fun hb => (nomatch hb), hregs, by rw [Option.elim_some, ht]; rfl⟩
      obtain rfl := Option.some.inj hb
      refine ⟨?_, fun n hn => State.takeClock_out hn b⟩
      rw [Option.elim_some, ht]
      exact s.clkSt_setClk_self p (.adopted b.1 b.2)
  · obtain ⟨r, hjoin⟩ := s.joinTree_eq p d depth
    have hclkup : sameRegs [.grnLnkstat] s (s.joinTree p d depth) := s.adopt_sameRegs p d depth
    obtain ⟨hback, r', ht⟩ := (s.joinTree p d depth).showClkback_frame p
    refine ⟨?_, fun hphys => State.showClkback_read ((hclkup _ _ _ (by decide)).trans hphys), ?_,
      (hclkup.mono (by decide)).trans (hback.mono (by decide)), ?_⟩ <;> rw [ht, hjoin]
    exact s.clkSt_setClk_self p (.adopted d depth)
end

section
/-! SUPPORT. DIE_GRST (R229, R231): the positions that a write holds in die reset, and the start of one that is released. -/

namespace Sys2Proof.Machine

variable {s t : State} {n m : Nat}

/-! ## Writes of DIE_GRST (R229) -/

/-- What DIE_GRST holds after a write of w under mask m. -/
def State.grstAfter (s : State) (w m : Nat) : Nat :=
  (s.getF .dieGrstHOLD &&& (2 ^ 60 - 1 - m % 2 ^ 60)) ||| (w % 2 ^ 60 &&& m % 2 ^ 60)

theorem State.grstAfter_lt (s : State) (w m : Nat) : s.grstAfter w m < 2 ^ 60 :=
  Nat.or_lt_two_pow (Nat.lt_of_le_of_lt Nat.and_le_right (by omega)) (Nat.lt_of_le_of_lt Nat.and_le_right (Nat.mod_lt _ (by decide)))

theorem State.writeReg_dieGrst (s : State) (w m : Nat) : s.writeReg .dieGrst 0 0 w m = s.setF .dieGrstHOLD (s.grstAfter w m) := by
  have hbits (x : Nat) : bits x 0 60 = x % 2 ^ 60 := by rw [bits, pow_zero, Nat.div_one]
  rw [State.grstAfter, ← hbits w, ← hbits m]
  rfl

/-- The positions of a list that e names enter die reset. -/
def State.resetNamed (s : State) (e : Nat → Bool) (ns : List Nat) : State := ns.foldl (fun t n => if e n then t.dieReset n else t) s

/-- A write holds the positions that it names anew. -/
def State.holdWritten (s : State) (w m : Nat) : State :=
  (s.setF .dieGrstHOLD (s.grstAfter w m)).resetNamed (fun n => (s.grstAfter w m).testBit n && !s.bitF .dieGrstHOLD n) (List.range 60)

theorem State.grstWrite_eq (s : State) (w m : Nat) : s.grstWrite w m =
    if (s.grstAfter w m).testBit 29 && (s.grstAfter w m).testBit 30 then s else s.holdWritten w m := by
  rw [State.grstWrite, State.writeReg_dieGrst, State.getF_setF_self, Fld.dieGrstHOLD_len, Nat.mod_eq_of_lt (s.grstAfter_lt w m)]
  rfl

theorem exec_holdWrite (hs : s.perst = false) (hu : s.unitOn .die = true) (w : W64) (lo hi : Bool) : exec (.holdWrite w lo hi) s =
    .next (s.grstWrite w.toNat ((if lo then full32 else 0) + (if hi then full32 * 2 ^ 32 else 0))) :=
  congrArg Host.Outcome.next ((if_neg (by simp [hs])).trans (if_pos hu))

theorem State.resetNamed_frame (s : State) (e : Nat → Bool) (ns : List Nat) :
    ∃ a f d, s.resetNamed e ns = { s with pos := a, evFifo := f, dnp := d } := by
  refine List.foldlRecOn (motive := fun t : State => ∃ a f d, t = { s with pos := a, evFifo := f, dnp := d }) _ _
    ⟨_, _, _, rfl⟩ fun t ⟨a, f, d, ht⟩ n _ => ?_
  split
  · obtain ⟨d', hd⟩ := t.dieReset_eq n
    exact ⟨_, _, d', by rw [hd, ht]⟩
  · exact ⟨a, f, d, ht⟩

theorem State.heldInReset_resetNamed {e : Nat → Bool} {ns : List Nat} (h : n ∈ ns ∧ e n = true ∨ s.heldInReset n) :
    (s.resetNamed e ns).heldInReset n := by
  induction ns generalizing s with
  | nil => exact h.resolve_left fun ⟨hn, _⟩ => List.not_mem_nil hn
  | cons m ns ih =>
    refine ih ?_
    dsimp only
    rcases h with ⟨hn, he⟩ | h
    · rcases List.mem_cons.mp hn with rfl | hn
      · rw [if_pos he]
        exact .inr (s.heldInReset_dieReset n)
      · exact .inl ⟨hn, he⟩
    · split
      · exact .inr (h.dieReset m)
      · exact .inr h

/-- A position that e does not name keeps its state. -/
theorem State.posSt_resetNamed {e : Nat → Bool} (he : e n = false) (ns : List Nat) : (s.resetNamed e ns).posSt n = s.posSt n := by
  refine List.foldlRecOn (motive := fun t : State => t.posSt n = s.posSt n) _ _ rfl fun t ht m _ => ?_
  split
  next hm =>
    rw [State.posSt_dieReset, if_neg, ht]
    rintro rfl
    simp [he] at hm
  · exact ht

/-- A write that would hold both L29 and L30 is dropped; any other holds the positions that it names, and those it names anew enter die
reset. -/
theorem State.grstWrite_spec (s : State) (w m : Nat) : let t := s.grstWrite w m
    ((s.grstAfter w m).testBit 29 = true → (s.grstAfter w m).testBit 30 = true → t = s) ∧
    (¬((s.grstAfter w m).testBit 29 = true ∧ (s.grstAfter w m).testBit 30 = true) →
      t.getF .dieGrstHOLD = s.grstAfter w m ∧
      (∀ n : Pos, (s.grstAfter w m).testBit n = true → s.bitF .dieGrstHOLD n = false → t.heldInReset n) ∧
      (∀ n : Pos, (s.grstAfter w m).testBit n = false ∨ s.bitF .dieGrstHOLD n = true → t.posSt n = s.posSt n) ∧
      SameBut [fk .dieGrstHOLD] s t ∧ ∃ r a f d, t = { s with regs := r, pos := a, evFifo := f, dnp := d }) := by
  rw [State.grstWrite_eq]
  refine ⟨fun h29 h30 => if_pos (by rw [h29, h30]; rfl), fun h => ?_⟩
  rw [if_neg (by simpa using h)]
  have hset : SameBut [fk .dieGrstHOLD] s (s.setF .dieGrstHOLD (s.grstAfter w m)) := SameBut.setF s _ _ _ _
  have hnew : (s.setF .dieGrstHOLD (s.grstAfter w m)).getF .dieGrstHOLD = s.grstAfter w m :=
    (State.getF_setF_self _ _ _ _ _).trans (Nat.mod_eq_of_lt (s.grstAfter_lt w m))
  obtain ⟨a, f, d, ht⟩ := (s.setF .dieGrstHOLD (s.grstAfter w m)).resetNamed_frame
    (fun n => (s.grstAfter w m).testBit n && !s.bitF .dieGrstHOLD n) (List.range 60)
  rw [← State.holdWritten] at ht
  refine ⟨?_, fun n hn hold => State.heldInReset_resetNamed (.inl ⟨List.mem_range.mpr n.isLt, by rw [hn, hold]; rfl⟩),
    fun n hn => State.posSt_resetNamed (s := s.setF .dieGrstHOLD (s.grstAfter w m)) ?_ _, ?_, _, a, f, d, ht⟩
  · rw [ht]
    exact hnew
  · rcases hn with hn | hn <;> simp [hn]
  · rw [ht]
    exact hset

/-! ## The flip-flops of a position that starts (R51) -/

/-- A frame of zeros starts its cells from 0. -/
theorem State.startQ_zero (s : State) (key : Nat) : s.startQ key 0 = 0 := by
  have hcell (c : Nat) : (cellCfg 0 c).srval = false ∧ (cellCfg 0 c).init = false := by simp [cellCfg, bits]
  simp [State.startQ, hcell, maskOf]

/-- One entry of the configuration memory starts the tile that it configures. -/
def State.startEntry (s u : State) (n : Nat) (e : Nat × CfgFrame) : State :=
  let fa := e.1 % 2 ^ 32
  if e.1 / 2 ^ 32 = n ∧ fa < 24576 then
    let v := u.setTileQ (tileKey n (fa / 128) (fa % 128)) (s.startQ (tileKey n (fa / 128) (fa % 128)) e.2.data)
    match sliceAt (fa / 128) (fa % 128) with
    | some k => v.setSlice n k (sliceStart (sliceAttr e.2.data))
    | none => v
  else u

/-- The flip-flops, ports and slices of position n are cleared. -/
def State.clearTiles (s : State) (n : Nat) : State :=
  { s with
    q := SMap.clearWhere (tileIn n allTiles) s.q
    bport := SMap.clearWhere (fun k => k / 592 == n && true) s.bport
    blast := SMap.clearWhere (fun k => k / 296 == n && true) s.blast
    slices := SMap.clearWhere (fun k => k / 512 == n && true) s.slices }

theorem State.startTiles_eq (s : State) (n : Nat) : s.startTiles n allTiles = s.cfg.foldl (s.startEntry · n) (s.clearTiles n) := by
  unfold State.startTiles State.startEntry
  simp only [allTiles, and_true]
  rfl

theorem tileKey_div (n : Nat) (c : Fin 192) (r : Fin 128) : tileKey n c r / 24576 = n := by
  unfold tileKey
  omega

theorem State.tileQ_startEntry (s u : State) (n : Nat) (e : Nat × CfgFrame) (m : Nat) (c : Fin 192) (r : Fin 128) :
    (s.startEntry u n e).tileQ (tileKey m c r) =
      if m = n ∧ e.1 = cfgKey n (faddrOf 0 (c * 128 + r)) then s.startQ (tileKey m c r) e.2.data else u.tileQ (tileKey m c r) := by
  unfold State.startEntry
  dsimp only
  have hkey : (e.1 / 2 ^ 32 = n ∧ e.1 % 2 ^ 32 < 24576) → ((m = n ∧ e.1 = cfgKey n (faddrOf 0 (c * 128 + r))) ↔
      tileKey m c r = tileKey n (e.1 % 2 ^ 32 / 128) (e.1 % 2 ^ 32 % 128)) := by
    unfold tileKey cfgKey faddrOf
    omega
  split
  next hin =>
    have hslice (v : State) : (match sliceAt (e.1 % 2 ^ 32 / 128) (e.1 % 2 ^ 32 % 128) with
        | some k => v.setSlice n k (sliceStart (sliceAttr e.2.data))
        | none => v).tileQ (tileKey m c r) = v.tileQ (tileKey m c r) := by split <;> rfl
    rw [hslice]
    by_cases h : m = n ∧ e.1 = cfgKey n (faddrOf 0 (c * 128 + r))
    · rw [if_pos h, ← (hkey hin).mp h]
      exact SMap.get_set_self _ _ _ _
    · rw [if_neg h]
      exact SMap.get_set_ne _ _ _ fun he => h ((hkey hin).mpr he)
  next hout =>
    rw [if_neg]
    unfold cfgKey faddrOf
    omega

/-- What the entries of a list start of the tiles of position n. -/
theorem State.tileQ_startEntries {es : List (Nat × CfgFrame)} (hes : ∀ e ∈ es, SMap.get (fun _ => CfgFrame.zero) s.cfg e.1 = e.2)
    (u : State) (n : Nat) (c : Fin 192) (r : Fin 128) : (es.foldl (s.startEntry · n) u).tileQ (tileKey n c r) =
      if cfgKey n (faddrOf 0 (c * 128 + r)) ∈ es.map (·.1) then s.startQ (tileKey n c r) (s.tileFrame n c r)
      else u.tileQ (tileKey n c r) := by
  induction es generalizing u with
  | nil => rfl
  | cons e es ih =>
    have he := hes e List.mem_cons_self
    rw [List.foldl_cons, ih fun e' he' => hes e' (List.mem_cons_of_mem _ he'), State.tileQ_startEntry]
    by_cases hk : e.1 = cfgKey n (faddrOf 0 (c * 128 + r))
    · have hframe : s.tileFrame n c r = e.2.data := by rw [State.tileFrame, State.frame, ← hk, he]
      simp [hk, hframe]
    · simp only [hk, Ne.symm hk, List.map_cons, List.mem_cons, and_false, false_or, if_false]

/-- Every tile of position n starts from its frame, and no other tile does. -/
theorem State.tileQ_startTiles (w : SMap.wf (fun _ => CfgFrame.zero) s.cfg = true) (n m : Nat) (c : Fin 192) (r : Fin 128) :
    (s.startTiles n allTiles).tileQ (tileKey m c r) =
      if m = n then s.startQ (tileKey n c r) (s.tileFrame n c r) else s.tileQ (tileKey m c r) := by
  have hclear : (s.clearTiles n).tileQ (tileKey m c r) = if m = n then 0 else s.tileQ (tileKey m c r) := by
    refine (SMap.get_clearWhere (fun _ => 0) (tileIn n allTiles) s.q (tileKey m c r)).trans (if_congr ?_ rfl rfl)
    simp [tileIn, allTiles, tileKey_div]
  rw [State.startTiles_eq]
  split
  next hm =>
    subst hm
    rw [State.tileQ_startEntries fun e he => SMap.get_of_mem w he, hclear, if_pos rfl]
    split
    · rfl
    next hnone =>
      have hzero : s.tileFrame m c r = 0 := congrArg CfgFrame.data (SMap.get_of_notMem _ hnone)
      rw [hzero, State.startQ_zero]
  next hm =>
    refine Eq.trans (List.foldlRecOn (motive := fun u : State => u.tileQ (tileKey m c r) = (s.clearTiles n).tileQ (tileKey m c r)) _ _
      rfl fun u hu e _ => ?_) (hclear.trans (if_neg hm))
    rw [State.tileQ_startEntry, if_neg fun h => hm h.1, hu]

theorem State.startTiles_rest (s : State) (n : Nat) :
    ∃ q b l k, s.startTiles n allTiles = { s with q := q, bport := b, blast := l, slices := k } := by
  rw [State.startTiles_eq]
  refine List.foldlRecOn (motive := fun u : State => ∃ q b l k, u = { s with q := q, bport := b, blast := l, slices := k }) _ _
    ⟨_, _, _, _, rfl⟩ fun u ⟨q, b, l, k, hu⟩ e _ => ?_
  unfold State.startEntry
  dsimp only
  split
  · split
    · exact ⟨_, b, l, _, by rw [hu]; rfl⟩
    · exact ⟨_, b, l, k, by rw [hu]; rfl⟩
  · exact ⟨q, b, l, k, hu⟩

/-! ## The release of a position (R231) -/

/-- Position n leaves die reset, and its freezes end. -/
def State.leaveReset (s : State) (n : Nat) : State := (s.setPos n { s.posSt n with inReset := false }).thawAll n

/-- A released position that is not under global restore starts from INIT. -/
def State.startReleased (s : State) (n : Nat) : State :=
  if (s.posSt n).restore then s.leaveReset n else (s.leaveReset n).startTiles n allTiles

theorem State.posSt_leaveReset (s : State) (n m : Nat) :
    (s.leaveReset n).posSt m = if m = n then { s.posSt n with inReset := false } else s.posSt m :=
  SMap.get_set (fun _ => PosSt.initial) s.pos n m { s.posSt n with inReset := false }

theorem exec_holdRelease {n : Pos} (hreset : (s.posSt n).inReset = true) (hhold : s.bitF .dieGrstHOLD n = false)
    (hoos : s.isOos n = false) (hlost : (s.clkSt (s.phys n)).lost = false) (hrun : s.crossingRuns = true) (hx : s.xidx % 4096 = 0) :
    exec (.holdRelease n) s = .next (s.startReleased n) := by
  have hrestore : ((s.leaveReset n).posSt n).restore = (s.posSt n).restore := by
    rw [State.posSt_leaveReset, if_pos rfl]
  rw [State.startReleased, ← hrestore]
  exact congrArg Host.Outcome.next (if_neg (by simp [hreset, hhold, hoos, hlost, hrun, hx]))

theorem State.leaveReset_frame (s : State) (n : Nat) : SameBut [fk .grnShdsrcFROZEN (s.phys n)] s (s.leaveReset n) ∧
    ∃ r a f, s.leaveReset n = { s with regs := r, pos := a, frozen := f } := ⟨SameBut.setF s _ _ _ _, _, _, _, rfl⟩

theorem State.startReleased_rest (s : State) (n : Nat) :
    ∃ q b l k, s.startReleased n = { s.leaveReset n with q := q, bport := b, blast := l, slices := k } := by
  unfold State.startReleased
  split
  · exact ⟨_, _, _, _, rfl⟩
  · exact (s.leaveReset n).startTiles_rest n

theorem State.tileQ_startReleased (w : SMap.wf (fun _ => CfgFrame.zero) s.cfg = true) (n m : Nat) (c : Fin 192) (r : Fin 128) :
    (s.startReleased n).tileQ (tileKey m c r) =
      if m = n ∧ (s.posSt n).restore = false then s.startQ (tileKey n c r) (s.tileFrame n c r) else s.tileQ (tileKey m c r) := by
  unfold State.startReleased
  split
  next h => exact (if_neg (by simp [h])).symm
  next h =>
    refine (State.tileQ_startTiles (s := s.leaveReset n) w n m c r).trans (if_congr ?_ rfl rfl)
    simp [h]

end Sys2Proof.Machine

open Sys2Proof Sys2Proof.Machine

/-- Settles O38: a write names the positions that enter die reset one after another; a release frees its position before the tiles start
from the entries of the configuration memory. -/
theorem dieResetHoldsAndReleases : Obligations.DieResetHoldsAndReleases := by
  refine fun s => ⟨fun w lo hi hs hu => ⟨_, exec_holdWrite hs hu w lo hi, ?_⟩, fun n hreset hhold hoos hlost hrun hx hwf =>
    ⟨_, exec_holdRelease hreset hhold hoos hlost hrun hx, ?_⟩⟩
  · obtain ⟨hboth, hother⟩ := s.grstWrite_spec w.toNat ((if lo then full32 else 0) + (if hi then full32 * 2 ^ 32 else 0))
    refine ⟨hboth, fun h => ?_⟩
    obtain ⟨hold, henter, hstay, hsame, r, a, f, d, ht⟩ := hother h
    exact ⟨hold, henter, hstay, hsame, by rw [ht]⟩
  · obtain ⟨hsame, r, a, f, hleave⟩ := s.leaveReset_frame n
    obtain ⟨q, b, l, k, ht⟩ := s.startReleased_rest n
    have hpos (m : Nat) : (s.startReleased n).posSt m = if m = n then { s.posSt n with inReset := false } else s.posSt m := by
      rw [ht]
      exact s.posSt_leaveReset n m
    have hq (m : Pos) := State.tileQ_startReleased hwf n m
    rw [hpos, if_pos rfl]
    refine ⟨rfl, rfl, fun m hm => (hpos m).trans (if_neg (Fin.val_ne_of_ne hm)), fun h c r => (hq n c r).trans (if_pos ⟨rfl, h⟩),
      fun m hm c r => (hq m c r).trans (if_neg fun h => Fin.val_ne_of_ne hm h.1), ?_, by rw [ht, hleave]⟩
    rw [ht]
    exact hsame
end

section
/-! SUPPORT. Requests of a remap (R224–R226): what a request names, a refusal and a beginning show, and die-link faults that wait. -/

namespace Sys2Proof.Machine

variable {rs : List RegName} {s t : State} {n spare : Nat} {f : PathFacts}

/-! ## What the checks look at -/

/-- The registers of a remap. -/
def remapRegs : List RegName := [.dieRemapctl, .dieRemapstat]

theorem FieldsOf.trans {u : State} (h : FieldsOf rs s t) (h' : FieldsOf rs t u) : FieldsOf rs s u := by
  obtain ⟨h, _, rfl⟩ := h
  obtain ⟨h', _, rfl⟩ := h'
  exact ⟨h.trans h', _, rfl⟩

theorem FieldsOf.getF_eq (h : FieldsOf rs s t) {g : Fld} (hg : g.info.reg ∉ rs) (i j : Nat) : t.getF g i j = s.getF g i j :=
  h.1 g i j hg

section
variable (h : FieldsOf remapRegs s t)
include h

theorem FieldsOf.phys_eq (m : Nat) : t.phys m = s.phys m := h.getF_eq (by decide) _ _

theorem FieldsOf.oos_eq (m : Nat) : t.isOos m = s.isOos m := by
  obtain ⟨-, _, rfl⟩ := h
  rfl

theorem FieldsOf.memSize_eq : t.memSize = s.memSize := by
  have hvalid : t.isSet .ddrImap0VALID = s.isSet .ddrImap0VALID := congrArg (· != 0) (h.getF_eq (by decide) 0 0)
  rw [State.memSize, State.memSize, hvalid, h.getF_eq (g := .ddrImap0K) (by decide), h.getF_eq (g := .ddrImap0CGIB) (by decide)]

theorem FieldsOf.floorBusy_eq (m : Nat) : t.floorBusy m = s.floorBusy m := by
  have hsteep (k : Nat) : t.steeping k = s.steeping k := by simp only [State.steeping, h.getF_eq (g := .kilnFlrstatSTATE) (by decide)]
  have htouch (k : Nat) : t.touches k m = s.touches k m := by
    obtain ⟨-, _, rfl⟩ := h
    rfl
  have hpld : t.pld = s.pld := by
    obtain ⟨-, _, rfl⟩ := h
    rfl
  have hfloor : t.pldFloor = s.pldFloor := h.getF_eq (by decide) 0 0
  have hload : t.floorLoading m = s.floorLoading m := by
    rw [State.floorLoading, State.floorLoading, hpld, hfloor, htouch]
  simp only [State.floorBusy, hsteep, htouch, hload]

/-- A request is checked against the map, the spares and the load, not against what the remap shows. -/
theorem FieldsOf.remapReason_eq : t.remapReason n spare f = s.remapReason n spare f := by
  have hloading : t.loading = s.loading := by simp only [State.loading, h.getF_eq (g := .kilnStatSTATE) (by decide)]
  have hpresent : t.present spare = s.present spare := congrArg (· != 0) (h.getF_eq (by decide) _ _)
  have hserves : (fun m => t.phys m == spare && !t.isOos m) = fun m => s.phys m == spare && !s.isOos m := by
    funext m
    rw [h.phys_eq, h.oos_eq]
  have hfree : t.spareFree spare = s.spareFree spare := by
    rw [State.spareFree, State.spareFree, hpresent, hserves]
  have hphys : t.phys = s.phys := funext h.phys_eq
  rw [State.remapReason, State.remapReason, hloading, hfree, hphys]

end

/-! ## A refusal and a beginning -/

theorem State.remapRefuse_fieldsOf (s : State) (n spare reason : Nat) : FieldsOf remapRegs s (s.remapRefuse n spare reason) := by
  obtain ⟨hsame, hput⟩ := s.remapRefuse_frame n spare reason
  exact ⟨hsame.sameRegs (by decide), eq_of_putBack_regs hput⟩

theorem State.remapRefuse_names (s : State) (n spare reason : Nat) :
    (s.remapRefuse n spare reason).getF .dieRemapstatLPOS = n % 64 ∧
      (s.remapRefuse n spare reason).getF .dieRemapstatSPARE = spare % 64 ∧
      (s.remapRefuse n spare reason).getF .dieRemapstatNOSTATE = 0 := by
  simp [State.remapRefuse, State.setOn, State.setOff]

/-- A position out of service, or a part without device memory, has no state to carry over (R228, R338). -/
def State.remapNostate (s : State) (n : Nat) : Bool := s.isOos n || s.memSize == 0

/-- The remap of position n to a spare shows that it begins. -/
def State.showRemap (s : State) (n spare : Nat) : State :=
  ((((s.setF .dieRemapstatSTATE 1).setF .dieRemapstatREASON 0).setF .dieRemapstatLPOS n).setF .dieRemapstatSPARE spare).setF
    .dieRemapstatNOSTATE (s.remapNostate n).toNat

theorem State.showRemap_read (s : State) (n spare : Nat) :
    (s.showRemap n spare).getF .dieRemapstatSTATE = 1 ∧ (s.showRemap n spare).getF .dieRemapstatREASON = 0 ∧
      (s.showRemap n spare).getF .dieRemapstatLPOS = n % 64 ∧ (s.showRemap n spare).getF .dieRemapstatSPARE = spare % 64 ∧
      (s.showRemap n spare).getF .dieRemapstatNOSTATE = (s.remapNostate n).toNat := by
  simp [State.showRemap, Nat.mod_eq_of_lt (s.remapNostate n).toNat_lt]

theorem State.showRemap_frame (s : State) (n spare : Nat) : FieldsOf [.dieRemapstat] s (s.showRemap n spare) :=
  (((((FieldsOf.refl _ s).setF _ _ _ _ (by decide)).setF _ _ _ _ (by decide)).setF _ _ _ _ (by decide)).setF _ _ _ _ (by decide)).setF
    _ _ _ _ (by decide)

theorem State.showRemap_fieldsOf (s : State) (n spare : Nat) : FieldsOf remapRegs s (s.showRemap n spare) := by
  obtain ⟨hsame, hregs⟩ := s.showRemap_frame n spare
  exact ⟨hsame.mono (by decide), hregs⟩

/-- The remap of position n to a spare waits for its step 2. -/
def State.remapWaiting (s : State) (n spare : Nat) : RemapSt :=
  ⟨.waiting, n, spare, [spare], s.remapNostate n, s.phys n, s.remap.queued⟩

/-- The preparation of a spare keeps every register outside the grain windows. -/
theorem State.getF_remapPrepare (s : State) {g : Fld} (hg : grainFld g = false) (i j : Nat) :
    s.remapPrepare.getF g i j = s.getF g i j := by
  have hreset := s.getF_resetFields (fun f i _ => grainFld f && i == s.remap.spare) g i j
  rw [hg, Bool.false_and, if_neg Bool.false_ne_true] at hreset
  exact hreset

/-- The remap of position n to a spare, waiting. -/
def State.beginRemap (s : State) (n spare : Nat) : State := { s.showRemap n spare with remap := s.remapWaiting n spare }

theorem State.beginRemap_floorBusy (s : State) (n spare m : Nat) : (s.beginRemap n spare).floorBusy m = s.floorBusy m :=
  (s.showRemap_fieldsOf n spare).floorBusy_eq m

theorem State.remapResume_of_waiting (h : s.remap.phase = .waiting) :
    s.remapResume = if s.floorBusy s.remap.pos then s else s.remapPrepare := by
  rw [State.remapResume, h]
  cases s.floorBusy s.remap.pos <;> rfl

/-- The remap waits for a floor of its position, or its step 2 begins. -/
theorem State.remapAccept_eq (s : State) (n spare : Nat) : s.remapAccept n spare =
    if s.floorBusy n then s.beginRemap n spare else (s.beginRemap n spare).remapPrepare := by
  rw [← s.beginRemap_floorBusy n spare n]
  exact State.remapResume_of_waiting (s := s.beginRemap n spare) rfl

theorem State.remapPrepare_frame (s : State) :
    s.remapPrepare.remap = { s.remap with phase := .preparing } ∧ ∃ r m h, s.remapPrepare = { s with regs := r, remap := m, isoHard := h } :=
  ⟨rfl, _, _, _, rfl⟩

theorem State.beginRemap_frame (s : State) (n spare : Nat) :
    (s.beginRemap n spare).remap = s.remapWaiting n spare ∧ ∃ r m, s.beginRemap n spare = { s with regs := r, remap := m } :=
  ⟨rfl, _, _, rfl⟩

theorem State.remapAccept_spec (s : State) (n spare : Nat) :
    (∀ g i j, grainFld g = false → (s.remapAccept n spare).getF g i j = (s.showRemap n spare).getF g i j) ∧
      (s.remapAccept n spare).remap =
        { s.remapWaiting n spare with phase := if s.floorBusy n then .waiting else .preparing } ∧
      ∃ r m h, s.remapAccept n spare = { s with regs := r, remap := m, isoHard := h } := by
  obtain ⟨hremap, r, m, hframe⟩ := s.beginRemap_frame n spare
  rw [State.remapAccept_eq]
  cases s.floorBusy n with
  | true => exact ⟨fun _ _ _ _ => rfl, hremap, r, m, s.isoHard, hframe⟩
  | false =>
    obtain ⟨hremap', r', m', h', hframe'⟩ := (s.beginRemap n spare).remapPrepare_frame
    refine ⟨fun g i j hg => (s.beginRemap n spare).getF_remapPrepare hg i j, ?_, r', m', h', ?_⟩
    · exact hremap'.trans (by rw [hremap]; rfl)
    · exact hframe'.trans (by rw [hframe])

theorem State.remapTry_of_refused (h : s.remapReason n spare f ≠ 0) :
    s.remapTry n spare f = s.remapRefuse n spare (s.remapReason n spare f) := if_neg h

theorem State.remapTry_of_passed (h : s.remapReason n spare f = 0) : s.remapTry n spare f = s.remapAccept n spare := if_pos h

/-- A request shows STATE 1 or 4, its reason and its position. -/
theorem State.remapTry_read (s : State) (n spare : Nat) (f : PathFacts) :
    (s.remapTry n spare f).getF .dieRemapstatSTATE = (if s.remapReason n spare f = 0 then 1 else 4) ∧
      (s.remapTry n spare f).getF .dieRemapstatREASON = s.remapReason n spare f % 32 ∧
      (s.remapTry n spare f).getF .dieRemapstatLPOS = n % 64 := by
  by_cases h : s.remapReason n spare f = 0
  · obtain ⟨hkept, -, -⟩ := s.remapAccept_spec n spare
    obtain ⟨hstate, hreason, hlpos, -, -⟩ := s.showRemap_read n spare
    rw [State.remapTry_of_passed h, h, hkept _ _ _ (by decide), hkept _ _ _ (by decide), hkept _ _ _ (by decide)]
    exact ⟨hstate, hreason, hlpos⟩
  · obtain ⟨hstate, hreason, -⟩ := s.remapRefuse_read n spare (s.remapReason n spare f)
    obtain ⟨hlpos, -, -⟩ := s.remapRefuse_names n spare (s.remapReason n spare f)
    rw [State.remapTry_of_refused h, if_neg h]
    exact ⟨hstate, hreason, hlpos⟩

/-! ## DIE_REMAPCTL -/

/-- DIE_REMAPCTL stores the position and the spare that a write names. -/
def State.storeRemapctl (s : State) (w : W32) : State :=
  (s.setF .dieRemapctlLPOS (w.toNat % 64)).setF .dieRemapctlSPARE (w.toNat / 64 % 64)

theorem State.writeReg_dieRemapctl (s : State) (w : W32) : s.writeReg .dieRemapctl 0 0 w.toNat full32 = s.storeRemapctl w := by
  have hlpos : bits w.toNat 0 6 = w.toNat % 64 := congrArg (· % 64) (Nat.div_one _)
  have hspare : bits w.toNat 6 6 = w.toNat / 64 % 64 := rfl
  rw [State.storeRemapctl, ← hlpos, ← hspare]
  change ((s.writeFld 0 0 w.toNat full32 .dieRemapctlLPOS).writeFld 0 0 w.toNat full32 .dieRemapctlSPARE).writeFld 0 0 w.toNat full32
    .dieRemapctlSTART = _
  rw [State.writeFld_of_covered (f := .dieRemapctlLPOS) ⟨rfl, rfl⟩, State.writeFld_of_covered (f := .dieRemapctlSPARE) ⟨rfl, rfl⟩,
    State.writeFld_eq_self (.inr rfl)]
  rfl

theorem State.storeRemapctl_read (s : State) (w : W32) : (s.storeRemapctl w).getF .dieRemapctlLPOS = w.toNat % 64 ∧
    (s.storeRemapctl w).getF .dieRemapctlSPARE = w.toNat / 64 % 64 := by
  simp [State.storeRemapctl]

theorem State.storeRemapctl_frame (s : State) (w : W32) : RegsOnly [fk .dieRemapctlSPARE, fk .dieRemapctlLPOS] s (s.storeRemapctl w) :=
  ((RegsOnly.refl s).setF _ _ _ _).setF _ _ _ _

theorem State.storeRemapctl_fieldsOf (s : State) (w : W32) : FieldsOf remapRegs s (s.storeRemapctl w) :=
  ((FieldsOf.refl _ s).setF _ _ _ _ (by decide)).setF _ _ _ _ (by decide)

/-- The position and the spare of a request fit their fields. -/
theorem request_mod (w : W32) : w.toNat % 64 % 64 = w.toNat % 64 ∧ w.toNat / 64 % 64 % 64 = w.toNat / 64 % 64 :=
  ⟨Nat.mod_mod _ _, Nat.mod_mod _ _⟩

/-- A request during a remap shows REASON 7 and no more (R226). -/
theorem State.storeRemapctl_during (s : State) (w : W32) :
    let t := (s.storeRemapctl w).setF .dieRemapstatREASON 7
    t.getF .dieRemapctlLPOS = w.toNat % 64 ∧ t.getF .dieRemapctlSPARE = w.toNat / 64 % 64 ∧ t.getF .dieRemapstatREASON = 7 ∧
      RegsOnly [fk .dieRemapctlLPOS, fk .dieRemapctlSPARE, fk .dieRemapstatREASON] s t := by
  obtain ⟨hlpos, hspare⟩ := s.storeRemapctl_read w
  exact ⟨(State.getF_setF_ne _ _ _ _ _ _ (by decide)).trans hlpos, (State.getF_setF_ne _ _ _ _ _ _ (by decide)).trans hspare,
    State.getF_setF_self _ _ _ _ _, ((s.storeRemapctl_frame w).setF _ _ _ _).mono (by decide)⟩

/-- A request that a check refuses (R226). -/
theorem State.storeRemapctl_refused (s : State) (w : W32) (r : Nat) :
    let t := (s.storeRemapctl w).remapRefuse (w.toNat % 64) (w.toNat / 64 % 64) r
    t.getF .dieRemapctlLPOS = w.toNat % 64 ∧ t.getF .dieRemapctlSPARE = w.toNat / 64 % 64 ∧
      t.getF .dieRemapstatSTATE = 4 ∧ t.getF .dieRemapstatREASON = r % 32 ∧ t.getF .dieRemapstatLPOS = w.toNat % 64 ∧
      t.getF .dieRemapstatSPARE = w.toNat / 64 % 64 ∧ t.getF .dieRemapstatNOSTATE = 0 ∧ t.getF .dieRemapstatSEEN = 1 ∧
      FieldsOf remapRegs s t := by
  obtain ⟨hn, hp⟩ := request_mod w
  obtain ⟨hctl, hctl'⟩ := s.storeRemapctl_read w
  obtain ⟨hsame, -⟩ := (s.storeRemapctl w).remapRefuse_frame (w.toNat % 64) (w.toNat / 64 % 64) r
  obtain ⟨hstate, hreason, hseen⟩ := (s.storeRemapctl w).remapRefuse_read (w.toNat % 64) (w.toNat / 64 % 64) r
  obtain ⟨hlpos, hspare, hnostate⟩ := (s.storeRemapctl w).remapRefuse_names (w.toNat % 64) (w.toNat / 64 % 64) r
  exact ⟨(hsame.fld _ 0 0 (by decide)).trans hctl, (hsame.fld _ 0 0 (by decide)).trans hctl', hstate, hreason, hlpos.trans hn,
    hspare.trans hp, hnostate, hseen, (s.storeRemapctl_fieldsOf w).trans (State.remapRefuse_fieldsOf _ _ _ _)⟩

theorem FieldsOf.remapNostate_eq (h : FieldsOf remapRegs s t) (m : Nat) : t.remapNostate m = s.remapNostate m := by
  rw [State.remapNostate, State.remapNostate, h.oos_eq, h.memSize_eq]

theorem FieldsOf.remapWaiting_eq (h : FieldsOf remapRegs s t) (m p : Nat) : t.remapWaiting m p = s.remapWaiting m p := by
  have hremap : t.remap = s.remap := by
    obtain ⟨-, _, rfl⟩ := h
    rfl
  rw [State.remapWaiting, State.remapWaiting, h.remapNostate_eq, h.phys_eq, hremap]

/-- A request that passes its checks (R224). -/
theorem State.storeRemapctl_accepted (s : State) (w : W32) :
    let n := w.toNat % 64
    let p := w.toNat / 64 % 64
    let t := (s.storeRemapctl w).remapAccept n p
    t.getF .dieRemapctlLPOS = n ∧ t.getF .dieRemapctlSPARE = p ∧ t.getF .dieRemapstatSTATE = 1 ∧ t.getF .dieRemapstatREASON = 0 ∧
      t.getF .dieRemapstatLPOS = n ∧ t.getF .dieRemapstatSPARE = p ∧ t.getF .dieRemapstatNOSTATE = (s.remapNostate n).toNat ∧
      t.remap = { s.remapWaiting n p with phase := if s.floorBusy n then .waiting else .preparing } ∧
      (∀ g i j, grainFld g = false → g.info.reg ∉ remapRegs → t.getF g i j = s.getF g i j) ∧
      ∃ r m h, t = { s with regs := r, remap := m, isoHard := h } := by
  intro n p t
  obtain ⟨hn, hp⟩ := request_mod w
  obtain ⟨hctl, hctl'⟩ := s.storeRemapctl_read w
  have hstored := s.storeRemapctl_fieldsOf w
  have hshown := (s.storeRemapctl w).showRemap_frame n p
  have hboth := hstored.trans ((s.storeRemapctl w).showRemap_fieldsOf n p)
  obtain ⟨hstate, hreason, hlpos, hspare, hnostate⟩ := (s.storeRemapctl w).showRemap_read n p
  obtain ⟨hkept, hremap, hframe⟩ := (s.storeRemapctl w).remapAccept_spec n p
  rw [hstored.remapNostate_eq] at hnostate
  rw [hstored.remapWaiting_eq, hstored.floorBusy_eq] at hremap
  refine ⟨(hkept _ _ _ (by decide)).trans ((hshown.getF_eq (by decide) 0 0).trans hctl),
    (hkept _ _ _ (by decide)).trans ((hshown.getF_eq (by decide) 0 0).trans hctl'),
    (hkept _ _ _ (by decide)).trans hstate, (hkept _ _ _ (by decide)).trans hreason,
    (hkept _ _ _ (by decide)).trans (hlpos.trans hn), (hkept _ _ _ (by decide)).trans (hspare.trans hp),
    (hkept _ _ _ (by decide)).trans hnostate, hremap, fun g i j hg hr => (hkept g i j hg).trans (hboth.getF_eq hr i j), ?_⟩
  obtain ⟨-, r, hstored⟩ := hstored
  obtain ⟨r', m, h, hframe⟩ := hframe
  exact ⟨r', m, h, hframe.trans (by rw [hstored])⟩

theorem exec_remapRequest_host (hs : s.perst = false) (hu : s.unitOn .die = true) {w : W32} (hstart : w.toNat.testBit 12 = true)
    (f : PathFacts) : exec (.remapRequest (.host w) f) s = .next (
      if s.remap.phase ≠ .idle then (s.storeRemapctl w).setF .dieRemapstatREASON 7
      else (s.storeRemapctl w).remapTry (w.toNat % 64) (w.toNat / 64 % 64) f) := by
  obtain ⟨hlpos, hspare⟩ := s.storeRemapctl_read w
  have hbit : (w.toNat &&& full32).testBit 12 = true := by
    rw [Nat.testBit_and, hstart]
    decide
  refine congrArg Host.Outcome.next ((if_neg (by simp [hs])).trans ((if_pos hu).trans ?_))
  change s.remapCtlWrite w.toNat full32 f = _
  rw [State.remapCtlWrite, State.writeReg_dieRemapctl, hlpos, hspare, if_neg (by simp [hbit])]
  rfl

/-! ## Die-link faults (R225) -/

/-- The die-link fault between two positions is no longer queued. -/
def State.unqueueFault (s : State) (a b : Nat) : State :=
  { s with remap := { s.remap with queued := s.remap.queued.erase (min a b, max a b) } }

theorem State.remapFault_of_busy {a b : Nat} (hpol : s.getF .dieCtlREMAPPOL = 2) (hf : s.linkFaulty a b = true)
    (h : s.loading = true ∨ s.remap.phase ≠ .idle) :
    (min a b, max a b) ∈ (s.remapFault a b f).remap.queued ∧ { s.remapFault a b f with remap := s.remap } = s := by
  unfold State.remapFault
  dsimp only
  rw [if_neg (by simp [hpol, hf]), if_pos (by simpa using h)]
  split
  next hq => exact ⟨List.contains_iff_mem.mp hq, rfl⟩
  · exact ⟨List.mem_append_right _ (List.mem_singleton_self _), rfl⟩

theorem State.remapFault_of_idle {a b : Nat} (hpol : s.getF .dieCtlREMAPPOL = 2) (hf : s.linkFaulty a b = true)
    (hload : s.loading = false) (hidle : s.remap.phase = .idle) : s.remapFault a b f =
      ((s.unqueueFault a b).faultEndpoint a b).elim (s.unqueueFault a b) fun c => (s.unqueueFault a b).remapTry c.1 c.2 f := by
  unfold State.remapFault
  dsimp only
  rw [if_neg (by simp [hpol, hf]), if_neg (by simp [hload, hidle])]
  cases h : (s.unqueueFault a b).faultEndpoint a b <;> rw [State.unqueueFault] at h <;> rw [h] <;> rfl

end Sys2Proof.Machine

open Sys2Proof Sys2Proof.Machine

/-- Settles O36: a write stores the position and the spare it names, which changes nothing that the checks look at; then the request is
refused or begins. A fault found during a load or a remap joins the queue. -/
theorem remapsAreAcceptedRefusedOrQueued : Obligations.RemapsAreAcceptedRefusedOrQueued := by
  refine fun f s => ⟨fun w hs hu hstart => ⟨_, exec_remapRequest_host hs hu hstart f, ?_⟩, fun a b hpol hfault => ⟨s.remapFault a b f, rfl,
    State.remapFault_of_busy hpol hfault, fun hload hidle hnone => ?_, fun c hload hidle hc => ?_⟩⟩
  · have hstored := s.storeRemapctl_fieldsOf w
    have hphase : s.remap.phase ≠ .idle ∨ s.remap.phase = .idle ∧ s.remapReason (w.toNat % 64) (w.toNat / 64 % 64) f ≠ 0 ∨
      s.remap.phase = .idle ∧ s.remapReason (w.toNat % 64) (w.toNat / 64 % 64) f = 0 := by tauto
    obtain hbusy | ⟨hidle, hrefused⟩ | ⟨hidle, hpassed⟩ := hphase
    · obtain ⟨hctl, hctl', hreason, hsame, hput⟩ := s.storeRemapctl_during w
      rw [if_pos hbusy]
      exact ⟨hctl, hctl', fun _ => ⟨hreason, hsame, hput⟩, fun h => absurd h hbusy, fun h => absurd h hbusy⟩
    · obtain ⟨hctl, hctl', hstate, hreason, hlpos, hspare, hnostate, hseen, hsame, r, hframe⟩ :=
        s.storeRemapctl_refused w (s.remapReason (w.toNat % 64) (w.toNat / 64 % 64) f)
      rw [if_neg (not_not_intro hidle), State.remapTry_of_refused (by rwa [hstored.remapReason_eq]), hstored.remapReason_eq]
      exact ⟨hctl, hctl', fun h => absurd hidle h,
        fun _ _ => ⟨hstate, hreason, hlpos, hspare, hnostate, hseen, hsame, by rw [hframe]⟩, fun _ h => absurd h hrefused⟩
    · obtain ⟨hctl, hctl', hstate, hreason, hlpos, hspare, hnostate, hremap, hkept, r, m, h, hframe⟩ := s.storeRemapctl_accepted w
      rw [if_neg (not_not_intro hidle), State.remapTry_of_passed (by rwa [hstored.remapReason_eq])]
      exact ⟨hctl, hctl', fun h => absurd hidle h, fun _ h => absurd hpassed h,
        fun _ _ => ⟨hstate, hreason, hlpos, hspare, hnostate, by rw [hremap]; rfl, by rw [hremap]; rfl, by rw [hremap]; rfl,
          by rw [hremap], hkept, by rw [hframe]⟩⟩
  · rw [State.remapFault_of_idle hpol hfault hload hidle]
    have hnone' : (s.unqueueFault a b).faultEndpoint a b = none := hnone
    rw [hnone']
    rfl
  · rw [State.remapFault_of_idle hpol hfault hload hidle]
    have hc' : (s.unqueueFault a b).faultEndpoint a b = some c := hc
    rw [hc']
    exact (s.unqueueFault a b).remapTry_read c.1 c.2 f
end

section
/-! SUPPORT. What a freeze or thaw pitch does (R293, R294): the parts that its selection names, and FROZEN. -/

namespace Sys2Proof.Machine

variable {s t : State} {sel : Sel} {on : Bool} {n m k : Nat}

/-! ## One part -/

/-- Part k of position n is frozen. -/
def State.isFrozen (s : State) (n k : Nat) : Bool := SMap.get (fun _ => false) s.frozen (n * 65 + k)

/-- FROZEN of the grain that serves position n shows a freeze. -/
def State.showsFrozen (s : State) (n : Nat) : Prop := s.getF .grnShdsrcFROZEN (s.phys n) = 1

/-- Only what is frozen changes, and FROZEN. -/
def FreezeFrame (s t : State) : Prop :=
  (∀ f i j, f ≠ .grnShdsrcFROZEN → t.getF f i j = s.getF f i j) ∧ ∃ r m, t = { s with regs := r, frozen := m }

theorem FreezeFrame.refl (s : State) : FreezeFrame s s := ⟨fun _ _ _ _ => rfl, _, _, rfl⟩

theorem FreezeFrame.setFrozen (h : FreezeFrame s t) (n k : Nat) (on : Bool) : FreezeFrame s (t.setFrozen n k on) := by
  obtain ⟨hget, _, _, rfl⟩ := h
  exact ⟨fun f i j hf => (State.getF_setF_ne _ _ _ _ _ _ hf).trans (hget f i j hf), _, _, rfl⟩

theorem FreezeFrame.phys_eq (h : FreezeFrame s t) (n : Nat) : t.phys n = s.phys n := h.1 _ _ _ (by decide)

theorem State.phys_setFrozen (s : State) (n k : Nat) (on : Bool) (m : Nat) : (s.setFrozen n k on).phys m = s.phys m :=
  ((FreezeFrame.refl s).setFrozen n k on).phys_eq m

/-- The parts of a position are numbered below 65, so a position and a part make one key. -/
theorem partKey_inj {j : Nat} (hk : k < 65) (hj : j < 65) : m * 65 + k = n * 65 + j ↔ m = n ∧ k = j := by omega

theorem State.isFrozen_setFrozen (s : State) (on : Bool) {j : Nat} (hk : k < 65) (hj : j < 65) :
    (s.setFrozen n j on).isFrozen m k = if m = n ∧ k = j then on else s.isFrozen m k := by
  have hget : (s.setFrozen n j on).isFrozen m k =
      SMap.get (fun _ => false) (SMap.set (fun _ => false) s.frozen (n * 65 + j) on) (m * 65 + k) := rfl
  rw [hget, SMap.get_set]
  exact if_congr (partKey_inj hk hj) rfl rfl

/-- What does not read its default has an entry. -/
theorem SMap.mem_of_get_ne {ν : Type} {d : Nat → ν} {k : Nat} : ∀ {m : SMap ν}, SMap.get d m k ≠ d k → (k, SMap.get d m k) ∈ m
  | [], h => absurd rfl h
  | (a, v) :: m, h => by
    rw [SMap.get] at h ⊢
    split at h
    next heq => simp [heq]
    next hne =>
      rw [if_neg hne]
      exact List.mem_cons_of_mem _ (SMap.mem_of_get_ne h)

/-- A position with a part that freezes shows it. -/
theorem State.showsFrozen_setFrozen (s : State) (hk : k < 65) : (s.setFrozen n k true).showsFrozen n := by
  have hget := SMap.get_set_self (fun _ => false) s.frozen (n * 65 + k) true
  have hmem : (n * 65 + k, true) ∈ SMap.set (fun _ => false) s.frozen (n * 65 + k) true := by
    simpa [hget] using SMap.mem_of_get_ne (k := n * 65 + k) (m := SMap.set (fun _ => false) s.frozen (n * 65 + k) true)
      (d := fun _ => false) (by simp [hget])
  have hany : ((SMap.set (fun _ => false) s.frozen (n * 65 + k) true).any fun e => e.1 / 65 == n && e.2) = true :=
    List.any_eq_true.mpr ⟨_, hmem, by simp; omega⟩
  rw [State.showsFrozen, State.phys_setFrozen]
  refine (State.getF_setF_self _ _ _ _ _).trans ?_
  rw [hany]
  rfl

/-- A part of another position, with another grain, leaves FROZEN alone. -/
theorem State.showsFrozen_setFrozen_ne (h : s.showsFrozen n) (hphys : s.phys n % 0x100000 ≠ s.phys m % 0x100000) :
    (s.setFrozen m k on).showsFrozen n := by
  rw [State.showsFrozen, State.phys_setFrozen]
  exact ((State.getF_setF _ _ _ _ _ _ _ _).trans (if_neg fun he => hphys he.2.1)).trans h

/-! ## The parts of one position -/

/-- The parts ks of position n freeze or thaw. -/
def State.setFrozens (s : State) (n : Nat) (ks : List Nat) (on : Bool) : State := ks.foldl (fun t k => t.setFrozen n k on) s

theorem FreezeFrame.setFrozens (h : FreezeFrame s t) (n : Nat) (ks : List Nat) (on : Bool) : FreezeFrame s (t.setFrozens n ks on) :=
  List.foldlRecOn _ _ h fun _ h _ _ => h.setFrozen _ _ _

theorem State.isFrozen_setFrozens (hk : k < 65) : ∀ {ks : List Nat} {s : State}, (∀ j ∈ ks, j < 65) →
    (s.setFrozens n ks on).isFrozen m k = if m = n ∧ k ∈ ks then on else s.isFrozen m k
  | [], s, _ => by simp [State.setFrozens]
  | j :: js, s, h => by
    obtain ⟨hj, hjs⟩ := List.forall_mem_cons.mp h
    rw [State.setFrozens, List.foldl_cons, ← State.setFrozens, State.isFrozen_setFrozens hk hjs, State.isFrozen_setFrozen s on hk hj]
    grind

/-- A position shows a freeze of a part of its own, and one it shows already. -/
theorem State.showsFrozen_setFrozens (hks : ∀ k ∈ ks, k < 65) (h : ks ≠ [] ∨ s.showsFrozen n) : (s.setFrozens n ks true).showsFrozen n := by
  cases ks using List.reverseRecOn with
  | nil => exact h.resolve_left (· rfl)
  | append_singleton js j =>
    rw [State.setFrozens, List.foldl_append]
    exact State.showsFrozen_setFrozen _ (hks j (by simp))

theorem State.showsFrozen_setFrozens_ne (h : s.showsFrozen n) (hphys : s.phys n % 0x100000 ≠ s.phys m % 0x100000) (ks : List Nat) :
    (s.setFrozens m ks on).showsFrozen n := by
  refine (List.foldlRecOn (motive := fun t => FreezeFrame s t ∧ t.showsFrozen n) ks _ ⟨.refl s, h⟩ fun t ht k _ => ?_).2
  obtain ⟨hframe, ht⟩ := ht
  exact ⟨hframe.setFrozen _ _ _, State.showsFrozen_setFrozen_ne ht (by rwa [hframe.phys_eq, hframe.phys_eq])⟩

/-! ## A selection -/

theorem State.selParts_lt (s : State) (sel : Sel) (n : Nat) : ∀ k ∈ s.selParts sel n, k < 65 := by
  intro k hk
  rcases List.mem_append.mp hk with hk | hk
  · split at hk <;> simp_all
  · obtain ⟨f, hf, rfl⟩ := List.mem_map.mp hk
    have hf := List.mem_range.mp (List.mem_filter.mp hf).1
    omega

/-- The parts of position n that a selection of s names freeze or thaw in t. -/
def State.freezePos (s : State) (sel : Sel) (on : Bool) (t : State) (n : Nat) : State :=
  if sel.pos.testBit n then t.setFrozens n (s.selParts sel n) on else t

theorem State.freezeSel_eq (s : State) (sel : Sel) (on : Bool) : s.freezeSel sel on = (List.range 60).foldl (s.freezePos sel on) s := rfl

theorem FreezeFrame.freezePos (h : FreezeFrame s t) (u : State) (sel : Sel) (on : Bool) (n : Nat) :
    FreezeFrame s (u.freezePos sel on t n) := by
  unfold State.freezePos
  split
  · exact h.setFrozens _ _ _
  · exact h

theorem State.freezeSel_frame (s : State) (sel : Sel) (on : Bool) : FreezeFrame s (s.freezeSel sel on) := by
  rw [State.freezeSel_eq]
  exact List.foldlRecOn _ _ (.refl s) fun _ h _ _ => h.freezePos s sel on _

theorem State.isFrozen_freezePos (s t : State) (hk : k < 65) : (s.freezePos sel on t n).isFrozen m k =
    if m = n ∧ sel.pos.testBit n = true ∧ k ∈ s.selParts sel n then on else t.isFrozen m k := by
  unfold State.freezePos
  split
  next hpos => simp [State.isFrozen_setFrozens hk (s.selParts_lt sel n), hpos]
  next hpos => simp [hpos]

theorem State.isFrozen_foldl_freezePos (s : State) (hk : k < 65) : ∀ (ns : List Nat) (t : State),
    (ns.foldl (s.freezePos sel on) t).isFrozen m k =
      if m ∈ ns ∧ sel.pos.testBit m = true ∧ k ∈ s.selParts sel m then on else t.isFrozen m k
  | [], t => by simp
  | n :: ns, t => by
    rw [List.foldl_cons, State.isFrozen_foldl_freezePos s hk ns, State.isFrozen_freezePos s t hk]
    by_cases hm : m = n
    · subst hm
      simp
      grind
    · simp [hm]

/-- A position of the selection shows its freeze, and the other positions leave it alone. -/
theorem State.showsFrozen_freezePos (hframe : FreezeFrame s t) (hparts : s.selParts sel n ≠ []) (hpos : sel.pos.testBit n = true)
    (hphys : m ≠ n → s.phys n % 0x100000 ≠ s.phys m % 0x100000) (h : n = m ∨ t.showsFrozen n) :
    (s.freezePos sel true t m).showsFrozen n := by
  by_cases hmn : m = n
  · subst hmn
    rw [State.freezePos, if_pos hpos]
    exact State.showsFrozen_setFrozens (s.selParts_lt sel m) (.inl hparts)
  · have h := h.resolve_left (Ne.symm hmn)
    unfold State.freezePos
    split
    · exact State.showsFrozen_setFrozens_ne h (by rw [hframe.phys_eq, hframe.phys_eq]; exact hphys hmn) _
    · exact h

theorem State.showsFrozen_foldl_freezePos (s : State) (hparts : s.selParts sel n ≠ []) (hpos : sel.pos.testBit n = true) :
    ∀ {ns : List Nat} {t : State}, FreezeFrame s t → (∀ m ∈ ns, m ≠ n → s.phys n % 0x100000 ≠ s.phys m % 0x100000) →
      n ∈ ns ∨ t.showsFrozen n → (ns.foldl (s.freezePos sel true) t).showsFrozen n
  | [], _, _, _, h => h.resolve_left List.not_mem_nil
  | m :: ns, t, hframe, hphys, h => by
    obtain ⟨hm, hns⟩ := List.forall_mem_cons.mp hphys
    rw [List.mem_cons, or_assoc, or_left_comm] at h
    rw [List.foldl_cons]
    exact s.showsFrozen_foldl_freezePos hparts hpos (hframe.freezePos s sel true m) hns
      (h.imp_right (State.showsFrozen_freezePos hframe hparts hpos hm))

/-! ## The pitches -/

theorem exec_freezePitch {r : PitchRef} {p : Pitch} {u : State} (h : s.takePitch (pitchKey r) 4 = some (p, u)) :
    exec (.freezePitch r) s = .next (u.freezeSel p.sel true) := by
  change execFreezePitch r s = _
  rw [execFreezePitch, h]

theorem exec_thawPitch {r : PitchRef} {p : Pitch} {u : State} (h : s.takePitch (pitchKey r) 5 = some (p, u)) :
    exec (.thawPitch r) s = .next (u.freezeSel p.sel false) := by
  change execThawPitch r s = _
  rw [execThawPitch, h]

theorem freezeAndThawActOnTheSelection : FreezeAndThawActOnTheSelection := by
  intro s r p u on c hgrains hc htake
  refine ⟨u.freezeSel p.sel on, ?_, fun n k hk => ?_, fun n hon hpos hparts => ?_, ?_⟩
  · obtain ⟨rfl, rfl⟩ | ⟨rfl, rfl⟩ := hc
    · exact exec_freezePitch htake
    · exact exec_thawPitch htake
  · refine (State.isFrozen_foldl_freezePos u hk (List.range 60) u).trans ?_
    simp [n.isLt, State.isFrozen]
  · subst hon
    have htaken : Keeps noLoss s u := Keeps.refl.takePitch htake
    have hphys (m : Nat) (hm : m ∈ List.range 60) (hne : m ≠ n) : u.phys n % 0x100000 ≠ u.phys m % 0x100000 := fun he =>
      hne (congrArg Fin.val (hgrains n ⟨m, List.mem_range.mp hm⟩ he)).symm
    have hshows := u.showsFrozen_foldl_freezePos hparts hpos (.refl u) hphys (.inl (List.mem_range.mpr n.isLt))
    rw [← State.freezeSel_eq, State.showsFrozen, (u.freezeSel_frame p.sel true).phys_eq, htaken.phys_eq] at hshows
    exact hshows
  · obtain ⟨hget, _, _, hframe⟩ := u.freezeSel_frame p.sel on
    exact ⟨hget, by rw [hframe]⟩

end Sys2Proof.Machine
end

section
/-! SUPPORT. What a capture pitch does (R227 step 4, R295, R296): the capture still open completes, and the capture of its selection
begins. -/

namespace Sys2Proof.Machine

variable {rs : List RegName} {s t u : State} {n : Nat}

/-! ## What decides whether a capture skips a position -/

/-- The register fields that a capture pitch reads. -/
def pitchReads : List Fld := [.pwrDstatSTATE, .tunClkstatCLOCKED]

/-- What it looks at besides the map. -/
def State.capView : State → Part × SMap Nat × SMap PosSt × SMap ClkSt × Option CaptSt
  | { part, regs, pos, clk, capt, .. } => (part, regs, pos, clk, capt)

theorem State.capView_eq_iff : u.capView = t.capView ↔
    u.part = t.part ∧ u.regs = t.regs ∧ u.pos = t.pos ∧ u.clk = t.clk ∧ u.capt = t.capt := by
  cases u
  cases t
  simp only [State.capView, Prod.mk.injEq]

/-- From s to t, die resets, clocks, power states and the open capture stay. -/
structure CapStays (s t : State) : Prop where
  getF_eq : ∀ f ∈ pitchReads, ∀ i j, t.getF f i j = s.getF f i j
  pos_eq : t.pos = s.pos
  clk_eq : t.clk = s.clk
  capt_eq : t.capt = s.capt

namespace CapStays

theorem refl : CapStays s s := ⟨fun _ _ _ _ => rfl, rfl, rfl, rfl⟩

theorem setF {f v i j} (h : CapStays s t) (hf : f ∉ pitchReads := by decide) : CapStays s (t.setF f v i j) :=
  ⟨fun g hg a b => (State.getF_setF_ne _ _ _ _ _ _ (ne_of_mem_of_not_mem hg hf)).trans (h.getF_eq g hg a b), h.pos_eq, h.clk_eq,
    h.capt_eq⟩

/-- A change of what a capture pitch does not look at. -/
theorem other (h : CapStays s t) (e : u.capView = t.capView) : CapStays s u := by
  obtain ⟨hpart, hregs, hpos, hclk, hcapt⟩ := State.capView_eq_iff.mp e
  refine ⟨fun f hf i j => ?_, hpos.trans h.pos_eq, hclk.trans h.clk_eq, hcapt.trans h.capt_eq⟩
  rw [← h.getF_eq f hf i j, State.getF, State.getF, hpart, hregs]

theorem emit {m : OutMsg} (h : CapStays s t) : CapStays s (t.emit m) := other h rfl
theorem setOn {f i j} (h : CapStays s t) (hf : f ∉ pitchReads := by decide) : CapStays s (t.setOn f i j) := h.setF hf
theorem count {f n i j} (h : CapStays s t) (hf : f ∉ pitchReads := by decide) : CapStays s (t.count f n i j) := h.setF hf
theorem setBitF {f b v i j} (h : CapStays s t) (hf : f ∉ pitchReads := by decide) : CapStays s (t.setBitF f b v i j) := h.setF hf

theorem ite {c : Prop} [Decidable c] (h : CapStays s t) (h' : CapStays s u) : CapStays s (if c then t else u) := by
  split
  · exact h
  · exact h'

theorem optElim {α : Type} {f : α → State} {o : Option α} (h : CapStays s t) (hf : ∀ a, CapStays s (f a)) :
    CapStays s (o.elim t f) := by
  cases o with
  | none => exact h
  | some a => exact hf a

theorem foldl {α : Type} {f : State → α → State} {as : List α} (h : CapStays s t)
    (hf : ∀ {t a}, CapStays s t → CapStays s (f t a)) : CapStays s (as.foldl f t) :=
  List.foldlRecOn as f h fun _ h _ _ => hf h

/-! ## Events, answers, ports -/

theorem raise {e payload} (h : CapStays s t) : CapStays s (t.raise e payload) :=
  ite h (ite h.setF.count.setOn.emit.setOn h.setF.count.setOn.emit)

theorem herr {addr cause} (h : CapStays s t) : CapStays s (t.herr addr cause) := ite h (raise (count (setOn (ite h h.setF.setF))))
theorem postedFail {p} (h : CapStays s t) : CapStays s (t.postedFail p) := ite h.herr h
theorem inject {p} (h : CapStays s t) : CapStays s (t.inject p) := ite (other h rfl) (other h rfl)
theorem respond {p status data} (h : CapStays s t) : CapStays s (t.respond p status data) := ite (ite h h.postedFail) h.inject
theorem updIso {p} (h : CapStays s t) : CapStays s (t.updIso p) := optElim h.setF fun _ => h.setF.setBitF
theorem restIso {p x on} (h : CapStays s t) : CapStays s (t.restIso p x on) := h.setBitF.updIso
theorem setDnp {n k d} (h : CapStays s t) : CapStays s (t.setDnp n k d) := other h rfl
theorem dnpRest {n k} (h : CapStays s t) : CapStays s (t.dnpRest n k) := setDnp (foldl h.restIso fun h => h.respond)

/-! ## Pitches -/

theorem setTime {f v i} (h : CapStays s t) (hf : ∀ g ∈ [f.frac, f.ns, f.seclo, f.sechi], g ∉ pitchReads := by decide) :
    CapStays s (t.setTime f v i) := by
  simp only [List.forall_mem_cons] at hf
  obtain ⟨hfrac, hns, hseclo, hsechi, -⟩ := hf
  exact (((h.setF hfrac).setF hns).setF hseclo).setF hsechi

theorem takeSeq (h : CapStays s t) : CapStays s t.takeSeq := other h rfl
theorem capLost (h : CapStays s t) : CapStays s t.capLost := ite h.count.setOn h.count.setOn.raise

theorem windowHit {w v} (h : CapStays s t) : CapStays s (t.windowHit w v) :=
  have hu := h.count.setTime.setOn
  ite h.count (ite hu (ite hu.setBitF hu.setBitF.raise))

theorem capture {code edge pkind v spaced} (h : CapStays s t) : CapStays s (t.capture code edge pkind v spaced) :=
  have ht := foldl h fun h => h.windowHit
  ite h.takeSeq.capLost (ite ht (other ht.takeSeq rfl))

theorem pitchStamp {kind} (h : CapStays s t) : CapStays s (t.pitchStamp kind) := ite h.capture h
theorem setPitch {k p} (h : CapStays s t) : CapStays s (t.setPitch k p) := setF (other h rfl)

/-- A pitch that acts changes nothing that a capture looks at. -/
theorem takePitch {key kind : Nat} {p : Pitch} (he : t.takePitch key kind = some (p, u)) (h : CapStays s t) : CapStays s u := by
  unfold State.takePitch at he
  split at he
  · cases he
  · split at he
    · cases he
    · split_ifs at he
      all_goals
        cases he
        exact pitchStamp (other h.setPitch rfl)

theorem unitOn_eq (h : CapStays s t) (x : Unit0) : t.unitOn x = s.unitOn x := by
  rw [State.unitOn, State.unitOn, State.bitF, State.bitF, h.getF_eq _ (by decide)]

end CapStays

/-- The map, the positions out of service and these decide what a capture skips. -/
theorem State.capSkips_congr (hpos : t.pos = s.pos) (hclk : t.clk = s.clk) (hoos : t.oos = s.oos)
    (hpwr : t.getF .pwrDstatSTATE n = s.getF .pwrDstatSTATE n) (hphys : t.phys n = s.phys n) : t.capSkips n = s.capSkips n := by
  rw [State.capSkips, State.capSkips, State.posSt, State.posSt, State.isOos, State.isOos, hpos, hclk, hoos, hpwr, hphys]

theorem CapStays.capSkips_eq (h : CapStays s t) (hk : Keeps { fields := [.dieRemapstatSTATE] } s t) (n : Nat) :
    t.capSkips n = s.capSkips n :=
  State.capSkips_congr h.pos_eq h.clk_eq hk.oos_eq (h.getF_eq _ (by decide) n 0) (hk.phys_eq n)

/-! ## What a capture may change -/

/-- The registers that the end of a capture and the beginning of the next may change. -/
def captureRegs : List RegName :=
  [.grnShdsrc, .grnXstat, .capStat, .capAccstat, .capCapskip, .capCapskippos, .evrPay, .evrRoute]

/-- A capture changes no more: registers of its own, the shadows and snapshots, the CAPSEL that asked for it, and the remap it belongs to. -/
def CaptureFrame (s t : State) : Prop :=
  sameRegs captureRegs s t ∧ ∃ r o ct sh sn cb rm kj, t =
    { s with regs := r, out := o, capt := ct, shadow := sh, snap := sn, capselBusy := cb, remap := rm, kilnJobs := kj }

theorem CaptureFrame.refl (s : State) : CaptureFrame s s := ⟨fun _ _ _ _ => rfl, _, _, _, _, _, _, _, _, rfl⟩

theorem CaptureFrame.trans (h : CaptureFrame s t) (h' : CaptureFrame t u) : CaptureFrame s u := by
  obtain ⟨hsame, _, _, _, _, _, _, _, _, rfl⟩ := h
  obtain ⟨hsame', _, _, _, _, _, _, _, _, rfl⟩ := h'
  exact ⟨hsame.trans hsame', _, _, _, _, _, _, _, _, rfl⟩

theorem FieldsOf.captureFrame (h : FieldsOf rs s t) (hrs : ∀ r ∈ rs, r ∈ captureRegs) : CaptureFrame s t := by
  obtain ⟨hsame, _, rfl⟩ := h
  exact ⟨hsame.mono hrs, _, _, _, _, _, _, _, _, rfl⟩

theorem CaptureFrame.setF (s : State) {f : Fld} (hf : f.info.reg ∈ captureRegs) (v i j : Nat) : CaptureFrame s (s.setF f v i j) :=
  ((FieldsOf.refl captureRegs s).setF f v i j hf).captureFrame fun _ h => h

theorem CaptureFrame.tear (s : State) (ns : List Nat) : CaptureFrame s (s.tear ns) :=
  ((FieldsOf.refl [.capAccstat] s).tear ns (by decide)).captureFrame (by decide)

theorem CaptureFrame.freeCapsel (s : State) (k : Option Nat) : CaptureFrame s (s.freeCapsel k) := by
  obtain ⟨m, hfree, -⟩ := s.freeCapsel_eq k
  rw [hfree]
  exact ⟨fun _ _ _ _ => rfl, _, _, _, _, _, _, _, _, rfl⟩

theorem State.freeCapsel_read (s : State) (k : Option Nat) :
    (∀ f i j, (s.freeCapsel k).getF f i j = s.getF f i j) ∧ (s.freeCapsel k).capt = s.capt := by
  cases k with
  | none => exact ⟨fun _ _ _ => rfl, rfl⟩
  | some k => exact ⟨fun _ _ _ => rfl, rfl⟩

/-! ## The old grain of a remap stops -/

/-- The crossings of position n and of its neighbour at port d rest. -/
def State.restCrossing (s : State) (n d : Nat) : State :=
  match posNbr n (portOf d) with
  | some m => (s.setBitF .grnXstatINREST d true (s.phys n)).setBitF .grnXstatINREST (oppNum d) true
      ((s.setBitF .grnXstatINREST d true (s.phys n)).phys m)
  | none => s

theorem FieldsOf.restCrossing (h : FieldsOf [.grnXstat] s t) (n d : Nat) : FieldsOf [.grnXstat] s (t.restCrossing n d) := by
  unfold State.restCrossing
  split
  · exact (h.setF _ _ _ _ (by decide)).setF _ _ _ _ (by decide)
  · exact h

theorem State.remapStop_frame (s : State) : CaptureFrame s s.remapStop ∧ s.remapStop.capt = s.capt ∧ sameRegs [.grnXstat] s s.remapStop := by
  have hrest : FieldsOf [.grnXstat] s ((List.range 4).foldl (fun u d => u.restCrossing s.remap.pos d) s) :=
    List.foldlRecOn _ _ (.refl _ s) fun _ h d _ => h.restCrossing _ d
  have hstop : s.remapStop = let t := (List.range 4).foldl (fun u d => u.restCrossing s.remap.pos d) s
    { t with remap := { t.remap with phase := .writing }, kilnJobs := t.kilnJobs ++ [.remapWrite] } := rfl
  rw [hstop]
  obtain ⟨hsame, r, hr⟩ := hrest
  generalize (List.range 4).foldl _ s = t at hsame hr ⊢
  subst hr
  exact ⟨⟨hsame.mono (by decide), _, _, _, _, _, _, _, _, rfl⟩, rfl, hsame⟩

/-! ## The capture still open completes -/

theorem Takes.captureFrame {c : CaptSt} (h : Takes c s t) : CaptureFrame s t := by
  obtain ⟨_, _, _, _, rfl⟩ := h
  exact ⟨fun _ _ _ _ => rfl, _, _, _, _, _, _, _, _, rfl⟩

/-- The positions in ns are marked with capture seq, which CAPSEL k asked for, and it is announced. -/
def State.finishCapture (s : State) (ns : List Nat) (seq : Nat) (k : Option Nat) : State :=
  (ns.foldl (fun t n => t.markShadow seq n) s).announceCapture ns seq k

theorem State.finishCapture_frame (s : State) (ns : List Nat) (seq : Nat) (k : Option Nat) :
    CaptureFrame s (s.finishCapture ns seq k) := by
  have hmarked := (s.foldl_markShadow_frame seq ns).captureFrame (by decide)
  rw [State.finishCapture]
  generalize ns.foldl _ s = t at hmarked ⊢
  obtain ⟨hsame, _, _, _, hshown, -⟩ := t.announceCapture_frame ns seq k
  exact hmarked.trans ⟨hsame.mono (by decide), _, _, _, _, _, _, _, _, hshown⟩

theorem State.captureEnd_frame (s : State) : CaptureFrame s s.captureEnd := by
  cases hc : s.capt with
  | none =>
    rw [State.captureEnd, hc]
    exact .refl s
  | some c =>
    have hend : s.captureEnd =
        let t := (s.captureRest c).finishCapture (s.capWrites c) (((s.captureRest c).getF .capStatCAPSEQ + 1) % 65536) c.capsel
        if c.remap && decide (t.remap.phase = .captured) then t.remapStop else t := by
      rw [State.captureEnd, hc]
      rfl
    have hfinish := (State.captureRest_takes hc).captureFrame.trans (State.finishCapture_frame (s.captureRest c) (s.capWrites c)
      (((s.captureRest c).getF .capStatCAPSEQ + 1) % 65536) c.capsel)
    rw [hend]
    dsimp only
    split
    · exact hfinish.trans (State.remapStop_frame _).1
    · exact hfinish

/-! ## A capture begins -/

/-- The positions of a selection that a capture skips. -/
def State.skippedPos (s : State) (sel : Sel) : Nat :=
  (List.range 60).foldl (fun m n => if sel.pos.testBit n && s.capSkips n then m + 2 ^ n else m) 0

/-- The floors of a selection that a capture skips. -/
def State.skippedFloors (s : State) (sel : Sel) : Nat :=
  (List.range 64).foldl (fun m f => if sel.floors.testBit f && s.steeping f then m + 2 ^ f else m) 0

theorem State.testBit_skippedPos (s : State) (sel : Sel) (n : Pos) : (s.skippedPos sel).testBit n = (sel.pos.testBit n && s.capSkips n) := by
  rw [State.skippedPos, testBit_sum_two_pow]
  simp [n.isLt]

/-- The capture of a selection, with nothing taken yet. -/
def State.newCapture (s : State) (sel : Sel) (k : Option Nat) (rm : Bool) : CaptSt :=
  ⟨sel, s.skippedPos sel, s.skippedFloors sel, [], [], k, rm⟩

/-- A capture is open, and CAP_CAPSKIP and CAP_CAPSKIPPOS show what it skips. -/
def State.openCapture (s : State) (c : CaptSt) : State :=
  ((({ s with capt := some c }).setF .capCapskipFLOORS c.skipFlr).setF .capCapskipposPOS c.skipPos).tear (s.capWrites c)

theorem State.openCapture_read (s : State) (c : CaptSt) : (s.openCapture c).capt = some c ∧
    (s.openCapture c).getF .capCapskipposPOS = c.skipPos % 2 ^ 60 ∧ (s.openCapture c).getF .capCapskipFLOORS = c.skipFlr % 2 ^ 64 := by
  obtain ⟨htear, _, hframe⟩ := (FieldsOf.refl [.capAccstat]
    ((({ s with capt := some c }).setF .capCapskipFLOORS c.skipFlr).setF .capCapskipposPOS c.skipPos)).tear (s.capWrites c) (by decide)
  refine ⟨?_, (htear _ 0 0 (by decide)).trans (State.getF_setF_self _ _ _ _ _),
    (htear _ 0 0 (by decide)).trans ((State.getF_setF_ne _ _ _ _ _ _ (by decide)).trans (State.getF_setF_self _ _ _ _ _))⟩
  rw [State.openCapture, hframe]
  rfl

theorem State.openCapture_frame (s : State) (c : CaptSt) : CaptureFrame s (s.openCapture c) :=
  have hopen : CaptureFrame s { s with capt := some c } := ⟨fun _ _ _ _ => rfl, _, _, _, _, _, _, _, _, rfl⟩
  ((hopen.trans (.setF _ (by decide) _ _ _)).trans (.setF _ (by decide) _ _ _)).trans (.tear _ _)

theorem State.captureAt_of_on (h : s.unitOn .cap = true) (sel : Sel) (k : Option Nat) (rm : Bool) :
    s.captureAt sel k rm = s.captureEnd.openCapture (s.captureEnd.newCapture sel k rm) := if_neg (by simp [h])

/-- A capture while CAP is gated is refused (R295). -/
def State.refuseCapture (s : State) (k : Option Nat) : State := (s.setOn .capStatBADKIND).freeCapsel k

theorem State.captureAt_of_gated (h : s.unitOn .cap = false) (sel : Sel) (k : Option Nat) (rm : Bool) :
    s.captureAt sel k rm = if rm && decide ((s.refuseCapture k).remap.phase = .captured) then (s.refuseCapture k).remapStop
      else s.refuseCapture k := if_pos (by simp [h])

theorem State.refuseCapture_spec (s : State) (k : Option Nat) : (s.refuseCapture k).getF .capStatBADKIND = 1 ∧
    (s.refuseCapture k).capt = s.capt ∧ CaptureFrame s (s.refuseCapture k) := by
  obtain ⟨hget, hcapt⟩ := (s.setOn .capStatBADKIND).freeCapsel_read k
  exact ⟨(hget _ _ _).trans (State.getF_setF_self _ _ _ _ _), hcapt, (CaptureFrame.setF s (by decide) _ _ _).trans (.freeCapsel _ _)⟩

theorem State.captureAt_gated (h : s.unitOn .cap = false) (sel : Sel) (k : Option Nat) (rm : Bool) :
    (s.captureAt sel k rm).getF .capStatBADKIND = 1 ∧ (s.captureAt sel k rm).capt = s.capt ∧ CaptureFrame s (s.captureAt sel k rm) := by
  obtain ⟨hbad, hcapt, hframe⟩ := s.refuseCapture_spec k
  obtain ⟨hstop, hcapt', hsame⟩ := (s.refuseCapture k).remapStop_frame
  rw [State.captureAt_of_gated h]
  split
  · exact ⟨(hsame _ _ _ (by decide)).trans hbad, hcapt'.trans hcapt, hframe.trans hstop⟩
  · exact ⟨hbad, hcapt, hframe⟩

theorem CaptureFrame.capSkips_eq (h : CaptureFrame s t) (n : Nat) : t.capSkips n = s.capSkips n := by
  obtain ⟨hsame, _, _, _, _, _, _, _, _, rfl⟩ := h
  exact State.capSkips_congr rfl rfl rfl (hsame _ _ _ (by decide)) (hsame _ _ _ (by decide))

/-- The capture of a selection begins; what the end of an earlier one does decides nothing. -/
theorem State.captureAt_on (h : s.unitOn .cap = true) (sel : Sel) (k : Option Nat) (rm : Bool) :
    CaptureFrame s (s.captureAt sel k rm) ∧ ∃ c, (s.captureAt sel k rm).capt = some c ∧ c.sel = sel ∧ c.taken = [] ∧ c.remap = rm ∧
      c.capsel = k ∧ (∀ n : Pos, c.skipPos.testBit n = (sel.pos.testBit n && s.capSkips n)) ∧
      (s.captureAt sel k rm).getF .capCapskipposPOS = c.skipPos % 2 ^ 60 ∧
      (s.captureAt sel k rm).getF .capCapskipFLOORS = c.skipFlr % 2 ^ 64 := by
  have hend := s.captureEnd_frame
  obtain ⟨hcapt, hpos, hfloors⟩ := s.captureEnd.openCapture_read (s.captureEnd.newCapture sel k rm)
  rw [State.captureAt_of_on h]
  refine ⟨hend.trans (State.openCapture_frame _ _), _, hcapt, rfl, rfl, rfl, rfl, fun n => ?_, hpos, hfloors⟩
  exact (State.testBit_skippedPos _ _ n).trans (by rw [hend.capSkips_eq])

/-! ## The pitch -/

/-- What comes before the capture of a pitch: at a remap's, the remap's state 2 and the dead targets of its position. -/
def State.beforeCapture (s : State) (r : PitchRef) : State :=
  match r with
  | .fw => (((s.setF .dieRemapstatSTATE 2).dnpRest s.remap.pos 0).dnpRest s.remap.pos 1)
  | _ => s

/-- The CAPSEL whose request a pitch is. -/
def pitchCapsel : PitchRef → Option Nat
  | .capsel k => some k.val
  | .sw _ | .kiln | .fw | .timer _ => none

theorem exec_capturePitch {r : PitchRef} {p : Pitch} (h : s.takePitch (pitchKey r) 3 = some (p, u)) :
    exec (.capturePitch r) s = .next ((u.beforeCapture r).captureAt p.sel (pitchCapsel r) (decide (r = .fw))) := by
  change execCapturePitch r s = _
  rw [execCapturePitch, h]
  cases r <;> rfl

/-- Before the capture of a pitch nothing changes that it looks at. -/
theorem State.beforeCapture_stays (s : State) (r : PitchRef) : CapStays s (s.beforeCapture r) := by
  cases r with
  | fw => exact CapStays.refl.setF.dnpRest.dnpRest
  | sw _ | kiln | capsel _ | timer _ => exact .refl

/-- It changes none of what stands, but for the remap's state. -/
theorem State.beforeCapture_keeps (s : State) (r : PitchRef) :
    Keeps { fields := [.dieRemapstatSTATE] } s (s.beforeCapture r) ∧ (r = .fw → (s.beforeCapture r).getF .dieRemapstatSTATE = 2) := by
  cases r with
  | fw =>
    have hrest : Keeps noLoss (s.setF .dieRemapstatSTATE 2) (s.beforeCapture .fw) := Keeps.refl.dnpRest.dnpRest
    exact ⟨(Keeps.refl.write (.inr (by decide))).dnpRest.dnpRest,
      fun _ => (hrest.getF_eq _ (by decide) (by decide) 0 0).trans (State.getF_setF_self _ _ _ _ _)⟩
  | sw _ | kiln | capsel _ | timer _ => exact ⟨.refl, fun h => nomatch h⟩

theorem CaptureFrame.keeps (h : CaptureFrame s t) :
    t.getF .dieRemapstatSTATE = s.getF .dieRemapstatSTATE ∧ t.q = s.q ∧ t.cfg = s.cfg := by
  obtain ⟨hsame, _, _, _, _, _, _, _, _, rfl⟩ := h
  exact ⟨hsame _ _ _ (by decide), rfl, rfl⟩

theorem State.captureAt_frame (s : State) (sel : Sel) (k : Option Nat) (rm : Bool) : CaptureFrame s (s.captureAt sel k rm) := by
  cases h : s.unitOn .cap with
  | true => exact (s.captureAt_on h sel k rm).1
  | false => exact (s.captureAt_gated h sel k rm).2.2

theorem capturesBeginAtTheirPitch : CapturesBeginAtTheirPitch := by
  intro s r p u htake
  have hexec := exec_capturePitch htake
  have htaken : CapStays s u := CapStays.takePitch htake .refl
  have hkeeps : Keeps noLoss s u := Keeps.refl.takePitch htake
  have hbefore := u.beforeCapture_stays r
  obtain ⟨hkeeps', hstate⟩ := u.beforeCapture_keeps r
  obtain ⟨hstate', hq, hcfg⟩ := ((u.beforeCapture r).captureAt_frame p.sel (pitchCapsel r) (decide (r = .fw))).keeps
  have hcap : (u.beforeCapture r).unitOn .cap = s.unitOn .cap := (hbefore.unitOn_eq .cap).trans (htaken.unitOn_eq .cap)
  refine ⟨_, hexec, fun hon => ?_, fun hgated => ?_, fun hr => hstate'.trans (hstate hr), hq.trans (hkeeps'.q_eq.trans hkeeps.q_eq),
    hcfg.trans (hkeeps'.cfg_eq.trans hkeeps.cfg_eq), State.part_eq_of_exec hexec⟩
  · obtain ⟨-, c, hcapt, hsel, htakenNone, hremap, hcapsel, hskip, hpos, hfloors⟩ :=
      (u.beforeCapture r).captureAt_on (hcap.trans hon) p.sel (pitchCapsel r) (decide (r = .fw))
    refine ⟨c, hcapt, hsel, htakenNone, hremap, hcapsel.trans (by cases r <;> rfl), fun n => ?_, hpos, hfloors⟩
    rw [hskip, hbefore.capSkips_eq hkeeps']
  · obtain ⟨hbad, hcapt, -⟩ := (u.beforeCapture r).captureAt_gated (hcap.trans hgated) p.sel (pitchCapsel r) (decide (r = .fw))
    exact ⟨hbad, hcapt.trans (hbefore.capt_eq.trans htaken.capt_eq)⟩

end Sys2Proof.Machine

open Sys2Proof Sys2Proof.Machine

/-- Settles O28: a freeze or thaw acts part by part, and a capture begins where an open one has completed, which changes nothing that
decides what it skips. -/
theorem pitchesFreezeThawAndCapture : Obligations.PitchesFreezeThawAndCapture :=
  ⟨freezeAndThawActOnTheSelection, capturesBeginAtTheirPitch⟩
end

section
/-! SUPPORT. Device reset and the start of the part (R146, R244, R247, R255, R500, R514). -/

namespace Sys2Proof.Machine

variable {s t : State}

/-! ## Sweeps -/

/-- What one place of a sweep brings about stands after it, if no other place undoes it. -/
theorem State.foldl_establishes {α : Type} {I P : State → Prop} {f : State → α → State} {a : α}
    (hinv : ∀ t b, I t → I (f t b)) (hself : ∀ t, I t → P (f t a)) :
    ∀ {l : List α} {s : State}, (∀ t, ∀ b ∈ l, b ≠ a → I t → P t → P (f t b)) → I s → a ∈ l ∨ P s → P (l.foldl f s)
  | [], _, _, _, h => h.resolve_left List.not_mem_nil
  | b :: l, s, hother, hs, h => by
    rw [List.foldl_cons]
    refine State.foldl_establishes hinv hself (fun t c hc => hother t c (List.mem_cons_of_mem _ hc)) (hinv s b hs) ?_
    by_cases hb : b = a
    · exact .inr (hb ▸ hself s hs)
    · refine h.imp (fun h => (List.mem_cons.mp h).resolve_left (Ne.symm hb)) fun h => ?_
      exact hother s b List.mem_cons_self hb hs h

/-- The same of a sweep over the numbers below n. -/
theorem State.each_establishes {P : State → Prop} {n k : Nat} {g : Nat → State → State} (hk : k < n) (hself : ∀ t, P (g k t))
    (hother : ∀ t, ∀ j < n, j ≠ k → P t → P (g j t)) (s : State) : P (State.each n g s) :=
  State.foldl_establishes (I := fun _ => True) (fun _ _ _ => trivial) (fun t _ => hself t)
    (fun t j hj hjk _ => hother t j (List.mem_range.mp hj) hjk) trivial (.inl (List.mem_range.mpr hk))

/-! ## Device reset (R255, R514) -/

/-- What the VCCO sensors of a bank show, once cut to its fields, stands through a device reset. -/
theorem State.getF_deviceReset_iostat (s : State) (p : Phys) :
    s.deviceReset.getF .grnIostatVPRES p = s.getF .grnIostatVPRES p % 2 ∧
      s.deviceReset.getF .grnIostatVSENSE p = s.getF .grnIostatVSENSE p % 4 := by
  refine State.each_establishes (P := fun t => t.getF .grnIostatVPRES p = s.getF .grnIostatVPRES p % 2 ∧
    t.getF .grnIostatVSENSE p = s.getF .grnIostatVSENSE p % 4) p.isLt (fun t => ⟨?_, ?_⟩) (fun t j hj hjp h => ?_) _
  · rw [State.getF_setF_ne _ _ _ _ _ _ (by simp), State.getF_setF_self, Fld.grnIostatVPRES_len, pow_one]
  · rw [State.getF_setF_self, Fld.grnIostatVSENSE_len]
    rfl
  · have hne : p.val % 0x100000 ≠ j % 0x100000 := by omega
    simpa only [State.getF_setF_ne_fst _ _ _ _ hne] using h

/-- Device reset writes registers of the reset state and keeps what R255, R501 and R514 name. -/
theorem State.deviceReset_rest (s : State) : ∃ r, s.deviceReset = { State.reset with
    part := s.part, store := s.store, repair := s.repair, fuses := s.fuses, fuseNow := s.fuseNow, keyRam := s.keyRam, jtag := s.jtag,
    railsBad := s.railsBad, pending := s.pending, out := s.out, freeCtr := s.freeCtr, regs := r } := by
  unfold State.deviceReset State.each
  refine List.foldlRecOn (motive := fun t : State => ∃ r, t = { State.reset with
    part := s.part, store := s.store, repair := s.repair, fuses := s.fuses, fuseNow := s.fuseNow, keyRam := s.keyRam, jtag := s.jtag,
    railsBad := s.railsBad, pending := s.pending, out := s.out, freeCtr := s.freeCtr, regs := r }) _ _ ⟨_, rfl⟩ ?_
  rintro _ ⟨r, rfl⟩ p -
  exact ⟨_, rfl⟩

end Sys2Proof.Machine

open Sys2Proof Sys2Proof.Machine

/-- Settles O19: the sweep over the VCCO sensors is the one thing that device reset writes over the reset registers. -/
theorem deviceResetKeepsTheStoreAndTheFuses : Obligations.DeviceResetKeepsTheStoreAndTheFuses := by
  intro s
  refine ⟨s.deviceReset, rfl, ?_⟩
  have hread := s.getF_deviceReset_iostat
  have hreset (f : Fld) (i j : Nat) (hp : f ≠ .grnIostatVPRES) (hv : f ≠ .grnIostatVSENSE) := s.getF_deviceReset hp hv i j
  obtain ⟨r, hr⟩ := s.deviceReset_rest
  rw [hr] at hread hreset ⊢
  exact ⟨rfl, rfl, rfl, rfl, rfl, rfl, rfl, rfl, rfl, hread, hreset, rfl⟩
end

section
/-! SUPPORT. What the Kiln's loads, releases and reloads leave standing on their long way through the part: a few register fields, the
frames, the positions, the crossings, the floors, the base slot and the root. One lemma per operation says that it keeps them. -/

namespace Sys2Proof.Machine

/-! ## What stands -/

/-- The fields by which a load and its release are followed. -/
def loadFields : List Fld := [.kilnStatSTATE, .kilnImgverVERSION, .kilnBasedigDIG, .kilnFlrstatSTATE, .clkRootstatLOCK]

/-- What is followed besides registers. -/
structure LoadView where
  cfg : SMap CfgFrame
  pos : SMap PosSt
  oos : SMap Bool
  xr : SMap XrSt
  xe : SMap XeSt
  shelf : SMap (Option ShelfEnt)
  floorTab : SMap Nat
  heldReload : Option Nat
  baseSlot : Option Nat
  root : Root
  ran39 : Nat

def State.loadView : State → LoadView
  | { cfg, pos, oos, xr, xe, shelf, floorTab, heldReload, baseSlot, root, ran39, .. } =>
    ⟨cfg, pos, oos, xr, xe, shelf, floorTab, heldReload, baseSlot, root, ran39⟩

/-- All that `LoadStays` looks at. -/
def State.loadWatched : State → Part × SMap Nat × List OutMsg × LoadView
  | { part, regs, out, cfg, pos, oos, xr, xe, shelf, floorTab, heldReload, baseSlot, root, ran39, .. } =>
    (part, regs, out, ⟨cfg, pos, oos, xr, xe, shelf, floorTab, heldReload, baseSlot, root, ran39⟩)

/-- From s to t all that stands is kept, but for the fields of l, and no message is withdrawn. -/
structure LoadStays (l : List Fld) (s t : State) : Prop where
  getF_eq : ∀ f ∈ loadFields, f ∉ l → ∀ i j, t.getF f i j = s.getF f i j
  view_eq : t.loadView = s.loadView
  out_grows : s.out <+: t.out

variable {l : List Fld} {s t u : State}

theorem State.loadWatched_eq_iff : u.loadWatched = t.loadWatched ↔
    u.part = t.part ∧ u.regs = t.regs ∧ u.out = t.out ∧ u.loadView = t.loadView := by
  cases u
  cases t
  simp only [State.loadWatched, State.loadView, Prod.mk.injEq]

namespace LoadStays

theorem cfg_eq (h : LoadStays l s t) : t.cfg = s.cfg := congrArg LoadView.cfg h.view_eq
theorem pos_eq (h : LoadStays l s t) : t.pos = s.pos := congrArg LoadView.pos h.view_eq
theorem oos_eq (h : LoadStays l s t) : t.oos = s.oos := congrArg LoadView.oos h.view_eq
theorem xr_eq (h : LoadStays l s t) : t.xr = s.xr := congrArg LoadView.xr h.view_eq
theorem xe_eq (h : LoadStays l s t) : t.xe = s.xe := congrArg LoadView.xe h.view_eq
theorem shelf_eq (h : LoadStays l s t) : t.shelf = s.shelf := congrArg LoadView.shelf h.view_eq
theorem floorTab_eq (h : LoadStays l s t) : t.floorTab = s.floorTab := congrArg LoadView.floorTab h.view_eq
theorem heldReload_eq (h : LoadStays l s t) : t.heldReload = s.heldReload := congrArg LoadView.heldReload h.view_eq
theorem baseSlot_eq (h : LoadStays l s t) : t.baseSlot = s.baseSlot := congrArg LoadView.baseSlot h.view_eq
theorem root_eq (h : LoadStays l s t) : t.root = s.root := congrArg LoadView.root h.view_eq
theorem ran39_eq (h : LoadStays l s t) : t.ran39 = s.ran39 := congrArg LoadView.ran39 h.view_eq

theorem refl : LoadStays l s s := ⟨fun _ _ _ _ _ => rfl, rfl, ⟨[], List.append_nil _⟩⟩

theorem trans (h : LoadStays l s t) (h' : LoadStays l t u) : LoadStays l s u :=
  ⟨fun f hf hl i j => (h'.getF_eq f hf hl i j).trans (h.getF_eq f hf hl i j), h'.view_eq.trans h.view_eq,
    h.out_grows.trans h'.out_grows⟩

/-- A write of a field that does not stand, or that l gives up. -/
theorem write {f : Fld} {v i j : Nat} (h : LoadStays l s t) (hf : f ∉ loadFields ∨ f ∈ l) : LoadStays l s (t.setF f v i j) where
  getF_eq g hg hl a b := by
    have hne : g ≠ f := by
      rintro rfl
      exact hf.elim (· hg) hl
    rw [State.getF_setF_ne _ _ _ _ _ _ hne, h.getF_eq g hg hl]
  view_eq := h.view_eq
  out_grows := h.out_grows

/-- A change of what is not watched. -/
theorem other (h : LoadStays l s t) (e : u.loadWatched = t.loadWatched) : LoadStays l s u := by
  obtain ⟨hpart, hregs, hout, hview⟩ := State.loadWatched_eq_iff.mp e
  refine ⟨fun f hf hl i j => ?_, hview.trans h.view_eq, hout ▸ h.out_grows⟩
  rw [← h.getF_eq f hf hl i j, State.getF, State.getF, hpart, hregs]

theorem emit {m : OutMsg} (h : LoadStays l s t) : LoadStays l s (t.emit m) := ⟨h.getF_eq, h.view_eq, h.out_grows.trans ⟨_, rfl⟩⟩

theorem setF {f v i j} (hf : loadFields.contains f = false) (h : LoadStays l s t) : LoadStays l s (t.setF f v i j) :=
  h.write (.inl fun hm => Bool.noConfusion (hf.symm.trans (List.contains_iff_mem.mpr hm)))
theorem setOn {f i j} (hf : loadFields.contains f = false) (h : LoadStays l s t) : LoadStays l s (t.setOn f i j) := setF hf h
theorem setOff {f i j} (hf : loadFields.contains f = false) (h : LoadStays l s t) : LoadStays l s (t.setOff f i j) := setF hf h
theorem count {f n i j} (hf : loadFields.contains f = false) (h : LoadStays l s t) : LoadStays l s (t.count f n i j) := setF hf h
theorem setBitF {f b v i j} (hf : loadFields.contains f = false) (h : LoadStays l s t) : LoadStays l s (t.setBitF f b v i j) := setF hf h

theorem ite {c : Prop} [Decidable c] (h : LoadStays l s t) (h' : LoadStays l s u) : LoadStays l s (if c then t else u) := by
  split
  · exact h
  · exact h'

theorem optElim {α : Type} {f : α → State} {o : Option α} (h : LoadStays l s t) (hf : ∀ a, LoadStays l s (f a)) :
    LoadStays l s (o.elim t f) := by
  cases o with
  | none => exact h
  | some a => exact hf a

theorem foldl {α : Type} {f : State → α → State} {as : List α} (h : LoadStays l s t)
    (hf : ∀ {t a}, LoadStays l s t → LoadStays l s (f t a)) : LoadStays l s (as.foldl f t) :=
  List.foldlRecOn as f h fun _ h _ _ => hf h

theorem each {n f} (h : LoadStays l s t) (hf : ∀ {t k}, LoadStays l s t → LoadStays l s (f k t)) : LoadStays l s (State.each n f t) :=
  h.foldl hf

/-! ## Events and packets -/

theorem raise {e payload} (h : LoadStays l s t) : LoadStays l s (t.raise e payload) :=
  ite h (ite (setOn rfl (setOn rfl (count rfl (setF rfl h))).emit) (setOn rfl (count rfl (setF rfl h))).emit)

theorem herr {addr cause} (h : LoadStays l s t) : LoadStays l s (t.herr addr cause) :=
  ite h (raise (count rfl (setOn rfl (ite h (setF rfl (setF rfl h))))))
theorem postedFail {p} (h : LoadStays l s t) : LoadStays l s (t.postedFail p) := ite h.herr h
theorem inject {p} (h : LoadStays l s t) : LoadStays l s (t.inject p) := ite (other h rfl) (other h rfl)
theorem respond {p status data} (h : LoadStays l s t) : LoadStays l s (t.respond p status data) := ite (ite h h.postedFail) h.inject
theorem requeue {ps} (h : LoadStays l s t) : LoadStays l s (t.requeue ps) := other h rfl
theorem updIso {p} (h : LoadStays l s t) : LoadStays l s (t.updIso p) := optElim (setF rfl h) fun _ => setBitF rfl (setF rfl h)
theorem restIso {p x on} (h : LoadStays l s t) : LoadStays l s (t.restIso p x on) := (setBitF rfl h).updIso
theorem setDnp {n k d} (h : LoadStays l s t) : LoadStays l s (t.setDnp n k d) := other h rfl
theorem dnpRest {n k} (h : LoadStays l s t) : LoadStays l s (t.dnpRest n k) := setDnp (foldl h.restIso fun h => h.respond)
theorem dnpUnrest {n k} (h : LoadStays l s t) : LoadStays l s (t.dnpUnrest n k) := h.restIso

/-! ## Memory channels -/

theorem setChanSt {m c} (h : LoadStays l s t) : LoadStays l s (t.setChanSt m c) := setF rfl (setF rfl (other h rfl))
theorem closeRows {m} (h : LoadStays l s t) : LoadStays l s (t.closeRows m) := other h rfl

theorem dropRequests {m} (h : LoadStays l s t) : LoadStays l s (t.dropRequests m) :=
  setChanSt (foldl h fun h => by
    split
    exacts [respond (other h rfl), h])

theorem loseContents {m} (h : LoadStays l s t) : LoadStays l s (t.loseContents m) := other h rfl

theorem startTraining {m} (h : LoadStays l s t) : LoadStays l s (t.startTraining m) :=
  have hcnt {u : State} (h : LoadStays l s u) (d : SMap Nat) : LoadStays l s { u with devCnt := d } := other h rfl
  hcnt (setOff rfl (setF rfl (setF rfl (setF rfl (setF rfl h.dropRequests.loseContents.setChanSt))))).closeRows _

theorem ddrStart (h : LoadStays l s t) : LoadStays l s t.ddrStart :=
  ite h.raise (other (h.foldl (as := (List.range 16).filter _) fun h => h.startTraining) rfl)

theorem ddrReset (h : LoadStays l s t) : LoadStays l s t.ddrReset :=
  have hmem {u : State} (h : LoadStays l s u) : LoadStays l s { u with mem := [], trWait := none } := other h rfl
  hmem (foldl h fun h =>
    have hw := h.dropRequests.setChanSt
    ite (setF rfl hw).closeRows hw)

/-! ## Jobs and attempts -/

theorem jobStart (h : LoadStays l s t) : LoadStays l s t.jobStart := by
  unfold State.jobStart
  split
  exacts [other h rfl, setF rfl h, h.ddrReset, h, h, h]

theorem jobAdd {j} (h : LoadStays l s t) : LoadStays l s (t.jobAdd j) := ite (jobStart (other h rfl)) (other h rfl)
theorem jobEnd (h : LoadStays l s t) : LoadStays l s t.jobEnd := jobStart (other h rfl)

theorem loadJobEnd (h : LoadStays l s t) : LoadStays l s t.loadJobEnd := by
  unfold State.loadJobEnd
  split
  exacts [h.jobEnd, h, h, h, h, h]

theorem setLoad (h : LoadStays l s t) (m : LoadSt) : LoadStays l s { t with load := m } := other h rfl
theorem setEvFifo (h : LoadStays l s t) (m : SMap (List Nat)) : LoadStays l s { t with evFifo := m } := other h rfl

theorem loadLog {code slot lpos frame} (h : LoadStays l s t) : LoadStays l s (t.loadLog code slot lpos frame) :=
  setF rfl (setOn rfl (setF rfl (setF rfl (setF rfl (setF rfl (setF rfl (setF rfl h)))))))

/-- After its event, the stop of a load leaves all that stands. -/
theorem kilnFailed_raised (s : State) : LoadStays l (s.stopLoad.raise 990) s.kilnFailed := (ite refl.ddrStart refl).loadJobEnd

/-- A load that stops leaves all but what its stop names. -/
theorem kilnFailed (s : State) : LoadStays l s.stopLoad s.kilnFailed := refl.raise.trans (kilnFailed_raised s)

/-- Where no image is in force, STATE is all that its stop names. -/
theorem kilnFailed_of_none (h : LoadStays [.kilnStatSTATE] s t) (hb : s.baseSlot = none) : LoadStays [.kilnStatSTATE] s t.kilnFailed := by
  have hslot : t.baseSlot = none := h.baseSlot_eq.trans hb
  have hstop : LoadStays [.kilnStatSTATE] s t.stopLoad := by
    have hset : LoadStays [.kilnStatSTATE] s (t.setF .kilnStatSTATE 9) := h.write (.inr List.mem_cons_self)
    have hsame : t.stopLoad = t.setF .kilnStatSTATE 9 := by rw [State.stopLoad, ← hslot]; rfl
    exact hsame ▸ hset
  exact hstop.trans (kilnFailed t)

theorem nextAttempt (h : LoadStays [.kilnStatSTATE] s t) (hb : s.baseSlot = none) : LoadStays [.kilnStatSTATE] s t.nextAttempt := by
  unfold State.nextAttempt
  split
  · exact h.kilnFailed_of_none hb
  · exact write (setF rfl (setF rfl (setF rfl (other h rfl)))) (.inr List.mem_cons_self)

theorem beginLoad {order} (h : LoadStays [.kilnStatSTATE] s t) (hb : s.baseSlot = none) :
    LoadStays [.kilnStatSTATE] s (t.beginLoad order) := by
  have ht : LoadStays [.kilnStatSTATE] s { t with load := { LoadSt.none with order := order } } := other h rfl
  exact ite (ht.nextAttempt hb) (ht.loadLog.kilnFailed_of_none hb)

/-! ## Positions -/

theorem setSlice {n k v} (h : LoadStays l s t) : LoadStays l s (t.setSlice n k v) := other h rfl

theorem startTiles {n p} (h : LoadStays l s t) : LoadStays l s (t.startTiles n p) := by
  unfold State.startTiles
  extract_lets t₁
  have h₁ : LoadStays l s t₁ := other h rfl
  refine foldl h₁ fun h => ite ?_ h
  dsimp only
  split
  exacts [setSlice (other h rfl), other h rfl]

theorem thawAll {n} (h : LoadStays l s t) : LoadStays l s (t.thawAll n) := setF rfl (other h rfl)
theorem bankCheck {n} (h : LoadStays l s t) : LoadStays l s (t.bankCheck n) := ite (setOn rfl h) h
theorem passStart {n} (h : LoadStays l s t) : LoadStays l s (t.passStart n) := setF rfl (other h rfl)

/-! ## Power domains, lanes and wort links -/

theorem retainCopy {n} (h : LoadStays l s t) : LoadStays l s (t.retainCopy n) := setF rfl (foldl (other h rfl) fun h => other h rfl)

theorem setPwrGo (h : LoadStays l s t) (m : SMap (Option Nat)) : LoadStays l s { t with pwrGo := m } := other h rfl
theorem setPwrNext (h : LoadStays l s t) (m : SMap (Option Nat)) : LoadStays l s { t with pwrNext := m } := other h rfl

theorem startTransition {d x} (h : LoadStays l s t) : LoadStays l s (t.startTransition d x) := by
  unfold State.startTransition
  extract_lets t₁ u v
  have h₁ : LoadStays l s t₁ := setOn rfl h
  have hu : LoadStays l s u := h₁.setPwrGo _
  have hv : LoadStays l s v := by
    unfold v
    split
    exacts [hu.retainCopy, hu]
  split
  exacts [setOn rfl hv, hv]

theorem wake {d cause} (h : LoadStays l s t) : LoadStays l s (t.wake d cause) := by
  unfold State.wake
  extract_lets u
  have hu : LoadStays l s u := setF rfl (setF rfl h)
  split
  exacts [hu, hu.setPwrNext _, ite h hu.startTransition]

theorem pwrReload (h : LoadStays l s t) : LoadStays l s t.pwrReload := h.each fun h => ite h (ite (setF rfl h) (setF rfl h).wake)

theorem raiseG {n k payload} (h : LoadStays l s t) : LoadStays l s (t.raiseG n k payload) := h.raise
theorem leaveUp {x} (h : LoadStays l s t) : LoadStays l s (t.leaveUp x) := ite (setOn rfl (setF rfl h)).raiseG (setF rfl h)
theorem rxOff {x} (h : LoadStays l s t) : LoadStays l s (t.rxOff x) := setOff rfl (setOff rfl h.leaveUp)
theorem injectNow {x} (h : LoadStays l s t) : LoadStays l s (t.injectNow x) := ite (setOff rfl h).emit h
theorem quadSettle {x} (h : LoadStays l s t) : LoadStays l s (t.quadSettle x) := ite (ite (setOff rfl h).startTransition (setOff rfl h)) h

theorem setLaneExit (h : LoadStays l s t) (m : SMap Bool) : LoadStays l s { t with laneExit := m } := other h rfl

theorem setLaneFifos (h : LoadStays l s t) (m : SMap (List (Nat × Nat))) (n : SMap (List RxBeat)) :
    LoadStays l s { t with laneTx := m, laneRx := n } := other h rfl

theorem laneEnter {x st} (h : LoadStays l s t) : LoadStays l s (t.laneEnter x st) := by
  unfold State.laneEnter
  extract_lets t₁ t₂ u v
  have h₁ : LoadStays l s t₁ := ite h.rxOff h
  have h₂ : LoadStays l s t₂ := setF rfl h₁
  have hu : LoadStays l s u := h₂.setLaneExit _
  have hv : LoadStays l s v := by
    unfold v
    split
    exacts [hu.setLaneFifos _ _, hu]
  exact hv.injectNow.quadSettle

theorem laneApply {x} (h : LoadStays l s t) : LoadStays l s (t.laneApply x) := ite h h.laneEnter
theorem lanesApply (h : LoadStays l s t) : LoadStays l s t.lanesApply := h.each fun h => h.laneApply
theorem wortState {k st} (h : LoadStays l s t) : LoadStays l s (t.wortState k st) := ite h (setOn rfl (setF rfl h)).raise
theorem setWort {k v} (h : LoadStays l s t) : LoadStays l s (t.setWort k v) := other h rfl
theorem wortReload (h : LoadStays l s t) : LoadStays l s t.wortReload := h.lanesApply.each fun h => ite (setF rfl h).wortState.setWort h

/-! ## Protection engines and the coherent cache -/

theorem setMemp (h : LoadStays l s t) (m : MempSt) : LoadStays l s { t with memp := m } := other h rfl

theorem zeroKeys (h : LoadStays l s t) : LoadStays l s t.zeroKeys :=
  have h' : LoadStays l s ((t.setF .mempKeystateST 0 0).setF .mempKeystateST 0 1) := setF rfl (setF rfl h)
  h'.setMemp _

theorem mempReset (h : LoadStays l s t) : LoadStays l s t.mempReset := by
  unfold State.mempReset
  extract_lets u
  have hu : LoadStays l s u := h.zeroKeys.each fun h => setF rfl (setOff rfl (setOff rfl (setF rfl h)))
  exact (hu.requeue (ps := u.memp.reqs.map (·.pkt) ++ u.memp.wait)).setMemp _

theorem rgnGo (h : LoadStays l s t) : LoadStays l s t.rgnGo := h.each fun h => by
  split
  exacts [setF rfl h, h]

theorem setBiasCmd (h : LoadStays l s t) (c : Option (List Nat × Bool × Nat)) : LoadStays l s { t with biasCmd := c } := other h rfl

theorem biasCmdDone {last} (h : LoadStays l s t) : LoadStays l s (t.biasCmdDone last) :=
  have h' : LoadStays l s { t with biasCmd := none } := h.setBiasCmd none
  (setF rfl (setOn rfl (setOff rfl h'))).raise

theorem forgetHostPages (h : LoadStays l s t) : LoadStays l s { t with hostPages := [], flips := [], resolves := [] } := other h rfl

theorem biasClear (h : LoadStays l s t) : LoadStays l s t.biasClear := by
  unfold State.biasClear
  extract_lets t₁ t₂ u
  have h₁ : LoadStays l s t₁ := h.requeue
  have h₂ : LoadStays l s t₂ := h₁.forgetHostPages
  have hu : LoadStays l s u := by
    unfold u
    split
    exacts [h₂.biasCmdDone, h₂]
  exact hu.rgnGo

theorem biasLost (h : LoadStays l s t) : LoadStays l s t.biasLost := ite (setOn rfl h.biasClear) h

theorem forgetHcache (h : LoadStays l s t) : LoadStays l s { t with hcache := [] } := other h rfl

theorem cohFlush (h : LoadStays l s t) : LoadStays l s t.cohFlush := by
  unfold State.cohFlush
  extract_lets u
  have hu : LoadStays l s u := h.foldl fun h => by
    split
    exacts [h.emit, h]
  exact (setOn rfl hu).forgetHcache

end LoadStays
end Sys2Proof.Machine
end

section
/-! SUPPORT. The start of the part (R146, R244, R247 steps 1 to 3, R496, R500): what the end of PERST_N latches, and how the root starts. -/

namespace Sys2Proof.Machine

variable {s t : State}

/-! ## PERST_N deasserts -/

/-- A slot is being programmed over the test port. -/
def State.jtagSlotprog (s : State) : Bool :=
  match s.jtag.op with
  | some (.slotprog _) => true
  | some (.fuseprog _ _) | some (.keyram _) | none => false

/-- The part leaves reset: fuses are latched, and an operation of the test port is abandoned. -/
def State.endReset (s : State) : State :=
  ({ (if s.jtagSlotprog then s.eraseSlot0 else s) with perst := false, fuseNow := s.fuses }).jtagAbandon

/-- The straps are latched, and STATE becomes 1. -/
def State.latchStraps (s : State) (bootsel : BitVec 2) (cfgpull : Bool) : State :=
  (((s.setF .kilnStatBOOTSEL bootsel.toNat).setF .kilnStatCFGPULL cfgpull.toNat).setF .kilnStatKEYSEL s.keySel.toNat).setF
    .kilnStatSTATE 1

theorem exec_perstNDeassert (h : s.perst = true) (b : BitVec 2) (c : Bool) :
    exec (.perstNDeassert b c) s = .next (s.endReset.latchStraps b c).rootStart :=
  congrArg Host.Outcome.next (if_neg (by simp [h]))

theorem State.endReset_eq (s : State) : ∃ j m, s.endReset = { s with perst := false, fuseNow := s.fuses, jtag := j, store := m } ∧
    (s.jtag.op = none → j = s.jtag ∧ m = s.store) ∧ (s.jtag.op ≠ none → j = { s.jtag with op := none, err := true }) ∧
    ∀ k, 2 ^ 32 ≤ k → SMap.get (fun _ => none) m k = SMap.get (fun _ => none) s.store k := by
  have hkeep (k : Nat) (hk : 2 ^ 32 ≤ k) : SMap.get (fun _ => none) s.eraseSlot0.store k = SMap.get (fun _ => none) s.store k := by
    rw [State.eraseSlot0, SMap.get_clearWhere, if_neg (by simp only [beq_iff_eq]; omega)]
  unfold State.endReset State.jtagAbandon State.jtagSlotprog
  cases hop : s.jtag.op with
  | none => exact ⟨_, _, by simp only [if_neg Bool.false_ne_true, hop]; rfl, by simp, by simp, fun _ _ => rfl⟩
  | some op =>
    cases op with
    | fuseprog row data => exact ⟨_, _, by simp only [if_neg Bool.false_ne_true, hop]; rfl, by simp, by simp, fun _ _ => rfl⟩
    | keyram key => exact ⟨_, _, by simp only [if_neg Bool.false_ne_true, hop]; rfl, by simp, by simp, fun _ _ => rfl⟩
    | slotprog bytes => exact ⟨_, _, by simp only [if_pos, State.eraseSlot0, hop]; rfl, by simp, by simp, hkeep⟩

theorem State.getF_endReset (s : State) (f : Fld) (i j : Nat) : s.endReset.getF f i j = s.getF f i j := by
  obtain ⟨_, _, hreset, -⟩ := s.endReset_eq
  rw [hreset]
  rfl

/-- KEYSEL is in force as the fuses hold it. -/
theorem State.keySel_endReset (s : State) : s.endReset.keySel = (SMap.get (fun _ => 0) s.fuses 8).testBit 0 := by
  obtain ⟨_, _, hreset, -⟩ := s.endReset_eq
  rw [hreset]
  rfl

theorem State.latchStraps_read (s : State) (b : BitVec 2) (c : Bool) :
    (s.latchStraps b c).getF .kilnStatBOOTSEL = b.toNat ∧ (s.latchStraps b c).getF .kilnStatCFGPULL = c.toNat ∧
      (s.latchStraps b c).getF .kilnStatKEYSEL = s.keySel.toNat ∧ (s.latchStraps b c).getF .kilnStatSTATE = 1 := by
  have hbit (x : Bool) : x.toNat % 2 = x.toNat := Nat.mod_eq_of_lt x.toNat_lt
  simp [State.latchStraps, hbit, Nat.mod_eq_of_lt b.isLt]

theorem State.latchStraps_frame (s : State) (b : BitVec 2) (c : Bool) :
    RegsOnly [fk .kilnStatSTATE, fk .kilnStatKEYSEL, fk .kilnStatCFGPULL, fk .kilnStatBOOTSEL] s (s.latchStraps b c) :=
  ((((RegsOnly.refl s).setF _ _ _ _).setF _ _ _ _).setF _ _ _ _).setF _ _ _ _

/-! ## The root starts (R146) -/

/-- A root that waits begins to lock to reference r. -/
def State.lockTo (s : State) (r : RefIn) : State := { s.setF .clkRootcfgREFSEL (refSel r) with root := .locking }

theorem State.rootStart_of_waiting (hroot : s.root = .waiting) (hs : s.perst = false) : s.rootStart =
    if s.isSet .clkRootstatREF0OK then s.lockTo .refclk else if s.isSet .clkRootstatREF1OK then s.lockTo .refclk2 else s := by
  simp [State.rootStart, State.rootOnQualified, State.lockTo, hroot, hs]

/-- The root's rules change REFSEL and the root alone. -/
theorem State.rootOnQualified_refsel (s : State) (r : RefIn) :
    SameBut [fk .clkRootcfgREFSEL] s (s.rootOnQualified r) ∧ ∃ g x, s.rootOnQualified r = { s with regs := g, root := x } := by
  have hset (x : Root) : SameBut [fk .clkRootcfgREFSEL] s { s.setF .clkRootcfgREFSEL (refSel r) with root := x } :=
    SameBut.setF s .clkRootcfgREFSEL (refSel r) 0 0
  unfold State.rootOnQualified
  split
  · exact ⟨SameBut.refl _ _, _, _, rfl⟩
  · split
    · split
      · exact ⟨SameBut.refl _ _, _, _, rfl⟩
      · exact ⟨hset _, _, _, rfl⟩
    · split
      · exact ⟨hset _, _, _, rfl⟩
      · exact ⟨SameBut.refl _ _, _, _, rfl⟩
    all_goals exact ⟨SameBut.refl _ _, _, _, rfl⟩

theorem State.rootStart_refsel (s : State) :
    SameBut [fk .clkRootcfgREFSEL] s s.rootStart ∧ ∃ g x, s.rootStart = { s with regs := g, root := x } := by
  unfold State.rootStart
  split
  · exact s.rootOnQualified_refsel _
  · split
    · exact s.rootOnQualified_refsel _
    · exact ⟨SameBut.refl _ _, _, _, rfl⟩

/-- REFCLK is tried before REFCLK2. -/
theorem State.rootStart_read (hroot : s.root = .waiting) (hs : s.perst = false) :
    (s.isSet .clkRootstatREF0OK = true → s.rootStart.root = .locking ∧ s.rootStart.getF .clkRootcfgREFSEL = 0) ∧
      (s.isSet .clkRootstatREF0OK = false → s.isSet .clkRootstatREF1OK = true →
        s.rootStart.root = .locking ∧ s.rootStart.getF .clkRootcfgREFSEL = 1) ∧
      (s.isSet .clkRootstatREF0OK = false → s.isSet .clkRootstatREF1OK = false → s.rootStart.root = .waiting) := by
  have hsel (r : RefIn) : (s.lockTo r).getF .clkRootcfgREFSEL = refSel r % 2 := State.getF_setF_self s .clkRootcfgREFSEL _ 0 0
  rw [State.rootStart_of_waiting hroot hs]
  refine ⟨fun h0 => ?_, fun h0 h1 => ?_, fun h0 h1 => ?_⟩
  · rw [if_pos h0]
    exact ⟨rfl, hsel _⟩
  · rw [if_neg (by simp [h0]), if_pos h1]
    exact ⟨rfl, hsel _⟩
  · rw [if_neg (by simp [h0]), if_neg (by simp [h1])]
    exact hroot

/-! ## PERST_N as a whole -/

/-- What the end of PERST_N changes. -/
def StartFrame (s t : State) : Prop := { t with
  regs := s.regs, perst := s.perst, fuseNow := s.fuseNow, jtag := s.jtag, store := s.store, root := s.root } = s

theorem State.startUp_frame (s : State) (b : BitVec 2) (c : Bool) :
    SameBut [fk .kilnStatBOOTSEL, fk .kilnStatCFGPULL, fk .kilnStatKEYSEL, fk .kilnStatSTATE, fk .clkRootcfgREFSEL] s
      (s.endReset.latchStraps b c).rootStart ∧ StartFrame s (s.endReset.latchStraps b c).rootStart := by
  obtain ⟨hstraps, hrest⟩ := s.endReset.latchStraps_frame b c
  obtain ⟨hstart, g, x, hx⟩ := (s.endReset.latchStraps b c).rootStart_refsel
  obtain ⟨j, m, hreset, -⟩ := s.endReset_eq
  refine ⟨fun f i k hf => ?_, ?_⟩
  · rw [← s.getF_endReset f i k]
    exact (hstraps.trans hstart).mono (by simp) f i k hf
  · obtain ⟨r, hr⟩ := eq_of_putBack_regs hrest
    rw [hx]
    generalize s.endReset.latchStraps b c = w at hr
    subst hr
    rw [hreset]
    rfl

/-- PERST_N, the latched fuses, the test port and the store. -/
def State.portView (s : State) : Bool × SMap Nat × JtagSt × SMap (Option Byte) := (s.perst, s.fuseNow, s.jtag, s.store)

theorem State.portView_latchStraps (s : State) (b : BitVec 2) (c : Bool) : (s.latchStraps b c).portView = s.portView := rfl

theorem State.portView_rootStart (s : State) : s.rootStart.portView = s.portView := by
  obtain ⟨-, g, x, hx⟩ := s.rootStart_refsel
  rw [hx]
  rfl

/-- What the end of PERST_N leaves in the test port and the store. -/
theorem State.startUp_port (s : State) (b : BitVec 2) (c : Bool) :
    let t := (s.endReset.latchStraps b c).rootStart
    t.perst = false ∧ t.fuseNow = s.fuses ∧ (s.jtag.op = none → t.jtag = s.jtag ∧ t.store = s.store) ∧
      (s.jtag.op ≠ none → t.jtag = { s.jtag with op := none, err := true }) ∧
      ∀ k, 2 ^ 32 ≤ k → SMap.get (fun _ => none) t.store k = SMap.get (fun _ => none) s.store k := by
  intro t
  obtain ⟨j, m, hreset, hnone, hsome, hstore⟩ := s.endReset_eq
  have hview : t.portView = (false, s.fuses, j, m) :=
    (State.portView_rootStart _).trans ((State.portView_latchStraps _ b c).trans (congrArg State.portView hreset))
  simp only [State.portView, Prod.mk.injEq] at hview
  obtain ⟨hperst, hfuse, rfl, rfl⟩ := hview
  exact ⟨hperst, hfuse, hnone, hsome, hstore⟩

/-- What the straps and fuses give, and the reference that a waiting root takes. -/
theorem State.startUp_read (s : State) (b : BitVec 2) (c : Bool) :
    let t := (s.endReset.latchStraps b c).rootStart
    t.getF .kilnStatBOOTSEL = b.toNat ∧ t.getF .kilnStatCFGPULL = c.toNat ∧
      t.getF .kilnStatKEYSEL = ((SMap.get (fun _ => 0) s.fuses 8).testBit 0).toNat ∧ t.getF .kilnStatSTATE = 1 := by
  intro t
  obtain ⟨hstart, -⟩ := (s.endReset.latchStraps b c).rootStart_refsel
  obtain ⟨hboot, hpull, hsel, hstate⟩ := s.endReset.latchStraps_read b c
  refine ⟨?_, ?_, ?_, ?_⟩
  · exact (hstart.fld _ 0 0 (by decide)).trans hboot
  · exact (hstart.fld _ 0 0 (by decide)).trans hpull
  · rw [← s.keySel_endReset]
    exact (hstart.fld _ 0 0 (by decide)).trans hsel
  · exact (hstart.fld _ 0 0 (by decide)).trans hstate

theorem State.startUp_root (s : State) (b : BitVec 2) (c : Bool) (hroot : s.root = .waiting) :
    let t := (s.endReset.latchStraps b c).rootStart
    (s.isSet .clkRootstatREF0OK = true → t.root = .locking ∧ t.getF .clkRootcfgREFSEL = 0) ∧
      (s.isSet .clkRootstatREF0OK = false → s.isSet .clkRootstatREF1OK = true → t.root = .locking ∧ t.getF .clkRootcfgREFSEL = 1) ∧
      (s.isSet .clkRootstatREF0OK = false → s.isSet .clkRootstatREF1OK = false → t.root = .waiting) := by
  intro t
  obtain ⟨j, m, hreset, -⟩ := s.endReset_eq
  obtain ⟨hstraps, -⟩ := s.endReset.latchStraps_frame b c
  have hok (f : Fld) (hf : ∀ k ∈ [fk .kilnStatSTATE, fk .kilnStatKEYSEL, fk .kilnStatCFGPULL, fk .kilnStatBOOTSEL], k.1 ≠ f) :
      (s.endReset.latchStraps b c).isSet f = s.isSet f := by
    rw [State.isSet, hstraps.fld f 0 0 hf, s.getF_endReset]
    rfl
  rw [← hok .clkRootstatREF0OK (by decide), ← hok .clkRootstatREF1OK (by decide)]
  have hperst : s.endReset.perst = false := congrArg State.perst hreset
  exact State.rootStart_read ((congrArg State.root hreset).trans hroot) hperst

/-! ## The root locks -/

/-- Device time starts, and STATE becomes 2. -/
def State.startTime (s : State) (fw : FwSt) : State :=
  (({ s.free.2 with root := .locked, lockNs := s.free.1, ran39 := 0, fw := fw }).setOn .clkRootstatLOCK).setF .kilnStatSTATE 2

theorem exec_rootLock (hs : s.perst = false) (hroot : s.root = .locking) (a b : Bool) : exec (.rootLock a b) s =
    .next (if a || b then s.startTime .running else ((s.startTime .failed).loadLog 0x22 3 0x3F 0).kilnFailed) := by
  change execRootLock a b s = _
  unfold execRootLock State.startTime
  rw [hs, hroot]
  cases a <;> cases b <;> rfl

theorem State.startTime_frame (s : State) (fw : FwSt) : SameBut [fk .kilnStatSTATE, fk .clkRootstatLOCK] s (s.startTime fw) :=
  ((SameBut.refl [] s).setF_of .clkRootstatLOCK 1 0 0).setF_of .kilnStatSTATE 2 0 0

theorem State.startTime_read (s : State) (fw : FwSt) :
    (s.startTime fw).getF .clkRootstatLOCK = 1 ∧ (s.startTime fw).getF .kilnStatSTATE = 2 := by
  simp [State.startTime, State.setOn]

/-- Without firmware and without a job of the Kiln, the stop of the load is event 990 after STATE 9. -/
theorem State.kilnFailed_of_fwFailed (hfw : s.fw ≠ .running) (hjobs : s.kilnJobs = []) : s.kilnFailed = s.stopLoad.raise 990 := by
  have hr : (s.stopLoad.raise 990).fw = s.fw ∧ (s.stopLoad.raise 990).kilnJobs = s.kilnJobs := by
    obtain ⟨-, -, hrest⟩ := s.stopLoad.raise_spec (e := 990) 0 (by decide)
    obtain ⟨r, o, hr⟩ := eq_of_putBack_regs_out hrest
    rw [hr]
    exact ⟨rfl, rfl⟩
  unfold State.kilnFailed
  rw [← State.stopLoad]
  dsimp only
  rw [if_neg (by simp [hr.1, hfw]), State.loadJobEnd, hr.2, hjobs]

/-- An entry of the load log says what it is given (R262). -/
theorem State.loadLog_logged (s : State) (code slot lpos frame : Nat) : logged code slot lpos frame s (s.loadLog code slot lpos frame) := by
  refine ⟨?_, ?_, ?_, ?_, ?_, ?_, ?_, ?_, ?_⟩
  · simp [State.loadLog, State.setOn]
  · simp [State.loadLog, State.setOn]
  · simp [State.loadLog, State.setOn]
  · simp [State.loadLog, State.setOn]
  · simp [State.loadLog, State.setOn]
  · simp [State.loadLog, State.setOn]
  · simp [State.loadLog, State.setOn]
  · simp [State.loadLog, State.setOn]
  · exact (((((((((RegsOnly.refl s).setF _ _ _ _).setF _ _ _ _).setF _ _ _ _).setF _ _ _ _).setF _ _ _ _).setF _ _ _ _).setF _ _ _
      _).setF _ _ _ _).mono (by simp)

theorem State.stopLoad_frame (s : State) : SameBut [fk .kilnStatSTATE] s s.stopLoad := SameBut.setF s .kilnStatSTATE 9 0 0

/-- The stop of a load without firmware changes STATE and the base slot, and raises 990. -/
theorem State.kilnFailed_spec (hfw : s.fw ≠ .running) (hjobs : s.kilnJobs = []) :
    Raised 990 0 s s.kilnFailed ∧ SameBut ([fk .kilnStatSTATE] ++ evKeys 990) s s.kilnFailed ∧ s.kilnFailed.getF .kilnStatSTATE = 9 ∧
      s.kilnFailed.baseSlot = none ∧ s.kilnFailed.fw = s.fw := by
  obtain ⟨hraised, hev, hrest⟩ := s.stopLoad.raise_spec (e := 990) 0 (by decide)
  rw [State.kilnFailed_of_fwFailed hfw hjobs]
  refine ⟨hraised.of_sameBut s.stopLoad_frame (by decide) rfl, s.stopLoad_frame.trans hev, ?_, ?_⟩
  · rw [hev.fld _ _ _ (by decide), State.getF_stopLoad_state]
  · obtain ⟨r, o, hr⟩ := eq_of_putBack_regs_out hrest
    rw [hr]
    exact ⟨rfl, rfl⟩

/-- Without a firmware copy the load stops, logged with code 0x22. -/
def State.failedStart (s : State) : State := ((s.startTime .failed).loadLog 0x22 3 0x3F 0).kilnFailed

theorem State.failedStart_root (s : State) :
    s.failedStart.root = .locked ∧ s.failedStart.getF .clkRootstatLOCK = 1 ∧ s.failedStart.ran39 = 0 := by
  have hlog : LoadStays [] (s.startTime .failed) ((s.startTime .failed).loadLog 0x22 3 0x3F 0) := LoadStays.refl.loadLog
  rw [State.failedStart]
  generalize (s.startTime .failed).loadLog 0x22 3 0x3F 0 = t at hlog
  have hstop : LoadStays [] t.stopLoad t.kilnFailed := LoadStays.kilnFailed t
  have hroot : t.root = .locked := hlog.root_eq
  have hran : t.ran39 = 0 := hlog.ran39_eq
  refine ⟨hstop.root_eq.trans hroot, ?_, hstop.ran39_eq.trans hran⟩
  rw [hstop.getF_eq _ (by decide) (by decide), t.stopLoad_frame.fld _ _ _ (by decide), hlog.getF_eq _ (by decide) (by decide)]
  exact (s.startTime_read .failed).1

theorem State.failedStart_spec (s : State) (hjobs : s.kilnJobs = []) :
    s.failedStart.fw = .failed ∧ s.failedStart.getF .kilnStatSTATE = 9 ∧ s.failedStart.baseSlot = none ∧
      s.failedStart.getF .kilnLoadlogCODE (s.getF .kilnLogptrNEXT) = 0x22 ∧ Raised 990 0 s s.failedStart ∧
      sameRegs [.clkRootstat, .kilnStat, .kilnLogptr, .kilnLoadlog, .evrPay, .evrRoute] s s.failedStart := by
  have hstart := s.startTime_frame .failed
  obtain ⟨-, hcode, -, -, -, -, -, -, hlog, hrest⟩ := (s.startTime .failed).loadLog_logged 0x22 3 0x3F 0
  rw [hstart.fld _ _ _ (by decide)] at hcode hlog
  obtain ⟨r, hr⟩ := eq_of_putBack_regs hrest
  have hfw : ((s.startTime .failed).loadLog 0x22 3 0x3F 0).fw = .failed := by rw [hr]; rfl
  have hnone : ((s.startTime .failed).loadLog 0x22 3 0x3F 0).kilnJobs = [] := by rw [hr]; exact hjobs
  have hout : ((s.startTime .failed).loadLog 0x22 3 0x3F 0).out = s.out := by rw [hr]; rfl
  rw [State.failedStart]
  generalize (s.startTime .failed).loadLog 0x22 3 0x3F 0 = t at hcode hlog hfw hnone hout
  obtain ⟨hraised, hsame, hstate, hslot, hkeep⟩ := State.kilnFailed_spec (by simp [hfw]) hnone
  have hbefore := hstart.trans hlog
  have hregs : sameRegs [.clkRootstat, .kilnStat, .kilnLogptr, .kilnLoadlog] s t := hbefore.sameRegs (by
    simp only [fk, List.cons_append, List.nil_append, List.forall_mem_cons]
    decide)
  have hev : sameRegs [.kilnStat, .evrPay, .evrRoute] t t.kilnFailed := hsame.sameRegs (by decide)
  refine ⟨hkeep.trans hfw, hstate, hslot, ?_, ?_, ?_⟩
  · exact (hsame.fld _ _ _ (by decide)).trans hcode
  · refine hraised.of_sameBut hbefore ?_ hout
    simp only [fk, List.cons_append, List.nil_append, List.forall_mem_cons]
    decide
  · exact (hregs.mono (by simp)).trans (hev.mono (by simp))

end Sys2Proof.Machine

open Sys2Proof Sys2Proof.Machine

/-- Settles O20: the reference is chosen by bits that the straps do not touch; without a firmware copy there is no job and no firmware, so
that the stop of the load is its event alone. -/
theorem startUpRunsFromPerstToTheRootLock : Obligations.StartUpRunsFromPerstToTheRootLock := by
  refine fun s => ⟨fun b c h => ⟨_, exec_perstNDeassert h b c, ?_⟩, fun a b hs hroot => ⟨_, exec_rootLock hs hroot a b, ?_⟩⟩
  · obtain ⟨hperst, hfuse, hidle, hbusy, hstore⟩ := s.startUp_port b c
    obtain ⟨hboot, hpull, hsel, hstate⟩ := s.startUp_read b c
    obtain ⟨hsame, hrest⟩ := s.startUp_frame b c
    exact ⟨hperst, hboot, hpull, hsel, hstate, hfuse, s.startUp_root b c, hidle, hbusy, hstore, hsame, hrest⟩
  · by_cases hfw : (a || b) = true
    · rw [if_pos hfw]
      obtain ⟨hlock, hstate⟩ := s.startTime_read .running
      refine ⟨rfl, hlock, rfl, fun _ => ⟨rfl, hstate, (s.startTime_frame .running).mono (by simp), rfl⟩, fun ha hb => ?_⟩
      simp [ha, hb] at hfw
    · rw [if_neg hfw]
      obtain ⟨hr, hlock, hran⟩ := s.failedStart_root
      refine ⟨hr, hlock, hran, fun h => absurd (by simpa using h) hfw, fun _ _ => s.failedStart_spec⟩
end

section
/-! SUPPORT. The test access port and the pins (R257, R494, R497–R501, R515): what the STATUS register shows, how a service operation begins
and ends, and what pins do with their supplies. -/

namespace Sys2Proof.Machine

variable {s t : State}

/-! ## The test access port -/

/-- The STATUS register, bit by bit. -/
theorem State.jtagStatus_eq (s : State) : s.jtagStatus =
    Nat.bit s.jtag.op.isSome (Nat.bit s.jtag.done (Nat.bit s.jtag.err (Nat.bit (s.lockBit 1) (Nat.bit (s.lockBit 2) (Nat.bit (s.lockBit 0)
      (Nat.bit s.keyRam.isSome (Nat.bit ((List.range 4).any fun r => s.fuse r != 0)
        (Nat.bit ((List.range 4).any fun r => s.fuse (4 + r) != 0) 0)))))))) := by
  simp only [State.jtagStatus, Nat.bit_val]
  ring

theorem State.jtagStatus_lt (s : State) : s.jtagStatus < 2 ^ 9 := by
  rw [State.jtagStatus_eq]
  simp only [Nat.bit_val]
  have hle := Bool.toNat_le
  have h0 := hle s.jtag.op.isSome
  have h1 := hle s.jtag.done
  have h2 := hle s.jtag.err
  have h3 := hle (s.lockBit 1)
  have h4 := hle (s.lockBit 2)
  have h5 := hle (s.lockBit 0)
  have h6 := hle s.keyRam.isSome
  have h7 := hle ((List.range 4).any fun r => s.fuse r != 0)
  have h8 := hle ((List.range 4).any fun r => s.fuse (4 + r) != 0)
  omega

theorem State.anyFuse_iff (s : State) (b : Nat) :
    ((List.range 4).any fun r => s.fuse (b + r) != 0) = true ↔ ∃ r, b ≤ r ∧ r < b + 4 ∧ s.fuse r ≠ 0 := by
  simp only [List.any_eq_true, List.mem_range, bne_iff_ne]
  constructor
  · rintro ⟨r, hr, hne⟩
    exact ⟨b + r, by omega, by omega, hne⟩
  · rintro ⟨r, hb, hr, hne⟩
    exact ⟨r - b, by omega, by rwa [Nat.add_sub_cancel' hb]⟩

theorem instructionsOfTheTestAccessPort : InstructionsOfTheTestAccessPort := by
  refine fun s => ⟨fun x hx => ?_, ⟨_, rfl, rfl⟩, fun _ => ⟨_, rfl, rfl⟩, ⟨_, rfl, rfl⟩, ⟨_, rfl, rfl, ?_⟩⟩
  · simp only [List.mem_cons, List.not_mem_nil, or_false] at hx
    obtain rfl | rfl | rfl := hx
    all_goals exact ⟨_, rfl, rfl⟩
  · have hbits : s.jtagStatus.testBit 0 = s.jtag.op.isSome ∧ s.jtagStatus.testBit 1 = s.jtag.done ∧ s.jtagStatus.testBit 2 = s.jtag.err ∧
        s.jtagStatus.testBit 3 = s.lockBit 1 ∧ s.jtagStatus.testBit 4 = s.lockBit 2 ∧ s.jtagStatus.testBit 5 = s.lockBit 0 ∧
        s.jtagStatus.testBit 6 = s.keyRam.isSome ∧ s.jtagStatus.testBit 7 = ((List.range 4).any fun r => s.fuse (0 + r) != 0) ∧
        s.jtagStatus.testBit 8 = ((List.range 4).any fun r => s.fuse (4 + r) != 0) := by
      simp only [Nat.zero_add, State.jtagStatus_eq]
      generalize (List.range 4).any _ = low, (List.range 4).any _ = high
      simp [Nat.testBit_bit_succ]
    obtain ⟨h0, h1, h2, h3, h4, h5, h6, h7, h8⟩ := hbits
    refine ⟨h0, h1, h2, h3, h4, h5, h6, s.jtagStatus_lt, ?_, ?_, rfl⟩
    · rw [h7, s.anyFuse_iff 0]
      simp
    · rw [h8, s.anyFuse_iff 4]

/-! ## Service operations -/

theorem State.jtagStart_accepted {i : JtagIr} {op : JtagOp} {allowed : Bool} (hp : s.perst = true) (hop : s.jtag.op = none)
    (ha : allowed = true) : s.jtagStart i allowed op = { s with jtag := { s.jtag with ir := i, op := some op, done := false, err := false } } :=
  if_pos (by simp [hp, hop, ha])

theorem State.jtagStart_refused {i : JtagIr} {op : JtagOp} {allowed : Bool} (h : ¬ ((s.perst = true ∧ s.jtag.op = none) ∧ allowed = true)) :
    s.jtagStart i allowed op = { s with jtag := { s.jtag with ir := .bypass, err := true } } :=
  if_neg (by simpa [and_right_comm] using h)

/-- Bytes stored one after another from a key. -/
theorem get_storeBytes (bs : List Byte) (m : SMap (Option Byte)) (base start k : Nat) :
    SMap.get (fun _ => none) ((bs.zipIdx start).foldl (fun m e => SMap.set (fun _ => none) m (base + e.2) (some e.1)) m) k =
      if base + start ≤ k ∧ k < base + start + bs.length then bs[k - (base + start)]? else SMap.get (fun _ => none) m k := by
  induction bs generalizing m start with
  | nil => simp
  | cons b bs ih =>
    rw [List.zipIdx_cons, List.foldl_cons, ih, SMap.get_set]
    by_cases hk : k = base + start
    · subst hk
      simp
    · rw [if_neg hk]
      by_cases hin : base + start ≤ k ∧ k < base + start + (b :: bs).length
      · have hpos : k - (base + start) = k - (base + (start + 1)) + 1 := by omega
        have hlen := hin.2
        rw [List.length_cons] at hlen
        rw [if_pos hin, if_pos (by omega), hpos, List.getElem?_cons_succ]
      · have hlen := hin
        rw [List.length_cons] at hlen
        rw [if_neg hin, if_neg (by omega)]

/-- What a write of slot 0 stores. -/
theorem State.get_slotWrite_zero (s : State) (bs : List Byte) (k : Nat) : SMap.get (fun _ => none) (s.slotWrite 0 bs).store k =
    if k < bs.length then bs[k]? else SMap.get (fun _ => none) s.store k := by
  rw [State.slotWrite]
  simpa using get_storeBytes bs s.store 0 0 k

theorem exec_jtagOperationDone_fuseprog {row data : Nat} (h : s.jtag.op = some (.fuseprog row data)) : exec .jtagOperationDone s =
    .next (if row ≤ 8 then { s with
        jtag := { s.jtag with op := none, done := true }, fuses := SMap.set (fun _ => 0) s.fuses row (s.fuse row ||| data) }
      else { s with jtag := { s.jtag with op := none, done := true } }) := by
  change execJtagOperationDone s = _
  rw [execJtagOperationDone, h]
  rfl

theorem serviceOperationsRun : ServiceOperationsRun := by
  intro s started refused free
  refine ⟨fun row data => ⟨fun hf hok => ⟨_, rfl, ?_⟩, fun hn => ⟨_, rfl, ?_⟩⟩,
    fun key => ⟨fun hf hok => ⟨_, rfl, ?_⟩, fun hn => ⟨_, rfl, ?_⟩⟩,
    fun len bytes => ⟨fun hf hok => ?_, fun hn => ?_⟩, fun hop => ?_, fun row data hop => ?_, fun key hop => ?_, fun bytes hop => ?_⟩
  · exact State.jtagStart_accepted hf.1 hf.2 (by simpa using hok)
  · exact State.jtagStart_refused (by simpa [free] using hn)
  · exact State.jtagStart_accepted hf.1 hf.2 (by simpa using hok)
  · exact State.jtagStart_refused (by simpa [free] using hn)
  · refine ⟨_, rfl, s.eraseSlot0, ?_, rfl, fun a ha => ?_, fun a ha => ?_⟩
    · rw [if_pos (by simpa [hf.1, hf.2] using hok)]
      exact State.jtagStart_accepted (s := s.eraseSlot0) hf.1 hf.2 (by simpa using hok)
    · rw [State.eraseSlot0, SMap.get_clearWhere, if_pos (by simp only [beq_iff_eq]; omega)]
    · rw [State.eraseSlot0, SMap.get_clearWhere, if_neg (by simp only [beq_iff_eq]; omega)]
  · refine ⟨_, rfl, ?_⟩
    rw [if_neg (by simpa [free, and_right_comm] using hn)]
    exact State.jtagStart_refused (by simpa [free] using hn)
  · exact ⟨_, rfl, by rw [hop]⟩
  · refine ⟨_, exec_jtagOperationDone_fuseprog hop, fun hrow => ?_, fun hrow => ?_, ?_, ?_⟩
    · rw [if_pos hrow]
      exact ⟨SMap.get_set_self _ _ _ _, fun r hr => SMap.get_set_ne _ _ _ hr⟩
    · rw [if_neg (by omega)]
    · split <;> rfl
    · split <;> rfl
  · exact ⟨_, rfl, by rw [hop]⟩
  · refine ⟨{ s.slotWrite 0 bytes with jtag := { s.jtag with op := none, done := true } }, ?_, fun i hi => ?_, fun a ha => ?_, rfl, rfl⟩
    · change execJtagOperationDone s = _
      rw [execJtagOperationDone, hop]
      rfl
    · refine (s.get_slotWrite_zero bytes i).trans ?_
      rw [if_pos hi, List.getElem?_eq_getElem hi]
    · exact (s.get_slotWrite_zero bytes a).trans (if_neg (by omega))

/-! ## Supplies and pins -/

theorem exec_vccoChange_interior {n : Pos} (h : interior n = true) (b : Bool) (l : BitVec 2) : exec (.vccoChange n b l) s = .next s :=
  congrArg Host.Outcome.next (if_pos h)

/-- What the sensors of a bank show. -/
def State.senseBank (s : State) (n : Pos) (present : Bool) (level : BitVec 2) : State :=
  (s.setF .grnIostatVPRES present.toNat (s.phys n)).setF .grnIostatVSENSE (if present then level.toNat else 0) (s.phys n)

theorem exec_vccoChange_perimeter {n : Pos} (h : interior n = false) (b : Bool) (l : BitVec 2) :
    exec (.vccoChange n b l) s = .next ((s.senseBank n b l).bankCheck n) :=
  congrArg Host.Outcome.next (if_neg (by simp [h]))

theorem State.senseBank_read (s : State) (n : Pos) (b : Bool) (l : BitVec 2) :
    (s.senseBank n b l).getF .grnIostatVPRES (s.phys n) = b.toNat ∧
      (s.senseBank n b l).getF .grnIostatVSENSE (s.phys n) = (if b then l.toNat else 0) := by
  have hb : b.toNat % 2 = b.toNat := Nat.mod_eq_of_lt b.toNat_lt
  have hl : (if b then l.toNat else 0) % 4 = if b then l.toNat else 0 := Nat.mod_eq_of_lt (by split <;> omega)
  simp [State.senseBank, hb, hl]

theorem State.senseBank_frame (s : State) (n : Pos) (b : Bool) (l : BitVec 2) :
    RegsOnly [fk .grnIostatVSENSE (s.phys n), fk .grnIostatVPRES (s.phys n)] s (s.senseBank n b l) :=
  ((RegsOnly.refl s).setF _ _ _ _).setF _ _ _ _

theorem State.phys_senseBank (s : State) (n : Pos) (b : Bool) (l : BitVec 2) : (s.senseBank n b l).phys n = s.phys n :=
  (s.senseBank_frame n b l).1.fld _ _ _ (by simp [fk])

theorem State.bankCheck_read (s : State) (n : Nat) : (s.bankCheck n).getF .grnIostatMISSEEN (s.phys n) =
    if s.isSet .grnIostatDECLVALID (s.phys n) = true ∧
        (s.isSet .grnIostatVPRES (s.phys n) = false ∨ s.getF .grnIostatVSENSE (s.phys n) ≠ s.getF .grnIostatVDECL (s.phys n)) then 1
      else s.getF .grnIostatMISSEEN (s.phys n) := by
  rw [State.bankCheck, apply_ite (fun t : State => t.getF .grnIostatMISSEEN (s.phys n)), State.setOn, State.getF_setF_self,
    Fld.grnIostatMISSEEN_len]
  simp

theorem State.bankCheck_frame (s : State) (n : Nat) : RegsOnly [fk .grnIostatMISSEEN (s.phys n)] s (s.bankCheck n) := by
  unfold State.bankCheck
  dsimp only
  split
  · exact (RegsOnly.refl s).setF _ _ _ _
  · exact (RegsOnly.refl s).mono (by simp)

/-- A supply of a perimeter bank changes: its sensors show it, and MISSEEN comes where the declared level is not there. -/
theorem State.vccoChange_spec (s : State) (n : Pos) (b : Bool) (l : BitVec 2) :
    let p := s.phys n
    let sense := if b then l.toNat else 0
    let t := (s.senseBank n b l).bankCheck n
    t.getF .grnIostatVPRES p = b.toNat ∧ t.getF .grnIostatVSENSE p = sense ∧
      t.getF .grnIostatMISSEEN p = (if s.isSet .grnIostatDECLVALID p = true ∧ (b = false ∨ sense ≠ s.getF .grnIostatVDECL p) then 1
        else s.getF .grnIostatMISSEEN p) ∧
      RegsOnly [fk .grnIostatVPRES p, fk .grnIostatVSENSE p, fk .grnIostatMISSEEN p] s t := by
  intro p sense t
  obtain ⟨hpres, hsense⟩ := s.senseBank_read n b l
  have hbank := s.senseBank_frame n b l
  have hread := (s.senseBank n b l).bankCheck_read n
  have hcheck := (s.senseBank n b l).bankCheck_frame n
  rw [s.phys_senseBank] at hread hcheck
  refine ⟨?_, ?_, ?_, (hbank.trans hcheck).mono (by simp [p])⟩
  · rw [hcheck.1.fld _ _ _ (by simp [fk])]
    exact hpres
  · rw [hcheck.1.fld _ _ _ (by simp [fk])]
    exact hsense
  · have hset : (s.senseBank n b l).isSet .grnIostatVPRES (s.phys n) = b := by
      rw [State.isSet, hpres]
      cases b <;> rfl
    rw [hread, hset, hsense, State.isSet, hbank.1.fld _ _ _ (by simp [fk]), hbank.1.fld _ _ _ (by simp [fk]),
      hbank.1.fld .grnIostatMISSEEN _ _ (by simp [fk])]
    rfl

/-- With a rail out of range no pin is driven (R498). -/
theorem State.pins_unpowered (h : s.railsBad ≠ []) : (∀ n k, s.ioPin n k = .unpowered) ∧ ∀ l, s.txPin l = .unpowered := by
  have hbad : (!s.railsBad.isEmpty) = true := by simpa using h
  exact ⟨fun _ _ => if_pos hbad, fun _ => if_pos hbad⟩

theorem exec_railOutOfRange_spec (s : State) (r : Rail) : Gives (.railOutOfRange r) s fun t =>
    r ∈ t.railsBad ∧ (∀ x, x ∈ s.railsBad → x ∈ t.railsBad) ∧ (∀ x, x ∈ t.railsBad → x ∈ s.railsBad ∨ x = r) ∧
      { t with railsBad := s.railsBad } = s := by
  refine ⟨_, rfl, ?_⟩
  split
  case isTrue h => exact ⟨by simpa using h, fun _ => id, fun _ => .inl, rfl⟩
  case isFalse h => exact ⟨by simp, fun x hx => by simp [hx], fun x hx => by simpa using hx, rfl⟩

/-- What pins show before release (R257). -/
theorem State.pins_before_release (hrails : s.railsBad = []) (hscan : s.scanDrives = false) (hpre : s.preRelease? = true) :
    (∀ n k, s.ioPin n k = .weakPull (s.isSet .kilnStatCFGPULL)) ∧ (∀ l, s.txPin l = .electricalIdle) ∧ s.trigPin = .off := by
  have hgood : ¬ (!s.railsBad.isEmpty) = true := by simp [hrails]
  have hdrive : ¬ s.scanDrives = true := by simp [hscan]
  refine ⟨fun n k => ?_, fun l => ?_, ?_⟩
  · rw [State.ioPin, if_neg hgood, if_neg hdrive, if_pos (by simp [hpre])]
    rfl
  · rw [State.txPin, if_neg hgood, if_pos (by simp [hpre])]
  · rw [State.trigPin, if_neg hgood, if_neg hdrive, if_pos hpre]

/-- PPS_OUT and RESET_n in reset. -/
theorem State.pins_in_reset (hrails : s.railsBad = []) (hscan : s.scanDrives = false) (hs : s.perst = true) :
    s.ppsPin = .low ∧ ∀ m, s.resetPin m = .low := by
  have hgood : ¬ (!s.railsBad.isEmpty) = true := by simp [hrails]
  have hdrive : ¬ s.scanDrives = true := by simp [hscan]
  refine ⟨?_, fun m => ?_⟩
  · rw [State.ppsPin, if_neg hgood, if_neg hdrive, if_pos (by simp [hs])]
  · rw [State.resetPin, if_neg hgood, if_neg hdrive, if_pos (by simp [hs])]

theorem pinsFollowTheirSupplies : PinsFollowTheirSupplies := by
  refine fun s => ⟨fun n b l => ⟨fun h => ⟨_, exec_vccoChange_interior h b l, rfl⟩, fun h => ⟨_, exec_vccoChange_perimeter h b l, ?_⟩⟩,
    fun r => ⟨?_, fun hnodup => ⟨_, rfl, ?_⟩⟩, fun hrails hscan hpre => ?_⟩
  · exact s.vccoChange_spec n b l
  · obtain ⟨t, hexec, hmem, hgrow, honly, hrest⟩ := exec_railOutOfRange_spec s r
    obtain ⟨hio, htx⟩ := State.pins_unpowered (List.ne_nil_of_mem hmem)
    exact ⟨t, hexec, hmem, hgrow, honly, hio, htx, hrest⟩
  · exact ⟨hnodup.not_mem_erase, fun x hx => List.mem_erase_of_ne hx, hnodup.erase r, rfl⟩
  · have hpre' : s.preRelease? = true := by simpa [State.preRelease?, State.released] using hpre
    obtain ⟨hio, htx, htrig⟩ := State.pins_before_release hrails hscan hpre'
    exact ⟨hio, htx, htrig, State.pins_in_reset hrails hscan⟩

end Sys2Proof.Machine

open Sys2Proof Sys2Proof.Machine

/-- Settles O60: STATUS is read bit by bit, a service operation is accepted or refused by one condition, and what a pin shows is decided
by its first condition that holds. -/
theorem testPortAndPins : Obligations.TestPortAndPins :=
  ⟨instructionsOfTheTestAccessPort, serviceOperationsRun, pinsFollowTheirSupplies⟩
end

section
/-! SUPPORT. The attempts of a load (R248–R253): how each check goes on or fails the attempt, and where the next attempt begins. -/

namespace Sys2Proof.Machine

variable {rs : List RegName} {s t : State}

/-! ## A failed attempt (R253) -/

theorem State.loadFail_attemptFails (s : State) (code lpos frame : Nat) : attemptFails code lpos frame s (s.loadFail code lpos frame) := by
  have hlog := s.loadLog_logged code (s.getF .kilnStatSLOT) lpos frame
  obtain ⟨hraised, hsame, hrest⟩ := (s.loadLog code (s.getF .kilnStatSLOT) lpos frame).raise_spec (e := 989) 0 (by decide)
  refine ⟨_, _, hlog, hraised, ⟨hsame, hrest⟩, ?_⟩
  obtain ⟨-, -, -, -, -, -, -, -, -, hregs⟩ := hlog
  obtain ⟨r, hr⟩ := eq_of_putBack_regs hregs
  obtain ⟨r', o, hr'⟩ := eq_of_putBack_regs_out hrest
  have hwritten : ((s.loadLog code (s.getF .kilnStatSLOT) lpos frame).raise 989).load.written = s.load.written := by
    rw [hr', hr]
  rw [State.loadFail, hwritten]
  refine ⟨fun hnone => if_pos (by simp [hnone]), fun hsome => ?_⟩
  rw [if_neg (by simpa using hsome)]
  exact ⟨State.getF_setF_self _ _ _ _ _, (RegsOnly.refl _).setF _ _ _ _⟩

/-! ## The checks in order -/

theorem exec_headerCheck (h : s.getF .kilnStatSTATE = 3) (hh : s.load.headed = false) (ht : s.loadTurn = true) : exec .headerCheck s =
    .next (if s.headerCode (s.getF .kilnStatSLOT) = 0 then { s with load := { s.load with headed := true } }
      else s.loadFail (s.headerCode (s.getF .kilnStatSLOT)) 0x3F 0) :=
  congrArg Host.Outcome.next (if_neg (by simp [h, hh, ht]))

theorem exec_trailerCheck (h : s.getF .kilnStatSTATE = 3) (hh : s.load.headed = true) : exec .trailerCheck s =
    .next (if s.trailerOk s.loadSrc then s.setF .kilnStatSTATE 4 else s.loadFail 0x18 0x3F 0) :=
  congrArg Host.Outcome.next (if_neg (by simp [h, hh]))

theorem exec_grainNoProgress {n : Pos} {e : Nat × Nat × Nat} (h : s.getF .kilnStatSTATE = 4) (ho : s.isOos n = false)
    (hsec : s.sectionOf s.loadSrc n = some e) (hi : s.load.idx n < e.2.1) : exec (.grainNoProgress n) s =
      .next (s.loadFail 0x15 n (s.load.idx n)) := by
  refine congrArg Host.Outcome.next ((if_neg (by simp [h, ho])).trans ?_)
  rw [hsec]
  exact if_neg (Nat.not_le.mpr hi)

/-- The release of a load that passed its checks is due. -/
def State.loadPitch (s : State) : Pitch := ⟨0, false, s.now + 100 * usUnits, ⟨0, false, 0⟩, none⟩

theorem exec_finalChecks (h : s.getF .kilnStatSTATE = 5) : exec .finalChecks s =
    .next (if s.finalCode s.loadSrc = 0 then (s.setF .kilnStatSTATE 6).setPitch 16 (some s.loadPitch)
      else s.loadFail (s.finalCode s.loadSrc) 0x3F 0) := by
  refine congrArg Host.Outcome.next ((if_neg (by simp [h])).trans ?_)
  exact ite_not _ _ _

theorem State.loadPitch_set (s : State) :
    let t := (s.setF .kilnStatSTATE 6).setPitch 16 (some s.loadPitch)
    t.getF .kilnStatSTATE = 6 ∧ t.pitchAt 16 = some s.loadPitch ∧ (∀ k, k ≠ 16 → t.pitchAt k = s.pitchAt k) ∧
      SameBut [fk .kilnStatSTATE, fk .capStatPEND] s t ∧ { t with regs := s.regs, pitches := s.pitches } = s := by
  have hstate := SameBut.setF s .kilnStatSTATE 6 0 0
  have hpitch := (SameBut.refl [] (s.setF .kilnStatSTATE 6)).setPitch 16 (some s.loadPitch)
  refine ⟨?_, State.pitchAt_setPitch_self _ _ _, fun k hk => State.pitchAt_setPitch_ne _ _ hk, ?_, rfl⟩
  · rw [hpitch.fld _ _ _ (by decide), State.getF_setF_self]
    rfl
  · exact hstate.trans hpitch

/-! ## The clear of the grains -/

theorem State.updPllcfg_fields (s : State) (n : Nat) : FieldsOf [.grnPllcfg] s (s.updPllcfg n) :=
  List.foldlRecOn _ _ (FieldsOf.refl _ s) fun _ h _ _ => List.foldlRecOn _ _ h fun _ h f hf => h.setF f _ _ _
    ((by decide : ∀ f ∈ RegName.grnPllcfg.fields, f.info.reg ∈ [RegName.grnPllcfg]) f hf)

/-- A grain whose frames are cleared. -/
def State.clearGrain (s : State) (n : Nat) : State := (s.clearPos n).updPllcfg n

theorem State.frame_clearGrain (s : State) (n m : Nat) {fa : Nat} (hfa : fa < 2 ^ 32) :
    (s.clearGrain n).frame m fa = if m = n then CfgFrame.zero else s.frame m fa := by
  have hclear : (s.clearPos n).cfg = SMap.clearWhere (fun k => k / 2 ^ 32 == n && true) s.cfg := rfl
  obtain ⟨-, r, hr⟩ := (s.clearPos n).updPllcfg_fields n
  rw [State.clearGrain, hr]
  change SMap.get _ (s.clearPos n).cfg (cfgKey m fa) = _
  rw [hclear, SMap.get_clearWhere, cfgKey_div m hfa]
  by_cases hm : m = n
  · simp [hm]
  · simp [hm, State.frame]

/-- What a clear leaves of registers, the load and the store. -/
def ClearFrame (s t : State) : Prop := sameRegs [.grnPllcfg, .grnSpanstat] s t ∧ t.load = s.load ∧ t.store = s.store

theorem State.clearGrain_frame (s : State) (n : Nat) : ClearFrame s (s.clearGrain n) := by
  obtain ⟨hregs, r, hr⟩ := (s.clearPos n).updPllcfg_fields n
  refine ⟨?_, ?_, ?_⟩
  · exact ((s.clearPos_frame n).sameRegs (by simp only [fk, List.forall_mem_cons]; decide)).trans (hregs.mono (by simp))
  · rw [State.clearGrain, hr]
    rfl
  · rw [State.clearGrain, hr]
    rfl

theorem State.clearGrains_frame (s : State) (ns : List Nat) : ClearFrame s (ns.foldl State.clearGrain s) := by
  refine List.foldlRecOn _ _ ⟨fun _ _ _ _ => rfl, rfl, rfl⟩ fun t h n _ => ?_
  obtain ⟨hregs, hload, hstore⟩ := h
  obtain ⟨hregs', hload', hstore'⟩ := t.clearGrain_frame n
  exact ⟨hregs.trans hregs', hload'.trans hload, hstore'.trans hstore⟩

theorem State.clearGrains_zero {ns : List Nat} {n : Nat} (hn : n ∈ ns) (s : State) :
    ∀ fa < 2 ^ 32, (ns.foldl State.clearGrain s).frame n fa = CfgFrame.zero := by
  refine State.foldl_establishes (I := fun _ => True) (P := fun t => ∀ fa < 2 ^ 32, t.frame n fa = CfgFrame.zero) (fun _ _ _ => trivial)
    (fun t _ fa hfa => ?_) (fun t m _ hm _ h fa hfa => ?_) trivial (.inl hn)
  · rw [t.frame_clearGrain n n hfa, if_pos rfl]
  · rw [t.frame_clearGrain m n hfa, if_neg (Ne.symm hm), h fa hfa]

theorem State.clearGrains_keep {ns : List Nat} {n : Nat} (hn : n ∉ ns) (s : State) :
    ∀ fa < 2 ^ 32, (ns.foldl State.clearGrain s).frame n fa = s.frame n fa := by
  intro fa hfa
  refine List.foldlRecOn ns State.clearGrain (motive := fun t => t.frame n fa = s.frame n fa) rfl fun t h m hm => ?_
  rw [t.frame_clearGrain m n hfa, if_neg (ne_of_mem_of_not_mem hm hn).symm, h]

theorem exec_grainClearDone (h : s.getF .kilnStatSTATE = 8) : exec .grainClearDone s =
    .next (s.load.written.foldl State.clearGrain s).nextAttempt :=
  congrArg Host.Outcome.next (if_neg (by simp [h]))

/-! ## The next attempt -/

/-- The records and the base image of the last attempt are forgotten. -/
def State.forgetAttempt (s : State) (rest : List Nat) : State :=
  { s with load := { LoadSt.none with order := rest, tries := s.load.tries + 1 }, base := [] }

theorem State.nextAttempt_cons {k : Nat} {rest : List Nat} (h : s.load.order = k :: rest) :
    let t := s.nextAttempt
    t.getF .kilnStatSTATE = 3 ∧ t.getF .kilnStatSLOT = k % 4 ∧ t.getF .kilnStatATTEMPT = min (s.load.tries + 1) 15 ∧
      t.getF .kilnFramesCOUNT = 0 ∧ t.load = { LoadSt.none with order := rest, tries := s.load.tries + 1 } ∧
      SameBut [fk .kilnStatSTATE, fk .kilnStatSLOT, fk .kilnStatATTEMPT, fk .kilnFramesCOUNT] s t ∧
      { t with regs := s.regs, load := s.load, base := s.base } = s := by
  have hnext : s.nextAttempt = ((((s.forgetAttempt rest).setF .kilnStatATTEMPT (min (s.load.tries + 1) 15)).setF
      .kilnStatSLOT k).setF .kilnFramesCOUNT 0).setF .kilnStatSTATE 3 := by
    rw [State.nextAttempt, h]
    rfl
  have hforget : SameBut [] s (s.forgetAttempt rest) := fun _ _ _ _ => rfl
  have hsmall : min (s.load.tries + 1) 15 % 16 = min (s.load.tries + 1) 15 := Nat.mod_eq_of_lt (by omega)
  intro t
  refine ⟨?_, ?_, ?_, ?_, ?_, ?_, ?_⟩
  · simp [t, hnext]
  · simp [t, hnext]
  · simp [t, hnext, hsmall]
  · simp [t, hnext]
  · rw [show t = _ from hnext]
    rfl
  · rw [show t = _ from hnext]
    exact ((((hforget.setF_of .kilnStatATTEMPT _ 0 0).setF_of .kilnStatSLOT _ 0 0).setF_of .kilnFramesCOUNT _ 0 0).setF_of
      .kilnStatSTATE _ 0 0).mono (by simp)
  · rw [show t = _ from hnext]
    rfl

/-- A load that stops is in STATE 9 with no base image, and told it. -/
theorem State.kilnFailed_stop (s : State) :
    s.kilnFailed.getF .kilnStatSTATE = 9 ∧ s.kilnFailed.baseSlot = none ∧ OutMsg.fwEvent 990 0 ∈ s.kilnFailed.out := by
  have hstop : LoadStays [] s.stopLoad s.kilnFailed := LoadStays.kilnFailed s
  have htold : LoadStays [] (s.stopLoad.raise 990) s.kilnFailed := LoadStays.kilnFailed_raised s
  obtain ⟨⟨-, -, -, -, hout⟩, -⟩ := s.stopLoad.raise_spec (e := 990) 0 (by decide)
  refine ⟨?_, hstop.baseSlot_eq, htold.out_grows.mem ?_⟩
  · rw [hstop.getF_eq _ (by decide) (by decide), State.getF_stopLoad_state]
  · rw [hout]
    exact List.mem_append_right _ (List.mem_singleton_self _)

end Sys2Proof.Machine

open Sys2Proof Sys2Proof.Machine

/-- Settles O23: each check either goes on or fails the attempt by one lemma; the clear of the grains is a sweep, and an attempt that has no
slot left stops the load. -/
theorem attemptsAreCheckedInOrder : Obligations.AttemptsAreCheckedInOrder := by
  refine fun s => ⟨fun h hh ht => ⟨_, exec_headerCheck h hh ht, fun hc => if_pos hc, fun hc => ?_⟩,
    fun h hh => ⟨_, exec_trailerCheck h hh, fun hok => ?_, fun hbad => ?_⟩,
    fun n lpos frames off h ho hsec hi => ⟨_, exec_grainNoProgress h ho hsec hi, s.loadFail_attemptFails _ _ _⟩,
    fun h => ⟨_, exec_finalChecks h, fun hc => ?_, fun hc => ?_⟩, fun h => ⟨_, exec_grainClearDone h, _, rfl, ?_⟩,
    fun k rest h => State.nextAttempt_cons h, fun h => ?_⟩
  · rw [if_neg hc]
    exact s.loadFail_attemptFails _ _ _
  · rw [if_pos hok]
    exact ⟨State.getF_setF_self _ _ _ _ _, (RegsOnly.refl _).setF _ _ _ _⟩
  · rw [if_neg (by simp [hbad])]
    exact s.loadFail_attemptFails _ _ _
  · rw [if_pos hc]
    exact s.loadPitch_set
  · rw [if_neg hc]
    exact s.loadFail_attemptFails _ _ _
  · obtain ⟨hregs, hload, hstore⟩ := s.clearGrains_frame s.load.written
    exact ⟨fun n hn => State.clearGrains_zero hn s, fun n hn => State.clearGrains_keep hn s, hregs, hload, hstore⟩
  · rw [State.nextAttempt, h]
    exact s.kilnFailed_stop
end

section
/-! SUPPORT. The records of a load (R250, R251): a record that fails a check fails the attempt, one that passes is taken, and written to its
frame where its position is in service. -/

namespace Sys2Proof.Machine

variable {s t : State} {n : Nat}

/-! ## One record -/

/-- A record is taken: its index, its frame address and what the base image holds of it. -/
def State.takeRecord (s : State) (n i fa data : Nat) : State :=
  { s with load := { s.load with next := SMap.set (fun _ => 0) s.load.next n (i + 1), seen := SMap.set (fun _ => false) s.load.seen (cfgKey n fa) true }
           base := SMap.set (fun _ => 0) s.base (cfgKey n fa) data }

/-- A written record is counted, and its grain is one to be cleared. -/
def State.countRecord (s : State) (n : Nat) : State :=
  let v := s.count .kilnFramesCOUNT
  { v with load := { v.load with written := if v.load.written.contains n then v.load.written else v.load.written ++ [n] } }

/-- The load goes to the final checks with the last record. -/
def State.endRecord (s : State) (src : ImgSrc) : State := if s.sectionsDone src s.load.next then s.setF .kilnStatSTATE 5 else s

/-- A record of a position in service. -/
def State.writeRecord (s : State) (n i fa data : Nat) : State := ((s.takeRecord n i fa data).loadFrame n fa data).countRecord n

section
variable {n : Pos} {bad : Bool} {rb : Option Frame} {lpos frames off : Nat} (hstate : s.getF .kilnStatSTATE = 4)
  (hsec : s.sectionOf s.loadSrc n = some (lpos, frames, off)) (hi : s.load.idx n < frames)

/-- Where the next record of position n stands in the image. -/
def State.recordAt (s : State) (n off : Nat) : Nat := off + 272 * s.load.idx n

/-- The code with which the next record fails its checks. -/
def State.nextCode (s : State) (n off : Nat) (bad : Bool) : Nat :=
  let r := s.imgRecord s.loadSrc (s.recordAt n off)
  recordCode bad (s.imgErased s.loadSrc (s.recordAt n off) 4) (s.imgErased s.loadSrc (s.recordAt n off) 272)
    (SMap.get (fun _ => false) s.load.seen (cfgKey n r.1)) 0x14 r.1 r.2.2

include hstate hsec hi

theorem exec_frameRecord_fails (hc : s.nextCode n off bad ≠ 0) : exec (.frameRecord n bad rb) s =
    .next (s.loadFail (s.nextCode n off bad) n (s.load.idx n)) := by
  refine congrArg Host.Outcome.next ((if_neg (not_not_intro hstate)).trans ?_)
  rw [hsec]
  exact (if_neg (Nat.not_le.mpr hi)).trans (if_pos hc)

theorem exec_frameRecord_written (hc : s.nextCode n off bad = 0) (ho : s.isOos n = false)
    (hsig : gsig (s.imgRecord s.loadSrc (s.recordAt n off)).2.2 = (s.imgRecord s.loadSrc (s.recordAt n off)).2.1) :
    exec (.frameRecord n bad none) s = .next ((s.writeRecord n (s.load.idx n) (s.imgRecord s.loadSrc (s.recordAt n off)).1
      (s.imgRecord s.loadSrc (s.recordAt n off)).2.2).endRecord s.loadSrc) := by
  refine congrArg Host.Outcome.next ((if_neg (not_not_intro hstate)).trans ?_)
  rw [hsec]
  refine (if_neg (Nat.not_le.mpr hi)).trans ((if_neg (not_not_intro hc)).trans ?_)
  rw [ho]
  exact if_neg (by simp only [State.recordAt] at hsig; simp [hsig])

theorem exec_frameRecord_oos (hc : s.nextCode n off bad = 0) (ho : s.isOos n = true) : exec (.frameRecord n bad rb) s =
    .next ((s.takeRecord n (s.load.idx n) (s.imgRecord s.loadSrc (s.recordAt n off)).1
      (s.imgRecord s.loadSrc (s.recordAt n off)).2.2).endRecord s.loadSrc) := by
  refine congrArg Host.Outcome.next ((if_neg (not_not_intro hstate)).trans ?_)
  rw [hsec]
  refine (if_neg (Nat.not_le.mpr hi)).trans ((if_neg (not_not_intro hc)).trans ?_)
  rw [ho]
  exact if_neg Bool.false_ne_true

end

/-! ## What a record changes -/

theorem State.idx_takeRecord (s : State) (n i fa data : Nat) : (s.takeRecord n i fa data).load.idx n = i + 1 := by
  change SMap.get (fun _ => 0) (SMap.set (fun _ => 0) s.load.next n (i + 1)) n = i + 1
  exact SMap.get_set_self _ _ _ _

theorem State.endRecord_frame (s : State) (src : ImgSrc) : RegsOnly [fk .kilnStatSTATE] s (s.endRecord src) := by
  unfold State.endRecord
  split
  · exact (RegsOnly.refl s).setF _ _ _ _
  · exact (RegsOnly.refl s).mono (by simp)

theorem State.endRecord_state (h : s.getF .kilnStatSTATE = 4) (src : ImgSrc) :
    (s.endRecord src).getF .kilnStatSTATE = 4 ∨ (s.endRecord src).getF .kilnStatSTATE = 5 := by
  unfold State.endRecord
  split
  · exact .inr (State.getF_setF_self _ _ _ _ _)
  · exact .inl h

/-- A record of a position out of service is taken only. -/
theorem State.takeRecord_end (h : s.getF .kilnStatSTATE = 4) (n i fa data : Nat) (src : ImgSrc) :
    let t := (s.takeRecord n i fa data).endRecord src
    t.load.idx n = i + 1 ∧ (∀ m g, t.frame m g = s.frame m g) ∧ (t.getF .kilnStatSTATE = 4 ∨ t.getF .kilnStatSTATE = 5) ∧
      SameBut [fk .kilnStatSTATE] s t ∧ { t with regs := s.regs, load := s.load, base := s.base } = s := by
  obtain ⟨hsame, hrest⟩ := (s.takeRecord n i fa data).endRecord_frame src
  have hend := State.endRecord_state (s := s.takeRecord n i fa data) h src
  obtain ⟨r, hr⟩ := eq_of_putBack_regs hrest
  intro t
  refine ⟨?_, fun m g => ?_, hend, hsame, ?_⟩
  · rw [show t = _ from hr]
    exact s.idx_takeRecord n i fa data
  · rw [show t = _ from hr]
    rfl
  · rw [show t = _ from hr]
    rfl

/-- A frame of the configuration memory proper is written as it is given. -/
theorem State.writeFrame_config {fa : Nat} (h5 : 5 ≠ bits fa 28 4) (h6 : 6 ≠ bits fa 28 4) (h7 : 7 ≠ bits fa 28 4) (s : State) (n data : Nat) :
    FieldsOf [.grnSpanstat] (s.setFrame n fa ⟨data, data, (s.frame n fa).status⟩) (s.writeFrame n fa data) := by
  rw [State.writeFrame, if_neg (by omega)]
  split
  · exact (FieldsOf.refl _ _).setF _ _ _ _ (by decide)
  · exact FieldsOf.refl _ _

theorem State.loadFrame_config {fa : Nat} (h5 : 5 ≠ bits fa 28 4) (h6 : 6 ≠ bits fa 28 4) (h7 : 7 ≠ bits fa 28 4) (s : State) (n data : Nat) :
    FieldsOf [.grnSpanstat, .grnPllcfg] (s.setFrame n fa ⟨data, data, (s.frame n fa).status⟩) (s.loadFrame n fa data) := by
  obtain ⟨hwrite, r, hr⟩ := State.writeFrame_config h5 h6 h7 s n data
  have hwritten : FieldsOf [.grnSpanstat, .grnPllcfg] (s.setFrame n fa ⟨data, data, (s.frame n fa).status⟩) (s.writeFrame n fa data) :=
    ⟨hwrite.mono (by simp), r, hr⟩
  obtain ⟨hpll, r', hr'⟩ := (s.writeFrame n fa data).updPllcfg_fields n
  unfold State.loadFrame
  dsimp only
  split
  · exact ⟨(hwrite.mono (by simp)).trans (hpll.mono (by simp)), r', by rw [hr', hr]⟩
  · exact hwritten

theorem State.countRecord_regs (s : State) (n : Nat) : sameRegs [.kilnFrames] s (s.countRecord n) :=
  ((FieldsOf.refl [.kilnFrames] s).setF .kilnFramesCOUNT (min (s.getF .kilnFramesCOUNT + 1) (2 ^ Fld.kilnFramesCOUNT.info.len - 1)) 0 0
    (by decide)).1

theorem State.mem_countRecord (s : State) (n : Nat) : n ∈ (s.countRecord n).load.written := by
  change n ∈ if s.load.written.contains n then s.load.written else s.load.written ++ [n]
  split
  case isTrue h => simpa using h
  case isFalse => simp

theorem State.writeRecord_spec {fa : Nat} (h5 : 5 ≠ bits fa 28 4) (h6 : 6 ≠ bits fa 28 4) (h7 : 7 ≠ bits fa 28 4) (s : State) (n i data : Nat) :
    let t := s.writeRecord n i fa data
    t.frame n fa = ⟨data, data, (s.frame n fa).status⟩ ∧ (∀ m g, cfgKey m g ≠ cfgKey n fa → t.frame m g = s.frame m g) ∧
      t.getF .kilnFramesCOUNT = min (s.getF .kilnFramesCOUNT + 1) (2 ^ Fld.kilnFramesCOUNT.info.len - 1) ∧
      t.load.idx n = i + 1 ∧ n ∈ t.load.written ∧ t.getF .kilnStatSTATE = s.getF .kilnStatSTATE ∧
      sameRegs [.kilnFrames, .grnSpanstat, .grnPllcfg] s t ∧ { t with regs := s.regs, cfg := s.cfg, load := s.load, base := s.base } = s := by
  obtain ⟨hregs, r, hr⟩ := State.loadFrame_config h5 h6 h7 (s.takeRecord n i fa data) n data
  have hframe (m g : Nat) : ((s.takeRecord n i fa data).setFrame n fa ⟨data, data, (s.frame n fa).status⟩).frame m g =
      if cfgKey m g = cfgKey n fa then ⟨data, data, (s.frame n fa).status⟩ else s.frame m g := State.frame_setFrame _ n fa _ m g
  have hcount := ((s.takeRecord n i fa data).loadFrame n fa data).countRecord_regs n
  have hall : sameRegs [.kilnFrames, .grnSpanstat, .grnPllcfg] s (s.writeRecord n i fa data) :=
    sameRegs.trans (hregs.mono (by simp)) (hcount.mono (by simp))
  have hcounted := ((s.takeRecord n i fa data).loadFrame n fa data).getF_count_self .kilnFramesCOUNT 0 0
  rw [hregs _ _ _ (by decide)] at hcounted
  intro t
  have hload : ((s.takeRecord n i fa data).loadFrame n fa data).load = (s.takeRecord n i fa data).load := by rw [hr]; rfl
  refine ⟨?_, fun m g hne => ?_, hcounted, ?_, State.mem_countRecord _ _, hall _ _ _ (by decide), hall, ?_⟩
  · change ((s.takeRecord n i fa data).loadFrame n fa data).frame n fa = _
    rw [hr]
    exact (hframe n fa).trans (if_pos rfl)
  · change ((s.takeRecord n i fa data).loadFrame n fa data).frame m g = _
    rw [hr]
    exact (hframe m g).trans (if_neg hne)
  · change ((s.takeRecord n i fa data).loadFrame n fa data).load.idx n = _
    rw [hload]
    exact s.idx_takeRecord n i fa data
  · change { ((s.takeRecord n i fa data).loadFrame n fa data).countRecord n with
      regs := s.regs, cfg := s.cfg, load := s.load, base := s.base } = s
    rw [hr]
    rfl

/-- A record of a position in service is written and counted. -/
theorem State.writeRecord_end {fa : Nat} (h5 : 5 ≠ bits fa 28 4) (h6 : 6 ≠ bits fa 28 4) (h7 : 7 ≠ bits fa 28 4)
    (h : s.getF .kilnStatSTATE = 4) (n i data : Nat) (src : ImgSrc) :
    let t := (s.writeRecord n i fa data).endRecord src
    t.frame n fa = ⟨data, data, (s.frame n fa).status⟩ ∧ (∀ m g, cfgKey m g ≠ cfgKey n fa → t.frame m g = s.frame m g) ∧
      t.getF .kilnFramesCOUNT = min (s.getF .kilnFramesCOUNT + 1) (2 ^ Fld.kilnFramesCOUNT.info.len - 1) ∧
      t.load.idx n = i + 1 ∧ n ∈ t.load.written ∧ (t.getF .kilnStatSTATE = 4 ∨ t.getF .kilnStatSTATE = 5) ∧
      sameRegs [.kilnFrames, .kilnStat, .grnSpanstat, .grnPllcfg] s t ∧
      { t with regs := s.regs, cfg := s.cfg, load := s.load, base := s.base } = s := by
  obtain ⟨hframe, hothers, hcount, hidx, hmem, hstate, hregs, hkeep⟩ := State.writeRecord_spec h5 h6 h7 s n i data
  obtain ⟨hsame, hrest⟩ := (s.writeRecord n i fa data).endRecord_frame src
  have hend := State.endRecord_state (hstate.trans h) src
  obtain ⟨r, hr⟩ := eq_of_putBack_regs hrest
  have hall : sameRegs [.kilnFrames, .kilnStat, .grnSpanstat, .grnPllcfg] s ((s.writeRecord n i fa data).endRecord src) :=
    sameRegs.trans (hregs.mono (by simp)) (hsame.sameRegs (by decide))
  have hcounted := (hsame.fld .kilnFramesCOUNT 0 0 (by decide)).trans hcount
  rw [hr] at hend hall hcounted ⊢
  exact ⟨hframe, hothers, hcounted, hidx, hmem, hend, hall, hkeep⟩

end Sys2Proof.Machine

open Sys2Proof Sys2Proof.Machine

/-- Settles O24: the record's code alone decides; a record that is taken has its frame and its count from the write, and STATE from the end
of the record. -/
theorem recordsAreWrittenOrFailTheAttempt : Obligations.RecordsAreWrittenOrFailTheAttempt := by
  intro n bad rb s lpos frames off hstate hsec hi i o fa data seen code
  by_cases hc : code = 0
  · by_cases ho : s.isOos n = true
    · refine ⟨_, exec_frameRecord_oos hstate hsec hi hc ho, fun h => absurd hc h, fun _ _ _ h => ?_, fun _ _ => ?_⟩
      · simp [ho] at h
      · exact State.takeRecord_end hstate n i fa data s.loadSrc
    · have hin : s.isOos n = false := by simpa using ho
      by_cases hsig : gsig data = (s.imgRecord s.loadSrc o).2.1
      · cases rb with
        | none =>
          refine ⟨_, exec_frameRecord_written hstate hsec hi hc hin hsig, fun h => absurd hc h, fun _ _ _ _ h5 h6 h7 => ?_, fun _ h => absurd h ho⟩
          exact State.writeRecord_end h5 h6 h7 hstate n i data s.loadSrc
        | some b =>
          refine ⟨_, rfl, fun h => absurd hc h, fun _ h => ?_, fun _ h => absurd h ho⟩
          cases h
      · exact ⟨_, rfl, fun h => absurd hc h, fun _ _ h => absurd h hsig, fun _ h => absurd h ho⟩
  · exact ⟨_, exec_frameRecord_fails hstate hsec hi hc, fun _ => s.loadFail_attemptFails _ _ _, fun h => absurd h hc, fun h => absurd h hc⟩
end

section
/-! SUPPORT. A report written over a line that waits in a write buffer (R261, R344): the channel's counts in DDR_STAT are written anew, so
that where they did not follow the buffer before, a register changes that O25 does not name. -/

namespace Sys2Proof.Machine

variable {s t : State}

/-! ## A write of memory, byte by byte -/

/-- One byte of a write of memory from address a. -/
def State.memStep (a : Nat) (t : State) (e : Byte × Nat) : State :=
  let x := a + e.2
  let m := t.chanOf x
  let u := { t with mem := SMap.set (fun _ => 0) t.mem x e.1.toNat }
  if (u.chanSt m).wbuf.any (fun w => w.line == x / 64) then
    let c := u.chanSt m
    u.setChanSt m { c with wbuf := c.wbuf.map fun w =>
      if w.line = x / 64 ∧ w.mask.testBit (x % 64) then
        { w with data := overlay w.data (2 ^ (x % 64)) (e.1.toNat * 2 ^ (8 * (x % 64))) } else w }
  else u

/-- Channel 0 serves every address and has one write of line 0 in its buffer, and attestation is the one job. -/
structure LineZeroWaits (t : State) : Prop where
  chan_zero : t.getF .ddrImap1CH = 0
  jobs_eq : t.kilnJobs = [.attest]
  reads_nil : (t.chanSt 0).reads = []
  lines_eq : (t.chanSt 0).wbuf.map (·.line) = [0]

theorem LineZeroWaits.chanOf (h : LineZeroWaits t) (x : Nat) : t.chanOf x = 0 := by
  rw [State.chanOf, h.chan_zero, bits, Nat.zero_div, Nat.zero_mod]

/-- The counts of channel 0 follow its buffer. -/
def ShowsOne (t : State) : Prop := t.getF .ddrStatINFL = 1

theorem State.setChanSt_shows (t : State) (c : ChanSt) (hr : c.reads = []) (hw : c.wbuf.length = 1) : ShowsOne (t.setChanSt 0 c) := by
  simp [ShowsOne, State.setChanSt, hr, hw]

theorem LineZeroWaits.setChanSt (h : LineZeroWaits t) {c : ChanSt} (hr : c.reads = []) (hw : c.wbuf.map (·.line) = [0]) :
    LineZeroWaits (t.setChanSt 0 c) := by
  have hset : (t.setChanSt 0 c).chanSt 0 = c := SMap.get_set_self _ _ _ _
  refine ⟨?_, h.jobs_eq, by rw [hset, hr], by rw [hset, hw]⟩
  rw [State.setChanSt, State.getF_setF_ne _ _ _ _ _ _ (by simp), State.getF_setF_ne _ _ _ _ _ _ (by simp)]
  exact h.chan_zero

theorem LineZeroWaits.setF (h : LineZeroWaits t) {f : Fld} (hf : f ≠ .ddrImap1CH) (v i j : Nat) : LineZeroWaits (t.setF f v i j) where
  chan_zero := (State.getF_setF_ne _ _ _ _ _ _ hf.symm).trans h.chan_zero
  jobs_eq := h.jobs_eq
  reads_nil := h.reads_nil
  lines_eq := h.lines_eq

/-- New data in entries of a write buffer leaves their lines. -/
theorem map_line_overlay (ws : List WbEnt) (p : WbEnt → Prop) [DecidablePred p] (g : WbEnt → Nat) :
    (ws.map fun w => if p w then { w with data := g w } else w).map (·.line) = ws.map (·.line) := by
  rw [List.map_map]
  refine List.map_congr_left fun w _ => ?_
  simp only [Function.comp_apply, apply_ite WbEnt.line, ite_self]

theorem LineZeroWaits.memStep (h : LineZeroWaits t) (a : Nat) (e : Byte × Nat) :
    LineZeroWaits (t.memStep a e) ∧ (ShowsOne t ∨ (a + e.2) / 64 = 0 → ShowsOne (t.memStep a e)) := by
  have hput : LineZeroWaits { t with mem := SMap.set (fun _ => 0) t.mem (a + e.2) e.1.toNat } :=
    ⟨h.chan_zero, h.jobs_eq, h.reads_nil, h.lines_eq⟩
  have hline (k : Nat) : ((t.chanSt 0).wbuf.any fun w => w.line == k) = (0 == k) := by
    have hany := List.any_map (l := (t.chanSt 0).wbuf) (f := (·.line)) (p := (· == k))
    rw [h.lines_eq] at hany
    exact hany.symm.trans (Bool.or_false _)
  unfold State.memStep
  dsimp only
  rw [h.chanOf]
  split
  case isTrue hin =>
    have hmap := (map_line_overlay (t.chanSt 0).wbuf (fun w => w.line = (a + e.2) / 64 ∧ w.mask.testBit ((a + e.2) % 64))
      fun w => overlay w.data (2 ^ ((a + e.2) % 64)) (e.1.toNat * 2 ^ (8 * ((a + e.2) % 64)))).trans h.lines_eq
    refine ⟨hput.setChanSt h.reads_nil hmap, fun _ => State.setChanSt_shows _ _ h.reads_nil ?_⟩
    exact (List.length_map _).symm.trans (congrArg List.length hmap)
  case isFalse hout =>
    refine ⟨hput, fun hs => hs.resolve_right fun hzero => hout ?_⟩
    exact (hline _).trans (by rw [hzero]; rfl)

theorem LineZeroWaits.memSteps (h : LineZeroWaits t) (hs : ShowsOne t) (a : Nat) (es : List (Byte × Nat)) :
    LineZeroWaits (es.foldl (State.memStep a) t) ∧ ShowsOne (es.foldl (State.memStep a) t) :=
  List.foldlRecOn (motive := fun t => LineZeroWaits t ∧ ShowsOne t) _ _ ⟨h, hs⟩ fun _ h e _ =>
    ⟨(h.1.memStep a e).1, (h.1.memStep a e).2 (.inl h.2)⟩

/-- A write from address 0 brings the counts in line with the buffer. -/
theorem LineZeroWaits.memWrite (h : LineZeroWaits t) {bs : List Byte} (hb : bs ≠ []) :
    LineZeroWaits (t.memWrite 0 bs) ∧ ShowsOne (t.memWrite 0 bs) := by
  obtain ⟨b, bs, rfl⟩ := List.exists_cons_of_ne_nil hb
  obtain ⟨hfirst, hshows⟩ := h.memStep 0 (b, 0)
  exact hfirst.memSteps (hshows (.inr (by simp))) 0 _

theorem State.attReport_ne_nil (s : State) : s.attReport ≠ [] := by
  rw [State.attReport, State.attBody, toBytes]
  simp

/-! ## The report -/

/-- A part with one channel in service whose buffer holds line 0, while DDR_STAT shows none, and a report to write there. -/
def staleCounts : State :=
  { (((State.reset.setF .ddrImap0VALID 1).setF .ddrImap0CGIB 16).setF .ddrStatSTATE 4) with
    perst := false, kilnJobs := [.attest], ddr := [(0, { ChanSt.initial with wbuf := [⟨0, 1, 0, false, none⟩] })] }

theorem staleCounts_facts : staleCounts.kilnJobs = [.attest] ∧ staleCounts.attOk = true ∧ staleCounts.getF .kilnAttaddrADDR = 0 ∧
    staleCounts.getF .ddrStatINFL = 0 ∧ LineZeroWaits staleCounts := by
  exact ⟨rfl, by decide, by decide, by decide, by decide, rfl, rfl, rfl⟩

/-- What the report of a job of attestation leaves before the job ends. -/
def State.reported (s : State) : State :=
  (((s.setOff .kilnAttctlBUSY).memWrite (s.getF .kilnAttaddrADDR) s.attReport).setOn .kilnAttctlDONE).raise 991

theorem exec_attestationReport {rest : List KilnJob} (h : s.kilnJobs = .attest :: rest) (hok : s.attOk = true) :
    exec .attestationReport s = .next s.reported.jobEnd := by
  refine congrArg Host.Outcome.next ?_
  rw [h]
  dsimp only
  rw [if_pos hok]
  rfl

/-- The end of the one job leaves the registers. -/
theorem State.getF_jobEnd_last {j : KilnJob} (h : s.kilnJobs = [j]) (f : Fld) (i k : Nat) : s.jobEnd.getF f i k = s.getF f i k := by
  have hlast : ({ s with kilnJobs := s.kilnJobs.drop 1 } : State).kilnJobs = [] := by
    change s.kilnJobs.drop 1 = []
    rw [h]
    rfl
  rw [State.jobEnd, State.jobStart, hlast]
  rfl

theorem LineZeroWaits.reportDone (h : LineZeroWaits t) (hs : ShowsOne t) :
    ((t.setOn .kilnAttctlDONE).raise 991).kilnJobs = [.attest] ∧ ShowsOne ((t.setOn .kilnAttctlDONE).raise 991) := by
  obtain ⟨-, hev, hrest⟩ := (t.setOn .kilnAttctlDONE).raise_spec (e := 991) 0 (by decide)
  obtain ⟨r, o, hr⟩ := eq_of_putBack_regs_out hrest
  refine ⟨by rw [hr]; exact h.jobs_eq, ?_⟩
  rw [ShowsOne, hev.fld _ _ _ (by decide), State.setOn, State.getF_setF_ne _ _ _ _ _ _ (by simp)]
  exact hs

theorem LineZeroWaits.reported (h : LineZeroWaits s) (haddr : s.getF .kilnAttaddrADDR = 0) :
    s.reported.kilnJobs = [.attest] ∧ ShowsOne s.reported := by
  have hoff : LineZeroWaits (s.setOff .kilnAttctlBUSY) := h.setF (by simp) _ _ _
  obtain ⟨hwrite, hshows⟩ := hoff.memWrite s.attReport_ne_nil
  rw [State.reported, haddr]
  exact ((hwrite.reportDone hshows))

end Sys2Proof.Machine

open Sys2Proof Sys2Proof.Machine

/-- Refutes O25: a report written over a line that waits in a channel's write buffer writes the channel's counts in DDR_STAT anew. In a
state in which they did not follow the buffer, such as `staleCounts`, DDR_STAT.INFL changes, which is not among the registers that the
statement lets the report change. -/
theorem not_kilnJobsEndInDoneOrError : ¬ Obligations.KilnJobsEndInDoneOrError := by
  intro h
  obtain ⟨-, -, -, hreport⟩ := h staleCounts
  obtain ⟨hjobs, hok, haddr, hstale, hwaits⟩ := staleCounts_facts
  obtain ⟨t, hexec, u, hend, hsame, -, -, hdone⟩ := hreport [] hjobs
  obtain ⟨-, -, -, -, hregs, -⟩ := hdone hok
  obtain ⟨hjobs', hshows⟩ := hwaits.reported haddr
  have hnext : staleCounts.reported.jobEnd = u.jobEnd :=
    (Host.Outcome.next.inj ((exec_attestationReport hjobs hok).symm.trans hexec)).trans hend
  have hu : u.getF .ddrStatINFL = 1 := by
    rw [← State.getF_jobEnd_last (hsame.trans hjobs), ← hnext, State.getF_jobEnd_last hjobs']
    exact hshows
  have hkeep := hregs .ddrStatINFL 0 0 (by decide)
  omega
end

section
/-! SUPPORT. The reload (R254, R260): what a write of KILN_CTL stores, and what a reload clears on its way. -/

namespace Sys2Proof.Machine

variable {s t : State}

/-! ## KILN_CTL -/

/-- KILN_CTL stores the slot that a write names. -/
def State.storeSlot (s : State) (w : W32) : State := s.setF .kilnCtlRSLOT (w.toNat / 2 % 4)

theorem State.writeReg_kilnCtl (s : State) (w : W32) : s.writeReg .kilnCtl 0 0 w.toNat full32 = s.storeSlot w := by
  have hslot : bits w.toNat 1 2 = w.toNat / 2 % 4 := rfl
  rw [State.storeSlot, ← hslot]
  change (s.writeFld 0 0 w.toNat full32 .kilnCtlRELOAD).writeFld 0 0 w.toNat full32 .kilnCtlRSLOT = _
  rw [State.writeFld_eq_self (f := .kilnCtlRELOAD) (.inr rfl), State.writeFld_of_covered (f := .kilnCtlRSLOT) ⟨rfl, rfl⟩]
  rfl

theorem State.storeSlot_frame (s : State) (w : W32) : RegsOnly [fk .kilnCtlRSLOT] s (s.storeSlot w) := (RegsOnly.refl s).setF _ _ _ _

theorem State.storeSlot_read (s : State) (w : W32) : (s.storeSlot w).getF .kilnCtlRSLOT = w.toNat / 2 % 4 := by
  simp [State.storeSlot]

/-- The write of the slot decides nothing of the reload. -/
theorem State.storeSlot_decides (s : State) (w : W32) : (s.storeSlot w).reloadable = s.reloadable ∧
    (s.storeSlot w).getF .dieRemapstatSTATE = s.getF .dieRemapstatSTATE := by
  obtain ⟨hsame, -⟩ := s.storeSlot_frame w
  refine ⟨?_, hsame.fld _ _ _ (by decide)⟩
  simp only [State.reloadable, State.isSet, hsame.fld .kilnStatSTATE 0 0 (by decide), hsame.fld .dieDiscstatPANELBAD 0 0 (by decide)]
  rfl

theorem exec_reload (hs : s.perst = false) (hu : s.unitOn .kiln = true) (w : W32) (hw : w.toNat.testBit 0 = true) :
    exec (.reload w) s = .next (if (!s.reloadable || s.heldReload.isSome) = true then (s.storeSlot w).setOn .kilnStatRLDIGN
      else if s.getF .dieRemapstatSTATE = 1 ∨ s.getF .dieRemapstatSTATE = 2 then { s.storeSlot w with heldReload := some (w.toNat / 2 % 4) }
      else (s.storeSlot w).reloadGo (w.toNat / 2 % 4)) := by
  obtain ⟨hreload, hstate⟩ := s.storeSlot_decides w
  have hslot := s.storeSlot_read w
  have hheld : (s.storeSlot w).heldReload = s.heldReload := rfl
  have hbit : (w.toNat &&& full32).testBit 0 = true := by
    rw [Nat.testBit_and, hw]
    rfl
  refine congrArg Host.Outcome.next ((if_neg (by simp [hs])).trans ((if_pos hu).trans ?_))
  change s.kilnCtlWrite w.toNat full32 = _
  unfold State.kilnCtlWrite
  rw [s.writeReg_kilnCtl, hbit]
  dsimp only
  rw [if_neg (by simp), hreload, hheld, hstate, hslot]

/-! ## What a reload clears -/

/-- No base image, floor, shelf entry or crossing is left, and no reload is held. -/
structure Emptied (t : State) : Prop where
  baseSlot_eq : t.baseSlot = none
  heldReload_eq : t.heldReload = none
  xr_eq : t.xr = []
  xe_eq : t.xe = []
  shelf_eq : t.shelf = []
  floorTab_eq : t.floorTab = []

theorem Emptied.of_stays {l : List Fld} (h : Emptied s) (hs : LoadStays l s t) : Emptied t where
  baseSlot_eq := hs.baseSlot_eq.trans h.baseSlot_eq
  heldReload_eq := hs.heldReload_eq.trans h.heldReload_eq
  xr_eq := hs.xr_eq.trans h.xr_eq
  xe_eq := hs.xe_eq.trans h.xe_eq
  shelf_eq := hs.shelf_eq.trans h.shelf_eq
  floorTab_eq := hs.floorTab_eq.trans h.floorTab_eq

/-- Position n is under global restore, and its frames are clear. -/
def Restored (n : Nat) (t : State) : Prop := (∀ fa < 2 ^ 32, t.frame n fa = CfgFrame.zero) ∧ (t.posSt n).restore = true

theorem Restored.of_stays {l : List Fld} {n : Nat} (h : Restored n s) (hs : LoadStays l s t) : Restored n t := by
  obtain ⟨hframe, hpos⟩ := h
  refine ⟨fun fa hfa => ?_, ?_⟩
  · rw [State.frame, hs.cfg_eq]
    exact hframe fa hfa
  · rw [State.posSt, hs.pos_eq]
    exact hpos

/-- A position comes under global restore with its frames clear. -/
def State.restorePos (s : State) (n : Nat) : State := (s.setPos n { s.posSt n with restore := true }).clearPos n

theorem State.reloadPos_stays (s : State) (n : Nat) : LoadStays [] (s.restorePos n) (s.reloadPos n) :=
  (LoadStays.setF rfl LoadStays.refl.startTiles.thawAll.dnpRest.dnpRest).setEvFifo _

theorem State.restorePos_self (s : State) (n : Nat) : Restored n (s.restorePos n) := by
  have hpos : (s.restorePos n).posSt n = { s.posSt n with restore := true } := SMap.get_set_self _ _ _ _
  exact ⟨fun fa hfa => State.frame_clearPos _ _ hfa, by rw [hpos]⟩

theorem State.restorePos_other {n m : Nat} (hm : m ≠ n) (h : Restored n s) : Restored n (s.restorePos m) := by
  obtain ⟨hframe, hpos⟩ := h
  refine ⟨fun fa hfa => ?_, ?_⟩
  · change SMap.get _ (SMap.clearWhere (fun k => k / 2 ^ 32 == m && true) s.cfg) (cfgKey n fa) = _
    rw [SMap.get_clearWhere, cfgKey_div n hfa, if_neg (by simp [Ne.symm hm])]
    exact hframe fa hfa
  · have hkeep : (s.restorePos m).posSt n = s.posSt n := SMap.get_set_ne _ _ _ (Ne.symm hm)
    rw [hkeep, hpos]

theorem Emptied.restorePos (h : Emptied s) (n : Nat) : Emptied (s.restorePos n) :=
  ⟨h.baseSlot_eq, h.heldReload_eq, h.xr_eq, h.xe_eq, h.shelf_eq, h.floorTab_eq⟩

theorem Emptied.reloadAll (h : Emptied s) : Emptied (State.each 60 (fun n v => v.reloadPos n) s) :=
  List.foldlRecOn (motive := Emptied) _ _ h fun t h n _ => (h.restorePos n).of_stays (t.reloadPos_stays n)

theorem State.reloadAll_restored (s : State) {n : Nat} (hn : n < 60) : Restored n (State.each 60 (fun n v => v.reloadPos n) s) :=
  State.each_establishes hn (fun t => (t.restorePos_self n).of_stays (t.reloadPos_stays n))
    (fun t m _ hm h => (State.restorePos_other hm h).of_stays (t.reloadPos_stays m)) s

theorem State.reloadFloors_floors (s : State) : s.reloadFloors.shelf = [] ∧ s.reloadFloors.floorTab = [] := by
  unfold State.reloadFloors
  dsimp only
  split
  all_goals exact ⟨rfl, rfl⟩

/-- After its sweep over the positions, a reload keeps what it cleared. -/
theorem State.reloadGo_stays (s : State) (slot : Nat) :
    ∃ t, Emptied t ∧ LoadStays [.kilnStatSTATE] (State.each 60 (fun n v => v.reloadPos n) t) (s.reloadGo slot) := by
  obtain ⟨hshelf, hfloor⟩ := s.reloadJobs.reloadFloors_floors
  unfold State.reloadGo
  extract_lets +onlyGivenNames s₁ t₁ u v s₂ w x
  have h₁ : Emptied t₁ := ⟨rfl, rfl, rfl, rfl, hshelf, hfloor⟩
  have hb := h₁.reloadAll.baseSlot_eq
  refine ⟨t₁, h₁, ?_⟩
  let r := State.each 60 (fun n v => v.reloadPos n) t₁
  have hu : LoadStays [.kilnStatSTATE] r u := LoadStays.refl.mempReset.biasLost
  have hv : LoadStays [.kilnStatSTATE] r v := by
    unfold v
    split
    exacts [hu.cohFlush, hu]
  have hw : LoadStays [.kilnStatSTATE] r w := (LoadStays.setF rfl hv).setLoad _
  have hx : LoadStays [.kilnStatSTATE] r x := by
    unfold x
    split
    exacts [hw.jobAdd.beginLoad hb, hw.ddrReset.beginLoad hb]
  exact hx.pwrReload.wortReload

/-- What holds once a reload has begun. -/
theorem State.reloadGo_spec (s : State) (slot : Nat) : Emptied (s.reloadGo slot) ∧ (∀ n : Pos, Restored n (s.reloadGo slot)) ∧
    (s.reloadGo slot).part = s.part := by
  obtain ⟨t, hempty, hload⟩ := s.reloadGo_stays slot
  exact ⟨hempty.reloadAll.of_stays hload, fun n => (t.reloadAll_restored n.isLt).of_stays hload,
    (Evolves.refl.reloadGo).part_eq_and_pending_eq.1⟩

end Sys2Proof.Machine

open Sys2Proof Sys2Proof.Machine

/-- Settles O26: a write of KILN_CTL is decided by what it does not store, and all that follows the sweep of a reload leaves what the sweep
cleared. -/
theorem reloadsClearThePartAndLoadAgain : Obligations.ReloadsClearThePartAndLoadAgain := by
  refine fun s => ⟨fun w hs hu hw => ⟨_, exec_reload hs hu w hw, fun h => ?_, fun hr hheld hrem => ?_, fun hr hheld h1 h2 => ?_⟩,
    fun slot hheld hidle => ⟨_, ?_, rfl⟩, fun slot => ?_⟩
  · have hframe := (s.storeSlot_frame w).setF .kilnStatRLDIGN 1 0 0
    rw [if_pos (by simpa [Option.isSome_iff_ne_none] using h)]
    exact ⟨State.getF_setF_self _ _ _ _ _, hframe.1.sameRegs (by decide), hframe.2⟩
  · rw [if_neg (by simp [hr, hheld]), if_pos hrem]
    exact ⟨rfl, (s.storeSlot_frame w).1.sameRegs (by decide), rfl⟩
  · rw [if_neg (by simp [hr, hheld]), if_neg (by simp [h1, h2])]
    exact ⟨_, rfl, (s.storeSlot_frame w).1.sameRegs (by decide), (s.storeSlot_frame w).2⟩
  · refine congrArg Host.Outcome.next ?_
    rw [hheld]
    exact if_pos hidle
  · obtain ⟨hempty, hrestored, hpart⟩ := s.reloadGo_spec slot
    exact ⟨hempty.baseSlot_eq, hempty.heldReload_eq, hempty.xr_eq, hempty.xe_eq, hempty.shelf_eq, hempty.floorTab_eq,
      fun n => (hrestored n).1, fun n => (hrestored n).2, hpart⟩
end

section
/-! SUPPORT. The release (R256, R262, R265): what the taking of its pitch changes, what the base image puts in the registers, and what the
sweep over the positions leaves. -/

namespace Sys2Proof.Machine

variable {s t u : State}

/-! ## A pitch taken -/

/-- What a pitch that acts changes: the registers of the captures it makes, and where captures and pitches are kept. -/
def TakenOnly (s t : State) : Prop :=
  sameRegs pitchRegs s t ∧ ∃ r o p l q n, t = { s with regs := r, out := o, pitches := p, lines := l, ringQ := q, tsSeq := n }

namespace TakenOnly

theorem refl (s : State) : TakenOnly s s := ⟨fun _ _ _ _ => rfl, _, _, _, _, _, _, rfl⟩

theorem fields (h : TakenOnly s t) (hf : FieldsAndOut pitchRegs t u) : TakenOnly s u := by
  obtain ⟨h, _, _, _, _, _, _, rfl⟩ := h
  obtain ⟨h', _, _, rfl⟩ := hf
  exact ⟨h.trans h', _, _, _, _, _, _, rfl⟩

theorem setF {f : Fld} {v i j : Nat} (h : TakenOnly s t) (hf : f.info.reg ∈ pitchRegs) : TakenOnly s (t.setF f v i j) :=
  h.fields ((FieldsOf.refl pitchRegs t).setF f v i j hf).andOut

theorem raise {e p : Nat} (h : TakenOnly s t) : TakenOnly s (t.raise e p) :=
  h.fields ((FieldsAndOut.refl pitchRegs t).raise (by decide))

theorem setPitch {k : Nat} {p : Option Pitch} (h : TakenOnly s t) : TakenOnly s (t.setPitch k p) := by
  obtain ⟨h, _, _, _, _, _, _, rfl⟩ := h
  exact ⟨h.trans ((FieldsOf.refl pitchRegs _).setF .capStatPEND _ 0 0 (by decide)).1, _, _, _, _, _, _, rfl⟩

theorem addLine (h : TakenOnly s t) (l : List (Nat × Nat)) : TakenOnly s { t with lines := l } := by
  obtain ⟨h, _, _, _, _, _, _, rfl⟩ := h
  exact ⟨h, _, _, _, _, _, _, rfl⟩

theorem takeSeq (h : TakenOnly s t) : TakenOnly s t.takeSeq := by
  obtain ⟨h, _, _, _, _, _, _, rfl⟩ := h
  exact ⟨h, _, _, _, _, _, _, rfl⟩

theorem setRing (h : TakenOnly s t) (q : List RingEnt) : TakenOnly s { t with ringQ := q } := by
  obtain ⟨h, _, _, _, _, _, _, rfl⟩ := h
  exact ⟨h, _, _, _, _, _, _, rfl⟩

theorem capLost (h : TakenOnly s t) : TakenOnly s t.capLost := by
  have ht : TakenOnly s ((t.count .tmuTsstatLOST).setOn .tmuTsstatOVF) := (h.setF (by decide)).setF (by decide)
  unfold State.capLost
  dsimp only
  split
  exacts [ht, ht.raise]

theorem windowHit {w v : Nat} (h : TakenOnly s t) : TakenOnly s (t.windowHit w v) := by
  have ht : TakenOnly s (t.count .winStatINCNT 1 w) := h.setF (by decide)
  have hu : TakenOnly s (((t.count .winStatINCNT 1 w).setTime winFirstFlds v w).setOn .winStatHIT w) :=
    ((((ht.setF (by decide)).setF (by decide)).setF (by decide)).setF (by decide)).setF (by decide)
  have hx : TakenOnly s ((((t.count .winStatINCNT 1 w).setTime winFirstFlds v w).setOn .winStatHIT w).setBitF .tmuWinevtHIT w true) :=
    hu.setF (by decide)
  unfold State.windowHit
  dsimp only
  split_ifs
  exacts [ht, hu, hx, hx.raise]

theorem capture {code pkind v : Nat} {edge spaced : Bool} (h : TakenOnly s t) : TakenOnly s (t.capture code edge pkind v spaced) := by
  unfold State.capture
  split
  · exact h.takeSeq.capLost
  · extract_lets ws inside t₁ gates
    have h₁ : TakenOnly s t₁ := List.foldlRecOn inside _ h fun _ h w _ => h.windowHit
    split
    exacts [h₁, h₁.takeSeq.setRing _]

theorem pitchStamp {kind : Nat} (h : TakenOnly s t) : TakenOnly s (t.pitchStamp kind) := by
  unfold State.pitchStamp
  split
  exacts [h.capture, h]

theorem takePitch {key kind : Nat} {p : Pitch} (he : s.takePitch key kind = some (p, u)) : TakenOnly s u := by
  have hset (k : Nat) : TakenOnly s (s.setPitch k none) := (refl s).setPitch
  unfold State.takePitch at he
  split at he
  · cases he
  · split at he
    · cases he
    · split_ifs at he
      · cases he
        exact ((hset key).addLine _).pitchStamp
      · cases he
        exact (hset key).pitchStamp

end TakenOnly

/-! ## The base image in force (R265) -/

/-- The digest of an image in its eight registers. -/
def State.putDigest (s : State) (dig : Nat) : State := (List.range 8).foldl (fun v i => v.setF .kilnBasedigDIG (bits dig (32 * i) 32) i) s

/-- A floor of an image: steeped in base content, or undefined. -/
def State.putFloor (floors : Nat) (tab : Nat → Nat) (f : Nat) (s : State) : State :=
  ({ s with floorTab := SMap.set (fun _ => 0) s.floorTab f (if f < floors then tab f else 0) }).setF .kilnFlrstatSTATE
    (decide (f < floors)).toNat f

def State.putFloors (s : State) (floors : Nat) (tab : Nat → Nat) : State := State.each 64 (State.putFloor floors tab) s

theorem State.baseReleased_eq (s : State) : s.baseReleased =
    { ((((s.setF .kilnImgverVERSION (s.imgNum s.loadSrc 0x30 8)).setF .kilnStatRELMS s.msNow).putDigest (s.imgDigest s.loadSrc)).putFloors
      (s.imgNum s.loadSrc 0x19 1) (s.imgFloor s.loadSrc)) with baseSlot := some (s.getF .kilnStatSLOT) } := rfl

theorem State.getF_putDigest_self (s : State) (dig : Nat) (i : Fin 8) : (s.putDigest dig).getF .kilnBasedigDIG i = bits dig (32 * i) 32 := by
  refine State.each_establishes (n := 8) (g := fun k t => t.setF .kilnBasedigDIG (bits dig (32 * k) 32) k)
    (P := fun t => t.getF .kilnBasedigDIG i = bits dig (32 * i) 32) i.isLt (fun t => ?_) (fun t j hj hji h => ?_) s
  · rw [State.getF_setF_self, Fld.kilnBasedigDIG_len, Nat.mod_eq_of_lt (bits_lt _ _ _)]
  · rwa [State.getF_setF_ne_fst _ _ _ _ (by omega)]

theorem FieldsOf.putDigest {rs : List RegName} (h : FieldsOf rs s t) (dig : Nat) (hr : RegName.kilnBasedig ∈ rs) :
    FieldsOf rs s (t.putDigest dig) :=
  List.foldlRecOn _ _ h fun _ h _ _ => h.setF _ _ _ _ hr

theorem State.getF_putFloor (floors : Nat) (tab : Nat → Nat) (k : Nat) (s : State) (f : Fin 64) (hk : k < 64) :
    (State.putFloor floors tab k s).getF .kilnFlrstatSTATE f =
      if k = f.val then (if f.val < floors then 1 else 0) else s.getF .kilnFlrstatSTATE f := by
  rw [State.putFloor]
  by_cases hkf : k = f.val
  · subst hkf
    rw [State.getF_setF_self, if_pos rfl]
    by_cases hf : f.val < floors
    · simp [hf]
    · simp [hf]
  · rw [State.getF_setF_ne_fst _ _ _ _ (by omega), if_neg hkf]
    rfl

theorem State.getF_putFloors_self (s : State) (floors : Nat) (tab : Nat → Nat) (f : Fin 64) :
    (s.putFloors floors tab).getF .kilnFlrstatSTATE f = if f.val < floors then 1 else 0 := by
  refine State.each_establishes (P := fun t => t.getF .kilnFlrstatSTATE f = if f.val < floors then 1 else 0) f.isLt (fun t => ?_)
    (fun t j hj hjf h => ?_) s
  · rw [State.getF_putFloor _ _ _ _ _ f.isLt, if_pos rfl]
  · rw [State.getF_putFloor _ _ _ _ _ hj, if_neg hjf, h]

/-- The floors change their own register and the table alone. -/
theorem State.putFloors_frame (s : State) (floors : Nat) (tab : Nat → Nat) :
    sameRegs [.kilnFlrstat] s (s.putFloors floors tab) ∧ ∃ r m, s.putFloors floors tab = { s with regs := r, floorTab := m } := by
  refine List.foldlRecOn (motive := fun t => sameRegs [.kilnFlrstat] s t ∧ ∃ r m, t = { s with regs := r, floorTab := m }) _ _
    ⟨fun _ _ _ _ => rfl, _, _, rfl⟩ fun t h f _ => ?_
  obtain ⟨h, r, m, rfl⟩ := h
  exact ⟨h.trans ((FieldsOf.refl [.kilnFlrstat] _).setF .kilnFlrstatSTATE _ f 0 (by decide)).1, _, _, rfl⟩

/-- What the base image puts in force. -/
theorem State.baseReleased_spec (s : State) :
    s.baseReleased.baseSlot = some (s.getF .kilnStatSLOT) ∧
      s.baseReleased.getF .kilnImgverVERSION = s.imgNum s.loadSrc 0x30 8 % 2 ^ Fld.kilnImgverVERSION.info.len ∧
      (∀ i : Fin 8, s.baseReleased.getF .kilnBasedigDIG i = bits (s.imgDigest s.loadSrc) (32 * i) 32) ∧
      (∀ f : Fin 64, s.baseReleased.getF .kilnFlrstatSTATE f = if f.val < s.imgNum s.loadSrc 0x19 1 then 1 else 0) ∧
      ∃ r m b, s.baseReleased = { s with regs := r, floorTab := m, baseSlot := b } := by
  have hver := State.getF_setF_self s .kilnImgverVERSION (s.imgNum s.loadSrc 0x30 8) 0 0
  have hrel := SameBut.setF (s.setF .kilnImgverVERSION (s.imgNum s.loadSrc 0x30 8)) .kilnStatRELMS s.msNow 0 0
  have hput : FieldsOf [.kilnImgver, .kilnStat, .kilnBasedig] s
      ((s.setF .kilnImgverVERSION (s.imgNum s.loadSrc 0x30 8)).setF .kilnStatRELMS s.msNow) :=
    ((FieldsOf.refl _ s).setF _ _ _ _ (by decide)).setF _ _ _ _ (by decide)
  obtain ⟨-, r, hr⟩ := hput.putDigest (s.imgDigest s.loadSrc) (by decide)
  obtain ⟨hdig, -⟩ := (FieldsOf.refl [.kilnBasedig] ((s.setF .kilnImgverVERSION (s.imgNum s.loadSrc 0x30 8)).setF .kilnStatRELMS
    s.msNow)).putDigest (s.imgDigest s.loadSrc) (by decide)
  have hself := ((s.setF .kilnImgverVERSION (s.imgNum s.loadSrc 0x30 8)).setF .kilnStatRELMS s.msNow).getF_putDigest_self
    (s.imgDigest s.loadSrc)
  rw [State.baseReleased_eq]
  generalize ((s.setF .kilnImgverVERSION (s.imgNum s.loadSrc 0x30 8)).setF .kilnStatRELMS s.msNow).putDigest (s.imgDigest s.loadSrc) = t
    at hdig hr hself
  obtain ⟨hfloor, r', m, hr'⟩ := t.putFloors_frame (s.imgNum s.loadSrc 0x19 1) (s.imgFloor s.loadSrc)
  have hfloors := t.getF_putFloors_self (s.imgNum s.loadSrc 0x19 1) (s.imgFloor s.loadSrc)
  generalize t.putFloors (s.imgNum s.loadSrc 0x19 1) (s.imgFloor s.loadSrc) = v at hfloor hr' hfloors
  refine ⟨rfl, ?_, fun i => ?_, hfloors, r', m, some (s.getF .kilnStatSLOT), ?_⟩
  · exact (hfloor _ _ _ (by decide)).trans ((hdig _ _ _ (by decide)).trans ((hrel.fld _ _ _ (by decide)).trans hver))
  · exact (hfloor _ _ _ (by decide)).trans (hself i)
  · rw [hr', hr]

/-! ## The positions -/

/-- A position leaves global restore; one out of service is in die reset. -/
def State.unrestPos (s : State) (n : Nat) : State := s.setPos n (if s.isOos n then ⟨true, false⟩ else { s.posSt n with restore := false })

theorem State.releasePos_stays (s : State) (n : Nat) : LoadStays [] (s.unrestPos n) (s.releasePos n) := by
  unfold State.releasePos State.unrestPos
  split
  · exact LoadStays.refl
  · extract_lets p t u v
    have ht : LoadStays [] (s.setPos n { s.posSt n with restore := false }) t := LoadStays.refl.thawAll
    have hu : LoadStays [] (s.setPos n { s.posSt n with restore := false }) u := by
      unfold u
      split
      exacts [ht.dnpUnrest.dnpUnrest, ht.startTiles.dnpUnrest.dnpUnrest]
    have hv : LoadStays [] (s.setPos n { s.posSt n with restore := false }) v := by
      unfold v
      split
      exacts [hu, (LoadStays.setOn rfl (LoadStays.setF rfl hu)).bankCheck]
    exact LoadStays.setF rfl hv.passStart

/-- All that stands but the positions. -/
structure StandsButPos (s t : State) : Prop where
  getF_eq : ∀ f ∈ loadFields, ∀ i j, t.getF f i j = s.getF f i j
  baseSlot_eq : t.baseSlot = s.baseSlot
  xr_eq : t.xr = s.xr
  xe_eq : t.xe = s.xe
  cfg_eq : t.cfg = s.cfg
  oos_eq : t.oos = s.oos

theorem StandsButPos.stays (h : StandsButPos s t) (hs : LoadStays [] t u) : StandsButPos s u where
  getF_eq f hf i j := (hs.getF_eq f hf List.not_mem_nil i j).trans (h.getF_eq f hf i j)
  baseSlot_eq := hs.baseSlot_eq.trans h.baseSlot_eq
  xr_eq := hs.xr_eq.trans h.xr_eq
  xe_eq := hs.xe_eq.trans h.xe_eq
  cfg_eq := hs.cfg_eq.trans h.cfg_eq
  oos_eq := hs.oos_eq.trans h.oos_eq

theorem StandsButPos.unrestPos (h : StandsButPos s t) (n : Nat) : StandsButPos s (t.unrestPos n) :=
  ⟨h.getF_eq, h.baseSlot_eq, h.xr_eq, h.xe_eq, h.cfg_eq, h.oos_eq⟩

/-- Every position takes part in the release. -/
def State.releaseAll (s : State) : State := State.each 60 (fun n v => v.releasePos n) s

theorem State.releaseAll_stands (s : State) : StandsButPos s s.releaseAll :=
  List.foldlRecOn (motive := StandsButPos s) _ _ ⟨fun _ _ _ _ => rfl, rfl, rfl, rfl, rfl, rfl⟩ fun t h n _ =>
    (h.unrestPos n).stays (t.releasePos_stays n)

/-- Position n is out of global restore, and in die reset where it is out of service. -/
def Unrested (n : Nat) (t : State) : Prop := (t.posSt n).restore = false ∧ (t.isOos n = true → (t.posSt n).inReset = true)

theorem Unrested.stays {l : List Fld} {n : Nat} (h : Unrested n s) (hs : LoadStays l s t) : Unrested n t := by
  obtain ⟨hrestore, hreset⟩ := h
  simp only [Unrested, State.posSt, State.isOos, hs.pos_eq, hs.oos_eq]
  exact ⟨hrestore, hreset⟩

theorem State.unrestPos_self (s : State) (n : Nat) : Unrested n (s.unrestPos n) := by
  have hpos : (s.unrestPos n).posSt n = if s.isOos n then ⟨true, false⟩ else { s.posSt n with restore := false } :=
    SMap.get_set_self _ _ _ _
  rw [Unrested, hpos]
  refine ⟨?_, fun ho => ?_⟩
  · split
    all_goals rfl
  · rw [if_pos (show s.isOos n = true from ho)]

theorem Unrested.unrestPos_other {n m : Nat} (h : Unrested n s) (hm : m ≠ n) : Unrested n (s.unrestPos m) := by
  have hpos : (s.unrestPos m).posSt n = s.posSt n := SMap.get_set_ne _ _ _ (Ne.symm hm)
  rw [Unrested, hpos]
  exact h

theorem State.releaseAll_unrested (s : State) (n : Pos) : Unrested n s.releaseAll :=
  State.each_establishes n.isLt (fun t => (t.unrestPos_self n).stays (t.releasePos_stays n))
    (fun t m _ hm h => (h.unrestPos_other hm).stays (t.releasePos_stays m)) s

/-! ## The release as a whole -/

/-- The load log of a release: an entry for each position out of service, and one for the release. -/
def State.releaseLog (s : State) (slot : Nat) : State :=
  (State.each 60 (fun n w => if w.isOos n then w.loadLog 0x33 slot n 0 else w) s).loadLog 0x00 slot 0x3F 0

/-- What follows STATE 7 and its event. -/
def State.releaseRest (s : State) : State := s.ddrStart.loadJobEnd.lanesApply

/-- The image in force, and what of it the registers show. -/
def State.baseInForce (s : State) : State := ({ s with xr := [], xe := [] } : State).baseReleased

/-- STATE 7 and its event, once the log is written. -/
def State.showReleased (s : State) : State := ((s.releaseLog (s.getF .kilnStatSLOT)).setF .kilnStatSTATE 7).raise 988

theorem exec_releasePitch {p : Pitch} (h : s.getF .kilnStatSTATE = 6) (he : s.takePitch 16 0 = some (p, u)) :
    exec .releasePitch s = .next u.baseInForce.releaseAll.showReleased.releaseRest := by
  refine congrArg Host.Outcome.next ((if_neg (not_not_intro h)).trans ?_)
  rw [he]
  rfl

theorem State.releaseLog_stays (s : State) (slot : Nat) : LoadStays [] s (s.releaseLog slot) :=
  (LoadStays.refl.each fun h => h.loadLog.ite h).loadLog

theorem State.releaseRest_stays (s : State) : LoadStays [] s s.releaseRest := LoadStays.refl.ddrStart.loadJobEnd.lanesApply

/-- STATE 7 comes with its event, and the rest of what is followed stays. -/
theorem State.showReleased_spec (s : State) : LoadStays [.kilnStatSTATE] s s.showReleased ∧ s.showReleased.getF .kilnStatSTATE = 7 ∧
    OutMsg.fwEvent 988 0 ∈ s.showReleased.out := by
  have hlog := s.releaseLog_stays (s.getF .kilnStatSLOT)
  have hset : LoadStays [.kilnStatSTATE] s ((s.releaseLog (s.getF .kilnStatSLOT)).setF .kilnStatSTATE 7) :=
    LoadStays.write ⟨fun f hf _ => hlog.getF_eq f hf List.not_mem_nil, hlog.view_eq, hlog.out_grows⟩ (.inr List.mem_cons_self)
  obtain ⟨⟨-, -, -, -, hout⟩, hev, -⟩ := ((s.releaseLog (s.getF .kilnStatSLOT)).setF .kilnStatSTATE 7).raise_spec (e := 988) 0 (by decide)
  refine ⟨hset.raise, ?_, ?_⟩
  · rw [State.showReleased, hev.fld _ _ _ (by decide), State.getF_setF_self]
    rfl
  · rw [State.showReleased, hout]
    exact List.mem_append_right _ (List.mem_singleton_self _)

/-- The image of the load is read from the store at the slot in KILN_STAT. -/
theorem State.loadSrc_image (hstore : t.store = s.store) (hslot : t.getF .kilnStatSLOT = s.getF .kilnStatSLOT) :
    (∀ off n, t.imgNum t.loadSrc off n = s.imgNum s.loadSrc off n) ∧ t.imgDigest t.loadSrc = s.imgDigest s.loadSrc := by
  have hnum (off n : Nat) : t.imgNum t.loadSrc off n = s.imgNum s.loadSrc off n := by
    simp only [State.imgNum, State.imgBytes, State.loadSrc, State.imgByte, State.slotByte, hslot, hstore]
  exact ⟨hnum, by simp only [State.imgDigest, State.imgLength, hnum]⟩

/-- What is in force once the pitch has acted. -/
theorem State.baseInForce_spec (h : TakenOnly s u) :
    u.baseInForce.baseSlot = some (s.getF .kilnStatSLOT) ∧
      u.baseInForce.getF .kilnImgverVERSION = s.imgNum s.loadSrc 0x30 8 % 2 ^ Fld.kilnImgverVERSION.info.len ∧
      (∀ i : Fin 8, u.baseInForce.getF .kilnBasedigDIG i = bits (s.imgDigest s.loadSrc) (32 * i) 32) ∧
      (∀ f : Fin 64, u.baseInForce.getF .kilnFlrstatSTATE f = if f.val < s.imgNum s.loadSrc 0x19 1 then 1 else 0) ∧
      u.baseInForce.xr = [] ∧ u.baseInForce.xe = [] ∧ u.baseInForce.cfg = s.cfg ∧ u.baseInForce.oos = s.oos := by
  obtain ⟨hregs, r, o, p, l, q, n, hu⟩ := h
  have hslot : ({ u with xr := [], xe := [] } : State).getF .kilnStatSLOT = s.getF .kilnStatSLOT := hregs _ _ _ (by decide)
  have hstore : ({ u with xr := [], xe := [] } : State).store = s.store := by rw [hu]
  have hcfg : u.cfg = s.cfg ∧ u.oos = s.oos := by
    rw [hu]
    exact ⟨rfl, rfl⟩
  obtain ⟨hnum, hdig⟩ := State.loadSrc_image hstore hslot
  obtain ⟨hbase, hver, hdigs, hfloors, r', m, b, hr⟩ := State.baseReleased_spec { u with xr := [], xe := [] }
  rw [hslot] at hbase
  rw [hnum] at hver
  rw [hdig] at hdigs
  rw [hnum] at hfloors
  refine ⟨hbase, hver, hdigs, hfloors, ?_⟩
  rw [State.baseInForce, hr]
  exact ⟨rfl, rfl, hcfg.1, hcfg.2⟩

end Sys2Proof.Machine

open Sys2Proof Sys2Proof.Machine

/-- Settles O30: the pitch changes nothing that the image is read from, and all that follows the base image and the sweep over the positions
leaves what they put in force. -/
theorem releasePutsTheImageInForce : Obligations.ReleasePutsTheImageInForce := by
  intro s p u h he
  have hexec := exec_releasePitch h he
  obtain ⟨hslot, hver, hdig, hfloors, hxr, hxe, hcfg, hoos⟩ := State.baseInForce_spec (TakenOnly.takePitch he)
  have hstand := u.baseInForce.releaseAll_stands
  have hpos := u.baseInForce.releaseAll_unrested
  obtain ⟨hshow, hstate, htold⟩ := u.baseInForce.releaseAll.showReleased_spec
  have hrest := u.baseInForce.releaseAll.showReleased.releaseRest_stays
  refine ⟨_, hexec, ?_⟩
  generalize u.baseInForce = b at *
  generalize b.releaseAll = a at *
  generalize a.showReleased = v at *
  generalize v.releaseRest = t at *
  have hread (f : Fld) (hf : f ∈ loadFields) (hne : f ∉ [Fld.kilnStatSTATE]) (i : Nat) : t.getF f i = b.getF f i :=
    (hrest.getF_eq f hf List.not_mem_nil i 0).trans ((hshow.getF_eq f hf hne i 0).trans (hstand.getF_eq f hf i 0))
  refine ⟨?_, ?_, hrest.out_grows.mem htold, ?_, fun i => ?_, fun f => ?_, fun n => ?_, ?_, ?_, ?_, State.part_eq_of_exec hexec (by simp)⟩
  · rw [hrest.getF_eq _ (by decide) List.not_mem_nil, hstate]
  · rw [hrest.baseSlot_eq, hshow.baseSlot_eq, hstand.baseSlot_eq, hslot]
  · rw [hread _ (by decide) (by decide), hver]
  · rw [hread _ (by decide) (by decide), hdig]
  · rw [hread _ (by decide) (by decide), hfloors]
  · obtain ⟨hrestore, hreset⟩ := ((hpos n).stays hshow).stays hrest
    have hout : t.isOos n = s.isOos n := by
      rw [State.isOos, hrest.oos_eq, hshow.oos_eq, hstand.oos_eq, hoos, State.isOos]
    exact ⟨hrestore, fun ho => hreset (hout.trans ho)⟩
  · rw [hrest.xr_eq, hshow.xr_eq, hstand.xr_eq, hxr]
  · rw [hrest.xe_eq, hshow.xe_eq, hstand.xe_eq, hxe]
  · rw [hrest.cfg_eq, hshow.cfg_eq, hstand.cfg_eq, hcfg]
end

section
/-! SUPPORT. What the ends of a floor's steeping leave standing on their way through the part (R274, R276, R277): the registers by which a
partial load is followed, the frames, the shelf, the jobs, the load, and the parts that run. One lemma per operation says that it keeps
them. -/

namespace Sys2Proof.Machine

/-! ## What stands -/

/-- The fields by which a partial load is followed. -/
def floorFields : List Fld :=
  [.kilnPldstatSTATE, .kilnPldstatCODE, .kilnPldstatFAIL, .kilnPldstatDONE, .kilnFlrstatSTATE, .kilnFlrstatLOADS]

/-- What is followed besides registers. -/
structure FloorView where
  cfg : SMap CfgFrame
  shelf : SMap (Option ShelfEnt)
  kilnJobs : List KilnJob
  pld : PldSt

def State.floorView (s : State) : FloorView := ⟨s.cfg, s.shelf, s.kilnJobs, s.pld⟩

/-- From s to t all that stands is kept, but for the fields of l; no part freezes, and no message is withdrawn. -/
structure FloorStays (l : List Fld) (s t : State) : Prop where
  getF_eq : ∀ f ∈ floorFields, f ∉ l → ∀ i j, t.getF f i j = s.getF f i j
  view_eq : t.floorView = s.floorView
  thawed : ∀ n k, s.isFrozen n k = false → t.isFrozen n k = false
  out_grows : s.out <+: t.out

variable {l : List Fld} {s t u : State}

namespace FloorStays

theorem cfg_eq (h : FloorStays l s t) : t.cfg = s.cfg := congrArg FloorView.cfg h.view_eq
theorem shelf_eq (h : FloorStays l s t) : t.shelf = s.shelf := congrArg FloorView.shelf h.view_eq
theorem kilnJobs_eq (h : FloorStays l s t) : t.kilnJobs = s.kilnJobs := congrArg FloorView.kilnJobs h.view_eq
theorem pld_eq (h : FloorStays l s t) : t.pld = s.pld := congrArg FloorView.pld h.view_eq

theorem refl : FloorStays l s s := ⟨fun _ _ _ _ _ => rfl, rfl, fun _ _ h => h, ⟨[], List.append_nil _⟩⟩

theorem trans (h : FloorStays l s t) (h' : FloorStays l t u) : FloorStays l s u :=
  ⟨fun f hf hl i j => (h'.getF_eq f hf hl i j).trans (h.getF_eq f hf hl i j), h'.view_eq.trans h.view_eq,
    fun n k hk => h'.thawed n k (h.thawed n k hk), h.out_grows.trans h'.out_grows⟩

/-- A write of a field that does not stand, or that l gives up. -/
theorem write {f : Fld} {v i j : Nat} (h : FloorStays l s t) (hf : f ∉ floorFields ∨ f ∈ l) : FloorStays l s (t.setF f v i j) where
  getF_eq g hg hl a b := by
    have hne : g ≠ f := by
      rintro rfl
      exact hf.elim (· hg) hl
    rw [State.getF_setF_ne _ _ _ _ _ _ hne, h.getF_eq g hg hl]
  view_eq := h.view_eq
  thawed := h.thawed
  out_grows := h.out_grows

theorem setF {f v i j} (h : FloorStays l s t) (hf : f ∉ floorFields := by decide) : FloorStays l s (t.setF f v i j) := h.write (.inl hf)

/-- A change of what is not followed. -/
theorem other (h : FloorStays l s t) (hf : ∀ f i j, u.getF f i j = t.getF f i j) (hv : u.floorView = t.floorView)
    (hz : u.frozen = t.frozen) (ho : u.out = t.out) : FloorStays l s u where
  getF_eq f hm hl i j := (hf f i j).trans (h.getF_eq f hm hl i j)
  view_eq := hv.trans h.view_eq
  thawed n k hk := by
    rw [State.isFrozen, hz]
    exact h.thawed n k hk
  out_grows := ho ▸ h.out_grows

theorem emit {m : OutMsg} (h : FloorStays l s t) : FloorStays l s (t.emit m) :=
  ⟨h.getF_eq, h.view_eq, h.thawed, h.out_grows.trans ⟨_, rfl⟩⟩

theorem ite {c : Prop} [Decidable c] (h : FloorStays l s t) (h' : FloorStays l s u) : FloorStays l s (if c then t else u) := by
  split
  · exact h
  · exact h'

theorem optElim {α : Type} {f : α → State} {o : Option α} (h : FloorStays l s t) (hf : ∀ a, FloorStays l s (f a)) :
    FloorStays l s (o.elim t f) := by
  cases o with
  | none => exact h
  | some a => exact hf a

theorem foldl {α : Type} {f : State → α → State} {as : List α} (h : FloorStays l s t)
    (hf : ∀ {t a}, FloorStays l s t → FloorStays l s (f t a)) : FloorStays l s (as.foldl f t) :=
  List.foldlRecOn as f h fun _ h _ _ => hf h

/-! ## Events, answers and ports -/

theorem raise {e payload} (h : FloorStays l s t) : FloorStays l s (t.raise e payload) :=
  ite h (ite h.setF.setF.setF.emit.setF h.setF.setF.setF.emit)

theorem herr {addr cause} (h : FloorStays l s t) : FloorStays l s (t.herr addr cause) := ite h (raise (setF (setF (ite h h.setF.setF))))
theorem postedFail {p} (h : FloorStays l s t) : FloorStays l s (t.postedFail p) := ite h.herr h

theorem inject {p} (h : FloorStays l s t) : FloorStays l s (t.inject p) :=
  ite (other h (fun _ _ _ => rfl) rfl rfl rfl) (other h (fun _ _ _ => rfl) rfl rfl rfl)

theorem respond {p status data} (h : FloorStays l s t) : FloorStays l s (t.respond p status data) := ite (ite h h.postedFail) h.inject
theorem updIso {p} (h : FloorStays l s t) : FloorStays l s (t.updIso p) := optElim h.setF fun _ => h.setF.setF
theorem restIso {p x on} (h : FloorStays l s t) : FloorStays l s (t.restIso p x on) := (h.setF).updIso
theorem setDnp {n k d} (h : FloorStays l s t) : FloorStays l s (t.setDnp n k d) := other h (fun _ _ _ => rfl) rfl rfl rfl
theorem dnpRest {n k} (h : FloorStays l s t) : FloorStays l s (t.dnpRest n k) := setDnp (foldl h.restIso fun h => h.respond)
theorem dnpUnrest {n k} (h : FloorStays l s t) : FloorStays l s (t.dnpUnrest n k) := h.restIso

/-! ## Parts that start -/

theorem setSlice {n k v} (h : FloorStays l s t) : FloorStays l s (t.setSlice n k v) := other h (fun _ _ _ => rfl) rfl rfl rfl

theorem startTiles {n p} (h : FloorStays l s t) : FloorStays l s (t.startTiles n p) := by
  unfold State.startTiles
  extract_lets t₁
  have h₁ : FloorStays l s t₁ := other h (fun _ _ _ => rfl) rfl rfl rfl
  refine foldl h₁ fun {u e} h => ite ?_ h
  have hv (q : SMap Nat) : FloorStays l s { u with q := q } := other h (fun _ _ _ => rfl) rfl rfl rfl
  dsimp only
  split
  exacts [(hv _).setSlice, hv _]

theorem thaw {n k : Nat} (h : FloorStays l s t) : FloorStays l s (t.setFrozen n k false) where
  getF_eq f hf hl i j := by
    have hne : f ≠ .grnShdsrcFROZEN := ne_of_mem_of_not_mem hf (by decide)
    exact (((FreezeFrame.refl t).setFrozen n k false).1 f i j hne).trans (h.getF_eq f hf hl i j)
  view_eq := h.view_eq
  thawed m j hm := by
    refine (SMap.get_set (fun _ => false) t.frozen (n * 65 + k) (m * 65 + j) false).trans ?_
    split
    · rfl
    · exact h.thawed m j hm
  out_grows := h.out_grows

/-! ## The Kiln's next job, and a remap that waited -/

theorem setChanSt {m c} (h : FloorStays l s t) : FloorStays l s (t.setChanSt m c) :=
  setF (setF (other h (fun _ _ _ => rfl) rfl rfl rfl))

theorem closeRows {m} (h : FloorStays l s t) : FloorStays l s (t.closeRows m) := other h (fun _ _ _ => rfl) rfl rfl rfl

theorem dropRequests {m} (h : FloorStays l s t) : FloorStays l s (t.dropRequests m) :=
  setChanSt (foldl h fun h => by
    split
    exacts [respond (other h (fun _ _ _ => rfl) rfl rfl rfl), h])

theorem ddrReset (h : FloorStays l s t) : FloorStays l s t.ddrReset :=
  have hmem {u : State} (h : FloorStays l s u) : FloorStays l s { u with mem := [], trWait := none } :=
    other h (fun _ _ _ => rfl) rfl rfl rfl
  hmem (foldl h fun h =>
    have hw := h.dropRequests.setChanSt
    ite hw.setF.closeRows hw)

theorem jobStart (h : FloorStays [.kilnPldstatSTATE] s t) : FloorStays [.kilnPldstatSTATE] s t.jobStart := by
  unfold State.jobStart
  split
  exacts [other h (fun _ _ _ => rfl) rfl rfl rfl, h.write (.inr List.mem_cons_self), h.ddrReset, h, h, h]

theorem remapPrepare (h : FloorStays l s t) : FloorStays l s t.remapPrepare where
  getF_eq f hf hl i j := by
    have hgrain : ∀ g ∈ floorFields, grainFld g = false := by decide
    exact (t.getF_remapPrepare (hgrain f hf) i j).trans (h.getF_eq f hf hl i j)
  view_eq := h.view_eq
  thawed := h.thawed
  out_grows := h.out_grows

theorem remapResume (h : FloorStays l s t) : FloorStays l s t.remapResume := ite h.remapPrepare h

end FloorStays

/-! ## The end of a partial load -/

/-- The load is over, and its job is gone. -/
def State.leaveLoad (s : State) : State := { s with pld := .none, kilnJobs := s.kilnJobs.drop 1 }.setF .kilnPldstatSTATE 0

theorem State.pldEnd_stays (s : State) : FloorStays [.kilnPldstatSTATE] s.leaveLoad s.pldEnd := FloorStays.refl.jobStart.remapResume

/-- With no job left, STATE stays 0 too. -/
theorem State.pldEnd_idle (h : s.kilnJobs.drop 1 = []) : FloorStays [] s.leaveLoad s.pldEnd := by
  have hnone : s.leaveLoad.jobStart = s.leaveLoad := by
    rw [State.jobStart, show s.leaveLoad.kilnJobs = [] from h]
  have hend : s.pldEnd = s.leaveLoad.jobStart.remapResume := rfl
  rw [hend, hnone]
  exact FloorStays.refl.remapResume

end Sys2Proof.Machine
end

section
/-! SUPPORT. How a partial load begins (R272, R274 steps 1 to 3): what START stores, what the header check decides, and the floor that
steeps. -/

namespace Sys2Proof.Machine

variable {s t u : State}

/-! ## START -/

/-- KILN_PLDCTL stores whether the release waits for a time. -/
def State.storeTimed (s : State) (w : W32) : State := s.setF .kilnPldctlTIMED (w.toNat / 2 % 2)

theorem State.writeReg_kilnPldctl (s : State) (w : W32) : s.writeReg .kilnPldctl 0 0 w.toNat full32 = s.storeTimed w := by
  have htimed : bits w.toNat 1 1 = w.toNat / 2 % 2 := rfl
  rw [State.storeTimed, ← htimed]
  change (s.writeFld 0 0 w.toNat full32 .kilnPldctlSTART).writeFld 0 0 w.toNat full32 .kilnPldctlTIMED = _
  rw [State.writeFld_eq_self (f := .kilnPldctlSTART) (.inr rfl), State.writeFld_of_covered (f := .kilnPldctlTIMED) ⟨rfl, rfl⟩]
  rfl

theorem State.storeTimed_frame (s : State) (w : W32) : RegsOnly [fk .kilnPldctlTIMED] s (s.storeTimed w) :=
  (RegsOnly.refl s).setF _ _ _ _

theorem State.storeTimed_read (s : State) (w : W32) : (s.storeTimed w).getF .kilnPldctlTIMED = w.toNat / 2 % 2 := by
  simp [State.storeTimed]

/-- The image and the release time as the registers name them at START. -/
def State.pldAtStart (s : State) : PldSt := { PldSt.none with
  len := s.getF .kilnPldlenLEN, src := s.getF .kilnPldsrcADDR * 4096, timed := s.isSet .kilnPldctlTIMED
  time := s.schedTime 1 (s.getF .kilnPldtimeSEC) (s.getF .kilnPldtimeNS) }

/-- A partial load that failed shows FAIL and its code. -/
def State.showFail (s : State) (code : Nat) : State := (s.setOn .kilnPldstatFAIL).setF .kilnPldstatCODE code

/-- A START that the Kiln takes waits in STATE 1. -/
def State.waitingLoad (s : State) : State := { s with pld := s.pldAtStart }.setF .kilnPldstatSTATE 1

/-- It becomes a job. -/
def State.queueLoad (s : State) : State := s.waitingLoad.jobAdd .partialLoad

theorem exec_partialLoadStart (hs : s.perst = false) (hu : s.unitOn .kiln = true) (w : W32) (hw : w.toNat.testBit 0 = true) :
    exec (.partialLoadStart w) s = .next (if s.getF .kilnPldstatSTATE ≠ 0 then (s.storeTimed w).setOn .kilnPldstatIGN
      else if s.getF .kilnStatSTATE ≠ 7 then (s.storeTimed w).showFail 0x48 else (s.storeTimed w).queueLoad) := by
  obtain ⟨hsame, -⟩ := s.storeTimed_frame w
  have hbit : (w.toNat &&& full32).testBit 0 = true := by
    rw [Nat.testBit_and, hw]
    rfl
  refine congrArg Host.Outcome.next ((if_neg (by simp [hs])).trans ((if_pos hu).trans ?_))
  change s.pldCtlWrite w.toNat full32 = _
  unfold State.pldCtlWrite
  rw [s.writeReg_kilnPldctl, hbit]
  dsimp only
  rw [if_neg (by simp), hsame.fld .kilnPldstatSTATE 0 0 (by decide), hsame.fld .kilnStatSTATE 0 0 (by decide)]
  rfl

theorem State.showFail_spec (s : State) (code : Nat) : (s.showFail code).getF .kilnPldstatFAIL = 1 ∧
    (s.showFail code).getF .kilnPldstatCODE = code % 256 ∧ RegsOnly [fk .kilnPldstatCODE, fk .kilnPldstatFAIL] s (s.showFail code) := by
  refine ⟨?_, State.getF_setF_self _ _ _ _ _, ((RegsOnly.refl s).setF _ _ _ _).setF _ _ _ _⟩
  rw [State.showFail, State.getF_setF_ne _ _ _ _ _ _ (by simp)]
  exact State.getF_setF_self _ _ _ _ _

/-- A partial load that joins an empty queue is checked at once. -/
theorem State.jobAdd_partialLoad (s : State) : s.jobAdd .partialLoad =
    if s.kilnJobs = [] then { s with kilnJobs := s.kilnJobs ++ [KilnJob.partialLoad] }.setF .kilnPldstatSTATE 2
    else { s with kilnJobs := s.kilnJobs ++ [KilnJob.partialLoad] } := by
  unfold State.jobAdd
  cases h : s.kilnJobs with
  | nil => rfl
  | cons j js => rfl

theorem State.queueLoad_spec (s : State) :
    s.queueLoad.getF .kilnPldstatSTATE = (if s.kilnJobs = [] then 2 else 1) ∧ s.queueLoad.pld = s.pldAtStart ∧
      SameBut [fk .kilnPldstatSTATE] s s.queueLoad ∧ s.queueLoad.kilnJobs = s.kilnJobs ++ [KilnJob.partialLoad] ∧
      { s.queueLoad with regs := s.regs, kilnJobs := s.kilnJobs, pld := s.pld } = s := by
  have hset : SameBut [fk .kilnPldstatSTATE] s s.waitingLoad := SameBut.setF { s with pld := s.pldAtStart } .kilnPldstatSTATE 1 0 0
  have hone : s.waitingLoad.getF .kilnPldstatSTATE = 1 := State.getF_setF_self _ _ _ _ _
  rw [State.queueLoad, State.jobAdd_partialLoad, show s.waitingLoad.kilnJobs = s.kilnJobs from rfl]
  split
  · have hcheck := hset.trans (SameBut.setF s.waitingLoad .kilnPldstatSTATE 2 0 0)
    exact ⟨State.getF_setF_self _ _ _ _ _, rfl, hcheck.mono (by simp), rfl, rfl⟩
  · exact ⟨hone, rfl, hset, rfl, rfl⟩

theorem State.pldAtStart_storeTimed (s : State) (w : W32) :
    (s.storeTimed w).pldAtStart.src = s.getF .kilnPldsrcADDR * 4096 ∧ (s.storeTimed w).pldAtStart.len = s.getF .kilnPldlenLEN := by
  obtain ⟨hsame, -⟩ := s.storeTimed_frame w
  exact ⟨congrArg (· * 4096) (hsame.fld .kilnPldsrcADDR 0 0 (by decide)), hsame.fld .kilnPldlenLEN 0 0 (by decide)⟩

/-! ## The header check -/

theorem ite_lt_of_lt {c : Prop} [Decidable c] {a b n : Nat} (ha : a < n) (hb : b < n) : (if c then a else b) < n := by
  split
  · exact ha
  · exact hb

theorem State.headerHead_lt (s : State) (src : ImgSrc) (kind : Nat) : s.headerHead src kind < 256 := by
  unfold State.headerHead
  iterate 7 refine ite_lt_of_lt (by decide) ?_
  decide

/-- The codes of a header that fails fit CODE. -/
theorem State.pldCode_lt (s : State) : s.pldCode < 256 := by
  have hhead := s.headerHead_lt s.pldSrc 1
  unfold State.pldCode
  extract_lets src e f dig
  refine ite_lt_of_lt (by decide) (ite_lt_of_lt hhead ?_)
  iterate 8 refine ite_lt_of_lt (by decide) ?_
  decide

/-- The floor that the image names is shown. -/
def State.showFloor (s : State) : State := s.setF .kilnPldstatFLOOR (entByte (s.imgFloor s.pldSrc 0) 8 1)

theorem State.showFloor_spec (s : State) : s.showFloor.getF .kilnPldstatFLOOR = entByte (s.imgFloor s.pldSrc 0) 8 1 % 64 ∧
    RegsOnly [fk .kilnPldstatFLOOR] s s.showFloor ∧ s.showFloor.now = s.now :=
  ⟨State.getF_setF_self _ _ _ _ _, (RegsOnly.refl s).setF _ _ _ _, by simp [State.now, State.timeOf, timeFlds, State.showFloor]⟩

/-- The header passed its check now. -/
def State.passHeader (s : State) : State := { s with pld := { s.pld with passed := some s.now } }

theorem exec_partialHeaderCheck (ht : s.pldTurn = true) (h : s.getF .kilnPldstatSTATE = 2) (hp : s.pitchAt 16 = none)
    (hn : s.pld.passed = none) : exec .partialHeaderCheck s =
      .next (if s.showFloor.pldCode ≠ 0 then s.showFloor.pldReject s.showFloor.pldCode else s.showFloor.passHeader.pldProceed s.now) := by
  obtain ⟨-, -, hnow⟩ := s.showFloor_spec
  refine congrArg Host.Outcome.next ((if_neg (by simp [ht, h, hp])).trans ?_)
  rw [hn, ← hnow]
  rfl

/-- The pitch at which floor f starts to steep, due. -/
def State.startAt (s : State) (f : Nat) : Pitch := ⟨1, false, s.now + 100 * usUnits, ⟨2 ^ f, false, 0⟩, none⟩

/-- A header that passed has its start pitch scheduled, where no remap and no sleeping grain holds it. -/
theorem State.pldProceed_of_free (hr : s.remapInvolves s.pldFloor = false) (hs : s.floorSleeps s.pldFloor = false) :
    s.passHeader.pldProceed s.now = s.passHeader.setPitch 16 (some (s.startAt s.pldFloor)) := by
  have htime : max (s.passHeader.now + 5 * usUnits) (s.now + 100 * usUnits) = s.now + 100 * usUnits := by
    rw [show s.passHeader.now = s.now from rfl, usUnits]
    omega
  have hr' : s.passHeader.remapInvolves s.passHeader.pldFloor = false := hr
  have hs' : s.passHeader.floorSleeps s.passHeader.pldFloor = false := hs
  unfold State.pldProceed
  dsimp only
  rw [if_neg (by simp [hr']), if_neg (by simp [hs']), htime]
  rfl

theorem State.passHeader_setPitch_frame (s : State) (p : Option Pitch) : SameBut [fk .capStatPEND] s (s.passHeader.setPitch 16 p) ∧
    { s.passHeader.setPitch 16 p with regs := s.regs, pld := s.pld, pitches := s.pitches } = s :=
  ⟨SameBut.setPitch (t := s.passHeader) (SameBut.refl [] s) 16 p, rfl⟩

/-! ## The start pitch -/

theorem TakenOnly.pldFloor_eq (h : TakenOnly s u) : u.pldFloor = s.pldFloor := h.1 _ _ _ (by decide)

/-- Floor f steeps, and its entry of the shelf goes. -/
def State.steepFloor (s : State) (f : Nat) : State :=
  (((s.setF .kilnFlrstatSTATE 2 f).setF .kilnPldstatSTATE 3).shelfClear f).updShelf

/-- The design NoC ports of floor f rest. -/
def State.restPorts (s : State) (f : Nat) : State := (s.floorDnps f).foldl (fun v d => v.dnpRest d.1 d.2) s

theorem exec_floorStartPitch {p : Pitch} (he : s.takePitch 16 1 = some (p, u)) :
    exec .floorStartPitch s = .next ((u.steepFloor u.pldFloor).restPorts u.pldFloor) := by
  refine congrArg Host.Outcome.next ?_
  rw [he]
  rfl

theorem State.restPorts_stays (s : State) (f : Nat) : FloorStays [] s (s.restPorts f) := FloorStays.refl.foldl fun h => h.dnpRest
theorem State.restPorts_keeps (s : State) (f : Nat) : Keeps noLoss s (s.restPorts f) := Keeps.refl.foldl fun h => h.dnpRest

theorem State.getF_shelfClear (s : State) (f : Nat) (g : Fld) (i j : Nat) : (s.shelfClear f).getF g i j = s.getF g i j := rfl

/-- The shelf's room is shown in FREE alone. -/
theorem State.getF_updShelf (s : State) {g : Fld} (hg : g ≠ .kilnShelfFREE) (i j : Nat) : s.updShelf.getF g i j = s.getF g i j := by
  rw [State.updShelf, State.getF_setF_ne _ _ _ _ _ _ hg]

theorem State.shelfClear_frame (s : State) (f : Nat) : (s.shelfClear f).cfg = s.cfg ∧ (s.shelfClear f).q = s.q ∧
    ∀ g, (s.shelfClear f).shelfOf g = if g = f then none else s.shelfOf g :=
  ⟨rfl, rfl, fun g => SMap.get_set (fun _ => none) s.shelf f g none⟩

theorem State.steepFloor_spec (s : State) (f : Nat) :
    (s.steepFloor f).getF .kilnFlrstatSTATE f = 2 ∧ (s.steepFloor f).getF .kilnPldstatSTATE = 3 ∧
      (∀ g, (s.steepFloor f).shelfOf g = if g = f then none else s.shelfOf g) ∧
      (f < 64 → ∀ g, g ≠ f → g < 64 → (s.steepFloor f).getF .kilnFlrstatSTATE g = s.getF .kilnFlrstatSTATE g) ∧
      (s.steepFloor f).cfg = s.cfg ∧ (s.steepFloor f).q = s.q := by
  have hfree (g : Fld) (i : Nat) (hg : g ≠ .kilnShelfFREE) :
      (s.steepFloor f).getF g i = ((s.setF .kilnFlrstatSTATE 2 f).setF .kilnPldstatSTATE 3).getF g i := by
    rw [State.steepFloor, State.getF_updShelf _ hg, State.getF_shelfClear]
  obtain ⟨hcfg, hq, hshelf⟩ := ((s.setF .kilnFlrstatSTATE 2 f).setF .kilnPldstatSTATE 3).shelfClear_frame f
  refine ⟨?_, ?_, fun g => ?_, fun hf g hne hg => ?_, ?_, ?_⟩
  · rw [hfree _ _ (by decide), State.getF_setF_ne _ _ _ _ _ _ (by simp), State.getF_setF_self]
    rfl
  · rw [hfree _ _ (by decide), State.getF_setF_self]
    rfl
  · have hkept : ((s.setF .kilnFlrstatSTATE 2 f).setF .kilnPldstatSTATE 3).shelfOf g = s.shelfOf g := by
      rw [State.shelfOf, State.setF_shelf, State.setF_shelf, State.shelfOf]
    rw [State.shelfOf, State.steepFloor, State.updShelf, State.setF_shelf, ← hkept]
    exact hshelf g
  · rw [hfree _ _ (by decide), State.getF_setF_ne _ _ _ _ _ _ (by simp), State.getF_setF_ne_fst _ _ _ _ (by omega)]
  · rw [State.steepFloor, State.updShelf, State.setF_cfg, hcfg, State.setF_cfg, State.setF_cfg]
  · rw [State.steepFloor, State.updShelf, State.setF_q, hq, State.setF_q, State.setF_q]

end Sys2Proof.Machine

open Sys2Proof Sys2Proof.Machine

/-- The floor steeps by the pitch itself; its ports come to rest and change nothing of it. -/
theorem floorStartPitchSteepsTheFloor {s u : State} {p : Pitch} (he : s.takePitch 16 1 = some (p, u)) (hf : s.pldFloor < 64) :
    Gives .floorStartPitch s fun t =>
      t.getF .kilnFlrstatSTATE s.pldFloor = 2 ∧ t.getF .kilnPldstatSTATE = 3 ∧ t.shelfOf s.pldFloor = none ∧
      (∀ f, f ≠ s.pldFloor → f < 64 → t.getF .kilnFlrstatSTATE f = s.getF .kilnFlrstatSTATE f ∧ t.shelfOf f = s.shelfOf f) ∧
      t.cfg = s.cfg ∧ t.q = s.q ∧ t.part = s.part := by
  have hexec := exec_floorStartPitch he
  have htaken := TakenOnly.takePitch he
  rw [htaken.pldFloor_eq] at hexec
  refine ⟨_, hexec, ?_⟩
  obtain ⟨hflr, hpld, hshelf, hothers, hcfg, hq⟩ := u.steepFloor_spec s.pldFloor
  have hstay := (u.steepFloor s.pldFloor).restPorts_stays s.pldFloor
  have hkeep := (u.steepFloor s.pldFloor).restPorts_keeps s.pldFloor
  generalize u.steepFloor s.pldFloor = v at *
  generalize v.restPorts s.pldFloor = t at *
  have hshelf' (f : Nat) : t.shelfOf f = if f = s.pldFloor then none else u.shelfOf f := by
    rw [State.shelfOf, hstay.shelf_eq]
    exact hshelf f
  obtain ⟨hregs, r, o, ps, ls, q, n, rfl⟩ := htaken
  refine ⟨?_, ?_, ?_, fun f hne hlt => ⟨?_, ?_⟩, ?_, ?_, State.part_eq_of_exec hexec⟩
  · rw [hstay.getF_eq _ (by decide) List.not_mem_nil, hflr]
  · rw [hstay.getF_eq _ (by decide) List.not_mem_nil, hpld]
  · rw [hshelf', if_pos rfl]
  · rw [hstay.getF_eq _ (by decide) List.not_mem_nil, hothers hf f hne hlt, hregs _ _ _ (by decide)]
  · rw [hshelf', if_neg hne]
    rfl
  · rw [hstay.cfg_eq, hcfg]
  · rw [hkeep.q_eq, hq]

/-- What the writes of KILN_PLDCTL, the header check and the start pitch do. -/
theorem partialLoadsBegin : PartialLoadsBegin := by
  refine fun s => ⟨fun w hs hu hw => ⟨_, exec_partialLoadStart hs hu w hw, ?_⟩,
    fun ht h hp hn => ⟨_, exec_partialHeaderCheck ht h hp hn, s.showFloor, ?_⟩, fun p u he hf => floorStartPitchSteepsTheFloor he hf⟩
  · obtain ⟨hstore, hrest⟩ := s.storeTimed_frame w
    have hread := s.storeTimed_read w
    by_cases hbusy : s.getF .kilnPldstatSTATE = 0
    · rw [if_neg (not_not_intro hbusy)]
      by_cases hseven : s.getF .kilnStatSTATE = 7
      · obtain ⟨hstate, hpld, hsame, hjobs, hput⟩ := (s.storeTimed w).queueLoad_spec
        obtain ⟨hsrc, hlen⟩ := s.pldAtStart_storeTimed w
        rw [if_neg (not_not_intro hseven)]
        refine ⟨(hsame.fld _ _ _ (by decide)).trans hread, fun h => absurd hbusy h, fun _ h => absurd hseven h, fun _ _ => ?_⟩
        exact ⟨hjobs, hstate, by rw [hpld, hsrc], by rw [hpld, hlen], hstore.trans hsame,
          (congrArg (fun v : State => { v with regs := s.regs }) hput).trans hrest⟩
      · obtain ⟨hfail, hcode, hsame, hput⟩ := (s.storeTimed w).showFail_spec 0x48
        rw [if_pos hseven]
        exact ⟨(hsame.fld _ _ _ (by decide)).trans hread, fun h => absurd hbusy h,
          fun _ _ => ⟨hfail, hcode, (hstore.trans hsame).mono (by simp),
            (congrArg (fun v : State => { v with regs := s.regs }) hput).trans hrest⟩, fun _ h => absurd h hseven⟩
    · obtain ⟨hsame, hput⟩ := (s.storeTimed_frame w).setF .kilnPldstatIGN 1 0 0
      rw [if_pos hbusy]
      refine ⟨(State.getF_setF_ne _ _ _ _ _ _ (by simp)).trans hread, fun _ => ⟨State.getF_setF_self _ _ _ _ _, ?_, hput⟩,
        fun h => absurd h hbusy, fun h => absurd h hbusy⟩
      exact hsame.mono (by simp)
  · obtain ⟨hfloor, ⟨hsame, hput⟩, hnow⟩ := s.showFloor_spec
    refine ⟨hfloor, hsame, hput, fun hc => ?_, fun hc hr hsleep => ?_⟩
    · obtain ⟨hfail, hcode, hframe⟩ := s.showFloor.showFail_spec s.showFloor.pldCode
      rw [if_pos hc]
      refine ⟨_, rfl, hfail, hcode.trans (Nat.mod_eq_of_lt s.showFloor.pldCode_lt), ?_, hframe.2⟩
      exact hframe.1.mono (by simp)
    · obtain ⟨hsame', hput'⟩ := s.showFloor.passHeader_setPitch_frame (some (s.showFloor.startAt s.showFloor.pldFloor))
      rw [if_neg (not_not_intro hc), ← hnow, State.pldProceed_of_free hr hsleep]
      refine ⟨rfl, ?_, ?_, hsame.trans hsame', (congrArg (fun v : State => { v with regs := s.regs }) hput').trans hput⟩
      · rw [State.pitchAt_setPitch_self]
        rfl
      · rw [State.pitchAt_setPitch_self]
        rfl
end

section
/-! SUPPORT. The release pitch of a floor (R274 step 7, R276 step 3): what the registers show of the load that ends, and the parts that run
again. -/

namespace Sys2Proof.Machine

variable {s t u : State}

/-! ## What the registers show -/

/-- Floor f shows that its load failed, and it is told. -/
def State.floorFailed (s : State) (f state code : Nat) : State := ((s.setF .kilnFlrstatSTATE state f).showFail code).raise 994

/-- Floor f shows its partial content, and it is told. -/
def State.floorLoaded (s : State) (f : Nat) : State :=
  (((s.setF .kilnFlrstatSTATE 3 f).count .kilnFlrstatLOADS 1 f).setOn .kilnPldstatDONE).raise 993

theorem State.floorFailed_spec (s : State) (f : Nat) {state : Nat} (hstate : state < 8) (code : Nat) :
    (s.floorFailed f state code).getF .kilnFlrstatSTATE f = state ∧ (s.floorFailed f state code).getF .kilnPldstatFAIL = 1 ∧
      (s.floorFailed f state code).getF .kilnPldstatCODE = code % 256 ∧ Raised 994 0 s (s.floorFailed f state code) ∧
      sameRegs [.kilnFlrstat, .kilnPldstat, .evrPay, .evrRoute] s (s.floorFailed f state code) ∧
      { s.floorFailed f state code with regs := s.regs, out := s.out } = s := by
  obtain ⟨hfail, hcode, hshow, -⟩ := (s.setF .kilnFlrstatSTATE state f).showFail_spec code
  have hset : RegsOnly [fk .kilnPldstatCODE, fk .kilnPldstatFAIL, fk .kilnFlrstatSTATE f] s
      ((s.setF .kilnFlrstatSTATE state f).showFail code) :=
    (((RegsOnly.refl s).setF _ _ _ _).setF _ _ _ _).setF _ _ _ _
  obtain ⟨hraised, hsame, hput⟩ := hset.raise (e := 994) (by simp only [fk, List.forall_mem_cons]; decide) (by decide) 0
  have hreads (g : Fld) (i : Nat) (hg : g.info.reg ∉ [RegName.evrPay, .evrRoute]) :
      (s.floorFailed f state code).getF g i = ((s.setF .kilnFlrstatSTATE state f).showFail code).getF g i :=
    State.getF_raise (by decide) 0 hg
  refine ⟨?_, ?_, ?_, hraised, hsame.sameRegs ?_, hput⟩
  · rw [hreads _ _ (by decide), hshow.fld _ _ _ (by decide), State.getF_setF_self]
    exact Nat.mod_eq_of_lt hstate
  · rw [hreads _ _ (by decide), hfail]
  · rw [hreads _ _ (by decide), hcode]
  · simp only [fk, evKeys, List.cons_append, List.nil_append, List.forall_mem_cons]
    decide

theorem State.floorLoaded_spec (s : State) (f : Nat) :
    (s.floorLoaded f).getF .kilnFlrstatSTATE f = 3 ∧ (s.floorLoaded f).getF .kilnPldstatDONE = 1 ∧
      (s.floorLoaded f).getF .kilnFlrstatLOADS f = min (s.getF .kilnFlrstatLOADS f + 1) (2 ^ Fld.kilnFlrstatLOADS.info.len - 1) ∧
      OutMsg.fwEvent 993 0 ∈ (s.floorLoaded f).out ∧ { s.floorLoaded f with regs := s.regs, out := s.out } = s := by
  have hset : RegsOnly [fk .kilnPldstatDONE, fk .kilnFlrstatLOADS f, fk .kilnFlrstatSTATE f] s
      (((s.setF .kilnFlrstatSTATE 3 f).count .kilnFlrstatLOADS 1 f).setOn .kilnPldstatDONE) :=
    (((RegsOnly.refl s).setF _ _ _ _).setF _ _ _ _).setF _ _ _ _
  obtain ⟨-, -, hput⟩ := hset.raise (e := 993) (by simp only [fk, List.forall_mem_cons]; decide) (by decide) 0
  have hreads (g : Fld) (i : Nat) (hg : g.info.reg ∉ [RegName.evrPay, .evrRoute]) : (s.floorLoaded f).getF g i =
      (((s.setF .kilnFlrstatSTATE 3 f).count .kilnFlrstatLOADS 1 f).setOn .kilnPldstatDONE).getF g i := State.getF_raise (by decide) 0 hg
  refine ⟨?_, ?_, ?_, State.mem_raise_out _ (by decide) 0, hput⟩
  · rw [hreads _ _ (by decide), State.setOn, State.getF_setF_ne _ _ _ _ _ _ (by simp), State.count,
      State.getF_setF_ne _ _ _ _ _ _ (by simp), State.getF_setF_self]
    rfl
  · rw [hreads _ _ (by decide), State.setOn, State.getF_setF_self]
    rfl
  · rw [hreads _ _ (by decide), State.setOn, State.getF_setF_ne _ _ _ _ _ _ (by simp), State.getF_count_self,
      State.getF_setF_ne _ _ _ _ _ _ (by simp)]

/-- Floor f has left its steeping. -/
def State.endSteep (s : State) (f : Nat) : State := if s.pld.failed then s.floorFailed f 4 s.pld.code else s.floorLoaded f

theorem State.endSteep_frame (s : State) (f : Nat) : ∃ r o, s.endSteep f = { s with regs := r, out := o } := by
  unfold State.endSteep
  split
  · obtain ⟨-, -, -, -, -, hput⟩ := s.floorFailed_spec f (state := 4) (by decide) s.pld.code
    exact eq_of_putBack_regs_out hput
  · obtain ⟨-, -, -, -, hput⟩ := s.floorLoaded_spec f
    exact eq_of_putBack_regs_out hput

/-! ## The parts that run again -/

/-- The part of position n in floor f thaws and starts from its frames, unless die reset holds it. -/
def State.startFloorAt (f : Nat) (s : State) (n : Nat) : State :=
  let t := s.setFrozen n (f + 1) false
  if (t.posSt n).inReset then t else t.startTiles n fun col row => t.inFloor f n col row

/-- Floor f runs in every position that it touches. -/
def State.startFloor (s : State) (f : Nat) : State := (s.floorPos f).foldl (State.startFloorAt f) s

/-- The design NoC ports of floor f rest no more. -/
def State.unrestPorts (s : State) (f : Nat) : State := (s.floorDnps f).foldl (fun v d => v.dnpUnrest d.1 d.2) s

theorem exec_floorReleasePitch {p : Pitch} (he : s.takePitch 16 2 = some (p, u)) : exec .floorReleasePitch s =
    .next (((u.endSteep u.pldFloor).startFloor u.pldFloor).unrestPorts u.pldFloor).pldEnd := by
  refine congrArg Host.Outcome.next ?_
  rw [he]
  rfl

theorem State.startFloorAt_stays (s : State) (f n : Nat) : FloorStays [] s (s.startFloorAt f n) :=
  FloorStays.refl.thaw.ite FloorStays.refl.thaw.startTiles

theorem State.startFloorAt_thawed (s : State) (f n : Nat) : (s.startFloorAt f n).isFrozen n (f + 1) = false := by
  have hthawed : (s.setFrozen n (f + 1) false).isFrozen n (f + 1) = false :=
    SMap.get_set_self (fun _ => false) s.frozen (n * 65 + (f + 1)) false
  have hstay : FloorStays [] (s.setFrozen n (f + 1) false) (s.startFloorAt f n) := FloorStays.refl.ite FloorStays.refl.startTiles
  exact hstay.thawed _ _ hthawed

theorem State.startFloor_stays (s : State) (f : Nat) : FloorStays [] s (s.startFloor f) :=
  List.foldlRecOn (motive := FloorStays [] s) _ _ FloorStays.refl fun t h n _ => h.trans (t.startFloorAt_stays f n)

theorem State.startFloor_thawed {f n : Nat} (hn : n ∈ s.floorPos f) : (s.startFloor f).isFrozen n (f + 1) = false :=
  State.foldl_establishes (I := fun _ => True) (P := fun t => t.isFrozen n (f + 1) = false) (fun _ _ _ => trivial)
    (fun t _ => t.startFloorAt_thawed f n) (fun t m _ _ _ h => (t.startFloorAt_stays f m).thawed _ _ h) trivial (.inl hn)

theorem State.unrestPorts_stays (s : State) (f : Nat) : FloorStays [] s (s.unrestPorts f) := FloorStays.refl.foldl fun h => h.dnpUnrest

/-- The positions of a floor go by the floor table alone. -/
theorem State.floorPos_congr (h : t.floorTab = s.floorTab) (f : Nat) : t.floorPos f = s.floorPos f := by
  simp only [State.floorPos, State.touches, State.floorDefined, State.floorEntry, h]

/-! ## The end of the load -/

theorem State.pldEnd_spec (s : State) :
    (∀ g ∈ floorFields, g ≠ .kilnPldstatSTATE → ∀ i, s.pldEnd.getF g i = s.getF g i) ∧
      (s.kilnJobs.drop 1 = [] → s.pldEnd.getF .kilnPldstatSTATE = 0) ∧
      s.pldEnd.kilnJobs = s.kilnJobs.drop 1 ∧ s.pldEnd.pld = .none ∧ s.pldEnd.cfg = s.cfg ∧
      (∀ n k, s.isFrozen n k = false → s.pldEnd.isFrozen n k = false) ∧ s.out <+: s.pldEnd.out := by
  have hstay := s.pldEnd_stays
  refine ⟨fun g hg hne i => ?_, fun hlast => ?_, hstay.kilnJobs_eq, hstay.pld_eq, hstay.cfg_eq, hstay.thawed, hstay.out_grows⟩
  · rw [hstay.getF_eq g hg (by simpa using hne), State.leaveLoad, State.getF_setF_ne _ _ _ _ _ _ hne]
    rfl
  · rw [(State.pldEnd_idle hlast).getF_eq _ (by decide) List.not_mem_nil, State.leaveLoad, State.getF_setF_self]
    rfl

end Sys2Proof.Machine

open Sys2Proof Sys2Proof.Machine

/-- The pitch itself decides what the registers show; all that follows keeps it, and every part of the floor has thawed. -/
theorem floorReleaseEndsThePartialLoad : FloorReleaseEndsThePartialLoad := by
  intro s p u he
  have hexec := exec_floorReleasePitch he
  have htaken := TakenOnly.takePitch he
  rw [htaken.pldFloor_eq] at hexec
  refine ⟨_, hexec, ?_⟩
  obtain ⟨hregs, r, o, ps, ls, q, m, hu⟩ := htaken
  obtain ⟨r', o', hend⟩ := u.endSteep_frame s.pldFloor
  have hfailed := u.floorFailed_spec s.pldFloor (state := 4) (by decide) u.pld.code
  have hloaded := u.floorLoaded_spec s.pldFloor
  have hpos : (u.endSteep s.pldFloor).floorPos s.pldFloor = s.floorPos s.pldFloor := State.floorPos_congr (by rw [hend, hu]) _
  have hstay := ((u.endSteep s.pldFloor).startFloor_stays s.pldFloor).trans
    (((u.endSteep s.pldFloor).startFloor s.pldFloor).unrestPorts_stays s.pldFloor)
  have hthawed (n : Nat) (hn : n ∈ s.floorPos s.pldFloor) :
      (((u.endSteep s.pldFloor).startFloor s.pldFloor).unrestPorts s.pldFloor).isFrozen n (s.pldFloor + 1) = false :=
    (State.unrestPorts_stays _ _).thawed _ _ (State.startFloor_thawed (hpos ▸ hn))
  obtain ⟨hfields, hidle, hjobs, hpld, hcfg, hkept, hout⟩ :=
    (((u.endSteep s.pldFloor).startFloor s.pldFloor).unrestPorts s.pldFloor).pldEnd_spec
  have hkiln : (u.endSteep s.pldFloor).kilnJobs = s.kilnJobs ∧ (u.endSteep s.pldFloor).cfg = s.cfg ∧ u.pld = s.pld := by
    rw [hend, hu]
    exact ⟨rfl, rfl, rfl⟩
  obtain ⟨hjobs', hcfg', hpld'⟩ := hkiln
  rw [hstay.kilnJobs_eq, hjobs'] at hidle hjobs
  have hread (g : Fld) (hg : g ∈ floorFields) (hne : g ≠ .kilnPldstatSTATE) (i : Nat) :=
    (hfields g hg hne i).trans (hstay.getF_eq g hg List.not_mem_nil i 0)
  have htold := hstay.out_grows.trans hout
  generalize (((u.endSteep s.pldFloor).startFloor s.pldFloor).unrestPorts s.pldFloor) = v at *
  refine ⟨fun hok => ?_, fun hbad => ?_, fun n hn => hkept n _ (hthawed n hn), hidle, hjobs, hpld, ?_, State.part_eq_of_exec hexec⟩
  · obtain ⟨hstate, hdone, hloads, hevent, -⟩ := hloaded
    have hthis : u.endSteep s.pldFloor = u.floorLoaded s.pldFloor := if_neg (by simp [hpld', hok])
    rw [hthis] at hread htold
    refine ⟨?_, ?_, ?_, htold.mem hevent⟩
    · rw [hread _ (by decide) (by decide), hstate]
    · rw [hread _ (by decide) (by decide), hdone]
    · rw [hread _ (by decide) (by decide), hloads, hregs _ _ _ (by decide)]
  · obtain ⟨hstate, hfail, hcode, ⟨-, -, -, -, hevent⟩, -, -⟩ := hfailed
    have hthis : u.endSteep s.pldFloor = u.floorFailed s.pldFloor 4 u.pld.code := if_pos (by rw [hpld', hbad])
    rw [hthis] at hread htold
    refine ⟨?_, ?_, ?_, htold.mem ?_⟩
    · rw [hread _ (by decide) (by decide), hstate]
    · rw [hread _ (by decide) (by decide), hfail]
    · rw [hread _ (by decide) (by decide), hcode, hpld']
    · rw [hevent]
      exact List.mem_append_right _ (List.mem_singleton_self _)
  · rw [hcfg, hstay.cfg_eq, hcfg']

/-- Settles O32: the writes that begin the load and the pitch that ends it are followed one by one; what comes after each keeps what it
shows. -/
theorem partialLoadsBeginAndEnd : Obligations.PartialLoadsBeginAndEnd := ⟨partialLoadsBegin, floorReleaseEndsThePartialLoad⟩
end

section
/-! SUPPORT. The frames of a floor (R273, R274 steps 4 and 5, R276): cleared, written by the records of a partial image, and written back
from the base image. -/

namespace Sys2Proof.Machine

variable {s t u : State}

/-! ## Writes of frames -/

/-- What a write of frames leaves: every register but GRN_SPANSTAT, and the partial load. -/
def FloorWrite (s t : State) : Prop := sameRegs [.grnSpanstat] s t ∧ t.pld = s.pld

namespace FloorWrite

theorem refl (s : State) : FloorWrite s s := ⟨fun _ _ _ _ => rfl, rfl⟩

/-- A change of neither. -/
theorem other (h : FloorWrite s t) (hf : ∀ f i j, u.getF f i j = t.getF f i j) (hp : u.pld = t.pld) : FloorWrite s u :=
  ⟨fun f i j hm => (hf f i j).trans (h.1 f i j hm), hp.trans h.2⟩

theorem setFrame {n fa : Nat} {f : CfgFrame} (h : FloorWrite s t) : FloorWrite s (t.setFrame n fa f) := h.other (fun _ _ _ => rfl) rfl

theorem updSpanActive {n : Nat} (h : FloorWrite s t) : FloorWrite s (t.updSpanActive n) :=
  ⟨h.1.trans ((t.updSpanActive_frame n).1.sameRegs (by simp only [fk, List.forall_mem_cons]; decide)), h.2⟩

theorem clearFrames {n : Nat} {p : Nat → Bool} (h : FloorWrite s t) : FloorWrite s (t.clearFrames n p) := h.other (fun _ _ _ => rfl) rfl

theorem ite {c : Prop} [Decidable c] (h : FloorWrite s t) (h' : FloorWrite s u) : FloorWrite s (if c then t else u) := by
  split
  · exact h
  · exact h'

theorem foldl {α : Type} {f : State → α → State} {as : List α} (h : FloorWrite s t)
    (hf : ∀ {t a}, FloorWrite s t → FloorWrite s (f t a)) : FloorWrite s (as.foldl f t) :=
  List.foldlRecOn as f h fun _ h _ _ => hf h

theorem writeContent {n fa data : Nat} (h : FloorWrite s t) : FloorWrite s (t.writeContent n fa data) := by
  unfold State.writeContent
  split
  · exact foldl h fun h => h.other (fun _ _ _ => rfl) rfl
  · exact foldl h fun h => h.other (fun _ _ _ => rfl) rfl
  · exact foldl h fun h => h.other (fun _ _ _ => rfl) rfl
  · exact h

theorem writeFrame {n fa data : Nat} (h : FloorWrite s t) : FloorWrite s (t.writeFrame n fa data) :=
  ite h.writeContent (ite h.setFrame.updSpanActive h.setFrame)

end FloorWrite

/-- A word read through SECDED may use up a free value, and no more. -/
theorem State.secded_free (s : State) (word bad : Nat) : ∃ c, (s.secded word bad).2 = { s with freeCtr := c } := by
  unfold State.secded
  split
  all_goals exact ⟨_, rfl⟩

/-- Word j of a frame, after the words before it. -/
def secdedWord (f : CfgFrame) (r : Nat × State) (j : Nat) : Nat × State :=
  let e := r.2.secded (bits f.data (64 * j) 64) (bits f.data (64 * j) 64 ^^^ bits f.good (64 * j) 64)
  (r.1 + e.1.1 % 2 ^ 64 * 2 ^ (64 * j), e.2)

theorem secdedWord_free (f : CfgFrame) (r : Nat × State) (j : Nat) : ∃ c, (secdedWord f r j).2 = { r.2 with freeCtr := c } := by
  obtain ⟨c, hc⟩ := r.2.secded_free (bits f.data (64 * j) 64) (bits f.data (64 * j) 64 ^^^ bits f.good (64 * j) 64)
  refine ⟨c, ?_⟩
  dsimp only [secdedWord]
  exact hc

theorem State.frameSecded_free (s : State) (f : CfgFrame) : ∃ c, (s.frameSecded f).2 = { s with freeCtr := c } := by
  change ∃ c, ((List.range 32).foldl (secdedWord f) (0, s)).2 = { s with freeCtr := c }
  refine List.foldlRecOn (motive := fun r : Nat × State => ∃ c, r.2 = { s with freeCtr := c }) _ _ ⟨s.freeCtr, rfl⟩ fun r h j _ => ?_
  obtain ⟨c, hc⟩ := h
  obtain ⟨c', hc'⟩ := secdedWord_free f r j
  exact ⟨c', by rw [hc', hc]⟩

theorem FloorWrite.mergeSpan {f n fa v : Nat} (h : FloorWrite s t) : FloorWrite s (t.mergeSpan f n fa v) := by
  obtain ⟨c, hc⟩ := t.frameSecded_free (t.frame n fa)
  have hread : FloorWrite s (t.frameSecded (t.frame n fa)).2 := by
    rw [hc]
    exact h.other (fun _ _ _ => rfl) rfl
  exact hread.writeFrame

/-- The fields of a span-enable frame that a floor owns are its own: no other frame changes. -/
theorem State.frame_mergeSpan (s : State) (f n v : Nat) {m fa g : Nat} (hg : bits g 28 4 = 1) (hne : cfgKey m fa ≠ cfgKey n g) :
    (s.mergeSpan f n g v).frame m fa = s.frame m fa := by
  obtain ⟨c, hc⟩ := s.frameSecded_free (s.frame n g)
  obtain ⟨-, r, hr⟩ := State.writeFrame_config (fa := g) (by omega) (by omega) (by omega) (s.frameSecded (s.frame n g)).2 n
    (mergeBits (s.spanMask f n g) v (s.frameSecded (s.frame n g)).1)
  have hset := State.frame_setFrame { s with freeCtr := c } n g ⟨mergeBits (s.spanMask f n g) v (s.frameSecded (s.frame n g)).1,
    mergeBits (s.spanMask f n g) v (s.frameSecded (s.frame n g)).1, (State.frame { s with freeCtr := c } n g).status⟩ m fa
  rw [hc] at hr
  rw [if_neg hne] at hset
  rw [State.mergeSpan, hc, hr]
  exact hset

/-! ## The clear of a floor -/

theorem State.frame_clearFrames (s : State) (n : Nat) (p : Nat → Bool) (m : Nat) {fa : Nat} (hfa : fa < 2 ^ 32) :
    (s.clearFrames n p).frame m fa = if m = n ∧ p fa = true then CfgFrame.zero else s.frame m fa := by
  have hclear : (s.clearFrames n p).cfg = SMap.clearWhere (fun k => k / 2 ^ 32 == n && p (k % 2 ^ 32)) s.cfg := rfl
  rw [State.frame, hclear, SMap.get_clearWhere, cfgKey_div m hfa, cfgKey_mod m hfa]
  exact if_congr (by simp) rfl rfl

theorem mem_spanFrames {g : Nat} (h : g ∈ spanFrames) : bits g 28 4 = 1 ∧ g < 2 ^ 32 := by
  obtain ⟨k, hk, rfl⟩ := List.mem_map.mp h
  rw [List.mem_range] at hk
  unfold faddrOf bits
  omega

/-- The span fields of floor f in position n are cleared. -/
def State.clearSpans (s : State) (f n : Nat) (t : State) : State :=
  spanFrames.foldl (fun v fa => if s.frameOfFloor f n fa then v.mergeSpan f n fa 0 else v) t

/-- The frames of floor f in position n are cleared, as s tells them. -/
def State.clearFloorAt (s : State) (f : Nat) (t : State) (n : Nat) : State :=
  s.clearSpans f n (t.clearFrames n fun fa => bits fa 28 4 != 1 && s.frameFloor n fa == some f)

theorem State.clearFloor_eq (s : State) (f : Nat) : s.clearFloor f = (s.floorPos f).foldl (s.clearFloorAt f) s := rfl

theorem State.frame_clearSpans (s : State) (f n : Nat) (t : State) (m : Nat) {fa : Nat} (hfa : fa < 2 ^ 32) (h1 : bits fa 28 4 ≠ 1) :
    (s.clearSpans f n t).frame m fa = t.frame m fa := by
  refine List.foldlRecOn (motive := fun v : State => v.frame m fa = t.frame m fa) _ _ rfl fun v hv g hg => ?_
  obtain ⟨hg1, hlt⟩ := mem_spanFrames hg
  have hne : cfgKey m fa ≠ cfgKey n g := fun he => h1 (by rw [← cfgKey_mod m hfa, he, cfgKey_mod n hlt, hg1])
  split
  · rw [v.frame_mergeSpan f n 0 hg1 hne, hv]
  · exact hv

theorem State.clearFloor_zero {f n fa : Nat} (hn : n ∈ s.floorPos f) (hfa : fa < 2 ^ 32) (h1 : bits fa 28 4 ≠ 1)
    (hf : s.frameFloor n fa = some f) : (s.clearFloor f).frame n fa = CfgFrame.zero := by
  rw [State.clearFloor_eq]
  refine State.foldl_establishes (I := fun _ => True) (P := fun t => t.frame n fa = CfgFrame.zero) (fun _ _ _ => trivial)
    (fun t _ => ?_) (fun t m _ _ _ h => ?_) trivial (.inl hn)
  · rw [State.clearFloorAt, State.frame_clearSpans _ _ _ _ _ hfa h1, State.frame_clearFrames _ _ _ _ hfa, if_pos (by simp [h1, hf])]
  · rw [State.clearFloorAt, State.frame_clearSpans _ _ _ _ _ hfa h1, State.frame_clearFrames _ _ _ _ hfa, h, ite_self]

theorem State.clearFloor_write (s : State) (f : Nat) : FloorWrite s (s.clearFloor f) :=
  (FloorWrite.refl s).foldl fun h => h.clearFrames.foldl fun h => h.mergeSpan.ite h

theorem exec_floorClearDone (h : s.getF .kilnPldstatSTATE = 3) (hc : s.pld.cleared = false) : exec .floorClearDone s =
    .next { s.clearFloor s.pldFloor with pld := { s.pld with cleared := true } } :=
  congrArg Host.Outcome.next (if_neg (by simp [h, hc]))

/-! ## A record -/

/-- The next record of position n, whose section begins at an offset of the image. -/
def State.partialRec (s : State) (n off : Nat) : Nat × Nat × Nat :=
  s.imgRecord s.pldSrc (off + 272 * SMap.get (fun _ => 0) s.pld.next n)

/-- The code with which it fails its checks; no check of a frame that no other floor shares looks at what the frame holds. -/
def State.partialRecCode (s : State) (n off : Nat) (bad : Bool) : Nat :=
  s.partialCode n (bad || !s.memUsable (s.pld.src + (off + 272 * SMap.get (fun _ => 0) s.pld.next n)) 272)
    (SMap.get (fun _ => false) s.pld.seen (cfgKey n (s.partialRec n off).1)) (s.partialRec n off).1 (s.partialRec n off).2.2 0

theorem State.partialCode_of_unshared (s : State) (n : Nat) (bad repeated : Bool) {fa : Nat} (h1 : bits fa 28 4 ≠ 1) (data cur : Nat) :
    s.partialCode n bad repeated fa data cur = s.partialCode n bad repeated fa data 0 := by
  simp only [State.partialCode, h1, decide_false, Bool.false_and]

/-- A record is taken: its index and its frame address. -/
def State.takePartial (s : State) (n fa : Nat) : State :=
  { s with pld := { s.pld with
      next := SMap.set (fun _ => 0) s.pld.next n (SMap.get (fun _ => 0) s.pld.next n + 1)
      seen := SMap.set (fun _ => false) s.pld.seen (cfgKey n fa) true } }

theorem State.next_takePartial (s : State) (n fa : Nat) :
    SMap.get (fun _ => 0) (s.takePartial n fa).pld.next n = SMap.get (fun _ => 0) s.pld.next n + 1 :=
  SMap.get_set_self (fun _ => 0) s.pld.next n (SMap.get (fun _ => 0) s.pld.next n + 1)

/-- It goes to its frame and the shelf. -/
def State.writePartial (s : State) (n fa data : Nat) : State :=
  ((s.takePartial n fa).writeFrame n fa data).shelfPut s.pldFloor n fa data

/-- The load goes to the final checks with the last record. -/
def State.endPartial (s : State) (src : ImgSrc) : State := if s.sectionsDone src s.pld.next then s.setF .kilnPldstatSTATE 4 else s

section
variable {n : Pos} {bad : Bool} {lpos frames off : Nat} (h : s.getF .kilnPldstatSTATE = 3) (hc : s.pld.cleared = true)
  (hf : s.pld.failed = false) (hsec : s.sectionOf s.pldSrc n = some (lpos, frames, off))
  (hi : SMap.get (fun _ => 0) s.pld.next n < frames) (h1 : bits (s.partialRec n off).1 28 4 ≠ 1)

include h hc hf hsec hi h1

theorem exec_partialRecord : exec (.partialRecord n bad none) s = .next (
    if s.partialRecCode n off bad ≠ 0 then s.pldFail (s.partialRecCode n off bad)
    else if gsig (s.partialRec n off).2.2 ≠ (s.partialRec n off).2.1 then
      (s.writePartial n (s.partialRec n off).1 (s.partialRec n off).2.2).pldFail 0x13
    else (s.writePartial n (s.partialRec n off).1 (s.partialRec n off).2.2).endPartial s.pldSrc) := by
  refine congrArg Host.Outcome.next ((if_neg (by simp [h, hc, hf])).trans ?_)
  rw [hsec]
  refine (if_neg (Nat.not_le.mpr hi)).trans ?_
  have h1' : bits (s.imgRecord s.pldSrc (off + 272 * SMap.get (fun _ => 0) s.pld.next n)).1 28 4 ≠ 1 := h1
  dsimp only
  rw [if_neg h1', State.partialCode_of_unshared _ _ _ _ h1']
  rfl

end

theorem State.writePartial_eq (s : State) (n data : Nat) {fa : Nat} (h1 : bits fa 28 4 ≠ 1) (h5 : bits fa 28 4 < 5) :
    s.writePartial n fa data = { s.takePartial n fa with
      cfg := SMap.set (fun _ => CfgFrame.zero) s.cfg (cfgKey n fa) ⟨data, data, (s.frame n fa).status⟩
      shelfF := SMap.set (fun _ => 0) s.shelfF (cfgKey n fa) data } := by
  rw [State.writePartial, State.writeFrame, if_neg (by omega)]
  dsimp only
  rw [if_neg h1, State.shelfPut, if_neg h1]
  rfl

theorem State.endPartial_frame (s : State) (src : ImgSrc) : RegsOnly [fk .kilnPldstatSTATE] s (s.endPartial src) := by
  unfold State.endPartial
  split
  · exact (RegsOnly.refl s).setF _ _ _ _
  · exact (RegsOnly.refl s).mono (by simp)

theorem State.endPartial_state (h : s.getF .kilnPldstatSTATE = 3) (src : ImgSrc) :
    (s.endPartial src).getF .kilnPldstatSTATE = 3 ∨ (s.endPartial src).getF .kilnPldstatSTATE = 4 := by
  unfold State.endPartial
  split
  · exact .inr (State.getF_setF_self _ _ _ _ _)
  · exact .inl h

/-- A record that passed stands in its frame and on the shelf, and is counted. -/
theorem State.writePartial_end (h : s.getF .kilnPldstatSTATE = 3) (n data : Nat) (src : ImgSrc) {fa : Nat} (h1 : bits fa 28 4 ≠ 1)
    (h5 : bits fa 28 4 < 5) :
    let t := (s.writePartial n fa data).endPartial src
    t.frame n fa = ⟨data, data, (s.frame n fa).status⟩ ∧ SMap.get (fun _ => 0) t.shelfF (cfgKey n fa) = data ∧
      SMap.get (fun _ => 0) t.pld.next n = SMap.get (fun _ => 0) s.pld.next n + 1 ∧
      (t.getF .kilnPldstatSTATE = 3 ∨ t.getF .kilnPldstatSTATE = 4) ∧ SameBut [fk .kilnPldstatSTATE] s t ∧
      { t with regs := s.regs, cfg := s.cfg, shelfF := s.shelfF, pld := s.pld } = s := by
  have hreads (f : Fld) (i j : Nat) : (s.writePartial n fa data).getF f i j = s.getF f i j := by
    rw [State.writePartial_eq s n data h1 h5]
    rfl
  obtain ⟨hsame, hrest⟩ := (s.writePartial n fa data).endPartial_frame src
  have hend := State.endPartial_state ((hreads _ _ _).trans h) src
  obtain ⟨r, hr⟩ := eq_of_putBack_regs hrest
  intro t
  have ht : t = { (s.writePartial n fa data) with regs := r } := hr
  refine ⟨?_, ?_, ?_, hend, fun f i j hk => (hsame f i j hk).trans (hreads f i j), ?_⟩
  · rw [ht, State.writePartial_eq s n data h1 h5]
    exact SMap.get_set_self (fun _ => CfgFrame.zero) s.cfg _ _
  · rw [ht, State.writePartial_eq s n data h1 h5]
    exact SMap.get_set_self (fun _ => 0) s.shelfF _ _
  · have hpld : t.pld = (s.takePartial n fa).pld := by rw [ht, State.writePartial_eq s n data h1 h5]
    rw [hpld]
    exact s.next_takePartial n fa
  · rw [ht, State.writePartial_eq s n data h1 h5]
    rfl

/-! ## Back to base content -/

/-- The base content of floor f is written back. -/
def State.rewriteFloor (s : State) (f : Nat) : State :=
  (s.baseOfFloor f).foldl (fun u e =>
    if bits e.2.1 28 4 = 1 then u.mergeSpan f e.1 e.2.1 e.2.2 else u.writeFrame e.1 e.2.1 e.2.2) s

theorem State.rewriteFloor_write (s : State) (f : Nat) : FloorWrite s (s.rewriteFloor f) :=
  (FloorWrite.refl s).foldl fun h => h.mergeSpan.ite h.writeFrame

end Sys2Proof.Machine
end

section
/-! SUPPORT. The final checks of a partial load, and the return to base content (R274 steps 6 and 7, R276). -/

namespace Sys2Proof.Machine

variable {s t u : State}

/-! ## The final checks -/

/-- The release of floor f, due at a time. -/
def floorRelease (f time : Nat) : Pitch := ⟨2, false, time, ⟨2 ^ f, false, 0⟩, none⟩

/-- The release is no earlier than 100 µs from now. -/
def State.earliest (s : State) : Nat := s.now + 100 * usUnits

/-- The time of the release: the one that START named where it named one. -/
def State.releaseTime (s : State) : Nat := if s.pld.timed then max s.pld.time s.earliest else s.earliest

/-- The entry of floor f on the shelf. -/
def State.shelve (s : State) (f : Nat) (ent : ShelfEnt) : State :=
  { s with shelf := SMap.set (fun _ => none) s.shelf f (some ent) }.updShelf

/-- STATE 5, with LATE where the time that START named cannot be met. -/
def State.passFinal (s : State) (late : Bool) : State := (if late then s.setOn .kilnPldstatLATE else s).setF .kilnPldstatSTATE 5

/-- The image stands on the shelf, and the release of the floor is due. -/
def State.completeLoad (s : State) : State :=
  ((s.shelve s.pldFloor ⟨stripesOf s.pld.len, s.imgDigest s.pldSrc⟩).passFinal (s.pld.timed && s.pld.time < s.earliest)).setPitch 16
    (some (floorRelease s.pldFloor s.releaseTime))

theorem exec_partialFinalChecks (h : s.getF .kilnPldstatSTATE = 4) : exec .partialFinalChecks s =
    .next (if s.finalCode s.pldSrc ≠ 0 then (s.setF .kilnPldstatSTATE 3).pldFail (s.finalCode s.pldSrc) else s.completeLoad) :=
  congrArg Host.Outcome.next (if_neg (by simp [h]))

/-- A load that fails its final checks goes back to STATE 3, marked. -/
theorem State.failFinal_spec (s : State) (code : Nat) :
    let t := (s.setF .kilnPldstatSTATE 3).pldFail code
    t.getF .kilnPldstatSTATE = 3 ∧ t.pld.failed = true ∧ t.pld.code = code ∧ SameBut [fk .kilnPldstatSTATE] s t ∧
      { t with regs := s.regs, pld := s.pld } = s := by
  have hkept (f : Fld) (i j : Nat) : ((s.setF .kilnPldstatSTATE 3).pldFail code).getF f i j = (s.setF .kilnPldstatSTATE 3).getF f i j := rfl
  refine ⟨(hkept _ _ _).trans (State.getF_setF_self _ _ _ _ _), rfl, rfl, fun f i j hk => ?_, rfl⟩
  exact (hkept f i j).trans (SameBut.setF s .kilnPldstatSTATE 3 0 0 f i j hk)

theorem State.passFinal_spec (s : State) (late : Bool) : (s.passFinal late).getF .kilnPldstatSTATE = 5 ∧
    (late = true → (s.passFinal late).getF .kilnPldstatLATE = 1) ∧
    RegsOnly [fk .kilnPldstatSTATE, fk .kilnPldstatLATE] s (s.passFinal late) := by
  unfold State.passFinal
  refine ⟨State.getF_setF_self _ _ _ _ _, fun hlate => ?_, ?_⟩
  · rw [State.getF_setF_ne _ _ _ _ _ _ (by simp), if_pos hlate]
    exact State.getF_setF_self _ _ _ _ _
  · split
    · exact ((RegsOnly.refl s).setF _ _ _ _).setF _ _ _ _
    · exact ((RegsOnly.refl s).setF _ _ _ _).mono (by simp)

theorem State.shelve_spec (s : State) (f : Nat) (ent : ShelfEnt) : (s.shelve f ent).shelfOf f = some ent ∧
    SameBut [fk .kilnShelfFREE] s (s.shelve f ent) ∧ { s.shelve f ent with regs := s.regs, shelf := s.shelf } = s := by
  have hset : SameBut [] s { s with shelf := SMap.set (fun _ => none) s.shelf f (some ent) } := fun _ _ _ _ => rfl
  refine ⟨?_, hset.setF_of .kilnShelfFREE _ 0 0, rfl⟩
  rw [State.shelfOf, State.shelve, State.updShelf, State.setF_shelf]
  exact SMap.get_set_self (fun _ => none) s.shelf f (some ent)

theorem State.completeLoad_spec (s : State) :
    s.completeLoad.getF .kilnPldstatSTATE = 5 ∧
      s.completeLoad.shelfOf s.pldFloor = some ⟨stripesOf s.pld.len, s.imgDigest s.pldSrc⟩ ∧
      s.completeLoad.pitchAt 16 = some (floorRelease s.pldFloor s.releaseTime) ∧
      (s.pld.timed = true → s.pld.time < s.earliest → s.completeLoad.getF .kilnPldstatLATE = 1) ∧
      SameBut [fk .kilnPldstatSTATE, fk .kilnPldstatLATE, fk .kilnShelfFREE, fk .capStatPEND] s s.completeLoad ∧
      { s.completeLoad with regs := s.regs, shelf := s.shelf, pitches := s.pitches } = s := by
  obtain ⟨hent, hshelve, hput⟩ := s.shelve_spec s.pldFloor ⟨stripesOf s.pld.len, s.imgDigest s.pldSrc⟩
  unfold State.completeLoad
  generalize s.shelve s.pldFloor ⟨stripesOf s.pld.len, s.imgDigest s.pldSrc⟩ = v at *
  obtain ⟨hstate, hlate, hfinal, hput'⟩ := v.passFinal_spec (s.pld.timed && s.pld.time < s.earliest)
  generalize v.passFinal (s.pld.timed && s.pld.time < s.earliest) = w at *
  obtain ⟨r, rfl⟩ := eq_of_putBack_regs hput'
  have hpitch := (SameBut.refl [] { v with regs := r }).setPitch 16
    (some (floorRelease s.pldFloor s.releaseTime))
  refine ⟨?_, hent, State.pitchAt_setPitch_self _ _ _, fun htimed hlt => ?_, ?_,
    congrArg (fun w : State => { w with pitches := s.pitches }) hput⟩
  · rw [hpitch.fld _ _ _ (by decide), hstate]
  · rw [hpitch.fld _ _ _ (by decide), hlate (by simp [htimed, hlt])]
  · exact ((hshelve.trans hfinal).trans hpitch).mono (by simp)

/-! ## Back to base content -/

/-- Floor f holds base content again, and its release is due. -/
def State.returnToBase (s : State) (f : Nat) : State :=
  (((s.rewriteFloor f).shelfClear f).updShelf.setF .kilnPldstatSTATE 5).setPitch 16 (some (floorRelease f s.earliest))

theorem exec_floorBaseRewriteDone (h : s.getF .kilnPldstatSTATE = 3) (hf : s.pld.failed = true) (hc : s.pld.cleared = true) (ok : Bool) :
    exec (.floorBaseRewriteDone ok) s =
      .next (if (!ok || (s.baseOfFloor s.pldFloor).any fun e => exclusionFails e.2.1 e.2.2) = true then
        (s.floorFailed s.pldFloor 5 s.pld.code).pldEnd else s.returnToBase s.pldFloor) :=
  congrArg Host.Outcome.next (if_neg (by simp [h, hf, hc]))

theorem State.returnToBase_spec (s : State) (f : Nat) :
    (s.returnToBase f).getF .kilnPldstatSTATE = 5 ∧ (s.returnToBase f).shelfOf f = none ∧
      (s.returnToBase f).pitchAt 16 = some (floorRelease f s.earliest) ∧ (s.returnToBase f).pld = s.pld ∧
      sameRegs [.kilnPldstat, .kilnShelf, .capStat, .grnSpanstat] s (s.returnToBase f) := by
  obtain ⟨hwrite, hpld⟩ := s.rewriteFloor_write f
  unfold State.returnToBase
  generalize s.rewriteFloor f = v at *
  obtain ⟨-, -, hshelf⟩ := v.shelfClear_frame f
  have hpld' : (v.shelfClear f).pld = v.pld := rfl
  have hkept : sameRegs [.grnSpanstat] s (v.shelfClear f) := hwrite
  generalize v.shelfClear f = w at *
  have hpitch := (SameBut.refl [] (w.updShelf.setF .kilnPldstatSTATE 5)).setPitch 16 (some (floorRelease f s.earliest))
  have hset : SameBut [fk .kilnPldstatSTATE, fk .kilnShelfFREE] w (w.updShelf.setF .kilnPldstatSTATE 5) :=
    ((SameBut.refl [] w).setF_of .kilnShelfFREE _ 0 0).setF_of .kilnPldstatSTATE 5 0 0
  refine ⟨?_, ?_, State.pitchAt_setPitch_self _ _ _, ?_, ?_⟩
  · rw [hpitch.fld _ _ _ (by decide), State.getF_setF_self]
    rfl
  · exact (hshelf f).trans (if_pos rfl)
  · exact hpld'.trans hpld
  · exact (hkept.mono (by simp)).trans ((hset.trans hpitch).sameRegs (by decide))

end Sys2Proof.Machine

open Sys2Proof Sys2Proof.Machine

/-- Settles O31: the clear is a sweep over the floor's positions; the record's code alone decides what becomes of it; the checks and the
rewrite lead to their pitches, or mark the load failed. -/
theorem partialRecordsAndChecks : Obligations.PartialRecordsAndChecks := by
  refine fun s => ⟨fun h hc => ⟨_, exec_floorClearDone h hc, rfl, fun n hn fa hfa h1 hf => State.clearFloor_zero hn hfa h1 hf,
      (s.clearFloor_write s.pldFloor).1⟩,
    fun n bad lpos frames off h hc hf hsec hi h1 => ⟨_, exec_partialRecord h hc hf hsec hi h1, fun hcode => ?_,
      fun hcode hsig h5 => ?_⟩,
    fun h => ⟨_, exec_partialFinalChecks h, fun hcode => ?_, fun hcode => ?_⟩,
    fun h hf hc => ⟨_, exec_floorBaseRewriteDone h hf hc false, s.floorFailed s.pldFloor 5 s.pld.code, rfl,
      s.floorFailed_spec s.pldFloor (state := 5) (by decide) s.pld.code⟩,
    fun h hf hc hex => ⟨_, exec_floorBaseRewriteDone h hf hc true, ?_⟩⟩
  · have hcode' : s.partialRecCode n off bad ≠ 0 := hcode
    rw [if_pos hcode']
    exact ⟨rfl, rfl⟩
  · have hcode' : s.partialRecCode n off bad = 0 := hcode
    have hsig' : gsig (s.partialRec n off).2.2 = (s.partialRec n off).2.1 := hsig
    rw [if_neg (not_not_intro hcode'), if_neg (not_not_intro hsig')]
    exact State.writePartial_end h n (s.partialRec n off).2.2 s.pldSrc h1 h5
  · rw [if_pos hcode]
    exact s.failFinal_spec _
  · rw [if_neg (not_not_intro hcode)]
    exact s.completeLoad_spec
  · rw [if_neg (by simp [hex])]
    exact s.returnToBase_spec s.pldFloor
end
